-- ==== Sys2Proof/Word.lean ====
section
/-! DEFINITION. The word types of the LS8640 (00_scope R5 to R7): bytes, registers, 64-bit values, stroke numbers,
and the sparse map every indexed piece of state uses. -/

namespace Sys2Proof

/-- A byte of memory, of a record or of a packet (R5). -/
abbrev Byte := BitVec 8

/-- A register of BAR0: 32 bits (R7). -/
abbrev Word := BitVec 32

/-- A 64-bit register, key, digest or counter value (R7, R10). -/
abbrev Word64 := BitVec 64

/-- A stroke number: 48 bits, wrapping (R19). -/
abbrev Stroke := BitVec 48

/-- A finite list of (key, value) pairs: what is not listed holds its default. -/
abbrev SMap (α : Type) := List (Nat × α)

/-- Byte memory: the host's cells, address and byte. -/
abbrev Mem := List Host.Cell

end Sys2Proof
end

