-- ==== Sys2Proof/Machine/Bits.lean ====
section
/-! DEFINITION. Bit fields, byte order (R5), sparse maps and byte memories, serial-number comparison (R15), and the
two CRCs of the manual (CRC-32C of R48, CRC-64 of R227). -/

namespace Sys2Proof.Machine

/-! ### Bit fields and byte order -/

/-- The field of `len` bits from bit `lo` of a number. -/
def bits (x lo len : Nat) : Nat := (x >>> lo) % 2 ^ len

/-- One bit of a number. -/
def bitOf (x i : Nat) : Bool := bits x i 1 == 1

/-- The field of `len` bits from bit `lo` of a register. -/
def fld (r : Word) (lo len : Nat) : Nat := bits r.toNat lo len

/-- A truth value as a bit. -/
def b2n (b : Bool) : Nat := if b then 1 else 0

/-- The signed value of the low `w` bits of a number, in two's complement. -/
def sext (w x : Nat) : Int :=
  if x % 2 ^ w < 2 ^ (w - 1) then ((x % 2 ^ w : Nat) : Int) else ((x % 2 ^ w : Nat) : Int) - ((2 ^ w : Nat) : Int)

/-- The low `w` bits of a signed number, in two's complement. -/
def wrapN (w : Nat) (i : Int) : Nat := (i % ((2 ^ w : Nat) : Int)).toNat

/-- The number that little-endian bytes hold (R5). -/
def leNat : List Byte → Nat
  | [] => 0
  | b :: r => b.toNat + 256 * leNat r

/-- The `n` little-endian bytes of a number (R5). -/
def toLE : Nat → Nat → List Byte
  | 0, _ => []
  | n + 1, x => BitVec.ofNat 8 x :: toLE n (x / 256)

/-- The little-endian field of `n` bytes at byte `o` of a byte string; bytes beyond its end read as absent. -/
def leAt (bs : List Byte) (o n : Nat) : Nat := leNat ((bs.drop o).take n)

/-- The bytes of `n` zeros. -/
def zeros (n : Nat) : List Byte := List.replicate n 0

/-- A byte string padded with zeros to a multiple of `n` bytes. -/
def padTo (n : Nat) (bs : List Byte) : List Byte := bs ++ zeros ((n - bs.length % n) % n)

/-- The ASCII bytes of a text. -/
def ascii (s : String) : List Byte := s.toList.map (fun c => BitVec.ofNat 8 c.toNat)

/-- Replace bytes of a string from byte `o` on. -/
def patch (bs : List Byte) (o : Nat) (new : List Byte) : List Byte :=
  bs.take o ++ new ++ bs.drop (o + new.length)

/-- The quotient of signed division rounded towards minus infinity. -/
def fdiv (a b : Int) : Int := Int.fdiv a b

/-! ### Sparse maps -/

/-- The value under a key: the first entry that names it, otherwise the default of that key. -/
def smGet {α : Type} (d : Nat → α) : SMap α → Nat → α
  | [], k => d k
  | (j, x) :: r, k => if k = j then x else smGet d r k

/-- Every entry of a key taken out. -/
def smErase {α : Type} (m : SMap α) (k : Nat) : SMap α := m.filter (fun p => p.1 != k)

/-- A new entry put before the first entry of a larger key. -/
def smInsert {α : Type} : SMap α → Nat → α → SMap α
  | [], k, v => [(k, v)]
  | (j, x) :: r, k, v => if k < j then (k, v) :: (j, x) :: r else (j, x) :: smInsert r k v

/-- A key given a value; a default value leaves no entry. -/
def smSet {α : Type} [DecidableEq α] (d : Nat → α) (m : SMap α) (k : Nat) (v : α) : SMap α :=
  if v = d k then smErase m k else smInsert (smErase m k) k v

/-- Keys strictly rising and no entry equal to its default: the canonical form. -/
def smWf {α : Type} [DecidableEq α] (d : Nat → α) : SMap α → Bool
  | [] => true
  | (j, x) :: r => decide (x ≠ d j) && (r.all (fun p => decide (j < p.1))) && smWf d r

/-- The entries of keys that satisfy a test replaced through a function that sees key and value. -/
def smMap {α : Type} [DecidableEq α] (d : Nat → α) (f : Nat → α → α) (m : SMap α) : SMap α :=
  m.foldl (fun acc p => smSet d acc p.1 (f p.1 (smGet d acc p.1))) m

/-! ### Byte memories -/

/-- What a byte that nothing has written reads as: powered memory is zeroed before the operational state (R178);
the manual gives the external store, the flash and host memory no first content (DESIGN CHOICE, log entry 3). -/
def memDefault : Nat → Byte := fun _ => 0

/-- One byte of a memory. -/
def memGet (m : Mem) (a : Nat) : Byte := smGet memDefault m a

/-- One byte written. -/
def memSet (m : Mem) (a : Nat) (b : Byte) : Mem := smSet memDefault m a b

/-- `n` bytes from an address. -/
def memRead (m : Mem) : Nat → Nat → List Byte
  | _, 0 => []
  | a, n + 1 => memGet m a :: memRead m (a + 1) n

/-- Bytes written from an address on. -/
def memWrite : Mem → Nat → List Byte → Mem
  | m, _, [] => m
  | m, a, b :: r => memWrite (memSet m a b) (a + 1) r

/-- Every byte of a range set to zero, in one pass. -/
def memClear (m : Mem) (lo n : Nat) : Mem := m.filter (fun c => decide (c.1 < lo) || decide (lo + n ≤ c.1))

/-- The little-endian number of `n` bytes at an address. -/
def memNat (m : Mem) (a n : Nat) : Nat := leNat (memRead m a n)

/-- The canonical form of a memory: addresses strictly rising, no entry that holds the default. -/
def Memory.wf (m : Mem) : Bool := smWf memDefault m

/-! ### Serial numbers (R15) -/

/-- `older(v, c, n)` of R15. -/
def older (v c n : Nat) : Bool :=
  let d := (c + 2 ^ n - v % 2 ^ n) % 2 ^ n
  d != 0 && decide (d ≤ 2 ^ (n - 1))

/-- v is newer than c: c is older than v. -/
def newer (v c n : Nat) : Bool := older c v n && !(older v c n)

/-- (a − b) modulo 2^n. -/
def subMod (a b n : Nat) : Nat := (a % 2 ^ n + 2 ^ n - b % 2 ^ n) % 2 ^ n

/-! ### CRCs -/

/-- Eight steps of the reflected CRC-32C register. -/
def crc32cBits : Nat → Nat → Nat
  | 0, c => c
  | n + 1, c => crc32cBits n (if c % 2 = 1 then (c >>> 1) ^^^ 0x82F63B78 else c >>> 1)

/-- CRC-32C of R48: polynomial 0x1EDC_6F41 reflected, initial value and final XOR all ones. -/
def crc32c (bs : List Byte) : Nat :=
  (bs.foldl (fun c b => crc32cBits 8 (c ^^^ b.toNat)) 0xFFFFFFFF) ^^^ 0xFFFFFFFF

/-- Eight steps of the CRC-64 register, most significant bit first. -/
def crc64Bits : Nat → Nat → Nat
  | 0, c => c
  | n + 1, c => crc64Bits n (if c / 2 ^ 63 % 2 = 1 then ((c * 2) % 2 ^ 64) ^^^ 0x42F0E1EBA9EA3693 else (c * 2) % 2 ^ 64)

/-- CRC-64 of R227 continued from a register value. -/
def crc64From (c : Nat) (bs : List Byte) : Nat :=
  bs.foldl (fun c b => crc64Bits 8 (c ^^^ (b.toNat * 2 ^ 56))) c

/-- CRC-64 of R227: polynomial 0x42F0_E1EB_A9EA_3693, initial value 0, no reflection, final XOR 0. -/
def crc64 (bs : List Byte) : Nat := crc64From 0 bs

/-- `combine` of R227 for one group: the register carried past `len` bytes, then the group's CRC added. -/
def crc64Combine (d c len : Nat) : Nat := (crc64From d (zeros len)) ^^^ c

/-! ### Lists -/

/-- The first element that satisfies a test, and the list without it. -/
def takeFirst {α : Type} (p : α → Bool) : List α → Option (α × List α)
  | [] => none
  | x :: r => if p x then some (x, r) else
      match takeFirst p r with
      | some (y, r') => some (y, x :: r')
      | none => none

/-- An element put before the first element that must come after it. -/
def insertBy {α : Type} (lt : α → α → Bool) (x : α) : List α → List α
  | [] => [x]
  | y :: r => if lt x y then x :: y :: r else y :: insertBy lt x r

/-- A list sorted by insertion; equal elements keep their order. -/
def sortBy {α : Type} (lt : α → α → Bool) (l : List α) : List α :=
  l.foldl (fun acc x => insertBy lt x acc) []

/-- The n-th element replaced. -/
def setAt {α : Type} : List α → Nat → α → List α
  | [], _, _ => []
  | _ :: r, 0, v => v :: r
  | x :: r, n + 1, v => x :: setAt r n v

/-- A fold over the numbers 0 to n − 1, in rising order. -/
def loopN {α : Type} (f : Nat → α → α) : Nat → α → α
  | 0, a => a
  | n + 1, a => f n (loopN f n a)

end Sys2Proof.Machine
end

