-- ==== Sys2Proof/Syntax.lean ====
section
/-! DEFINITION. The commands that the LS8640 takes: one constructor for each row of the command table, with its operands.
What physics decides (an error corrected, a rail, a row's arrival) is an operand (DESIGN CHOICE, log entry 19). -/

namespace Sys2Proof

/-! ### What operands are made of -/

/-- What error correction meets in one access (R164): the granules or words corrected, and the granule or word, counted
from the access's first, whose error cannot be corrected. -/
structure Ecc where
  corr : Nat := 0
  unc : Option Nat := none
  deriving DecidableEq, Repr

/-- A flash device as discovery finds it (R434, R437): its port, its density in MiB, its SFDP table. -/
structure FlashDev where
  port : Nat
  mib : Nat
  sfdp : List Byte
  deriving DecidableEq, Repr

/-- Where a core instruction executes: its core, and the schedule cycle of its program in which it does (R284); of its
bundle's words in the program store, those corrected, and whether one cannot be (R308). -/
structure At where
  core : Fin 32
  cyc : Nat
  corr : Nat := 0
  unc : Bool := false
  deriving DecidableEq, Repr

/-- A crew at the end of its program, with what its cores met in the fetch of bundles in which every slot is a NOP (R308): the
core and the cycle of each program-store word corrected, and of the first that cannot be. -/
structure CrewEnd where
  crew : Fin 4
  corr : List (Fin 8 × Nat) := []
  unc : Option (Fin 8 × Nat) := none
  deriving DecidableEq, Repr

/-- The issue of an engine's operation (R202): the array clocks that have passed before, and whether a fault of the hardware
issues one though 512 are outstanding. -/
structure OpIssue where
  clocks : Nat := 0
  forced : Bool := false
  deriving DecidableEq, Repr

/-- An unscheduled plane access that is promoted (R159): an operation of the engine, by its place among its core's; or
another one, of the grid builder, the scrub or the host, by the place that it reads or writes. -/
inductive PlaneReq where
  | op (i : Nat)
  | other (word : Bool) (off len : Nat)
  deriving DecidableEq, Repr

/-- An error that a block of the device meets in the commons (R164), or the host through BAR2: the place of the word, a
commons offset or a BAR2 address, whether it cannot be corrected, and whether it is the network transfer of the word whose
CRC fails (R347). -/
structure CmnErr where
  off : Nat
  unc : Bool := false
  noc : Bool := false
  deriving DecidableEq, Repr

/-- What a transfer meets on the network-on-chip (R347): flits replayed after a parity error, and a CRC that fails at the
destination. -/
structure NetErr where
  flits : Nat := 0
  bad : Bool := false
  deriving DecidableEq, Repr

/-- How the island receives a message of the monitor port: whole; with a CRC that fails, or lost in an overflow of the event
queue (R314); or whole, with an uncorrectable error of Cox's memory met while it is judged (R340). -/
inductive MonRx where
  | whole
  | badCrc
  | overflow
  | badMem
  deriving DecidableEq, Repr

/-- The fields of the S slot that govern a bundle's other slots (R290): SPAN − 1, GOLD, BOUND, CTX_OUT, CTX_FEED. -/
structure Gate where
  spanM1 : BitVec 4 := 0
  gold : Bool := false
  bound : Bool := false
  ctxOut : BitVec 2 := 0
  ctxFeed : BitVec 2 := 0
  deriving DecidableEq, Repr

/-- SPAN (R290). -/
def Gate.span (g : Gate) : Nat := g.spanM1.toNat + 1

/-- The fields of the V slot that a register operation uses (R300). -/
structure VecF where
  vd : BitVec 5 := 0
  va : BitVec 5 := 0
  vb : BitVec 5 := 0
  vc : BitVec 5 := 0
  ty : BitVec 2 := 0
  sat : Bool := false
  sub : BitVec 4 := 0
  deriving DecidableEq, Repr

/-- The fields of the V slot that a memory operation uses (R300). -/
structure VecM where
  vd : BitVec 5 := 0
  va : BitVec 5 := 0
  vb : BitVec 5 := 0
  ty : BitVec 2 := 0
  base : BitVec 5 := 0
  inc : Bool := false
  word : Bool := false
  aow : BitVec 3 := 0
  deriving DecidableEq, Repr

namespace Machine

/-- A converted point (R59): coordinates in 1/256 m, time T in ns, intensity, and its place: stream, sweep, sector,
position in the sector (R86) and return number. -/
structure Point where
  x : Int := 0
  y : Int := 0
  z : Int := 0
  t : Nat := 0
  inten : Nat := 0
  stream : Nat := 0
  sweep : Nat := 0
  sector : Nat := 0
  pos : Nat := 0
  ret : Nat := 0
  deriving DecidableEq, Repr

/-- A sector's identity: stream (48 the golden sector), sweep, sector number. -/
structure SecId where
  stream : Nat
  sweep : BitVec 16
  sector : Nat
  deriving DecidableEq, Repr

/-- A verdict that waits for its verdict operation (R80): 0 fail, 1 shed, 2 accept. -/
structure GVerd where
  id : SecId
  what : Nat
  prio : Nat := 0
  cost : Nat := 0
  /-- Stroke of the verdict, of the last return, and the frame (R23, R55). -/
  v : Stroke
  last : Stroke := 0
  frame : BitVec 32 := 0
  leadIn : Bool := false
  deriving DecidableEq, Repr

/-- A scatter add committed to cell memory (R107, R207): sector, world cell, the values of its four lanes, its commit stroke,
the core that issued it and the stroke of its issue. -/
structure CellAdd where
  id : SecId
  gx : Int
  gy : Int
  v0 : Word := 0
  v1 : Word := 0
  v2 : Word := 0
  v3 : Word := 0
  at_ : Stroke
  core : Nat := 0
  issued : Stroke := 0
  frame : BitVec 32 := 0
  /-- The chip that sent it (4: this chip). -/
  from_ : Nat := 4
  deriving DecidableEq, Repr

/-- The adds expected of a sector, or of a part of it, at its commit stroke (R354, R395): from which chip (4: this
chip's own). -/
structure AddExp where
  id : SecId
  at_ : Stroke
  count : Nat
  from_ : Nat := 4
  /-- The stroke in which the descriptor that announced them was started. -/
  issued : Stroke := 0
  deriving DecidableEq, Repr

/-- What the peer sends in IDENTIFY. -/
structure Ident where
  chip : Nat
  count : Nat
  link : Nat
  meas : List Byte
  deriving DecidableEq, Repr

/-- The configuration space of the function, as far as the device's own behaviour rests on it (R402): MSI-X Enable and
Function Mask, and the power state D3hot. -/
structure PciCfg where
  msixOn : Bool := false
  funcMask : Bool := false
  d3hot : Bool := false
  deriving DecidableEq, Repr

/-- What PCIE_LINK_TRAINING brings (R402): the link up or down, whether the partner has FLIT mode, and the configuration
that the root complex has written. -/
structure LinkEv where
  up : Bool
  flit : Bool := true
  cfg : PciCfg := {}
  deriving DecidableEq, Repr

/-- What RG_REMOTE_ADD brings (R395): an add, or the header of a part. -/
inductive RemoteAdd where
  | add (a : CellAdd)
  | header (e : AddExp)
  deriving DecidableEq, Repr

/-- What STROKE_BOUNDARY brings (R115, R33): whether the golden tile heads end in this stroke, with their CRC, and whether they
were those of a frame that has closed, the errors of
the reads of the tile heads in the commons, and whether the two copies of the result agree. -/
structure BoundaryIn where
  golden : Option Nat := none
  goldenLate : Bool := false
  errs : List CmnErr := []
  agree : Bool := true
  deriving DecidableEq, Repr

/-- What the reads of a roll step or of a reload block meet (R111, R113): the rows whose reads failed, and errors in the
commons. -/
structure RowsIn where
  bad : List Nat := []
  errs : List CmnErr := []
  deriving DecidableEq, Repr

/-- What a WB meets (R140, R164): targets with an uncorrectable accumulator error, targets with a parity error of the
write-back path, and what the reads of requantisation words meet. -/
structure WbErr where
  bad : BitVec 8 := 0
  par : BitVec 8 := 0
  ecc : Ecc
  deriving DecidableEq, Repr

/-- What a WBR meets: an uncorrectable or parity error of the transposed path, and what the reads of requantisation words
meet. -/
structure WbrErr where
  bad : Bool := false
  ecc : Ecc
  deriving DecidableEq, Repr

/-- What the reads of a FEED_MAP meet: those of the map words, and those of the window rows. -/
structure MapErr where
  map : Ecc
  row : Ecc
  deriving DecidableEq, Repr

/-- The WINDOW to start: its core, and whether its feature map holds rows of an MX format (R192). -/
structure WinReq where
  core : Fin 32
  mx : Bool := false
  deriving DecidableEq, Repr

/-- A host read through BAR2: its length, and the errors it meets in the commons (R406, R164). -/
structure ReadSpan where
  len : Nat
  errs : List CmnErr := []
  deriving DecidableEq, Repr

end Machine

/-! ### The commands -/

/-- The commands, in the order of the command table. `r` is the span cycle of an operation that every cycle of the span
carries out (R284). -/
inductive Instr where
  /-- ETH_FRAME_RX (R38). A frame at a MAC: destination address to payload; whether its FCS held; how many bytes of
  earlier frames the receive buffer still holds; raw time of its capture. -/
  | ethFrameRx (mac : Fin 16) (frame : List Byte) (fcsOk : Bool) (left raw : Nat)
  /-- CSI2_PACKET_RX (R39). A packet at a CSI-2 receiver: virtual channel, data type, payload; whether header and CRC
  held; how many bytes of earlier packets the buffer still holds; raw time. -/
  | csi2PacketRx (rx : Fin 8) (vc : BitVec 2) (dt : BitVec 6) (payload : List Byte) (hdrOk crcOk : Bool) (left raw : Nat)
  /-- SECTOR_TIMEOUT (R54). The open sector of a stream reaches its timeout. -/
  | sectorTimeout (stream : Fin 48)
  /-- STREAM_MASK_WRITE (R44). A host write to IG_STREAM_MASK_LO or, `high`, IG_STREAM_MASK_HI. -/
  | streamMaskWrite (high : Bool) (value : Word)
  /-- SPECULATIVE_INSERT (R78). The next point is inserted. -/
  | speculativeInsert
  /-- VERDICT_OPERATION (R80). The next verdict operation is carried out. -/
  | verdictOperation
  /-- LEVEL_MERGE (R189). The level merger takes the next commit. -/
  | levelMerge
  /-- HASH_SCRUB_STEP (R91). The scrub visits at least 1,024 more handles. -/
  | hashScrubStep (handles : Nat)
  /-- STROKE_BOUNDARY (R25). The boundary of a stroke: what the tile heads deliver for the record handed out (cell
  word and new TEMP by cell), and what the boundary brings beside them. -/
  | strokeBoundary (heads : Option (List (Word64 × Word64))) (what : Machine.BoundaryIn)
  /-- ROLL_STEP_COMPLETE (R111). The roll step in flight completes. -/
  | rollStepComplete (rows : Machine.RowsIn)
  /-- RELOAD_BLOCK_COMPLETE (R113). The reload block in flight completes. -/
  | reloadBlockComplete (rows : Machine.RowsIn)
  /-- POSE_COMMIT (R103). A write of GO to CM_POSE_COMMIT. -/
  | poseCommit
  /-- ROLLBACK_RESTORE (R352). The restore of a restoration stroke completes; `bad` names the core in whose
  journal an uncorrectable error is met. -/
  | rollbackRestore (bad : Option (Fin 32))
  /-- FRAME_BOUNDARY (R21). The frame boundary that falls on the boundary that opened this stroke. -/
  | frameBoundary
  /-- FRAME_RETIRE (R91). The retirement that falls on the boundary that opened this stroke. -/
  | frameRetire
  /-- ENTER_OPERATIONAL (R19). The entry to the operational state. -/
  | enterOperational
  /-- TURN (R291). TURN with STAGE and LEVEL into CTX_FEED. -/
  | turn (p : At) (g : Gate) (stage : BitVec 5) (level : BitVec 2)
  /-- RELEASE (R291). RELEASE of CTX_OUT. -/
  | release (p : At) (g : Gate)
  /-- DIGOPEN (R293). DIGOPEN at a digest point for CTX_OUT. -/
  | digopen (p : At) (g : Gate) (point : BitVec 8)
  /-- DIGCLOSE (R293). DIGCLOSE. -/
  | digclose (p : At) (g : Gate)
  /-- MERGE (R252). MERGE with the AR of its record count; `waited` clocks pass before its check holds. -/
  | merge (p : At) (g : Gate) (ar : BitVec 4) (waited : Nat)
  /-- WAVE (R294). The wave of span cycle r; `bad` names targets with a weight parity error, `feedBad` arrays with one
  on the broadcast. -/
  | wave (p : At) (g : Gate) (r : BitVec 4) (t : Bool) (arrays : BitVec 4) (half : BitVec 2) (entry : BitVec 7) (estep
      accum swap begin_ end_ : Bool) (bad : BitVec 8) (feedBad : BitVec 4)
  /-- WAVE_LAND (R126). Waves due at a schedule cycle land; accumulator errors corrected, targets with an
  uncorrectable one, an error of the transposed path. -/
  | waveLand (core : Fin 32) (cyc corr : Nat) (bad : BitVec 8) (row : Bool)
  /-- FILL (R129). FILL; `stride` is D − 1, `ecc` what each of its reads meets, `bad` halves with a parity error found at
  the fill. -/
  | fill (p : At) (g : Gate) (array half : BitVec 2) (base : BitVec 5) (inc layout : Bool) (stride : BitVec 7) (ecc :
      List Ecc) (bad : BitVec 2)
  /-- JOB (R295). JOB: number and format pair of a target. -/
  | job (p : At) (g : Gate) (array half : BitVec 2) (afmt wfmt : BitVec 4) (jobNo : BitVec 16)
  /-- WAKE (R143). WAKE of the named arrays. -/
  | wake (p : At) (g : Gate) (arrays : BitVec 4)
  /-- SPLIT (R140). SPLIT of the named arrays. -/
  | split (p : At) (g : Gate) (arrays value : BitVec 4)
  /-- ARRAY_RAMP_STEP (R143). A ramp step of an array falls due. -/
  | arrayRampStep (core : Fin 32) (cyc : Nat) (array : Fin 4)
  /-- WB (R297). The write-back of span cycle r; accumulator errors corrected, and the other errors it meets. -/
  | wb (p : At) (g : Gate) (r : BitVec 4) (arrays : BitVec 4) (half : BitVec 2) (entry : BitVec 7) (estep : Bool) (fmt
      : BitVec 4) (base : BitVec 5) (inc : Bool) (aow : BitVec 3) (dig : Bool) (corr : Nat) (err : Machine.WbErr)
  /-- WBR (R297). The row write-back of span cycle r; accumulator errors corrected, and the other errors it meets. -/
  | wbr (p : At) (g : Gate) (r : BitVec 4) (entry : BitVec 7) (estep : Bool) (fmt : BitVec 4) (base : BitVec 5) (inc :
      Bool) (aow : BitVec 3) (dig : Bool) (corr : Nat) (err : Machine.WbrErr)
  /-- LDA (R298). LDA. -/
  | lda (p : At) (g : Gate) (reg : BitVec 4) (imm : Word)
  /-- LDS (R298). LDS. -/
  | lds (p : At) (g : Gate) (reg : BitVec 4) (imm : Word)
  /-- ADDA (R298). ADDA. -/
  | adda (p : At) (g : Gate) (reg : BitVec 4) (imm : Word)
  /-- SETR (R298). SETR: 0 WBSTEP, 1 HSTEP, 2 WQBASE. -/
  | setr (p : At) (g : Gate) (reg : BitVec 4) (imm : Word)
  /-- WIN (R298). WIN: the geometry of a window. -/
  | win (p : At) (g : Gate) (w : BitVec 3) (lb n : BitVec 13) (logP : BitVec 2) (cM1 : BitVec 6) (k : BitVec 7)
  /-- FEED_MAP (R298). The FEED_MAP of span cycle r, and what its reads meet. -/
  | feedMap (p : At) (g : Gate) (r : BitVec 4) (w : BitVec 3) (base : BitVec 5) (entry pass : BitVec 7) (chunk :
      BitVec 6) (estep mx : Bool) (err : Machine.MapErr)
  /-- FEED_DIR (R298). The FEED_DIR of span cycle r. -/
  | feedDir (p : At) (g : Gate) (r : BitVec 4) (base : BitVec 5) (entry : BitVec 7) (stride : BitVec 12) (chunk :
      BitVec 6) (estep mx : Bool) (ecc : Ecc)
  /-- FEED_LIN (R298). The FEED_LIN of span cycle r. -/
  | feedLin (p : At) (g : Gate) (r : BitVec 4) (base : BitVec 5) (inc mx : Bool) (ecc : Ecc)
  /-- FEED_LAND (R299). Feeds due at a schedule cycle land. -/
  | feedLand (core : Fin 32) (cyc : Nat)
  /-- ADD (R301). Integer ADD. -/
  | add (p : At) (g : Gate) (f : VecF)
  /-- SUB (R301). Integer SUB. -/
  | sub (p : At) (g : Gate) (f : VecF)
  /-- MUL (R301). Integer MUL. -/
  | mul (p : At) (g : Gate) (f : VecF)
  /-- AND (R301). Bitwise AND. -/
  | and (p : At) (g : Gate) (f : VecF)
  /-- OR (R301). Bitwise OR. -/
  | or (p : At) (g : Gate) (f : VecF)
  /-- XOR (R301). Bitwise XOR. -/
  | xor (p : At) (g : Gate) (f : VecF)
  /-- SHL (R301). Shift left. -/
  | shl (p : At) (g : Gate) (f : VecF)
  /-- SHRL (R301). Logical shift right. -/
  | shrl (p : At) (g : Gate) (f : VecF)
  /-- SHRA (R301). Arithmetic shift right. -/
  | shra (p : At) (g : Gate) (f : VecF)
  /-- CMP (R301). Signed compare. -/
  | cmp (p : At) (g : Gate) (f : VecF)
  /-- SEL (R301). Lane select. -/
  | sel (p : At) (g : Gate) (f : VecF)
  /-- FADD (R301). Floating ADD. -/
  | fadd (p : At) (g : Gate) (f : VecF)
  /-- FSUB (R301). Floating SUB. -/
  | fsub (p : At) (g : Gate) (f : VecF)
  /-- FMUL (R301). Floating MUL. -/
  | fmul (p : At) (g : Gate) (f : VecF)
  /-- FMA (R301). Fused multiply-add. -/
  | fma (p : At) (g : Gate) (f : VecF)
  /-- FMIN (R301). Floating minimum. -/
  | fmin (p : At) (g : Gate) (f : VecF)
  /-- FMAX (R301). Floating maximum. -/
  | fmax (p : At) (g : Gate) (f : VecF)
  /-- FCMP (R301). Floating compare. -/
  | fcmp (p : At) (g : Gate) (f : VecF)
  /-- CVT (R302). Conversion. -/
  | cvt (p : At) (g : Gate) (f : VecF)
  /-- UNPK (R301). Unpacking. -/
  | unpk (p : At) (g : Gate) (f : VecF)
  /-- MXB (R148). MX block formation. -/
  | mxb (p : At) (g : Gate) (f : VecF)
  /-- FN (R303). Function. -/
  | fn (p : At) (g : Gate) (f : VecF)
  /-- RED (R147). Reduction. -/
  | red (p : At) (g : Gate) (f : VecF)
  /-- VLD (R301). Vector load. -/
  | vld (p : At) (g : Gate) (r : BitVec 4) (f : VecM) (ecc : Ecc)
  /-- VST (R301). Vector store. -/
  | vst (p : At) (g : Gate) (r : BitVec 4) (f : VecM)
  /-- VGATH (R301). Vector gather. -/
  | vgath (p : At) (g : Gate) (r : BitVec 4) (f : VecM) (ecc : Ecc)
  /-- VSCAT (R301). Vector scatter. -/
  | vscat (p : At) (g : Gate) (r : BitVec 4) (f : VecM)
  /-- BCAST (R301). Broadcast of an immediate. -/
  | bcast (p : At) (g : Gate) (vd : BitVec 5) (imm : Word)
  /-- LANE (R301). Lane index. -/
  | lane (p : At) (g : Gate) (f : VecF)
  /-- COREID (R301). Core number. -/
  | coreid (p : At) (g : Gate) (f : VecF)
  /-- DESC (R304). DESC; `waited` clocks pass before the queue takes it. -/
  | desc (p : At) (g : Gate) (base : BitVec 5) (inc : Bool) (a0src : BitVec 5) (cnt : Bool) (ctx : BitVec 2) (bnd :
      Bool) (waited : Nat)
  /-- GET (R169). GET; `waited` clocks pass before its check holds. -/
  | get (p : At) (g : Gate) (ring : BitVec 5) (ar : BitVec 4) (ctx : BitVec 2) (bnd : Bool) (waited : Nat)
  /-- PUTR (R304). PUTR. -/
  | putr (p : At) (g : Gate) (ring : BitVec 5) (ar : BitVec 4) (ctx : BitVec 2) (bnd : Bool)
  /-- PUTC (R304). PUTC; `waited` clocks pass before its check holds. -/
  | putc (p : At) (g : Gate) (ring : BitVec 5) (ctx : BitVec 2) (bnd : Bool) (waited : Nat)
  /-- DRAIN (R169). DRAIN. -/
  | drain (p : At) (g : Gate) (ring : BitVec 5) (ctx : BitVec 2) (bnd : Bool)
  /-- PROGRAM_END (R273). A crew reaches the end of its program. With no program stored in its slot, `real` and `golden` are
  the cycles that the commands standing for it took in each share. -/
  | programEnd (crew : CrewEnd) (real golden : Nat)
  /-- SLOT_WAIT_EXPIRE (R170). A slot check of a core has waited 64 cycles. -/
  | slotWaitExpire (core : Fin 32)
  /-- DESC_QUEUE_TIMEOUT (R201). A descriptor of a core has waited 64 freeze cycles. -/
  | descQueueTimeout (core : Fin 32)
  /-- ACCESS_PROMOTE (R159). An access is promoted: an operation of a core's engine at its plane, or another access at a
  core's plane. -/
  | accessPromote (core : Fin 32) (what : PlaneReq)
  /-- UNSCHEDULED_ACCESS (R161). Operation `op` of a core's engine is served at its plane. -/
  | unscheduledAccess (core : Fin 32) (op : Nat) (ecc : Ecc)
  /-- PLANE_SCRUB (R166). The patrol scrub of a plane reads its next entry of every bank: the granules, or words, of it
  that are corrected, and those that cannot be, numbered bank by bank. -/
  | planeScrub (crew : Fin 4) (core : Fin 8) (word : Bool) (corr unc : List Nat)
  /-- WINDOW (R193). A WINDOW descriptor is started. -/
  | window (what : Machine.WinReq)
  /-- SPREAD (R204). A SPREAD descriptor is started. -/
  | spread (core : Fin 32)
  /-- SCATTER_BEV (R206). A SCATTER_BEV descriptor is started. -/
  | scatterBev (core : Fin 32)
  /-- COPY (R204). A COPY descriptor is started. -/
  | copy (core : Fin 32)
  /-- GS_OP_ISSUE (R202). A core's engine issues its next operation after waiting some clocks. -/
  | gsOpIssue (core : Fin 32) (issue : OpIssue)
  /-- GS_OP_COMPLETE (R200). Operation `op` of a core's engine completes. -/
  | gsOpComplete (core : Fin 32) (op : Nat)
  /-- REMOTE_ACCESS_ARRIVE (R172). Operation `op` of a core's engine arrives at its remote target. -/
  | remoteAccessArrive (core : Fin 32) (op : Nat) (net : NetErr) (ecc : Ecc)
  /-- CREDIT_RETURN (R174). A credit of a destination (32: the commons) returns. -/
  | creditReturn (core : Fin 32) (dst : Fin 33) (entry : Fin 16)
  /-- BEV_ADD_ARRIVE (R207). A scatter add arrives at the scatter buffer. -/
  | bevAddArrive (core : Fin 32) (op : Nat) (net : NetErr)
  /-- DIGEST_COMPLETE (R227). The digest unit combines a complete digest. -/
  | digestComplete
  /-- LOOKUP (R241). The engine takes up the request at the tail of a request ring. -/
  | lookup (ring : Fin 32)
  /-- LOOKUP_ROW_RETURN (R243). The next row of a lookup returns; `bad` marks an uncorrectable error. -/
  | lookupRowReturn (index : Nat) (bad : Bool)
  /-- TABLE_ABORT (R247). A write of ABORT to ET_TABLEtt_CTRL. -/
  | tableAbort (table : Fin 64)
  /-- ROW_WRITE (R244). The next row of an update operation is written. -/
  | rowWrite
  /-- ROW_RESTORE (R250). The next row of an aborted operation is restored. -/
  | rowRestore
  /-- SETTLED_SWEEP (R244). The SETTLED sweep goes on. -/
  | settledSweep (places : Nat)
  /-- ADAPT_MERGE (R253). The merge unit takes the batch of the live step. -/
  | adaptMerge
  /-- ADAPT_ABORT (R254). A write of ABORT to ET_ADAPT_CTRL. -/
  | adaptAbort
  /-- UPDATE_RECORD (R251). The oldest fetched update record is decided. -/
  | updateRecord
  /-- REC_ARM (R229). A write of ARM to CS_REC_CTRL with MODE. -/
  | recArm (mode : BitVec 2)
  /-- REC_STOP (R232). A write of STOP to CS_REC_CTRL. -/
  | recStop
  /-- REC_ABORT (R232). A write of ABORT to CS_REC_CTRL. -/
  | recAbort
  /-- GS_PLACE (R318). Bivouac places the next tapped point. -/
  | gsPlace
  /-- GS_SWEEP (R319). The groundsheet sweep goes on. -/
  | gsSweep (slots : Nat)
  /-- MON_BOUNDARY (R316). The island takes a BOUNDARY message, some island cycles after the one before. -/
  | monBoundary (rx : MonRx) (cyc : Nat)
  /-- MON_RECORD (R317). The island takes a RECORD message. -/
  | monRecord (rx : MonRx)
  /-- MON_DELIVERED (R325). The island takes a DELIVERED message; `got` is another SOURCE that a failed hand-over
  gave. -/
  | monDelivered (rx : MonRx) (got : Option Nat)
  /-- MON_MARK (R326). The island takes a MARK message, some island cycles after its BOUNDARY. -/
  | monMark (rx : MonRx) (cyc : Nat)
  /-- MON_SECTOR (R326). The island takes a SECTOR message. -/
  | monSector (rx : MonRx)
  /-- MON_GOLDEN (R317). The island takes a GOLDEN message. -/
  | monGolden (rx : MonRx)
  /-- MON_POSE (R313). The island takes a POSE message. -/
  | monPose (rx : MonRx)
  /-- MON_FAULT (R339). The island takes a FAULT message. -/
  | monFault (rx : MonRx)
  /-- WATCHDOG_CLOSE (R326). A window reaches CLOSE without its event; of windows 2, 3 and 8, that of a sector. -/
  | watchdogClose (window : Fin 12) (sector : Machine.SecId)
  /-- SAFE_OK_EDGE (R337). 500 µs of island time have passed; `match_` says that the island's comparators agree. -/
  | safeOkEdge (match_ : Bool)
  /-- RESTART_STOP_DONE (R333). The Stop phase of a restart ends. -/
  | restartStopDone
  /-- RESTART_RESET_DONE (R333). The Reset phase ends. -/
  | restartResetDone
  /-- RESTART_RESTORE_DONE (R333). The Restore phase ends; not `ok`: a section did not read back. -/
  | restartRestoreDone (ok : Bool)
  /-- RESTART_RESEAT_DONE (R333). The Re-seat phase ends. -/
  | restartReseatDone
  /-- PTP_MESSAGE_RX (R371). The protocol engine takes the oldest message; raw time of an answer. -/
  | ptpMessageRx (raw : Nat)
  /-- PTP_SYNC_TX (R370). A master port sends Sync at a raw time. -/
  | ptpSyncTx (mac : Fin 16) (raw : Nat)
  /-- HOLDOVER_ENTER (R368). HOLD_MS have passed without a measurement by a raw time. -/
  | holdoverEnter (raw : Nat)
  /-- TIME_ADJUST (R369). A write of GO to TB_ADJ_CTRL. -/
  | timeAdjust
  /-- TRIGGER_EDGE (R376). A trigger output on the 400 MHz tick of a raw time. -/
  | triggerEdge (n : Fin 24) (raw : Nat)
  /-- TRIGGER_PULSE_END (R376). A trigger pulse ends by a raw time. -/
  | triggerPulseEnd (n : Fin 24) (raw : Nat)
  /-- CAPTURE_EDGE (R379). A filtered edge of a capture input at a raw time. -/
  | captureEdge (n : Fin 24) (rise : Bool) (raw : Nat)
  /-- CAPTURE_READ (R380). A read of TB_CAPnn_VAL_LO. -/
  | captureRead (n : Fin 24)
  /-- FLIT_RX (R386). A flit of 256 bytes arrives on a link. -/
  | flitRx (link : Fin 3) (bytes : List Byte)
  /-- LINK_TRAIN_STATE (R388). A training state of a link completes: whether its action succeeded, what IDENTIFY
  exchanged, lane order and polarities. -/
  | linkTrainState (link : Fin 3) (ok : Bool) (ident : Machine.Ident) (reversed : Bool) (inverted : BitVec 16)
  /-- RG_HEARTBEAT (R398). A heartbeat of a peer with its reachable set. -/
  | rgHeartbeat (chip : Fin 4) (reach : BitVec 4)
  /-- RG_TIME_EXCHANGE (R389). A time exchange: its four times in units of 2^-16 ns. -/
  | rgTimeExchange (chip : Fin 4) (t1 t2 t3 t4 : Int)
  /-- RG_READY (R390). READY of a chip. -/
  | rgReady (chip : Fin 4)
  /-- RG_START (R390). START with the entry stroke. -/
  | rgStart (stroke : Stroke)
  /-- RG_RESTART (R397). RESTART of a chip, naming a boundary. -/
  | rgRestart (chip : Fin 4) (stroke : Stroke)
  /-- RG_FWD_POINT (R392). A forwarded point with its receive stroke. -/
  | rgFwdPoint (chip : Fin 4) (stroke : Stroke) (point : Machine.Point)
  /-- RG_FWD_VERDICT (R392). The verdict of a forwarded part. -/
  | rgFwdVerdict (chip : Fin 4) (verdict : Machine.GVerd)
  /-- RG_TAP_COPY (R393). A copy of a tapped point. -/
  | rgTapCopy (chip : Fin 4) (stroke : Stroke) (x y z : Int)
  /-- RG_REMOTE_ADD (R395). A cell memory add or a part header. -/
  | rgRemoteAdd (chip : Fin 4) (item : Machine.RemoteAdd)
  /-- RG_PARTIAL_SUM (R255). A partial sum, or a new row, of an adaptation step. -/
  | rgPartialSum (chip : Fin 4) (kind : Fin 3) (table : Fin 64) (row : Nat) (vals : List Nat)
  /-- PEER_LOSS (R398). Eight strokes without a heartbeat of a peer. -/
  | peerLoss (chip : Fin 4)
  /-- GROUP_EVALUATE (R399). The chip evaluates its group. -/
  | groupEvaluate
  /-- RECORD_DELIVER (R409). The oldest queued record is written to its rings. -/
  | recordDeliver
  /-- UPDATE_RECORD_FETCH (R412). The device fetches update records. -/
  | updateRecordFetch
  /-- RING_ENABLE (R407). A write of HI_RINGrr_CFG that sets EN. -/
  | ringEnable (ring : Fin 7) (value : Word)
  /-- RING_DISABLE (R407). A write of HI_RINGrr_CFG that clears EN. -/
  | ringDisable (ring : Fin 7) (value : Word)
  /-- RING_CONS_WRITE (R407). A write of CONS. -/
  | ringConsWrite (ring : Fin 7) (value : Word)
  /-- RING_PROD_WRITE (R407). A write of PROD of ring 05. -/
  | ringProdWrite (value : Word)
  /-- MSIX_COALESCE_TIMER (R416). The COAL_US timer of a ring's vector expires. -/
  | msixCoalesceTimer (ring : Fin 7)
  /-- IRQ_CAUSE_CLEAR (R479). A write of HI_IRQ_CAUSE. -/
  | irqCauseClear (value : Word)
  /-- NOP (R414). The NOP mailbox command with its arguments. -/
  | nop (a0 a1 a2 a3 : Word)
  /-- GET_ATTESTATION (R448). The GET_ATTESTATION mailbox command with its arguments. -/
  | getAttestation (a0 a1 a2 a3 : Word)
  /-- GET_IMAGE_INFO (R414). The GET_IMAGE_INFO mailbox command with its arguments. -/
  | getImageInfo (a0 a1 a2 a3 : Word)
  /-- ENTER_MAINTENANCE (R415). The ENTER_MAINTENANCE mailbox command with its arguments. -/
  | enterMaintenance (a0 a1 a2 a3 : Word)
  /-- FLASH_READ (R414). The FLASH_READ mailbox command with its arguments. -/
  | flashRead (a0 a1 a2 a3 : Word)
  /-- FLASH_ERASE (R414). The FLASH_ERASE mailbox command with its arguments; `err`: the flash reports an error. -/
  | flashErase (a0 a1 a2 a3 : Word) (err : Bool)
  /-- FLASH_WRITE (R414). The FLASH_WRITE mailbox command with its arguments; `err`: the flash reports an error. -/
  | flashWrite (a0 a1 a2 a3 : Word) (err : Bool)
  /-- LEAVE_MAINTENANCE (R414). The LEAVE_MAINTENANCE mailbox command with its arguments. -/
  | leaveMaintenance (a0 a1 a2 a3 : Word)
  /-- MAILBOX_END (R414). The mailbox command in progress ends. -/
  | mailboxEnd
  /-- HOST_INTERFACE_RESET (R404). PERST_N, Function Level Reset or D3hot. -/
  | hostInterfaceReset
  /-- BAR2_WRITE (R406). A host write through BAR2. -/
  | bar2Write (addr : Nat) (bytes : List Byte)
  /-- BAR2_READ (R406). A host read through BAR2. -/
  | bar2Read (addr : Nat) (read : Machine.ReadSpan)
  /-- REG64_LOW_READ (R7). A host read of BAR0 by a requester at a raw time. -/
  | reg64LowRead (requester addr size raw : Nat)
  /-- COUNTER_CLEAR (R10). A write to a counter's CLR. -/
  | counterClear (addr : Nat)
  /-- COMPLEMENT_VALUE_WRITE (R13). A write to the value register of a pair. -/
  | complementValueWrite (addr : Nat) (value : Word)
  /-- COMPLEMENT_C_WRITE (R13). A write to the _C register of the pair whose value register is at `addr`. -/
  | complementCWrite (addr : Nat) (value : Word)
  /-- REGISTER_WRITE (R9). A host write of 4 or 8 bytes to BAR0. -/
  | registerWrite (addr size : Nat) (value : Word64)
  /-- XS_BURST (R430). A channel serves its next request: bursts corrected, an uncorrectable one, the check burst that
  an eviction takes. -/
  | xsBurst (channel : Fin 32) (corr : Nat) (unc : Bool) (victim : Nat)
  /-- XS_PROMOTE (R430). Requests of a channel that have waited 8 µs by a raw time are promoted. -/
  | xsPromote (channel : Fin 32) (raw : Nat)
  /-- XS_CHECK_WRITEBACK (R426). A changed check burst of a channel is written back. -/
  | xsCheckWriteback (channel : Fin 32)
  /-- XS_SCRUB (R427). The patrol scrub of the store. -/
  | xsScrub
  /-- XS_RETRAIN (R429). A channel retrains and finds a delay. -/
  | xsRetrain (channel : Fin 32) (delay : BitVec 6)
  /-- XS_INIT (R428). The channels initialise: those that failed, whether all agree, devices, density, and by channel the
  IDs and the delay found. -/
  | xsInit (fail : BitVec 32) (same : Bool) (devicesM1 : BitVec 1) (density : BitVec 2) (id0 id1 : List (BitVec 8)) (delay :
      List (BitVec 6))
  /-- RESET_RELEASE (R457). The release from device reset with the straps. -/
  | resetRelease (chipSel chipCntM1 : BitVec 2) (maintN : Bool)
  /-- BOOT (R442). The boot code runs with the flash devices that discovery finds. -/
  | boot (found : List FlashDev)
  /-- FUSE_ENROL (R439). The boot code enrols the signer and the security version. -/
  | fuseEnrol
  /-- RESET_N_ASSERT (R456). A low pulse on RESET_N; `taken` decides between 40 and 100 ns. -/
  | resetNAssert (ns : Nat) (taken : Bool)
  /-- MAIN_POR (R456). A rail falls below its main power-on level. -/
  | mainPor (rail : Fin 6)
  /-- ISLAND_POR (R456). VDD_SAFE falls below its level. -/
  | islandPor
  /-- RAIL_EXCURSION (R452). A rail is outside its window for 1 µs. -/
  | railExcursion (rail : Fin 6)
  /-- ROOT_PLL_LOSS (R460). The root PLL loses lock; `refclk`: REFCLK itself is lost. -/
  | rootPllLoss (refclk : Bool)
  /-- THERMAL_READ (R469). The 17 sensors are read, in units of 0.125 °C. -/
  | thermalRead (readings : List Int)
  /-- RAW_MICROSECOND_TICK (R366). The next 1 µs tick of raw time before the operational state. -/
  | rawMicrosecondTick
  /-- ISLAND_PLL_LOSS (R340). The island PLL loses lock. -/
  | islandPllLoss
  /-- RAIL_RETURN (R455). A rail comes back within its window. -/
  | railReturn (rail : Fin 6)
  /-- PCIE_LINK_TRAINING (R402). The PCI Express link trains or goes down. -/
  | pcieLinkTraining (link : Machine.LinkEv) (width : BitVec 2) (rate : BitVec 3)
  /-- BAR0_BAD_READ (R473). A BAR0 read of bad size, alignment or offset. -/
  | bar0BadRead (addr size : Nat)
  /-- RG_RESUME (R397). At chip 0, a chip's Re-seat is complete; elsewhere, the boundary at which all resume. -/
  | rgResume (chip : Fin 4) (stroke : Stroke)
  /-- INTERNAL_RESET_PULSE (R456). The reset pulse 1 ms after LEAVE_MAINTENANCE. -/
  | internalResetPulse
  /-- PTP_DELAY_REQ_TX (R371). The slave port sends its delay request at a raw time. -/
  | ptpDelayReqTx (raw : Nat)
  deriving DecidableEq, Repr

end Sys2Proof
end

