-- ==== Sys2Proof/Decode.lean ====
section
/-! DEFINITION. Words. The command table gives no row any bits, so no word spells a command (`decodeTableWord`). The core
instructions, which a program holds as bundles of 32 bytes, have an encoding of their own (R289 to R304): the bundle that
holds one of them alone, and its decoding. -/

namespace Sys2Proof

open Machine (bits bitOf b2n)

/-- The command that a word spells by the bits of the command table: the table gives none. -/
def decodeTableWord (_nbits _w : Nat) : Option Instr := none

/-- The slots of a bundle (R289): OP and ARG of S, and the words of MW, MX, W, A, V and G. -/
structure Slots where
  op : Nat := 0
  arg : Nat := 0
  mw : Nat := 0
  mx : Nat := 0
  w : Nat := 0
  a : Nat := 0
  v : Nat := 0
  g : Nat := 0
  deriving DecidableEq, Repr

/-- A core instruction as a bundle holds it: where it executes, its span cycle, the S slot's fields, the slots. -/
structure CoreOp where
  loc : At
  r : Nat := 0
  gate : Gate
  slots : Slots
  deriving DecidableEq, Repr

/-- The S slot (R290). -/
def Gate.word (g : Gate) (op arg : Nat) : Nat :=
  g.spanM1.toNat + 16 * b2n g.gold + 32 * op + 2 ^ 9 * arg + 2 ^ 27 * b2n g.bound + 2 ^ 28 * g.ctxOut.toNat +
    2 ^ 30 * g.ctxFeed.toNat

/-- The bundle of 256 bits (R289). -/
def CoreOp.word (o : CoreOp) : Nat :=
  let s := o.slots
  o.gate.word s.op s.arg + 2 ^ 32 * s.mw + 2 ^ 64 * s.mx + 2 ^ 96 * s.w + 2 ^ 128 * s.a + 2 ^ 176 * s.v + 2 ^ 224 * s.g

/-- The V slot of a register operation (R300). -/
def VecF.code (f : VecF) (op : Nat) : Nat :=
  op + 2 ^ 6 * f.vd.toNat + 2 ^ 11 * f.va.toNat + 2 ^ 16 * f.vb.toNat + 2 ^ 21 * f.vc.toNat + 2 ^ 26 * f.ty.toNat +
    2 ^ 28 * b2n f.sat + 2 ^ 39 * f.sub.toNat

/-- The V slot of a memory operation (R300). -/
def VecM.code (f : VecM) (op : Nat) : Nat :=
  op + 2 ^ 6 * f.vd.toNat + 2 ^ 11 * f.va.toNat + 2 ^ 16 * f.vb.toNat + 2 ^ 26 * f.ty.toNat + 2 ^ 29 * f.base.toNat +
    2 ^ 34 * b2n f.inc + 2 ^ 35 * b2n f.word + 2 ^ 36 * f.aow.toNat

/-- A core instruction from its parts. -/
def coreAt (p : At) (r : Nat) (g : Gate) (s : Slots) : CoreOp := { loc := p, r := r, gate := g, slots := s }

/-- The slots of a core instruction alone in its bundle; none for a command that is no core instruction. -/
def Instr.coreOp : Instr → Option CoreOp
  | .turn p g stage level => some (coreAt p 0 g { op := 1, arg := stage.toNat + 32 * level.toNat })
  | .release p g => some (coreAt p 0 g { op := 2, arg := 0 })
  | .digopen p g point => some (coreAt p 0 g { op := 3, arg := point.toNat })
  | .digclose p g => some (coreAt p 0 g { op := 4, arg := 0 })
  | .merge p g ar _ => some (coreAt p 0 g { op := 5, arg := ar.toNat })
  | .wave p g r t arrays half entry estep accum swap begin_ end_ _ _ => some (coreAt p r.toNat g {
      mw := 1 + 2 ^ 1 * b2n t + 2 ^ 2 * arrays.toNat + 2 ^ 6 * half.toNat + 2 ^ 8 * entry.toNat + 2 ^ 15 * b2n estep +
        2 ^ 16 * b2n accum + 2 ^ 17 * b2n swap + 2 ^ 18 * b2n begin_ + 2 ^ 19 * b2n end_ })
  | .fill p g array half base inc layout stride _ _ => some (coreAt p 0 g {
      mx := 1 + 2 ^ 4 * array.toNat + 2 ^ 6 * half.toNat + 2 ^ 8 * base.toNat + 2 ^ 13 * b2n inc + 2 ^ 14 * b2n layout
        + 2 ^ 15 * stride.toNat })
  | .job p g array half afmt wfmt jobNo => some (coreAt p 0 g {
      mx := 2 + 2 ^ 4 * array.toNat + 2 ^ 6 * half.toNat + 2 ^ 8 * afmt.toNat + 2 ^ 12 * wfmt.toNat + 2 ^ 16 *
        jobNo.toNat })
  | .wake p g arrays => some (coreAt p 0 g { mx := 3 + 2 ^ 4 * arrays.toNat })
  | .split p g arrays value => some (coreAt p 0 g { mx := 4 + 2 ^ 4 * arrays.toNat + 2 ^ 8 * value.toNat })
  | .wb p g r arrays half entry estep fmt base inc aow dig _ _ => some (coreAt p r.toNat g {
      w := 1 + 2 ^ 4 * arrays.toNat + 2 ^ 8 * half.toNat + 2 ^ 10 * entry.toNat + 2 ^ 17 * b2n estep + 2 ^ 18 *
        fmt.toNat + 2 ^ 22 * base.toNat + 2 ^ 27 * b2n inc + 2 ^ 28 * aow.toNat + 2 ^ 31 * b2n dig })
  | .wbr p g r entry estep fmt base inc aow dig _ _ => some (coreAt p r.toNat g {
      w := 2 + 2 ^ 4 * 15 + 2 ^ 10 * entry.toNat + 2 ^ 17 * b2n estep + 2 ^ 18 * fmt.toNat + 2 ^ 22 * base.toNat + 2 ^
        27 * b2n inc + 2 ^ 28 * aow.toNat + 2 ^ 31 * b2n dig })
  | .lda p g reg imm => some (coreAt p 0 g { a := 1 + 2 ^ 4 * reg.toNat + 2 ^ 8 * imm.toNat })
  | .lds p g reg imm => some (coreAt p 0 g { a := 2 + 2 ^ 4 * reg.toNat + 2 ^ 8 * imm.toNat })
  | .adda p g reg imm => some (coreAt p 0 g { a := 3 + 2 ^ 4 * reg.toNat + 2 ^ 8 * imm.toNat })
  | .setr p g reg imm => some (coreAt p 0 g { a := 4 + 2 ^ 4 * reg.toNat + 2 ^ 8 * imm.toNat })
  | .win p g w lb n logP cM1 k => some (coreAt p 0 g {
      a := 5 + 2 ^ 4 * w.toNat + 2 ^ 7 * lb.toNat + 2 ^ 20 * n.toNat + 2 ^ 33 * logP.toNat + 2 ^ 35 * cM1.toNat + 2 ^
        41 * k.toNat })
  | .feedMap p g r w base entry pass chunk estep mx _ => some (coreAt p r.toNat g {
      a := 6 + 2 ^ 4 * w.toNat + 2 ^ 7 * base.toNat + 2 ^ 12 * entry.toNat + 2 ^ 19 * pass.toNat + 2 ^ 26 *
        chunk.toNat + 2 ^ 32 * b2n estep + 2 ^ 33 * b2n mx })
  | .feedDir p g r base entry stride chunk estep mx _ => some (coreAt p r.toNat g {
      a := 7 + 2 ^ 7 * base.toNat + 2 ^ 12 * entry.toNat + 2 ^ 19 * stride.toNat + 2 ^ 31 * b2n estep + 2 ^ 32 *
        chunk.toNat + 2 ^ 38 * b2n mx })
  | .feedLin p g r base inc mx _ => some (coreAt p r.toNat g {
      a := 8 + 2 ^ 7 * base.toNat + 2 ^ 12 * b2n inc + 2 ^ 13 * b2n mx })
  | .add p g f => some (coreAt p 0 g { v := f.code 0x01 })
  | .sub p g f => some (coreAt p 0 g { v := f.code 0x02 })
  | .mul p g f => some (coreAt p 0 g { v := f.code 0x03 })
  | .and p g f => some (coreAt p 0 g { v := f.code 0x04 })
  | .or p g f => some (coreAt p 0 g { v := f.code 0x05 })
  | .xor p g f => some (coreAt p 0 g { v := f.code 0x06 })
  | .shl p g f => some (coreAt p 0 g { v := f.code 0x07 })
  | .shrl p g f => some (coreAt p 0 g { v := f.code 0x08 })
  | .shra p g f => some (coreAt p 0 g { v := f.code 0x09 })
  | .cmp p g f => some (coreAt p 0 g { v := f.code 0x0A })
  | .sel p g f => some (coreAt p 0 g { v := f.code 0x0B })
  | .fadd p g f => some (coreAt p 0 g { v := f.code 0x10 })
  | .fsub p g f => some (coreAt p 0 g { v := f.code 0x11 })
  | .fmul p g f => some (coreAt p 0 g { v := f.code 0x12 })
  | .fma p g f => some (coreAt p 0 g { v := f.code 0x13 })
  | .fmin p g f => some (coreAt p 0 g { v := f.code 0x14 })
  | .fmax p g f => some (coreAt p 0 g { v := f.code 0x15 })
  | .fcmp p g f => some (coreAt p 0 g { v := f.code 0x16 })
  | .cvt p g f => some (coreAt p 0 g { v := f.code 0x18 })
  | .unpk p g f => some (coreAt p 0 g { v := f.code 0x19 })
  | .mxb p g f => some (coreAt p 0 g { v := f.code 0x1A })
  | .fn p g f => some (coreAt p 0 g { v := f.code 0x20 })
  | .red p g f => some (coreAt p 0 g { v := f.code 0x28 })
  | .vld p g r f _ => some (coreAt p r.toNat g { v := f.code 0x30 })
  | .vst p g r f => some (coreAt p r.toNat g { v := f.code 0x31 })
  | .vgath p g r f _ => some (coreAt p r.toNat g { v := f.code 0x32 })
  | .vscat p g r f => some (coreAt p r.toNat g { v := f.code 0x33 })
  | .bcast p g vd imm => some (coreAt p 0 g { v := 0x38 + 2 ^ 6 * vd.toNat + 2 ^ 11 * imm.toNat })
  | .lane p g f => some (coreAt p 0 g { v := f.code 0x39 })
  | .coreid p g f => some (coreAt p 0 g { v := f.code 0x3A })
  | .desc p g base inc a0src cnt ctx bnd _ => some (coreAt p 0 g {
      g := 1 + 2 ^ 4 * base.toNat + 2 ^ 9 * b2n inc + 2 ^ 10 * a0src.toNat + 2 ^ 15 * b2n cnt + 2 ^ 16 * ctx.toNat + 2
        ^ 18 * b2n bnd })
  | .get p g ring ar ctx bnd _ => some (coreAt p 0 g {
      g := 2 + 2 ^ 4 * ring.toNat + 2 ^ 9 * ar.toNat + 2 ^ 13 * ctx.toNat + 2 ^ 15 * b2n bnd })
  | .putr p g ring ar ctx bnd => some (coreAt p 0 g {
      g := 3 + 2 ^ 4 * ring.toNat + 2 ^ 9 * ar.toNat + 2 ^ 13 * ctx.toNat + 2 ^ 15 * b2n bnd })
  | .putc p g ring ctx bnd _ => some (coreAt p 0 g {
      g := 4 + 2 ^ 4 * ring.toNat + 2 ^ 13 * ctx.toNat + 2 ^ 15 * b2n bnd })
  | .drain p g ring ctx bnd => some (coreAt p 0 g {
      g := 5 + 2 ^ 4 * ring.toNat + 2 ^ 13 * ctx.toNat + 2 ^ 15 * b2n bnd })
  | _ => none

/-! ### Decoding -/

/-- What a core instruction's command carries beside the bundle: the span cycle, the clocks that a check waits, and the
errors met (DESIGN CHOICE, log entry 19). -/
structure Phys where
  r : BitVec 4 := 0
  waited : Nat := 0
  ecc : Ecc := {}
  map : Ecc := {}
  eccs : List Ecc := []
  corr : Nat := 0
  bad : BitVec 8 := 0
  par : BitVec 8 := 0
  halves : BitVec 2 := 0
  feedBad : BitVec 4 := 0
  fault : Bool := false
  deriving DecidableEq, Repr

/-- What a command carries beside its bundle. -/
def Instr.phys : Instr → Phys
  | .merge _ _ _ waited => { waited := waited }
  | .wave _ _ r _ _ _ _ _ _ _ _ _ bad feedBad => { r := r, bad := bad, feedBad := feedBad }
  | .fill _ _ _ _ _ _ _ _ ecc bad => { eccs := ecc, halves := bad }
  | .wb _ _ r _ _ _ _ _ _ _ _ _ corr err => { r := r, corr := corr, bad := err.bad, par := err.par, ecc := err.ecc }
  | .wbr _ _ r _ _ _ _ _ _ _ corr err => { r := r, corr := corr, fault := err.bad, ecc := err.ecc }
  | .feedMap _ _ r _ _ _ _ _ _ _ err => { r := r, map := err.map, ecc := err.row }
  | .feedDir _ _ r _ _ _ _ _ _ ecc => { r := r, ecc := ecc }
  | .feedLin _ _ r _ _ _ ecc => { r := r, ecc := ecc }
  | .vld _ _ r _ ecc => { r := r, ecc := ecc }
  | .vst _ _ r _ => { r := r }
  | .vgath _ _ r _ ecc => { r := r, ecc := ecc }
  | .vscat _ _ r _ => { r := r }
  | .desc _ _ _ _ _ _ _ _ waited => { waited := waited }
  | .get _ _ _ _ _ _ waited => { waited := waited }
  | .putc _ _ _ _ _ waited => { waited := waited }
  | _ => {}

/-- The S slot's fields of a bundle (R290). -/
def gateOf (b : Nat) : Gate :=
  { spanM1 := BitVec.ofNat 4 (bits b 0 4), gold := bitOf b 4, bound := bitOf b 27,
    ctxOut := BitVec.ofNat 2 (bits b 28 2), ctxFeed := BitVec.ofNat 2 (bits b 30 2) }

/-- The fields of a register operation (R300). -/
def vecOf (v : Nat) : VecF :=
  { vd := BitVec.ofNat 5 (bits v 6 5), va := BitVec.ofNat 5 (bits v 11 5), vb := BitVec.ofNat 5 (bits v 16 5),
    vc := BitVec.ofNat 5 (bits v 21 5), ty := BitVec.ofNat 2 (bits v 26 2), sat := bitOf v 28,
    sub := BitVec.ofNat 4 (bits v 39 4) }

/-- The fields of a memory operation (R300). -/
def memOf (v : Nat) : VecM :=
  { vd := BitVec.ofNat 5 (bits v 6 5), va := BitVec.ofNat 5 (bits v 11 5), vb := BitVec.ofNat 5 (bits v 16 5),
    ty := BitVec.ofNat 2 (bits v 26 2), base := BitVec.ofNat 5 (bits v 29 5), inc := bitOf v 34, word := bitOf v 35,
    aow := BitVec.ofNat 3 (bits v 36 3) }

/-- The operation of the S slot (R291), from its ARG; none for code 0 and for a code that is not listed. -/
def decodeS (p : At) (g : Gate) (x : Phys) (op s : Nat) : Option Instr :=
  match op with
  | 1 => some (.turn p g (BitVec.ofNat 5 (bits s 0 5)) (BitVec.ofNat 2 (bits s 5 2)))
  | 2 => some (.release p g)
  | 3 => some (.digopen p g (BitVec.ofNat 8 (bits s 0 8)))
  | 4 => some (.digclose p g)
  | 5 => some (.merge p g (BitVec.ofNat 4 (bits s 0 4)) x.waited)
  | _ => none

/-- The operation of the MX slot (R295); none for code 0 and for a code that is not listed. -/
def decodeMX (p : At) (g : Gate) (x : Phys) (op s : Nat) : Option Instr :=
  match op with
  | 1 => some (.fill p g (BitVec.ofNat 2 (bits s 4 2)) (BitVec.ofNat 2 (bits s 6 2)) (BitVec.ofNat 5 (bits s 8 5))
      (bitOf s 13) (bitOf s 14) (BitVec.ofNat 7 (bits s 15 7)) x.eccs x.halves)
  | 2 => some (.job p g (BitVec.ofNat 2 (bits s 4 2)) (BitVec.ofNat 2 (bits s 6 2)) (BitVec.ofNat 4 (bits s 8 4))
      (BitVec.ofNat 4 (bits s 12 4)) (BitVec.ofNat 16 (bits s 16 16)))
  | 3 => some (.wake p g (BitVec.ofNat 4 (bits s 4 4)))
  | 4 => some (.split p g (BitVec.ofNat 4 (bits s 4 4)) (BitVec.ofNat 4 (bits s 8 4)))
  | _ => none

/-- The operation of the W slot (R297); none for code 0 and for a code that is not listed. -/
def decodeW (p : At) (g : Gate) (x : Phys) (op s : Nat) : Option Instr :=
  match op with
  | 1 => some (.wb p g x.r (BitVec.ofNat 4 (bits s 4 4)) (BitVec.ofNat 2 (bits s 8 2)) (BitVec.ofNat 7 (bits s 10 7))
      (bitOf s 17) (BitVec.ofNat 4 (bits s 18 4)) (BitVec.ofNat 5 (bits s 22 5)) (bitOf s 27) (BitVec.ofNat 3 (bits s
      28 3)) (bitOf s 31) x.corr ⟨x.bad, x.par, x.ecc⟩)
  | 2 => some (.wbr p g x.r (BitVec.ofNat 7 (bits s 10 7)) (bitOf s 17) (BitVec.ofNat 4 (bits s 18 4)) (BitVec.ofNat 5
      (bits s 22 5)) (bitOf s 27) (BitVec.ofNat 3 (bits s 28 3)) (bitOf s 31) x.corr ⟨x.fault, x.ecc⟩)
  | _ => none

/-- The operation of the A slot (R298); none for code 0 and for a code that is not listed. -/
def decodeA (p : At) (g : Gate) (x : Phys) (op s : Nat) : Option Instr :=
  match op with
  | 1 => some (.lda p g (BitVec.ofNat 4 (bits s 4 4)) (BitVec.ofNat 32 (bits s 8 32)))
  | 2 => some (.lds p g (BitVec.ofNat 4 (bits s 4 4)) (BitVec.ofNat 32 (bits s 8 32)))
  | 3 => some (.adda p g (BitVec.ofNat 4 (bits s 4 4)) (BitVec.ofNat 32 (bits s 8 32)))
  | 4 => some (.setr p g (BitVec.ofNat 4 (bits s 4 4)) (BitVec.ofNat 32 (bits s 8 32)))
  | 5 => some (.win p g (BitVec.ofNat 3 (bits s 4 3)) (BitVec.ofNat 13 (bits s 7 13)) (BitVec.ofNat 13 (bits s 20 13))
      (BitVec.ofNat 2 (bits s 33 2)) (BitVec.ofNat 6 (bits s 35 6)) (BitVec.ofNat 7 (bits s 41 7)))
  | 6 => some (.feedMap p g x.r (BitVec.ofNat 3 (bits s 4 3)) (BitVec.ofNat 5 (bits s 7 5)) (BitVec.ofNat 7 (bits s 12
      7)) (BitVec.ofNat 7 (bits s 19 7)) (BitVec.ofNat 6 (bits s 26 6)) (bitOf s 32) (bitOf s 33) ⟨x.map, x.ecc⟩)
  | 7 => some (.feedDir p g x.r (BitVec.ofNat 5 (bits s 7 5)) (BitVec.ofNat 7 (bits s 12 7)) (BitVec.ofNat 12 (bits s
      19 12)) (BitVec.ofNat 6 (bits s 32 6)) (bitOf s 31) (bitOf s 38) x.ecc)
  | 8 => some (.feedLin p g x.r (BitVec.ofNat 5 (bits s 7 5)) (bitOf s 12) (bitOf s 13) x.ecc)
  | _ => none

/-- The operation of the V slot (R301); none for code 0 and for a code that is not listed. -/
def decodeV (p : At) (g : Gate) (x : Phys) (op s : Nat) : Option Instr :=
  match op with
  | 0x1 => some (.add p g (vecOf s))
  | 0x2 => some (.sub p g (vecOf s))
  | 0x3 => some (.mul p g (vecOf s))
  | 0x4 => some (.and p g (vecOf s))
  | 0x5 => some (.or p g (vecOf s))
  | 0x6 => some (.xor p g (vecOf s))
  | 0x7 => some (.shl p g (vecOf s))
  | 0x8 => some (.shrl p g (vecOf s))
  | 0x9 => some (.shra p g (vecOf s))
  | 0xa => some (.cmp p g (vecOf s))
  | 0xb => some (.sel p g (vecOf s))
  | 0x10 => some (.fadd p g (vecOf s))
  | 0x11 => some (.fsub p g (vecOf s))
  | 0x12 => some (.fmul p g (vecOf s))
  | 0x13 => some (.fma p g (vecOf s))
  | 0x14 => some (.fmin p g (vecOf s))
  | 0x15 => some (.fmax p g (vecOf s))
  | 0x16 => some (.fcmp p g (vecOf s))
  | 0x18 => some (.cvt p g (vecOf s))
  | 0x19 => some (.unpk p g (vecOf s))
  | 0x1a => some (.mxb p g (vecOf s))
  | 0x20 => some (.fn p g (vecOf s))
  | 0x28 => some (.red p g (vecOf s))
  | 0x30 => some (.vld p g x.r (memOf s) x.ecc)
  | 0x31 => some (.vst p g x.r (memOf s))
  | 0x32 => some (.vgath p g x.r (memOf s) x.ecc)
  | 0x33 => some (.vscat p g x.r (memOf s))
  | 0x38 => some (.bcast p g (BitVec.ofNat 5 (bits s 6 5)) (BitVec.ofNat 32 (bits s 11 32)))
  | 0x39 => some (.lane p g (vecOf s))
  | 0x3a => some (.coreid p g (vecOf s))
  | _ => none

/-- The operation of the G slot (R304); none for code 0 and for a code that is not listed. -/
def decodeG (p : At) (g : Gate) (x : Phys) (op s : Nat) : Option Instr :=
  match op with
  | 1 => some (.desc p g (BitVec.ofNat 5 (bits s 4 5)) (bitOf s 9) (BitVec.ofNat 5 (bits s 10 5)) (bitOf s 15)
      (BitVec.ofNat 2 (bits s 16 2)) (bitOf s 18) x.waited)
  | 2 => some (.get p g (BitVec.ofNat 5 (bits s 4 5)) (BitVec.ofNat 4 (bits s 9 4)) (BitVec.ofNat 2 (bits s 13 2))
      (bitOf s 15) x.waited)
  | 3 => some (.putr p g (BitVec.ofNat 5 (bits s 4 5)) (BitVec.ofNat 4 (bits s 9 4)) (BitVec.ofNat 2 (bits s 13 2))
      (bitOf s 15))
  | 4 => some (.putc p g (BitVec.ofNat 5 (bits s 4 5)) (BitVec.ofNat 2 (bits s 13 2)) (bitOf s 15) x.waited)
  | 5 => some (.drain p g (BitVec.ofNat 5 (bits s 4 5)) (BitVec.ofNat 2 (bits s 13 2)) (bitOf s 15))
  | _ => none

/-- The wave of the MW slot (R294). -/
def decodeMW (p : At) (g : Gate) (x : Phys) (s : Nat) : Option Instr :=
  if bitOf s 0 then
    some (.wave p g x.r (bitOf s 1) (BitVec.ofNat 4 (bits s 2 4)) (BitVec.ofNat 2 (bits s 6 2)) (BitVec.ofNat 7 (bits
      s 8 7)) (bitOf s 15) (bitOf s 16) (bitOf s 17) (bitOf s 18) (bitOf s 19) x.bad x.feedBad)
  else none

/-- The core instructions of a bundle, in the order of its slots (R285); a slot whose OP is 0 holds none. -/
def decodeBundle (p : At) (x : Phys) (b : Nat) : List Instr :=
  let g := gateOf b
  (decodeS p g x (bits b 5 4) (bits b 9 18)).toList ++ (decodeMW p g x (bits b 32 32)).toList ++
    (decodeMX p g x (bits b 64 4) (bits b 64 32)).toList ++ (decodeW p g x (bits b 96 4) (bits b 96 32)).toList ++
    (decodeA p g x (bits b 128 4) (bits b 128 48)).toList ++ (decodeV p g x (bits b 176 6) (bits b 176 48)).toList ++
    (decodeG p g x (bits b 224 4) (bits b 224 32)).toList

/-- Whether a bundle holds a core instruction, executed at a place. -/
def Instr.heldBy (i : Instr) (p : At) (b : Nat) : Bool := (decodeBundle p i.phys b).contains i

end Sys2Proof
end

