-- ==== Sys2Proof/Machine/Bundle.lean ====
section
/-! DEFINITION. The bundle encoding (11_core_instructions R285 to R304) and the rules by which the boot code rejects a
malformed bundle (R307). A bundle is taken as a number of 256 bits. -/

namespace Sys2Proof.Machine

/-! ### Slots (R285) -/

/-- Slot S. -/
def bunS (b : Nat) : Nat := bits b 0 32
/-- Slot MW. -/
def bunMW (b : Nat) : Nat := bits b 32 32
/-- Slot MX. -/
def bunMX (b : Nat) : Nat := bits b 64 32
/-- Slot W. -/
def bunW (b : Nat) : Nat := bits b 96 32
/-- Slot A. -/
def bunA (b : Nat) : Nat := bits b 128 48
/-- Slot V. -/
def bunV (b : Nat) : Nat := bits b 176 48
/-- Slot G. -/
def bunG (b : Nat) : Nat := bits b 224 32
/-- SPAN. -/
def bunSpan (b : Nat) : Nat := bits b 0 4 + 1
/-- GOLD. -/
def bunGold (b : Nat) : Bool := bitOf b 4

/-- A BASE code that names an address register, with INC or without (R286). -/
def baseOk (base : Nat) : Bool := decide (1 ≤ base) && decide (base ≤ 15)

/-! ### Each slot by itself (R307, rules 1 to 8) -/

/-- Slot S (R290, R291): its operation and ARG; a TURN's LEVEL is at most LEVELS. -/
def okS (levels b : Nat) : Bool :=
  let op := bits b 5 4
  let arg := bits b 9 18
  match op with
  | 0 => decide (arg = 0)
  | 1 => decide (arg < 128) && decide (bits arg 5 2 ≤ levels)
  | 2 => decide (arg = 0)
  | 3 => decide (arg < 256)
  | 4 => decide (arg = 0)
  | 5 => decide (1 ≤ arg) && decide (arg < 16)
  | _ => false

/-- Slot MW (R294; rules 2, 5 and 6). -/
def okMW (span b : Nat) : Bool :=
  let t := bitOf b 1
  let e := bits b 8 7
  decide (bits b 20 12 = 0) && decide (bits b 6 2 ≠ 3) &&
    (!(bitOf b 0) ||
      (if t then decide (bits b 2 4 = 15) && decide (bits b 6 2 = 0) && decide (span % 2 = 0) &&
          decide (e + span / 2 ≤ 64)
        else !(bitOf b 15) || decide (e + span ≤ 128)))

/-- Slot MX (R295). -/
def okMX (b : Nat) : Bool :=
  match bits b 0 4 with
  | 0 => true
  | 1 => decide (bits b 6 2 ≠ 3) && baseOk (bits b 8 5) && decide (bits b 22 10 = 0)
  | 2 => decide (bits b 6 2 ≠ 3) && decide (bits b 8 4 < 10) && decide (bits b 12 4 < 10)
  | 3 => decide (bits b 8 24 = 0)
  | 4 => decide (bits b 12 20 = 0)
  | _ => false

/-- An AOW code and whether its format is INT32 or FP32 (rule 7). -/
def aowOk (aow : Nat) (i32 f32 : Bool) : Bool :=
  decide (aow = 0) || (decide (aow ≤ 3) && i32) || (decide (4 ≤ aow) && decide (aow ≤ 6) && f32)

/-- Slot W (R297; rules 3, 5 and 7). -/
def okW (span b : Nat) : Bool :=
  let op := bits b 0 4
  let fmt := bits b 18 4
  let e := bits b 10 7
  if op = 0 then
    decide (bits b 28 3 = 0) && decide (fmt ≤ 5) && decide (bits b 8 2 ≠ 3) && decide (bits b 22 5 < 16) &&
      (!(bitOf b 27) || baseOk (bits b 22 5))
  else
    decide (op ≤ 2) && decide (fmt ≤ 5) && decide (bits b 8 2 ≠ 3) && baseOk (bits b 22 5) &&
      aowOk (bits b 28 3) (decide (fmt = 0)) (decide (fmt = 2)) &&
      (if op = 2 then decide (bits b 4 4 = 15) && decide (bits b 8 2 = 0) && decide (e + span ≤ 64)
       else !(bitOf b 17) || decide (e + span ≤ 128))

/-- Slot A (R298; rules 2, 3, 5 and 12). -/
def okA (span b : Nat) : Bool :=
  match bits b 0 4 with
  | 0 => true
  | 1 => decide (bits b 4 4 ≠ 0) && decide (bits b 40 8 = 0)
  | 2 => decide (bits b 4 4 ≠ 0) && decide (bits b 40 8 = 0)
  | 3 => decide (bits b 4 4 ≠ 0) && decide (bits b 40 8 = 0)
  | 4 => decide (bits b 4 4 ≤ 2) && decide (bits b 40 8 = 0)
  | 5 =>
    let n := bits b 20 13
    let k := bits b 41 7
    decide (1 ≤ n) && decide (n ≤ 4096) && decide (1 ≤ k) && decide (k ≤ 125) &&
      decide (bits b 7 13 + (bits b 35 6 + 1) * n ≤ 8192)
  | 6 => baseOk (bits b 7 5) && decide (bits b 34 14 = 0) && (!(bitOf b 32) || decide (bits b 12 7 + span ≤ 128))
  | 7 => baseOk (bits b 7 5) && decide (bits b 39 9 = 0) && (!(bitOf b 31) || decide (bits b 12 7 + span ≤ 128))
  | 8 => baseOk (bits b 7 5) && decide (bits b 14 34 = 0)
  | _ => false

/-- The TYPE and SUB codes of a vector operation (R301; rules 1 and 8): none where the code is not listed. -/
def vecRule (op : Nat) : Option (List Nat × List Nat) :=
  let any := [0, 1, 2]
  let subs := List.range 16
  if 1 ≤ op ∧ op ≤ 9 then some ([2], subs)
  else if op = 0x0A then some ([2], [0, 1, 2, 3])
  else if op = 0x0B then some (any, subs)
  else if 0x10 ≤ op ∧ op ≤ 0x15 then some ([0, 1], subs)
  else if op = 0x16 then some ([0, 1], [0, 1, 2, 3])
  else if op = 0x18 then some (any, [0, 1, 2, 3, 4, 5, 6])
  else if op = 0x19 then some (any, [1, 3, 4, 5, 6])
  else if op = 0x1A then some ([0], [0, 1, 2])
  else if op = 0x20 then some ([0, 1], [0, 1, 2, 3, 4, 5])
  else if op = 0x28 then some ([0, 2], [0, 1, 2, 4, 5, 6])
  else if 0x30 ≤ op ∧ op ≤ 0x33 then some (any, subs)
  else if op = 0x39 ∨ op = 0x3A then some (any, subs)
  else none

/-- Slot V (R300, R301; rules 1 to 3, 7 and 8). -/
def okV (b : Nat) : Bool :=
  let op := bits b 0 6
  let base := bits b 29 5
  let aow := bits b 36 3
  let mem := decide (0x30 ≤ op) && decide (op ≤ 0x33)
  let store := decide (op = 0x31) || decide (op = 0x33)
  decide (bits b 43 5 = 0) &&
    (if op = 0x38 then true
     else if op = 0 then
       decide (bits b 26 2 ≠ 3) && decide (aow = 0) && decide (base < 16) && (!(bitOf b 34) || baseOk base)
     else
       match vecRule op with
       | none => false
       | some (ts, ss) =>
         ts.contains (bits b 26 2) && ss.contains (bits b 39 4) && decide (base < 16) && (!mem || baseOk base) &&
           (!(bitOf b 34) || baseOk base) &&
           (if store then aowOk aow (decide (bits b 26 2 = 2)) (decide (bits b 26 2 = 0)) else decide (aow = 0)))

/-- Slot G (R304; rules 1 to 3). -/
def okG (b : Nat) : Bool :=
  match bits b 0 4 with
  | 0 => true
  | 1 => baseOk (bits b 4 5) && decide (bits b 19 13 = 0)
  | 2 => decide (bits b 16 16 = 0)
  | 3 => decide (bits b 16 16 = 0)
  | 4 => decide (bits b 9 4 = 0) && decide (bits b 16 16 = 0)
  | 5 => decide (bits b 9 4 = 0) && decide (bits b 16 16 = 0)
  | _ => false

/-! ### Rules over a whole bundle (R307, rules 4 and 11) -/

/-- The address registers that a bundle increments (rule 4). -/
def incrs (b : Nat) : List Nat :=
  let mx := bunMX b
  let w := bunW b
  let a := bunA b
  let v := bunV b
  let g := bunG b
  (if bits mx 0 4 = 1 ∧ bitOf mx 13 then [bits mx 8 5] else []) ++
    (if bits w 0 4 ≠ 0 ∧ bitOf w 27 then [bits w 22 5] else []) ++
    (if bits a 0 4 = 8 ∧ bitOf a 12 then [bits a 7 5] else []) ++
    (if 0x30 ≤ bits v 0 6 ∧ bits v 0 6 ≤ 0x33 ∧ bitOf v 34 then [bits v 29 5] else []) ++
    (if bits g 0 4 = 1 ∧ bitOf g 9 then [bits g 4 5] else [])

/-- The address registers that a bundle loads (rule 4). -/
def loads (b : Nat) : List Nat :=
  let a := bunA b
  let g := bunG b
  (if 1 ≤ bits a 0 4 ∧ bits a 0 4 ≤ 3 then [bits a 4 4] else []) ++
    (if (bits g 0 4 = 2 ∨ bits g 0 4 = 3) ∧ bits g 9 4 ≠ 0 then [bits g 9 4] else [])

/-- Whether a list names nothing twice. -/
def distinct : List Nat → Bool
  | [] => true
  | x :: r => !(r.contains x) && distinct r

/-- The ring that a bundle's G slot names (rule 11). -/
def bunRing (b : Nat) : Option Nat :=
  let g := bunG b
  if 2 ≤ bits g 0 4 ∧ bits g 0 4 ≤ 5 then some (bits g 4 5) else none

/-- Rules 1 to 8 and 12 of R307 and the LEVEL of rule 10, for one bundle. -/
def bundleOk (levels b : Nat) : Bool :=
  let n := bunSpan b
  okS levels (bunS b) && okMW n (bunMW b) && okMX (bunMX b) && okW n (bunW b) && okA n (bunA b) && okV (bunV b) &&
    okG (bunG b) && distinct (incrs b ++ loads b)

/-! ### Rules over a program (R273, R281, R292; rules 9 to 11) -/

/-- The bundle and the span cycle that fall on a schedule cycle (R281), of the bundles in their order; the number of
bundles where the program has ended. -/
def bundleAt : List Nat → Nat → Nat → Nat × Nat
  | [], i, _ => (i, 0)
  | b :: r, i, cyc => if cyc < bunSpan b then (i, cyc) else bundleAt r (i + 1) (cyc - bunSpan b)

/-- The bundles of a SCHEDULE section. -/
def bundlesOf (bs : List Byte) : List Nat := (List.range (leAt bs 2 2)).map (fun i => leAt bs (32 + 32 * i) 32)

/-- The schedule cycles of a share of a program (R281): of the golden share, or of the real-work share. -/
def shareOf (bs : List Byte) (gold : Bool) : Nat := (((bundlesOf bs).filter (fun b => bunGold b == gold)).map bunSpan).sum

/-- The TURNs of a program: level and stage. -/
def turnsOf (l : List Nat) : List (Nat × Nat) :=
  l.filterMap (fun b => if bits b 5 4 = 1 then some (bits b 14 2, bits b 9 5) else none)

/-- Every TURN of a level carries one STAGE, and different levels different STAGEs (R292). -/
def stagesOk (l : List (Nat × Nat)) : Bool :=
  l.all (fun x => l.all (fun y => decide (x.1 = y.1) == decide (x.2 = y.2)))

/-- A SCHEDULE section (R273) as rules 1 to 10 and 12 of R307 judge it. -/
def programOk (levels : Nat) (bs : List Byte) : Bool :=
  let n := leAt bs 2 2
  let l := bundlesOf bs
  decide (1 ≤ n) && decide (n ≤ 2048) && decide (bs.length = 32 + 32 * n) && decide (leAt bs 0 1 < 4) &&
    decide (leAt bs 1 1 < 16) && decide (leAt bs 4 2 ≤ 1128) && decide (leAt bs 6 2 = 36) && decide (leAt bs 12 20 = 0) &&
    decide (shareOf bs false = leAt bs 4 2) && decide (shareOf bs true = leAt bs 6 2) && l.all (bundleOk levels) &&
    stagesOk (turnsOf l)

end Sys2Proof.Machine
end

