-- ==== Sys2Proof/Machine/Float.lean ====
section
/-! DEFINITION. The number formats of 05_matrix_arrays R132 and their arithmetic (R133): every operation is computed
exactly and rounded once, to nearest even, with saturation and canonical NaNs; the vector functions of R303; and the
IEEE 754 FP32 steps of the intake conversion (02_intake R57). -/

namespace Sys2Proof.Machine

/-- A floating format: exponent bits, mantissa bits, the code of its largest finite value, the code of its canonical
NaN, and whether it encodes infinities (R132). -/
structure Fmt where
  eb : Nat
  mb : Nat
  maxFin : Nat
  nan : Nat
  hasInf : Bool
  deriving DecidableEq, Repr

/-- FP32, code 9 of R132. -/
def fmtF32 : Fmt := ⟨8, 23, 0x7F7FFFFF, 0x7FC00000, true⟩
/-- BF16, code 8 of R132. -/
def fmtBF16 : Fmt := ⟨8, 7, 0x7F7F, 0x7FC0, true⟩
/-- E4M3, code 3 of R132: no infinity, one NaN pattern. -/
def fmtE4M3 : Fmt := ⟨4, 3, 0x7E, 0x7F, false⟩
/-- E5M2, code 4 of R132. -/
def fmtE5M2 : Fmt := ⟨5, 2, 0x7B, 0x7E, true⟩

/-- An unpacked value: NaN, or sign, significand and exponent of 2. -/
inductive FVal where
  | nan
  | fin (neg : Bool) (m : Nat) (e : Int)
  deriving DecidableEq, Repr

/-- The events that the counters of R150 and R151 count: saturations, NaN results, infinite inputs replaced, and
integer results that wrapped. -/
structure FStat where
  sat : Nat := 0
  nan : Nat := 0
  inf : Nat := 0
  wrap : Nat := 0
  deriving DecidableEq, Repr

/-- Two counts of events added. -/
def FStat.add (a b : FStat) : FStat := ⟨a.sat + b.sat, a.nan + b.nan, a.inf + b.inf, a.wrap + b.wrap⟩

/-- The sign bit's place in a format. -/
def fSignBit (f : Fmt) : Nat := 2 ^ (f.eb + f.mb)

/-- The exponent bias (R132). -/
def fBias (f : Fmt) : Nat := 2 ^ (f.eb - 1) - 1

/-- The value of a code; an infinite input is taken as the largest finite value of its sign (R133), and the second
part says so. -/
def fUnpack (f : Fmt) (code : Nat) : FVal × Bool :=
  let neg := decide (code / fSignBit f % 2 = 1)
  let mag := code % fSignBit f
  let fin (c : Nat) : FVal :=
    let ef := c / 2 ^ f.mb
    let mf := c % 2 ^ f.mb
    if ef = 0 then .fin neg mf (1 - (fBias f : Int) - f.mb)
    else .fin neg (2 ^ f.mb + mf) ((ef : Int) - fBias f - f.mb)
  if f.hasInf then
    if mag / 2 ^ f.mb = 2 ^ f.eb - 1 then
      if mag % 2 ^ f.mb = 0 then (fin f.maxFin, true) else (.nan, false)
    else (fin mag, false)
  else if mag = f.nan then (.nan, false) else (fin mag, false)

/-- Division of naturals rounded to nearest, ties to even. -/
def rneDiv (n d : Nat) : Nat :=
  let q := n / d
  let r := n % d
  if 2 * r > d then q + 1 else if 2 * r = d then q + q % 2 else q

/-- Floor of log2 of the positive rational n/d. -/
def ratLog2 (n d : Nat) : Int :=
  let k : Int := (Nat.log2 n : Int) - (Nat.log2 d : Int)
  if 0 ≤ k then (if n < d * 2 ^ k.toNat then k - 1 else k)
  else (if n * 2 ^ (-k).toNat < d then k - 1 else k)

/-- The magnitude code of the positive rational n/d rounded once to a format, before saturation. -/
def fRoundMag (f : Fmt) (n d : Nat) : Nat :=
  if n = 0 then 0 else
  let qmin : Int := 1 - (fBias f : Int) - f.mb
  let q := max (ratLog2 n d - f.mb) qmin
  let m := if 0 ≤ q then rneDiv n (d * 2 ^ q.toNat) else rneDiv (n * 2 ^ (-q).toNat) d
  (q - qmin).toNat * 2 ^ f.mb + m

/-- The sign of a result put on a magnitude code. -/
def fSign (f : Fmt) (neg : Bool) (mag : Nat) : Nat := if neg then fSignBit f + mag else mag

/-- The rational n/d with a sign, rounded once and saturated (R133). -/
def fRound (f : Fmt) (neg : Bool) (n d : Nat) : Nat × FStat :=
  let c := fRoundMag f n d
  if c > f.maxFin then (fSign f neg f.maxFin, { sat := 1 }) else (fSign f neg c, {})

/-- The dyadic m × 2^e with a sign, rounded once and saturated. -/
def fRoundDy (f : Fmt) (neg : Bool) (m : Nat) (e : Int) : Nat × FStat :=
  if 0 ≤ e then fRound f neg (m * 2 ^ e.toNat) 1 else fRound f neg m (2 ^ (-e).toNat)

/-- The canonical NaN as a result, counted (R133). -/
def fNan (f : Fmt) : Nat × FStat := (f.nan, { nan := 1 })

/-- The exact sum of two unpacked values as sign, magnitude and exponent; an exact zero is positive unless both are
negative zeros (R133). -/
def fSumExact : Bool → Nat → Int → Bool → Nat → Int → Bool × Nat × Int
  | n1, m1, e1, n2, m2, e2 =>
    let e := min e1 e2
    let a : Int := ((m1 * 2 ^ (e1 - e).toNat : Nat) : Int)
    let b : Int := ((m2 * 2 ^ (e2 - e).toNat : Nat) : Int)
    let s := (if n1 then -a else a) + (if n2 then -b else b)
    if s = 0 then (n1 && n2 && decide (m1 = 0) && decide (m2 = 0), 0, e)
    else (decide (s < 0), s.natAbs, e)

/-- Replacement counts of infinite inputs. -/
def infStat (a b c : Bool) : FStat := { inf := b2n a + b2n b + b2n c }

/-- Addition in a format under R133. -/
def fAdd (f : Fmt) (x y : Nat) : Nat × FStat :=
  let (a, ia) := fUnpack f x
  let (b, ib) := fUnpack f y
  match a, b with
  | .fin n1 m1 e1, .fin n2 m2 e2 =>
    let (n, m, e) := fSumExact n1 m1 e1 n2 m2 e2
    let r := fRoundDy f n m e
    (r.1, r.2.add (infStat ia ib false))
  | _, _ => ((fNan f).1, (fNan f).2.add (infStat ia ib false))

/-- The sign of a code flipped. -/
def fNeg (f : Fmt) (x : Nat) : Nat := if x / fSignBit f % 2 = 1 then x - fSignBit f else x + fSignBit f

/-- Subtraction under R133. -/
def fSub (f : Fmt) (x y : Nat) : Nat × FStat :=
  match (fUnpack f y).1 with
  | .nan => ((fNan f).1, (fNan f).2.add (infStat (fUnpack f x).2 false false))
  | _ => fAdd f x (fNeg f y)

/-- Multiplication under R133. -/
def fMul (f : Fmt) (x y : Nat) : Nat × FStat :=
  let (a, ia) := fUnpack f x
  let (b, ib) := fUnpack f y
  match a, b with
  | .fin n1 m1 e1, .fin n2 m2 e2 =>
    let r := fRoundDy f (n1 != n2) (m1 * m2) (e1 + e2)
    (r.1, r.2.add (infStat ia ib false))
  | _, _ => ((fNan f).1, (fNan f).2.add (infStat ia ib false))

/-- Fused multiply-add with one rounding (R301). -/
def fFma (f : Fmt) (x y z : Nat) : Nat × FStat :=
  let (a, ia) := fUnpack f x
  let (b, ib) := fUnpack f y
  let (c, ic) := fUnpack f z
  match a, b, c with
  | .fin n1 m1 e1, .fin n2 m2 e2, .fin n3 m3 e3 =>
    let (n, m, e) := fSumExact (n1 != n2) (m1 * m2) (e1 + e2) n3 m3 e3
    let r := fRoundDy f n m e
    (r.1, r.2.add (infStat ia ib ic))
  | _, _, _ => ((fNan f).1, (fNan f).2.add (infStat ia ib ic))

/-- add32 of R135: FP32 addition under R133. -/
def add32 (x y : Nat) : Nat := (fAdd fmtF32 x y).1

/-- Exact comparison of two unpacked finite values: x < y. -/
def fvLt : FVal → FVal → Bool
  | .fin n1 m1 e1, .fin n2 m2 e2 =>
    let (n, m, _) := fSumExact n1 m1 e1 (!n2) m2 e2
    n && decide (m ≠ 0)
  | _, _ => false

/-- Exact equality of two unpacked finite values; the two zeros are equal. -/
def fvEq : FVal → FVal → Bool
  | .fin n1 m1 e1, .fin n2 m2 e2 => decide ((fSumExact n1 m1 e1 (!n2) m2 e2).2.1 = 0)
  | _, _ => false

/-- FMIN and FMAX, MIN_F32 and MAX_F32: a NaN operand gives the canonical NaN, MAX of +0 and −0 is +0 and MIN is −0
(R163, R301). -/
def fMinMax (f : Fmt) (isMax : Bool) (x y : Nat) : Nat × FStat :=
  let (a, ia) := fUnpack f x
  let (b, ib) := fUnpack f y
  match a, b with
  | .fin n1 m1 e1, .fin n2 m2 e2 =>
    let pick :=
      if fvEq (.fin n1 m1 e1) (.fin n2 m2 e2) then
        (if isMax then (if n1 then (b, n2) else (a, n1)) else (if n1 then (a, n1) else (b, n2)))
      else if fvLt (.fin n1 m1 e1) (.fin n2 m2 e2) then (if isMax then (b, n2) else (a, n1))
      else (if isMax then (a, n1) else (b, n2))
    match pick with
    | (.fin _ m e, n) =>
      let r := fRoundDy f n m e
      (r.1, r.2.add (infStat ia ib false))
    | _ => fNan f
  | _, _ => ((fNan f).1, (fNan f).2.add (infStat ia ib false))

/-- FCMP of R301: 0 eq, 1 ne, 2 lt, 3 le; a NaN operand gives false, except ne, which gives true. -/
def fCmp (f : Fmt) (sub x y : Nat) : Bool × FStat :=
  let (a, ia) := fUnpack f x
  let (b, ib) := fUnpack f y
  let st := infStat ia ib false
  match a, b with
  | .fin n1 m1 e1, .fin n2 m2 e2 =>
    let u := FVal.fin n1 m1 e1
    let v := FVal.fin n2 m2 e2
    (match sub with
      | 0 => fvEq u v
      | 1 => !(fvEq u v)
      | 2 => fvLt u v
      | _ => fvLt u v || fvEq u v, st)
  | _, _ => (decide (sub = 1), st)

/-- A code of one format converted to another: exact value, one rounding, saturation (R302). -/
def fCvt (src dst : Fmt) (x : Nat) : Nat × FStat :=
  match fUnpack src x with
  | (.fin n m e, i) =>
    let r := fRoundDy dst n m e
    (r.1, r.2.add (infStat i false false))
  | (.nan, _) => fNan dst

/-- An exact value rounded to the nearest integer, ties to even. -/
def dyToInt (neg : Bool) (m : Nat) (e : Int) : Int :=
  let a := if 0 ≤ e then m * 2 ^ e.toNat else rneDiv m (2 ^ (-e).toNat)
  if neg then -(a : Int) else a

/-- An integer limited to a range; the flag counts a saturation. -/
def clampI (lo hi i : Int) : Int × FStat :=
  if i < lo then (lo, { sat := 1 }) else if i > hi then (hi, { sat := 1 }) else (i, {})

/-- Float to integer: rounded to nearest even, saturated; a NaN gives 0 (R133, R302). -/
def fToInt (f : Fmt) (lo hi : Int) (x : Nat) : Int × FStat :=
  match fUnpack f x with
  | (.fin n m e, i) =>
    let r := clampI lo hi (dyToInt n m e)
    (r.1, r.2.add (infStat i false false))
  | (.nan, _) => (0, { nan := 1 })

/-- Integer to float: exact value, one rounding. -/
def fOfInt (f : Fmt) (i : Int) : Nat × FStat := fRound f (decide (i < 0)) i.natAbs 1

/-! ### The vector functions (R303) -/

/-- Fraction bits of the high-precision steps; far beyond what any FP32 argument needs to decide a rounding. -/
def fnP : Nat := 320

/-- π × 2^320, rounded down. -/
def piFix : Nat := 0x3243f6a8885a308d313198a2e03707344a4093822299f31d0082efa98ec4e6c89452821e638d01377

/-- ln 2 × 2^320, rounded down. -/
def ln2Fix : Nat := 0xb17217f7d1cf79abc9e3b39803f2f6af40f343267298b62d8a0d175b8baafa2be7b876206debac98

/-- Taylor sum of e^t for 0 ≤ t < 1 in fixed point: `n` counts down, `k` counts the terms, `term` is t^k / k!. -/
def expTaylor : Nat → Nat → Nat → Nat → Nat → Nat
  | 0, _, _, _, acc => acc
  | n + 1, k, t, term, acc =>
    let term' := ((term * t) >>> fnP) / (k + 1)
    expTaylor n (k + 1) t term' (acc + term')

/-- e^t in fixed point for 0 ≤ t < 1. -/
def expFix (t : Nat) : Nat := expTaylor 90 0 t (2 ^ fnP) (2 ^ fnP)

/-- Sum of z^(2k+1)/(2k+1): the series of atanh. -/
def atanhSeries : Nat → Nat → Nat → Nat → Nat → Nat
  | 0, _, _, _, acc => acc
  | n + 1, k, z2, pw, acc => atanhSeries n (k + 1) z2 ((pw * z2) >>> fnP) (acc + pw / (2 * k + 1))

/-- ln z in fixed point for 1 ≤ z < 2, z in fixed point. -/
def lnFix (z : Nat) : Nat :=
  let u := ((z - 2 ^ fnP) <<< fnP) / (z + 2 ^ fnP)
  2 * atanhSeries 110 0 ((u * u) >>> fnP) u 0

/-- Sum of the sine or cosine series: alternating terms, starting term given. -/
def trigSeries : Nat → Nat → Nat → Int → Int → Int
  | 0, _, _, _, acc => acc
  | n + 1, k, t2, term, acc =>
    let term' := -((term * t2) / ((2 ^ fnP : Nat) : Int)) / (((k + 1) * (k + 2) : Nat) : Int)
    trigSeries n (k + 2) t2 term' (acc + term')

/-- cos t and sin t in fixed point for 0 ≤ t < π/2. -/
def cosSinFix (t : Nat) : Int × Int :=
  let t2 := (t * t) >>> fnP
  (trigSeries 60 0 t2 ((2 ^ fnP : Nat) : Int) ((2 ^ fnP : Nat) : Int), trigSeries 60 1 t2 t t)

/-- e^y in fixed point for a fixed-point y ≥ 0 below 2^8: e^y = 2^n × e^r with r below ln 2. -/
def expBig (y : Nat) : Nat :=
  let n := y / ln2Fix
  expFix (y % ln2Fix) * 2 ^ n

/-- |x| of an unpacked value in fixed point, rounded down. -/
def dyFix (m : Nat) (e : Int) : Nat :=
  let s := e + fnP
  if 0 ≤ s then m * 2 ^ s.toNat else m / 2 ^ (-s).toNat

/-- Whether |m × 2^e| ≥ k, for a natural k. -/
def dyGe (m : Nat) (e : Int) (k : Nat) : Bool :=
  if 0 ≤ e then decide (m * 2 ^ (min e.toNat 400) ≥ k) else decide (m ≥ k * 2 ^ (-e).toNat)

/-- EXP2: 2^x rounded once. -/
def fnExp2 (d : Fmt) (neg : Bool) (m : Nat) (e : Int) : Nat × FStat :=
  if m = 0 then fRound d false 1 1
  else if dyGe m e 256 then (if neg then (0, {}) else (d.maxFin, { sat := 1 }))
  else
    let x : Int := if neg then -(dyFix m e : Int) else dyFix m e
    let one : Int := ((2 ^ fnP : Nat) : Int)
    let n := fdiv x one
    let f := (x - n * one).toNat
    let v := if f = 0 then 2 ^ fnP else expFix ((f * ln2Fix) >>> fnP)
    fRoundDy d false v (n - fnP)

/-- LOG2 of a positive value rounded once. -/
def fnLog2 (d : Fmt) (m : Nat) (e : Int) : Nat × FStat :=
  let l := Nat.log2 m
  let k : Int := e + l
  if m = 2 ^ l then fRound d (decide (k < 0)) k.natAbs 1
  else
    let z := (m <<< fnP) / 2 ^ l
    let lg := (lnFix z <<< fnP) / ln2Fix
    let v := k * ((2 ^ fnP : Nat) : Int) + lg
    fRoundDy d (decide (v < 0)) v.natAbs (-(fnP : Int))

/-- RCP: the exact quotient rounded once. -/
def fnRcp (d : Fmt) (neg : Bool) (m : Nat) (e : Int) : Nat × FStat :=
  if 0 ≤ e then fRound d neg 1 (m * 2 ^ e.toNat) else fRound d neg (2 ^ (-e).toNat) m

/-- The integer square root by one bit a step, from the bit `n` − 1 down. -/
def isqrtBits : Nat → Nat → Nat → Nat
  | 0, _, r => r
  | n + 1, x, r => if (r + 2 ^ n) * (r + 2 ^ n) ≤ x then isqrtBits n x (r + 2 ^ n) else isqrtBits n x r

/-- The integer square root, rounded down. -/
def isqrt (x : Nat) : Nat := isqrtBits (Nat.log2 x / 2 + 1) x 0

/-- RSQRT of a positive value: the integer root with a sticky bit decides the one rounding. -/
def fnRsqrt (d : Fmt) (m : Nat) (e : Int) : Nat × FStat :=
  let n := if 0 ≤ e then 2 ^ (2 * fnP) else 2 ^ (2 * fnP) * 2 ^ (-e).toNat
  let dd := if 0 ≤ e then m * 2 ^ e.toNat else m
  let r := isqrt (n / dd)
  let sticky := if r * r * dd = n then 0 else 1
  fRoundDy d false (2 * r + sticky) (-(fnP : Int) - 1)

/-- TANH rounded once: below 2^−12 the value rounds to the argument itself, above 20 to 1. -/
def fnTanh (d : Fmt) (neg : Bool) (m : Nat) (e : Int) : Nat × FStat :=
  if m = 0 then (fSign d neg 0, {})
  else if !(dyGe (m * 4096) e 1) then fRoundDy d neg m e
  else if dyGe m e 20 then fRound d neg 1 1
  else
    let ee := expBig (2 * dyFix m e)
    fRound d neg (ee - 2 ^ fnP) (ee + 2 ^ fnP)

/-- SIGMOID rounded once: beyond ±200 the value rounds to 1 or to 0. -/
def fnSigmoid (d : Fmt) (neg : Bool) (m : Nat) (e : Int) : Nat × FStat :=
  if dyGe m e 200 then (if neg then (0, {}) else fRound d false 1 1)
  else
    let ee := expBig (dyFix m e)
    if neg then fRound d false (2 ^ fnP) (2 ^ fnP + ee) else fRound d false ee (2 ^ fnP + ee)

/-- FN of R303: sub-operation 0 EXP2, 1 LOG2, 2 RCP, 3 RSQRT, 4 TANH, 5 SIGMOID, on a code of format `s`, rounded once
to format `d`; the special cases of R303's table. -/
def fnApply (sub : Nat) (s d : Fmt) (x : Nat) : Nat × FStat :=
  match fUnpack s x with
  | (.nan, _) => fNan d
  | (.fin neg m e, i) =>
    let r : Nat × FStat :=
      match sub with
      | 0 => fnExp2 d neg m e
      | 1 => if m = 0 then (fSign d true d.maxFin, { sat := 1 }) else if neg then fNan d else fnLog2 d m e
      | 2 => if m = 0 then (fSign d neg d.maxFin, { sat := 1 }) else fnRcp d neg m e
      | 3 => if m = 0 then (fSign d neg d.maxFin, { sat := 1 }) else if neg then fNan d else fnRsqrt d m e
      | 4 => fnTanh d neg m e
      | _ => fnSigmoid d neg m e
    (r.1, r.2.add (infStat i false false))

/-! ### IEEE 754 steps of the intake conversion (R57): an overflow or an invalid operation is `none` -/

/-- FP32 rounding without saturation: none where the result is an infinity. -/
def ieeeRound (neg : Bool) (m : Nat) (e : Int) : Option Nat :=
  let c := if 0 ≤ e then fRoundMag fmtF32 (m * 2 ^ e.toNat) 1 else fRoundMag fmtF32 m (2 ^ (-e).toNat)
  if c > fmtF32.maxFin then none else some (fSign fmtF32 neg c)

/-- IEEE FP32 multiplication of finite codes. -/
def ieeeMul (x y : Option Nat) : Option Nat :=
  match x, y with
  | some a, some b =>
    match (fUnpack fmtF32 a).1, (fUnpack fmtF32 b).1 with
    | .fin n1 m1 e1, .fin n2 m2 e2 => ieeeRound (n1 != n2) (m1 * m2) (e1 + e2)
    | _, _ => none
  | _, _ => none

/-- IEEE FP32 addition of finite codes. -/
def ieeeAdd (x y : Option Nat) : Option Nat :=
  match x, y with
  | some a, some b =>
    match (fUnpack fmtF32 a).1, (fUnpack fmtF32 b).1 with
    | .fin n1 m1 e1, .fin n2 m2 e2 =>
      let (n, m, e) := fSumExact n1 m1 e1 n2 m2 e2
      ieeeRound n m e
    | _, _ => none
  | _, _ => none

/-- IEEE FP32 subtraction of finite codes. -/
def ieeeSub (x y : Option Nat) : Option Nat := ieeeAdd x (y.map (fNeg fmtF32))

/-- A natural number in FP32. -/
def ieeeOfNat (n : Nat) : Option Nat := ieeeRound false n 0

/-- round_half_even(v × 256) of R57 as an integer: none where the product overflows. -/
def ieeeQuant (v : Option Nat) : Option Int :=
  match ieeeMul v (some 0x43800000) with
  | some c =>
    match (fUnpack fmtF32 c).1 with
    | .fin n m e => some (dyToInt n m e)
    | .nan => none
  | none => none

/-- The ROM tables cs[a] and sn[a] of R57: cos and sin of 2πa/65,536 to the nearest FP32 value. -/
def romCosSin (a : Nat) : Nat × Nat :=
  let q := a % 65536 / 16384
  let r := a % 16384
  let cs := if r = 0 then (((2 ^ fnP : Nat) : Int), (0 : Int)) else cosSinFix (piFix * r / 32768)
  let rnd (v : Int) : Nat := (fRoundDy fmtF32 (decide (v < 0)) v.natAbs (-(fnP : Int))).1
  match q with
  | 0 => (rnd cs.1, rnd cs.2)
  | 1 => (rnd (-cs.2), rnd cs.1)
  | 2 => (rnd (-cs.1), rnd (-cs.2))
  | _ => (rnd cs.2, rnd (-cs.1))

end Sys2Proof.Machine
end

