-- ==== Sys2Proof/Config.lean ====
section
/-! DEFINITION. What one chip, or a body the manual does not give, fixes: constants with no body, so that no proof
can see a value of them. -/

namespace Sys2Proof.Config

/-- The value the n-th draw of a free value takes: the manual gives none (for example a byte of a flash range that
a FLASH_ERR leaves undefined, 16_host_pcie R414). Applied to `State.free`, which the draw advances. -/
opaque freeValue : Nat → Word64

/-- The 32-byte seed of the identity that the key store unwraps from ID_WRAP with the key of the on-die PUF and HELPER
(18_boot_security R441), or none where the PUF key or the GCM tag fails (ID_FAIL): the PUF is the die's own. -/
opaque identitySeed : List Byte → List Byte → Option (List Byte)

/-- Whether a flash device's SFDP table, read at discovery, describes a supported octal DDR device (R437):
the device's table bytes. The format is JESD216's. -/
opaque sfdpValid : List Byte → Bool

/-- Where a region of staging that no register and no section places lies, as the program image gives it (06_scratchpads
R177: each region at a base that the program image gives, of which the manual lays out no field): image measurement,
region. -/
opaque stagingBase : List Byte → Nat → Nat

/-- Bytes of one part of a run region (R95, R189: the manual gives no size): image measurement, level. -/
opaque stagingRuns : List Byte → Nat → Nat

/-- The clock identity that the protocol engine's messages carry (R370 names the standards and no value): byte n. -/
opaque clockIdentity : Nat → Byte

/-- How many fault log writes the fault controller's write queue holds (R361 names the queue and no depth). -/
opaque logDepth : Nat

/-- The SEC-DED code of a burst of the external store over its 256 data bits and the burst index (R425 names the code and
gives no matrix). -/
opaque secDed : Nat → Nat → BitVec 10

/-- The pattern that strobe training writes to the calibration area (R428 gives none). -/
opaque trainPattern : List Byte

end Sys2Proof.Config
end

