-- ==== Sys2Proof/Machine/RegMap.lean ====
section
/-! DEFINITION. The map of BAR0 (20_address_map R472): the address of every register and counter under the manual's
name (an indexed one takes its index), and for each register its access masks and reset value (R9 to R13), row by row
from the register tables of the chapters. -/

namespace Sys2Proof.Machine

/-! ### Addresses of the registers -/

/-- IG_STREAM_GEOM (R64 to R66). -/
def IG_STREAM_GEOM (i : Nat) : Nat := 0x11010 + 0x100 * i
/-- IG_STREAM_SECTOR (R64 to R66). -/
def IG_STREAM_SECTOR (i : Nat) : Nat := 0x11014 + 0x100 * i
/-- IG_STREAM_RANGE (R64 to R66). -/
def IG_STREAM_RANGE (i : Nat) : Nat := 0x11018 + 0x100 * i
/-- IG_STREAM_STAT (R64 to R66). -/
def IG_STREAM_STAT (i : Nat) : Nat := 0x1101C + 0x100 * i
/-- IG_STREAM_MASK_LO (R64 to R66). -/
def IG_STREAM_MASK_LO : Nat := 0x10010
/-- IG_STREAM_MASK_HI (R64 to R66). -/
def IG_STREAM_MASK_HI : Nat := 0x10014
/-- IG_BAND_CFG (R64 to R66). -/
def IG_BAND_CFG : Nat := 0x10020
/-- IG_BAND_BONUS (R64 to R66). -/
def IG_BAND_BONUS : Nat := 0x10024
/-- IG_SHED_LIMIT (R64 to R66). -/
def IG_SHED_LIMIT (i : Nat) : Nat := 0x10040 + 0x4 * i
/-- IG_MAC_CFG (R64 to R66). -/
def IG_MAC_CFG (i : Nat) : Nat := 0x10100 + 0x40 * i
/-- IG_CSI_CFG (R64 to R66). -/
def IG_CSI_CFG (i : Nat) : Nat := 0x10600 + 0x40 * i
/-- GB_VOX_X (R100, R101). -/
def GB_VOX_X : Nat := 0x20000
/-- GB_VOX_Y (R100, R101). -/
def GB_VOX_Y : Nat := 0x20004
/-- GB_VOX_Z (R100, R101). -/
def GB_VOX_Z : Nat := 0x20008
/-- GB_ROI_X_LO (R100, R101). -/
def GB_ROI_X_LO : Nat := 0x20010
/-- GB_ROI_X_HI (R100, R101). -/
def GB_ROI_X_HI : Nat := 0x20014
/-- GB_ROI_Y_LO (R100, R101). -/
def GB_ROI_Y_LO : Nat := 0x20018
/-- GB_ROI_Y_HI (R100, R101). -/
def GB_ROI_Y_HI : Nat := 0x2001C
/-- GB_ROI_Z_LO (R100, R101). -/
def GB_ROI_Z_LO : Nat := 0x20020
/-- GB_ROI_Z_HI (R100, R101). -/
def GB_ROI_Z_HI : Nat := 0x20024
/-- GB_HASH_CFG (R100, R101). -/
def GB_HASH_CFG : Nat := 0x20030
/-- GB_NBR_MASK (R100, R101). -/
def GB_NBR_MASK : Nat := 0x20034
/-- GB_STORE_CFG (R100, R101). -/
def GB_STORE_CFG : Nat := 0x20038
/-- GB_GOLD_CFG (R100, R101). -/
def GB_GOLD_CFG : Nat := 0x2003C
/-- GB_SALT0_LO (R100, R101). -/
def GB_SALT0_LO : Nat := 0x20040
/-- GB_SALT1_LO (R100, R101). -/
def GB_SALT1_LO : Nat := 0x20048
/-- GB_SALT0_HI (R100, R101). -/
def GB_SALT0_HI : Nat := 0x20044
/-- GB_SALT1_HI (R100, R101). -/
def GB_SALT1_HI : Nat := 0x2004C
/-- GB_FILL_LIMIT (R100, R101). -/
def GB_FILL_LIMIT (i : Nat) : Nat := 0x20080 + 0x4 * i
/-- GB_SITES (R100, R101). -/
def GB_SITES : Nat := 0x20100
/-- GB_SITES_PREV (R100, R101). -/
def GB_SITES_PREV : Nat := 0x20104
/-- GB_STASH_FILL (R100, R101). -/
def GB_STASH_FILL : Nat := 0x20108
/-- GB_PEND_FILL (R100, R101). -/
def GB_PEND_FILL : Nat := 0x2010C
/-- GB_COV_OFFERED (R100, R101). -/
def GB_COV_OFFERED : Nat := 0x20110
/-- GB_COV_MERGED (R100, R101). -/
def GB_COV_MERGED : Nat := 0x20114
/-- GB_COV_LAST_OFFERED (R100, R101). -/
def GB_COV_LAST_OFFERED : Nat := 0x20118
/-- GB_COV_LAST_MERGED (R100, R101). -/
def GB_COV_LAST_MERGED : Nat := 0x2011C
/-- GB_FRAME_STAT (R100, R101). -/
def GB_FRAME_STAT : Nat := 0x20120
/-- CM_CFG (R120). -/
def CM_CFG : Nat := 0x30000
/-- CM_PRIOR_CFG (R120). -/
def CM_PRIOR_CFG : Nat := 0x30004
/-- CM_PRIOR_SIZE (R120). -/
def CM_PRIOR_SIZE : Nat := 0x30008
/-- CM_PRIOR_ORIGIN_X (R120). -/
def CM_PRIOR_ORIGIN_X : Nat := 0x30010
/-- CM_PRIOR_ORIGIN_X_C (R120). -/
def CM_PRIOR_ORIGIN_X_C : Nat := 0x30014
/-- CM_PRIOR_ORIGIN_Y (R120). -/
def CM_PRIOR_ORIGIN_Y : Nat := 0x30018
/-- CM_PRIOR_ORIGIN_Y_C (R120). -/
def CM_PRIOR_ORIGIN_Y_C : Nat := 0x3001C
/-- CM_POSE_X_LO (R120). -/
def CM_POSE_X_LO : Nat := 0x30020
/-- CM_POSE_X_HI (R120). -/
def CM_POSE_X_HI : Nat := 0x30024
/-- CM_POSE_Y_LO (R120). -/
def CM_POSE_Y_LO : Nat := 0x30028
/-- CM_POSE_Y_HI (R120). -/
def CM_POSE_Y_HI : Nat := 0x3002C
/-- CM_POSE_COMMIT (R120). -/
def CM_POSE_COMMIT : Nat := 0x30030
/-- CM_GOLD_CFG (R120). -/
def CM_GOLD_CFG : Nat := 0x30034
/-- CM_WINDOW_X (R120). -/
def CM_WINDOW_X : Nat := 0x30040
/-- CM_WINDOW_Y (R120). -/
def CM_WINDOW_Y : Nat := 0x30044
/-- CM_TARGET_X (R120). -/
def CM_TARGET_X : Nat := 0x30048
/-- CM_TARGET_Y (R120). -/
def CM_TARGET_Y : Nat := 0x3004C
/-- CM_STATUS (R120). -/
def CM_STATUS : Nat := 0x30050
/-- MA_CORE_STATUS (R149). -/
def MA_CORE_STATUS (i : Nat) : Nat := 0x40000 + 0x400 * i
/-- MA_CORE_LEVEL (R149). -/
def MA_CORE_LEVEL (i : Nat) : Nat := 0x40004 + 0x400 * i
/-- MA_CORE_FAULT (R149). -/
def MA_CORE_FAULT (i : Nat) : Nat := 0x40008 + 0x400 * i
/-- MA_CORE_LAST_JOB (R149). -/
def MA_CORE_LAST_JOB (i : Nat) : Nat := 0x4000C + 0x400 * i
/-- TP_CORE_POWER (R181, R182). -/
def TP_CORE_POWER (i : Nat) : Nat := 0x50000 + 0x400 * i
/-- TP_CORE_FAULT (R181, R182). -/
def TP_CORE_FAULT (i : Nat) : Nat := 0x50008 + 0x400 * i
/-- TP_CORE_FAULT_ADDR (R181, R182). -/
def TP_CORE_FAULT_ADDR (i : Nat) : Nat := 0x5000C + 0x400 * i
/-- TP_CORE_RING_BASE (R181, R182). -/
def TP_CORE_RING_BASE (i j : Nat) : Nat := 0x50100 + 0x400 * i + 0x10 * j
/-- TP_CORE_RING_SIZE (R181, R182). -/
def TP_CORE_RING_SIZE (i j : Nat) : Nat := 0x50104 + 0x400 * i + 0x10 * j
/-- TP_CORE_RING_TAG (R181, R182). -/
def TP_CORE_RING_TAG (i j : Nat) : Nat := 0x50108 + 0x400 * i + 0x10 * j
/-- TP_CORE_RING_STAT (R181, R182). -/
def TP_CORE_RING_STAT (i j : Nat) : Nat := 0x5010C + 0x400 * i + 0x10 * j
/-- WP_CORE_POWER (R181, R182). -/
def WP_CORE_POWER (i : Nat) : Nat := 0x60000 + 0x400 * i
/-- WP_CORE_CREDIT_BASE (R181, R182). -/
def WP_CORE_CREDIT_BASE (i j : Nat) : Nat := 0x60100 + 0x400 * i + 0x10 * j
/-- WP_CORE_CREDIT_LIMIT (R181, R182). -/
def WP_CORE_CREDIT_LIMIT (i j : Nat) : Nat := 0x60104 + 0x400 * i + 0x10 * j
/-- WP_CORE_CREDIT_GRANT (R181, R182). -/
def WP_CORE_CREDIT_GRANT (i j : Nat) : Nat := 0x60108 + 0x400 * i + 0x10 * j
/-- WP_CORE_CREDIT_SEL (R181, R182). -/
def WP_CORE_CREDIT_SEL (i : Nat) : Nat := 0x60200 + 0x400 * i
/-- WP_CORE_CREDIT_AVAIL (R181, R182). -/
def WP_CORE_CREDIT_AVAIL (i : Nat) : Nat := 0x60204 + 0x400 * i
/-- WP_CMN_POWER_STAGING (R181, R182). -/
def WP_CMN_POWER_STAGING : Nat := 0x68000
/-- WP_CMN_POWER_HASH (R181, R182). -/
def WP_CMN_POWER_HASH : Nat := 0x68004
/-- AG_LVL_CFG (R209, R210). -/
def AG_LVL_CFG : Nat := 0x88000
/-- AG_WSET_CFG (R209, R210). -/
def AG_WSET_CFG : Nat := 0x88004
/-- AG_WSET_AREA (R209, R210). -/
def AG_WSET_AREA : Nat := 0x88008
/-- AG_WSET_SIZE (R209, R210). -/
def AG_WSET_SIZE : Nat := 0x8800C
/-- AG_LVL_CAP (R209, R210). -/
def AG_LVL_CAP (i : Nat) : Nat := 0x88010 + 0x10 * i
/-- AG_LVL_ENTRY (R209, R210). -/
def AG_LVL_ENTRY (i : Nat) : Nat := 0x88014 + 0x10 * i
/-- AG_LVL_KERNEL (R209, R210). -/
def AG_LVL_KERNEL (i : Nat) : Nat := 0x88018 + 0x10 * i
/-- AG_LVL_RUNS (R209, R210). -/
def AG_LVL_RUNS (i : Nat) : Nat := 0x8801C + 0x10 * i
/-- AG_KERNEL_MASK (R209, R210). -/
def AG_KERNEL_MASK (i j : Nat) : Nat := 0x88100 + 0x10 * i + 0x4 * j
/-- AG_FMAP_CFG (R209, R210). -/
def AG_FMAP_CFG (i : Nat) : Nat := 0x88200 + 0x4 * i
/-- AG_BEV_CFG (R209, R210). -/
def AG_BEV_CFG : Nat := 0x88300
/-- AG_BEV_COS (R209, R210). -/
def AG_BEV_COS : Nat := 0x88304
/-- AG_BEV_SIN (R209, R210). -/
def AG_BEV_SIN : Nat := 0x88308
/-- AG_CORE_QUEUE (R209, R210). -/
def AG_CORE_QUEUE (i : Nat) : Nat := 0x80000 + 0x400 * i
/-- AG_CORE_FAULT (R209, R210). -/
def AG_CORE_FAULT (i : Nat) : Nat := 0x80008 + 0x400 * i
/-- CS_CFG (R234, R235). -/
def CS_CFG : Nat := 0x90000
/-- CS_BAL_CFG (R234, R235). -/
def CS_BAL_CFG : Nat := 0x90004
/-- CS_REC_CTRL (R234, R235). -/
def CS_REC_CTRL : Nat := 0x90010
/-- CS_REC_STATUS (R234, R235). -/
def CS_REC_STATUS : Nat := 0x90014
/-- CS_REC_BASE (R234, R235). -/
def CS_REC_BASE : Nat := 0x90018
/-- CS_REC_SIZE (R234, R235). -/
def CS_REC_SIZE : Nat := 0x9001C
/-- CS_REC_HEAD (R234, R235). -/
def CS_REC_HEAD : Nat := 0x90020
/-- CS_REC_TAIL (R234, R235). -/
def CS_REC_TAIL : Nat := 0x90024
/-- CS_REC_SESSION_LO (R234, R235). -/
def CS_REC_SESSION_LO : Nat := 0x90028
/-- CS_REC_SESSION_HI (R234, R235). -/
def CS_REC_SESSION_HI : Nat := 0x9002C
/-- CS_CREW_STATUS (R234, R235). -/
def CS_CREW_STATUS (i : Nat) : Nat := 0x90100 + 0x100 * i
/-- CS_CREW_SLOTS (R234, R235). -/
def CS_CREW_SLOTS (i : Nat) : Nat := 0x90104 + 0x100 * i
/-- CS_CREW_FAULT (R234, R235). -/
def CS_CREW_FAULT (i : Nat) : Nat := 0x90108 + 0x100 * i
/-- CS_CORE_JRNL_BASE (R234, R235). -/
def CS_CORE_JRNL_BASE (i : Nat) : Nat := 0x91000 + 0x40 * i
/-- CS_CORE_JRNL_SIZE (R234, R235). -/
def CS_CORE_JRNL_SIZE (i : Nat) : Nat := 0x91004 + 0x40 * i
/-- CS_CORE_JRNL_SEG (R234, R235). -/
def CS_CORE_JRNL_SEG (i : Nat) : Nat := 0x91008 + 0x40 * i
/-- CS_CORE_JRNL_FILL (R234, R235). -/
def CS_CORE_JRNL_FILL (i : Nat) : Nat := 0x9100C + 0x40 * i
/-- ET_CFG (R256, R257). -/
def ET_CFG : Nat := 0xA0000
/-- ET_ADAPT_CTRL (R256, R257). -/
def ET_ADAPT_CTRL : Nat := 0xA0010
/-- ET_ADAPT_STATUS (R256, R257). -/
def ET_ADAPT_STATUS : Nat := 0xA0014
/-- ET_ADAPT_LR (R256, R257). -/
def ET_ADAPT_LR : Nat := 0xA0018
/-- ET_MERGE_BASE (R256, R257). -/
def ET_MERGE_BASE : Nat := 0xA001C
/-- ET_MERGE_SIZE (R256, R257). -/
def ET_MERGE_SIZE : Nat := 0xA0020
/-- ET_FAULT (R256, R257). -/
def ET_FAULT : Nat := 0xA0024
/-- ET_REQ (R256, R257). -/
def ET_REQ (i : Nat) : Nat := 0xA0040 + 0x4 * i
/-- ET_TABLE_CFG (R256, R257). -/
def ET_TABLE_CFG (i : Nat) : Nat := 0xA1000 + 0x40 * i
/-- ET_TABLE_FMT (R256, R257). -/
def ET_TABLE_FMT (i : Nat) : Nat := 0xA1004 + 0x40 * i
/-- ET_TABLE_COPY0 (R256, R257). -/
def ET_TABLE_COPY0 (i : Nat) : Nat := 0xA1008 + 0x40 * i
/-- ET_TABLE_COPY1 (R256, R257). -/
def ET_TABLE_COPY1 (i : Nat) : Nat := 0xA100C + 0x40 * i
/-- ET_TABLE_VER (R256, R257). -/
def ET_TABLE_VER (i : Nat) : Nat := 0xA1010 + 0x40 * i
/-- ET_TABLE_VER_C (R256, R257). -/
def ET_TABLE_VER_C (i : Nat) : Nat := 0xA1014 + 0x40 * i
/-- ET_TABLE_COMMIT (R256, R257). -/
def ET_TABLE_COMMIT (i : Nat) : Nat := 0xA1018 + 0x40 * i
/-- ET_TABLE_COMMIT_C (R256, R257). -/
def ET_TABLE_COMMIT_C (i : Nat) : Nat := 0xA101C + 0x40 * i
/-- ET_TABLE_CTRL (R256, R257). -/
def ET_TABLE_CTRL (i : Nat) : Nat := 0xA1020 + 0x40 * i
/-- ET_TABLE_STATUS (R256, R257). -/
def ET_TABLE_STATUS (i : Nat) : Nat := 0xA1024 + 0x40 * i
/-- ET_TABLE_EFFECT_LO (R256, R257). -/
def ET_TABLE_EFFECT_LO (i : Nat) : Nat := 0xA1028 + 0x40 * i
/-- ET_TABLE_EFFECT_HI (R256, R257). -/
def ET_TABLE_EFFECT_HI (i : Nat) : Nat := 0xA102C + 0x40 * i
/-- CO_CORE_STATUS (R309). -/
def CO_CORE_STATUS (i : Nat) : Nat := 0x70000 + 0x400 * i
/-- CO_CORE_FAULT (R309). -/
def CO_CORE_FAULT (i : Nat) : Nat := 0x70008 + 0x400 * i
/-- CO_CORE_FAULT_AT (R309). -/
def CO_CORE_FAULT_AT (i : Nat) : Nat := 0x7000C + 0x400 * i
/-- CO_CORE_CTX (R309). -/
def CO_CORE_CTX (i j : Nat) : Nat := 0x70010 + 0x400 * i + 0x4 * j
/-- SI_STATUS (R344, R345). -/
def SI_STATUS : Nat := 0xB0000
/-- SI_STATUS_C (R344, R345). -/
def SI_STATUS_C : Nat := 0xB0004
/-- SI_LAST_DOUBT (R344, R345). -/
def SI_LAST_DOUBT : Nat := 0xB0008
/-- SI_LAST_DOUBT_STROKE_LO (R344, R345). -/
def SI_LAST_DOUBT_STROKE_LO : Nat := 0xB0010
/-- SI_LAST_DOUBT_STROKE_HI (R344, R345). -/
def SI_LAST_DOUBT_STROKE_HI : Nat := 0xB0014
/-- SI_FATAL (R344, R345). -/
def SI_FATAL : Nat := 0xB0018
/-- SI_SERVE (R344, R345). -/
def SI_SERVE (i : Nat) : Nat := 0xB0100 + 0x4 * i
/-- WW_STATE (R344, R345). -/
def WW_STATE (i : Nat) : Nat := 0xC0000 + 0x20 * i
/-- WW_LAST_LO (R344, R345). -/
def WW_LAST_LO (i : Nat) : Nat := 0xC0004 + 0x20 * i
/-- WW_LAST_HI (R344, R345). -/
def WW_LAST_HI (i : Nat) : Nat := 0xC0008 + 0x20 * i
/-- CS_FLT_STATUS (R362). -/
def CS_FLT_STATUS : Nat := 0x90900
/-- CS_FLT_LAST (R362). -/
def CS_FLT_LAST : Nat := 0x90904
/-- CS_FLT_LAST_STROKE_LO (R362). -/
def CS_FLT_LAST_STROKE_LO : Nat := 0x90908
/-- CS_FLT_LAST_STROKE_HI (R362). -/
def CS_FLT_LAST_STROKE_HI : Nat := 0x9090C
/-- CS_FLT_LOG_POS (R362). -/
def CS_FLT_LOG_POS : Nat := 0x90910
/-- CS_FLT_LOG_SEQ_LO (R362). -/
def CS_FLT_LOG_SEQ_LO : Nat := 0x90914
/-- CS_FLT_LOG_SEQ_HI (R362). -/
def CS_FLT_LOG_SEQ_HI : Nat := 0x90918
/-- TB_CFG (R380). -/
def TB_CFG : Nat := 0xD0000
/-- TB_MASTER_CFG (R380). -/
def TB_MASTER_CFG : Nat := 0xD0004
/-- TB_KP (R380). -/
def TB_KP : Nat := 0xD0008
/-- TB_KI (R380). -/
def TB_KI : Nat := 0xD000C
/-- TB_STEP_THRESH (R380). -/
def TB_STEP_THRESH : Nat := 0xD0010
/-- TB_LOCK (R380). -/
def TB_LOCK : Nat := 0xD0014
/-- TB_STATUS (R380). -/
def TB_STATUS : Nat := 0xD0018
/-- TB_RAW_LO (R380). -/
def TB_RAW_LO : Nat := 0xD0020
/-- TB_RAW_HI (R380). -/
def TB_RAW_HI : Nat := 0xD0024
/-- TB_NOW_FRAC (R380). -/
def TB_NOW_FRAC : Nat := 0xD0028
/-- TB_NOW_LO (R380). -/
def TB_NOW_LO : Nat := 0xD002C
/-- TB_NOW_HI (R380). -/
def TB_NOW_HI : Nat := 0xD0030
/-- TB_OFFSET_FRAC (R380). -/
def TB_OFFSET_FRAC : Nat := 0xD0040
/-- TB_OFFSET_LO (R380). -/
def TB_OFFSET_LO : Nat := 0xD0044
/-- TB_OFFSET_HI (R380). -/
def TB_OFFSET_HI : Nat := 0xD0048
/-- TB_RATE_LO (R380). -/
def TB_RATE_LO : Nat := 0xD004C
/-- TB_RATE_HI (R380). -/
def TB_RATE_HI : Nat := 0xD0050
/-- TB_ADJ_OFFSET_FRAC (R380). -/
def TB_ADJ_OFFSET_FRAC : Nat := 0xD0060
/-- TB_ADJ_OFFSET_LO (R380). -/
def TB_ADJ_OFFSET_LO : Nat := 0xD0064
/-- TB_ADJ_OFFSET_HI (R380). -/
def TB_ADJ_OFFSET_HI : Nat := 0xD0068
/-- TB_ADJ_RATE_LO (R380). -/
def TB_ADJ_RATE_LO : Nat := 0xD006C
/-- TB_ADJ_RATE_HI (R380). -/
def TB_ADJ_RATE_HI : Nat := 0xD0070
/-- TB_ADJ_CTRL (R380). -/
def TB_ADJ_CTRL : Nat := 0xD0074
/-- TB_LAST_M_LO (R380). -/
def TB_LAST_M_LO : Nat := 0xD0078
/-- TB_LAST_M_HI (R380). -/
def TB_LAST_M_HI : Nat := 0xD007C
/-- TB_STROKE_OFFSET_LO (R380). -/
def TB_STROKE_OFFSET_LO : Nat := 0xD0080
/-- TB_STROKE_OFFSET_HI (R380). -/
def TB_STROKE_OFFSET_HI : Nat := 0xD0084
/-- TB_MAC_PTP (R380). -/
def TB_MAC_PTP (i : Nat) : Nat := 0xD0100 + 0x8 * i
/-- TB_MAC_LAT (R380). -/
def TB_MAC_LAT (i : Nat) : Nat := 0xD0104 + 0x8 * i
/-- TB_TRIG_CFG (R380). -/
def TB_TRIG_CFG (i : Nat) : Nat := 0xD1000 + 0x20 * i
/-- TB_TRIG_START_LO (R380). -/
def TB_TRIG_START_LO (i : Nat) : Nat := 0xD1004 + 0x20 * i
/-- TB_TRIG_START_HI (R380). -/
def TB_TRIG_START_HI (i : Nat) : Nat := 0xD1008 + 0x20 * i
/-- TB_TRIG_PERIOD (R380). -/
def TB_TRIG_PERIOD (i : Nat) : Nat := 0xD100C + 0x20 * i
/-- TB_TRIG_WIDTH (R380). -/
def TB_TRIG_WIDTH (i : Nat) : Nat := 0xD1010 + 0x20 * i
/-- TB_CAP_CFG (R380). -/
def TB_CAP_CFG (i : Nat) : Nat := 0xD2000 + 0x20 * i
/-- TB_CAP_VAL_LO (R380). -/
def TB_CAP_VAL_LO (i : Nat) : Nat := 0xD2004 + 0x20 * i
/-- TB_CAP_VAL_HI (R380). -/
def TB_CAP_VAL_HI (i : Nat) : Nat := 0xD2008 + 0x20 * i
/-- TB_CAP_STAT (R380). -/
def TB_CAP_STAT (i : Nat) : Nat := 0xD200C + 0x20 * i
/-- RL_CFG (R400). -/
def RL_CFG : Nat := 0xE0000
/-- RL_TILE_OWN (R400). -/
def RL_TILE_OWN : Nat := 0xE0004
/-- RL_TILE_OWN_C (R400). -/
def RL_TILE_OWN_C : Nat := 0xE0008
/-- RL_VIEW (R400). -/
def RL_VIEW : Nat := 0xE0010
/-- RL_SHARD_DIR_X (R400). -/
def RL_SHARD_DIR_X (i : Nat) : Nat := 0xE0020 + 0x10 * i
/-- RL_SHARD_DIR_Y (R400). -/
def RL_SHARD_DIR_Y (i : Nat) : Nat := 0xE0024 + 0x10 * i
/-- RL_SHARD_HALO_LO (R400). -/
def RL_SHARD_HALO_LO (i : Nat) : Nat := 0xE0028 + 0x10 * i
/-- RL_SHARD_HALO_HI (R400). -/
def RL_SHARD_HALO_HI (i : Nat) : Nat := 0xE002C + 0x10 * i
/-- RL_LINK_STATUS (R400). -/
def RL_LINK_STATUS (i : Nat) : Nat := 0xE0400 + 0x80 * i
/-- HI_STATUS (R418). -/
def HI_STATUS : Nat := 0xF0000
/-- HI_MBX_CMD (R418). -/
def HI_MBX_CMD : Nat := 0xF0040
/-- HI_MBX_ARG (R418). -/
def HI_MBX_ARG (i : Nat) : Nat := 0xF0044 + 0x4 * i
/-- HI_MBX_STATUS (R418). -/
def HI_MBX_STATUS : Nat := 0xF0054
/-- HI_MBX_RES0 (R418). -/
def HI_MBX_RES0 : Nat := 0xF0058
/-- HI_MBX_RES1 (R418). -/
def HI_MBX_RES1 : Nat := 0xF005C
/-- HI_RING_CFG (R418). -/
def HI_RING_CFG (i : Nat) : Nat := 0xF0100 + 0x40 * i
/-- HI_RING_BASE_LO (R418). -/
def HI_RING_BASE_LO (i : Nat) : Nat := 0xF0104 + 0x40 * i
/-- HI_RING_BASE_HI (R418). -/
def HI_RING_BASE_HI (i : Nat) : Nat := 0xF0108 + 0x40 * i
/-- HI_RING_STAT_LO (R418). -/
def HI_RING_STAT_LO (i : Nat) : Nat := 0xF010C + 0x40 * i
/-- HI_RING_STAT_HI (R418). -/
def HI_RING_STAT_HI (i : Nat) : Nat := 0xF0110 + 0x40 * i
/-- HI_RING_PROD (R418). -/
def HI_RING_PROD (i : Nat) : Nat := 0xF0114 + 0x40 * i
/-- HI_RING_CONS (R418). -/
def HI_RING_CONS (i : Nat) : Nat := 0xF0118 + 0x40 * i
/-- XS_CFG (R432). -/
def XS_CFG : Nat := 0x100000
/-- XS_TIMING (R432). -/
def XS_TIMING : Nat := 0x100004
/-- XS_OPCODE (R432). -/
def XS_OPCODE : Nat := 0x100008
/-- XS_OPCODE2 (R432). -/
def XS_OPCODE2 : Nat := 0x10000C
/-- XS_MRW (R432). -/
def XS_MRW (i : Nat) : Nat := 0x100010 + 0x4 * i
/-- XS_CH_CFG (R432). -/
def XS_CH_CFG (i : Nat) : Nat := 0x101000 + 0x80 * i
/-- XS_CH_STATUS (R432). -/
def XS_CH_STATUS (i : Nat) : Nat := 0x101004 + 0x80 * i
/-- BT_STATUS (R450). -/
def BT_STATUS : Nat := 0x110000
/-- BT_SV (R450). -/
def BT_SV : Nat := 0x110004
/-- BT_IMG_SV (R450). -/
def BT_IMG_SV : Nat := 0x110008
/-- BT_MEAS (R450). -/
def BT_MEAS (i : Nat) : Nat := 0x110040 + 0x4 * i
/-- BT_KEYHASH (R450). -/
def BT_KEYHASH (i : Nat) : Nat := 0x110080 + 0x4 * i
/-- BT_PROT_CFG (R450). -/
def BT_PROT_CFG : Nat := 0x110100
/-- BT_PROT_CFG_C (R450). -/
def BT_PROT_CFG_C : Nat := 0x110104
/-- BT_RESTART_BASE (R450). -/
def BT_RESTART_BASE : Nat := 0x110108
/-- BT_RESTART_BASE_C (R450). -/
def BT_RESTART_BASE_C : Nat := 0x11010C
/-- BT_RESTART_SIZE (R450). -/
def BT_RESTART_SIZE : Nat := 0x110110
/-- BT_RESTART_SIZE_C (R450). -/
def BT_RESTART_SIZE_C : Nat := 0x110114
/-- BT_LOCK (R450). -/
def BT_LOCK : Nat := 0x110118
/-- BT_PROT_WIN_BASE (R450). -/
def BT_PROT_WIN_BASE (i : Nat) : Nat := 0x110200 + 0x10 * i
/-- BT_PROT_WIN_BASE_C (R450). -/
def BT_PROT_WIN_BASE_C (i : Nat) : Nat := 0x110204 + 0x10 * i
/-- BT_PROT_WIN_LIMIT (R450). -/
def BT_PROT_WIN_LIMIT (i : Nat) : Nat := 0x110208 + 0x10 * i
/-- BT_PROT_WIN_LIMIT_C (R450). -/
def BT_PROT_WIN_LIMIT_C (i : Nat) : Nat := 0x11020C + 0x10 * i
/-- PM_STATUS (R470). -/
def PM_STATUS : Nat := 0x120000
/-- PM_RESET_CAUSE (R470). -/
def PM_RESET_CAUSE : Nat := 0x120004
/-- PM_STRAPS (R470). -/
def PM_STRAPS : Nat := 0x120008
/-- PM_THERM_CFG (R470). -/
def PM_THERM_CFG : Nat := 0x120010
/-- PM_THERM_STATUS (R470). -/
def PM_THERM_STATUS : Nat := 0x120014
/-- PM_THERM_TEMP (R470). -/
def PM_THERM_TEMP (i : Nat) : Nat := 0x120100 + 0x4 * i
/-- HI_DEV_ID (R476 to R479). -/
def HI_DEV_ID : Nat := 0x0
/-- HI_DEV_SERIAL_LO (R476 to R479). -/
def HI_DEV_SERIAL_LO : Nat := 0x28
/-- HI_DEV_SERIAL_HI (R476 to R479). -/
def HI_DEV_SERIAL_HI : Nat := 0x2C
/-- HI_DEV_CAP0 (R476 to R479). -/
def HI_DEV_CAP0 : Nat := 0x8
/-- HI_DEV_CAP1 (R476 to R479). -/
def HI_DEV_CAP1 : Nat := 0xC
/-- HI_GLB_STATUS (R476 to R479). -/
def HI_GLB_STATUS : Nat := 0x10
/-- HI_GLB_STROKE_LO (R476 to R479). -/
def HI_GLB_STROKE_LO : Nat := 0x18
/-- HI_GLB_STROKE_HI (R476 to R479). -/
def HI_GLB_STROKE_HI : Nat := 0x1C
/-- HI_GLB_FRAME (R476 to R479). -/
def HI_GLB_FRAME : Nat := 0x24
/-- HI_FLT_SUMMARY (R476 to R479). -/
def HI_FLT_SUMMARY : Nat := 0x40
/-- HI_FLT_CORES (R476 to R479). -/
def HI_FLT_CORES : Nat := 0x44
/-- HI_IRQ_CAUSE (R476 to R479). -/
def HI_IRQ_CAUSE : Nat := 0x48
/-- IG_STREAM_BIND (R64 to R66). -/
def IG_STREAM_BIND (i : Nat) : Nat := 0x11000 + 0x100 * i
/-- IG_STREAM_BIND_C (R64 to R66). -/
def IG_STREAM_BIND_C (i : Nat) : Nat := 0x11004 + 0x100 * i
/-- IG_STREAM_SRCMAC_LO (R64 to R66). -/
def IG_STREAM_SRCMAC_LO (i : Nat) : Nat := 0x11008 + 0x100 * i
/-- IG_STREAM_SRCMAC_HI (R64 to R66). -/
def IG_STREAM_SRCMAC_HI (i : Nat) : Nat := 0x1100C + 0x100 * i
/-- WP_CMN_CREDIT_BASE (R181, R182). -/
def WP_CMN_CREDIT_BASE (i : Nat) : Nat := 0x68100 + 0x10 * i
/-- WP_CMN_CREDIT_LIMIT (R181, R182). -/
def WP_CMN_CREDIT_LIMIT (i : Nat) : Nat := 0x68104 + 0x10 * i
/-- WP_CMN_CREDIT_GRANT (R181, R182). -/
def WP_CMN_CREDIT_GRANT (i : Nat) : Nat := 0x68108 + 0x10 * i
/-- SI_PARAM (R344, R345). -/
def SI_PARAM (i : Nat) : Nat := 0xB1000 + 0x4 * i
/-- ET_DEFAULT (R256, R257). -/
def ET_DEFAULT (i j : Nat) : Nat := 0xA8000 + 0x100 * i + 0x4 * j

/-! ### Addresses of the counters -/

/-- The counter IG_STREAM_PKT_OK. -/
def IG_STREAM_PKT_OK (i : Nat) : Nat := 0x11040 + 0x100 * i
/-- The counter IG_STREAM_PKT_CRC. -/
def IG_STREAM_PKT_CRC (i : Nat) : Nat := 0x11050 + 0x100 * i
/-- The counter IG_STREAM_PKT_FMT. -/
def IG_STREAM_PKT_FMT (i : Nat) : Nat := 0x11060 + 0x100 * i
/-- The counter IG_STREAM_PKT_ORDER. -/
def IG_STREAM_PKT_ORDER (i : Nat) : Nat := 0x11070 + 0x100 * i
/-- The counter IG_STREAM_RET_VALID. -/
def IG_STREAM_RET_VALID (i : Nat) : Nat := 0x11080 + 0x100 * i
/-- The counter IG_STREAM_RET_INVALID. -/
def IG_STREAM_RET_INVALID (i : Nat) : Nat := 0x11090 + 0x100 * i
/-- The counter IG_STREAM_SECT_ACCEPT. -/
def IG_STREAM_SECT_ACCEPT (i : Nat) : Nat := 0x110A0 + 0x100 * i
/-- The counter IG_STREAM_SECT_FAIL. -/
def IG_STREAM_SECT_FAIL (i : Nat) : Nat := 0x110B0 + 0x100 * i
/-- The counter IG_STREAM_SECT_SHED. -/
def IG_STREAM_SECT_SHED (i : Nat) : Nat := 0x110C0 + 0x100 * i
/-- The counter IG_STREAM_RET_SHED. -/
def IG_STREAM_RET_SHED (i : Nat) : Nat := 0x110D0 + 0x100 * i
/-- The counter IG_MAC_FCS_ERR. -/
def IG_MAC_FCS_ERR (i : Nat) : Nat := 0x10110 + 0x40 * i
/-- The counter IG_MAC_BUF_DROP. -/
def IG_MAC_BUF_DROP (i : Nat) : Nat := 0x10120 + 0x40 * i
/-- The counter IG_MAC_UNBOUND. -/
def IG_MAC_UNBOUND (i : Nat) : Nat := 0x10130 + 0x40 * i
/-- The counter IG_CSI_BUF_DROP. -/
def IG_CSI_BUF_DROP (i : Nat) : Nat := 0x10610 + 0x40 * i
/-- The counter IG_CSI_UNBOUND. -/
def IG_CSI_UNBOUND (i : Nat) : Nat := 0x10620 + 0x40 * i
/-- The counter GB_PT_RANGE. -/
def GB_PT_RANGE : Nat := 0x20200
/-- The counter GB_PT_DOOMED. -/
def GB_PT_DOOMED : Nat := 0x20210
/-- The counter GB_DISPLACE. -/
def GB_DISPLACE : Nat := 0x20220
/-- The counter GB_STASH_PUT. -/
def GB_STASH_PUT : Nat := 0x20230
/-- The counter GB_PLACE_FAIL. -/
def GB_PLACE_FAIL : Nat := 0x20240
/-- The counter GB_SECT_COMMIT. -/
def GB_SECT_COMMIT : Nat := 0x20250
/-- The counter GB_SECT_ROLLBACK. -/
def GB_SECT_ROLLBACK : Nat := 0x20260
/-- The counter GB_SECT_DROP. -/
def GB_SECT_DROP : Nat := 0x20270
/-- The counter GB_RET_DROP. -/
def GB_RET_DROP : Nat := 0x20280
/-- The counter GB_SLOT_DROP. -/
def GB_SLOT_DROP : Nat := 0x20290
/-- The counter GB_GOLD_PLACE_FAIL. -/
def GB_GOLD_PLACE_FAIL : Nat := 0x202A0
/-- The counter CM_CTR_ROLL_STEP. -/
def CM_CTR_ROLL_STEP : Nat := 0x30200
/-- The counter CM_CTR_JUMP. -/
def CM_CTR_JUMP : Nat := 0x30210
/-- The counter CM_CTR_ROLL_LAG. -/
def CM_CTR_ROLL_LAG : Nat := 0x30220
/-- The counter CM_CTR_RELOAD. -/
def CM_CTR_RELOAD : Nat := 0x30230
/-- The counter CM_CTR_PRIOR_DEFAULT. -/
def CM_CTR_PRIOR_DEFAULT : Nat := 0x30240
/-- The counter CM_CTR_SCAT_OUTSIDE. -/
def CM_CTR_SCAT_OUTSIDE : Nat := 0x30250
/-- The counter CM_CTR_WB_OUTSIDE. -/
def CM_CTR_WB_OUTSIDE : Nat := 0x30260
/-- The counter CM_CTR_EXPIRED. -/
def CM_CTR_EXPIRED : Nat := 0x30270
/-- The counter CM_CTR_ROLL_SLOW. -/
def CM_CTR_ROLL_SLOW : Nat := 0x30280
/-- The counter MA_WAVES. -/
def MA_WAVES (i : Nat) : Nat := 0x40100 + 0x400 * i
/-- The counter MA_DUMMY. -/
def MA_DUMMY (i : Nat) : Nat := 0x40110 + 0x400 * i
/-- The counter MA_RAMP_FREEZE. -/
def MA_RAMP_FREEZE (i : Nat) : Nat := 0x40120 + 0x400 * i
/-- The counter MA_SAT. -/
def MA_SAT (i : Nat) : Nat := 0x40130 + 0x400 * i
/-- The counter MA_NAN. -/
def MA_NAN (i : Nat) : Nat := 0x40140 + 0x400 * i
/-- The counter MA_IN_INF. -/
def MA_IN_INF (i : Nat) : Nat := 0x40150 + 0x400 * i
/-- The counter MA_INT_WRAP. -/
def MA_INT_WRAP (i : Nat) : Nat := 0x40160 + 0x400 * i
/-- The counter MA_ACC_CORR. -/
def MA_ACC_CORR (i : Nat) : Nat := 0x40170 + 0x400 * i
/-- The counter MA_JOB_ABORT. -/
def MA_JOB_ABORT (i : Nat) : Nat := 0x40180 + 0x400 * i
/-- The counter CO_CTR_SAT. -/
def CO_CTR_SAT (i : Nat) : Nat := 0x70100 + 0x400 * i
/-- The counter CO_CTR_NAN. -/
def CO_CTR_NAN (i : Nat) : Nat := 0x70110 + 0x400 * i
/-- The counter CO_CTR_IN_INF. -/
def CO_CTR_IN_INF (i : Nat) : Nat := 0x70120 + 0x400 * i
/-- The counter CO_CTR_WRAP. -/
def CO_CTR_WRAP (i : Nat) : Nat := 0x70130 + 0x400 * i
/-- The counter CO_CTR_MX_NAN. -/
def CO_CTR_MX_NAN (i : Nat) : Nat := 0x70140 + 0x400 * i
/-- The counter CO_CTR_BUNDLES. -/
def CO_CTR_BUNDLES (i : Nat) : Nat := 0x70150 + 0x400 * i
/-- The counter CO_CTR_PSTORE_CORR. -/
def CO_CTR_PSTORE_CORR (i : Nat) : Nat := 0x70160 + 0x400 * i
/-- The counter CO_CTR_SUPPRESSED. -/
def CO_CTR_SUPPRESSED (i : Nat) : Nat := 0x70170 + 0x400 * i
/-- The counter TP_CORR. -/
def TP_CORR (i : Nat) : Nat := 0x50300 + 0x400 * i
/-- The counter TP_CORR_FREEZE. -/
def TP_CORR_FREEZE (i : Nat) : Nat := 0x50310 + 0x400 * i
/-- The counter TP_CONFLICT_FREEZE. -/
def TP_CONFLICT_FREEZE (i : Nat) : Nat := 0x50320 + 0x400 * i
/-- The counter TP_PROMOTE_FREEZE. -/
def TP_PROMOTE_FREEZE (i : Nat) : Nat := 0x50330 + 0x400 * i
/-- The counter TP_SLOT_WAIT. -/
def TP_SLOT_WAIT (i : Nat) : Nat := 0x50340 + 0x400 * i
/-- The counter TP_SLOT_UNDERRUN. -/
def TP_SLOT_UNDERRUN (i : Nat) : Nat := 0x50350 + 0x400 * i
/-- The counter TP_SLOT_OVERRUN. -/
def TP_SLOT_OVERRUN (i : Nat) : Nat := 0x50360 + 0x400 * i
/-- The counter TP_SCRUB_CORR. -/
def TP_SCRUB_CORR (i : Nat) : Nat := 0x50370 + 0x400 * i
/-- The counter TP_UNCORR. -/
def TP_UNCORR (i : Nat) : Nat := 0x50380 + 0x400 * i
/-- The counter WP_CORR. -/
def WP_CORR (i : Nat) : Nat := 0x60300 + 0x400 * i
/-- The counter WP_CONFLICT_FREEZE. -/
def WP_CONFLICT_FREEZE (i : Nat) : Nat := 0x60310 + 0x400 * i
/-- The counter WP_PROMOTE_FREEZE. -/
def WP_PROMOTE_FREEZE (i : Nat) : Nat := 0x60320 + 0x400 * i
/-- The counter WP_UNCORR. -/
def WP_UNCORR (i : Nat) : Nat := 0x60330 + 0x400 * i
/-- The counter WP_CREDIT_WAIT. -/
def WP_CREDIT_WAIT (i : Nat) : Nat := 0x60340 + 0x400 * i
/-- The counter WP_REMOTE_WR. -/
def WP_REMOTE_WR (i : Nat) : Nat := 0x60350 + 0x400 * i
/-- The counter WP_REMOTE_RD. -/
def WP_REMOTE_RD (i : Nat) : Nat := 0x60360 + 0x400 * i
/-- The counter WP_CMN_CORR. -/
def WP_CMN_CORR : Nat := 0x68300
/-- The counter WP_CMN_UNCORR. -/
def WP_CMN_UNCORR : Nat := 0x68310
/-- The counter WP_HOST_PD. -/
def WP_HOST_PD : Nat := 0x68320
/-- The counter AG_DESC_DONE. -/
def AG_DESC_DONE (i : Nat) : Nat := 0x80100 + 0x400 * i
/-- The counter AG_OPS. -/
def AG_OPS (i : Nat) : Nat := 0x80110 + 0x400 * i
/-- The counter AG_WIN_ROWS. -/
def AG_WIN_ROWS (i : Nat) : Nat := 0x80120 + 0x400 * i
/-- The counter AG_WIN_HITS. -/
def AG_WIN_HITS (i : Nat) : Nat := 0x80130 + 0x400 * i
/-- The counter AG_SPREAD_ROWS. -/
def AG_SPREAD_ROWS (i : Nat) : Nat := 0x80140 + 0x400 * i
/-- The counter AG_BEV_ADDS. -/
def AG_BEV_ADDS (i : Nat) : Nat := 0x80150 + 0x400 * i
/-- The counter AG_QUEUE_FREEZE. -/
def AG_QUEUE_FREEZE (i : Nat) : Nat := 0x80160 + 0x400 * i
/-- The counter AG_OPS_FULL. -/
def AG_OPS_FULL (i : Nat) : Nat := 0x80170 + 0x400 * i
/-- The counter AG_LVL_DROP. -/
def AG_LVL_DROP : Nat := 0x88400
/-- The counter AG_BEV_LATE. -/
def AG_BEV_LATE : Nat := 0x88410
/-- The counter AG_BEV_GOLD_OUTSIDE. -/
def AG_BEV_GOLD_OUTSIDE : Nat := 0x88420
/-- The counter CS_FREEZE. -/
def CS_FREEZE (i : Nat) : Nat := 0x90140 + 0x100 * i
/-- The counter CS_WAIT. -/
def CS_WAIT (i : Nat) : Nat := 0x90150 + 0x100 * i
/-- The counter CS_OVERRUN. -/
def CS_OVERRUN (i : Nat) : Nat := 0x90160 + 0x100 * i
/-- The counter CS_GROUPS. -/
def CS_GROUPS (i : Nat) : Nat := 0x90170 + 0x100 * i
/-- The counter CS_NULL_TURNS. -/
def CS_NULL_TURNS (i : Nat) : Nat := 0x90180 + 0x100 * i
/-- The counter CS_MIGRATE_IN. -/
def CS_MIGRATE_IN (i : Nat) : Nat := 0x90190 + 0x100 * i
/-- The counter CS_MIGRATE_OUT. -/
def CS_MIGRATE_OUT (i : Nat) : Nat := 0x901A0 + 0x100 * i
/-- The counter CS_ROLLBACK. -/
def CS_ROLLBACK (i : Nat) : Nat := 0x901B0 + 0x100 * i
/-- The counter CS_DIGEST_OUT. -/
def CS_DIGEST_OUT : Nat := 0x90800
/-- The counter CS_REC_ENTRIES. -/
def CS_REC_ENTRIES : Nat := 0x90810
/-- The counter CS_REC_BYTES. -/
def CS_REC_BYTES : Nat := 0x90820
/-- The counter FLT_CORRECTED. -/
def FLT_CORRECTED : Nat := 0x90A00
/-- The counter FLT_RECOVERABLE. -/
def FLT_RECOVERABLE : Nat := 0x90A10
/-- The counter FLT_ROLLBACKS. -/
def FLT_ROLLBACKS : Nat := 0x90A20
/-- The counter FLT_CANCELLED. -/
def FLT_CANCELLED : Nat := 0x90A30
/-- The counter FLT_ACCEL_FATAL. -/
def FLT_ACCEL_FATAL : Nat := 0x90A40
/-- The counter FLT_FLIT_REPLAY. -/
def FLT_FLIT_REPLAY : Nat := 0x90A50
/-- The counter FLT_NOC_CRC. -/
def FLT_NOC_CRC : Nat := 0x90A60
/-- The counter FLT_CMPL_WRITE. -/
def FLT_CMPL_WRITE : Nat := 0x90A70
/-- The counter FLT_LOG_LOST. -/
def FLT_LOG_LOST : Nat := 0x90A80
/-- The counter ET_LOOKUPS. -/
def ET_LOOKUPS (i : Nat) : Nat := 0xA3000 + 0x80 * i
/-- The counter ET_DEFAULTS. -/
def ET_DEFAULTS (i : Nat) : Nat := 0xA3010 + 0x80 * i
/-- The counter ET_RETRIES. -/
def ET_RETRIES (i : Nat) : Nat := 0xA3020 + 0x80 * i
/-- The counter ET_SHADOW_READS. -/
def ET_SHADOW_READS (i : Nat) : Nat := 0xA3030 + 0x80 * i
/-- The counter ET_OPS_COMPLETE. -/
def ET_OPS_COMPLETE (i : Nat) : Nat := 0xA3040 + 0x80 * i
/-- The counter ET_OPS_ABORTED. -/
def ET_OPS_ABORTED (i : Nat) : Nat := 0xA3050 + 0x80 * i
/-- The counter ET_UPD_CRC. -/
def ET_UPD_CRC : Nat := 0xA0100
/-- The counter ET_MERGE_RECORDS. -/
def ET_MERGE_RECORDS : Nat := 0xA0110
/-- The counter ET_MERGE_ROWS. -/
def ET_MERGE_ROWS : Nat := 0xA0120
/-- The counter ET_ROW_LATE_CTR. -/
def ET_ROW_LATE_CTR : Nat := 0xA0130
/-- The counter SI_DOUBT. -/
def SI_DOUBT (i : Nat) : Nat := 0xB0410 + 0x10 * i
/-- The counter SI_PERIODS_DOUBT. -/
def SI_PERIODS_DOUBT : Nat := 0xB0500
/-- The counter SI_LATCHES. -/
def SI_LATCHES : Nat := 0xB0510
/-- The counter SI_RESTARTS. -/
def SI_RESTARTS : Nat := 0xB0520
/-- The counter SI_BIV_RECORDS. -/
def SI_BIV_RECORDS : Nat := 0xB0530
/-- The counter SI_MP_CRC. -/
def SI_MP_CRC : Nat := 0xB0540
/-- The counter SI_GS_POINTS. -/
def SI_GS_POINTS : Nat := 0xB0550
/-- The counter SI_GS_DROP. -/
def SI_GS_DROP : Nat := 0xB0560
/-- The counter SI_GS_OUTSIDE. -/
def SI_GS_OUTSIDE : Nat := 0xB0570
/-- The counter SI_SELFTEST_FAIL. -/
def SI_SELFTEST_FAIL : Nat := 0xB0580
/-- The counter WW_VIOL. -/
def WW_VIOL (i : Nat) : Nat := 0xC0010 + 0x20 * i
/-- The counter TB_MEAS. -/
def TB_MEAS : Nat := 0xD0200
/-- The counter TB_STEPS. -/
def TB_STEPS : Nat := 0xD0210
/-- The counter TB_MEAS_SKIP. -/
def TB_MEAS_SKIP : Nat := 0xD0220
/-- The counter TB_PTP_DROP. -/
def TB_PTP_DROP : Nat := 0xD0230
/-- The counter TB_HOLDOVER. -/
def TB_HOLDOVER : Nat := 0xD0240
/-- The counter TB_ADJ_IGNORED. -/
def TB_ADJ_IGNORED : Nat := 0xD0250
/-- The counter TB_FIRED. -/
def TB_FIRED (i : Nat) : Nat := 0xD1800 + 0x20 * i
/-- The counter TB_LATE. -/
def TB_LATE (i : Nat) : Nat := 0xD1810 + 0x20 * i
/-- The counter TB_CAPTURED. -/
def TB_CAPTURED (i : Nat) : Nat := 0xD2800 + 0x20 * i
/-- The counter TB_CAP_OVF. -/
def TB_CAP_OVF (i : Nat) : Nat := 0xD2810 + 0x20 * i
/-- The counter RL_FLITS_TX. -/
def RL_FLITS_TX (i : Nat) : Nat := 0xE0410 + 0x80 * i
/-- The counter RL_FLITS_RX. -/
def RL_FLITS_RX (i : Nat) : Nat := 0xE0420 + 0x80 * i
/-- The counter RL_REPLAY. -/
def RL_REPLAY (i : Nat) : Nat := 0xE0430 + 0x80 * i
/-- The counter RL_RETRAIN. -/
def RL_RETRAIN (i : Nat) : Nat := 0xE0440 + 0x80 * i
/-- The counter RL_CREDIT_WAIT. -/
def RL_CREDIT_WAIT (i : Nat) : Nat := 0xE0450 + 0x80 * i
/-- The counter RL_FWD_PARTS. -/
def RL_FWD_PARTS : Nat := 0xE0200
/-- The counter RL_FWD_LATE. -/
def RL_FWD_LATE : Nat := 0xE0210
/-- The counter RL_REMOTE_ADDS. -/
def RL_REMOTE_ADDS : Nat := 0xE0220
/-- The counter RL_TAP_COPIES. -/
def RL_TAP_COPIES : Nat := 0xE0230
/-- The counter HI_RING_LOST. -/
def HI_RING_LOST (i : Nat) : Nat := 0xF0120 + 0x40 * i
/-- The counter HI_RING_ERR. -/
def HI_RING_ERR (i : Nat) : Nat := 0xF0130 + 0x40 * i
/-- The counter HI_BAR0_BAD. -/
def HI_BAR0_BAD : Nat := 0xF0800
/-- The counter HI_BAR2_DENIED. -/
def HI_BAR2_DENIED : Nat := 0xF0810
/-- The counter HI_NO_RING. -/
def HI_NO_RING : Nat := 0xF0820
/-- The counter HI_QUEUE_DROP. -/
def HI_QUEUE_DROP : Nat := 0xF0830
/-- The counter HI_MBX_IGNORED. -/
def HI_MBX_IGNORED : Nat := 0xF0840
/-- The counter HI_UPD_ACCEPTED. -/
def HI_UPD_ACCEPTED : Nat := 0xF0850
/-- The counter HI_UPD_REFUSED. -/
def HI_UPD_REFUSED : Nat := 0xF0860
/-- The counter XS_CORR. -/
def XS_CORR (i : Nat) : Nat := 0x101010 + 0x80 * i
/-- The counter XS_UNCORR. -/
def XS_UNCORR (i : Nat) : Nat := 0x101020 + 0x80 * i
/-- The counter XS_RD_BURSTS. -/
def XS_RD_BURSTS (i : Nat) : Nat := 0x101030 + 0x80 * i
/-- The counter XS_WR_BURSTS. -/
def XS_WR_BURSTS (i : Nat) : Nat := 0x101040 + 0x80 * i
/-- The counter XS_CHK_MISS. -/
def XS_CHK_MISS (i : Nat) : Nat := 0x101050 + 0x80 * i
/-- The counter XS_CEM_SPLIT. -/
def XS_CEM_SPLIT (i : Nat) : Nat := 0x101060 + 0x80 * i
/-- The counter XS_RETRAIN. -/
def XS_RETRAIN (i : Nat) : Nat := 0x101070 + 0x80 * i
/-- The counter BT_BL_IGNORED. -/
def BT_BL_IGNORED : Nat := 0x110400
/-- The counter PM_DERATE_FRAMES. -/
def PM_DERATE_FRAMES : Nat := 0x120200
/-- The counter PM_DERATE_STEPS. -/
def PM_DERATE_STEPS : Nat := 0x120210
/-- The counter PM_RAIL_WARN. -/
def PM_RAIL_WARN : Nat := 0x120220

/-! ### The register table -/

/-- One row of the register table: the first address, two index ranges with their strides, the bits of each access
code of R9 (bits of no mask are RO or reserved), the reset value, the mask of the value register's fields where the
row is a complement register (0 where it is none), and how many following words a 4-byte read captures (R7). -/
structure RegRow where
  base : Nat
  n1 : Nat
  s1 : Nat
  n2 : Nat
  s2 : Nat
  rw : Nat
  bl : Nat
  w1c : Nat
  w1s : Nat
  wo : Nat
  rst : Nat
  cMask : Nat
  cap : Nat
  deriving DecidableEq, Repr

/-- The registers of the page at 0x0. -/
def regPage0 : List RegRow := [
  ⟨0x0, 1, 0x0, 1, 0x0, 0x0, 0x0, 0x0, 0x0, 0x0, 0x218640, 0x0, 0⟩,
  ⟨0x28, 1, 0x0, 1, 0x0, 0x0, 0x0, 0x0, 0x0, 0x0, 0x0, 0x0, 1⟩,
  ⟨0x2C, 1, 0x0, 1, 0x0, 0x0, 0x0, 0x0, 0x0, 0x0, 0x0, 0x0, 0⟩,
  ⟨0x8, 1, 0x0, 1, 0x0, 0x0, 0x0, 0x0, 0x0, 0x0, 0x3C22120, 0x0, 0⟩,
  ⟨0xC, 1, 0x0, 1, 0x0, 0x0, 0x0, 0x0, 0x0, 0x0, 0x20631020, 0x0, 0⟩,
  ⟨0x10, 1, 0x0, 1, 0x0, 0x0, 0x0, 0x0, 0x0, 0x0, 0x0, 0x0, 0⟩,
  ⟨0x18, 1, 0x0, 1, 0x0, 0x0, 0x0, 0x0, 0x0, 0x0, 0x0, 0x0, 1⟩,
  ⟨0x1C, 1, 0x0, 1, 0x0, 0x0, 0x0, 0x0, 0x0, 0x0, 0x0, 0x0, 0⟩,
  ⟨0x24, 1, 0x0, 1, 0x0, 0x0, 0x0, 0x0, 0x0, 0x0, 0x0, 0x0, 0⟩,
  ⟨0x40, 1, 0x0, 1, 0x0, 0x0, 0x0, 0x0, 0x0, 0x0, 0x0, 0x0, 0⟩,
  ⟨0x44, 1, 0x0, 1, 0x0, 0x0, 0x0, 0x0, 0x0, 0x0, 0x0, 0x0, 0⟩,
  ⟨0x48, 1, 0x0, 1, 0x0, 0x0, 0x0, 0x3FFF, 0x0, 0x0, 0x0, 0x0, 0⟩]

/-- The registers of the page at 0x10000. IG_STREAM_MASK_LO and _HI are two 32-bit registers, without the capture of a 64-bit
register (R7). (DESIGN CHOICE, log entry 103.) -/
def regPage1 : List RegRow := [
  ⟨0x11010, 48, 0x100, 1, 0x0, 0x0, 0xFFFFFFFF, 0x0, 0x0, 0x0, 0x0, 0x0, 0⟩,
  ⟨0x11014, 48, 0x100, 1, 0x0, 0x0, 0xFF03FFFF, 0x0, 0x0, 0x0, 0x0, 0x0, 0⟩,
  ⟨0x11018, 48, 0x100, 1, 0x0, 0x0, 0xFFFFFFFF, 0x0, 0x0, 0x0, 0x0, 0x0, 0⟩,
  ⟨0x1101C, 48, 0x100, 1, 0x0, 0x0, 0x0, 0x0, 0x0, 0x0, 0xC0000000, 0x0, 0⟩,
  ⟨0x10010, 1, 0x0, 1, 0x0, 0xFFFFFFFF, 0x0, 0x0, 0x0, 0x0, 0xFFFFFFFF, 0x0, 0⟩,
  ⟨0x10014, 1, 0x0, 1, 0x0, 0xFFFF, 0x0, 0x0, 0x0, 0x0, 0xFFFF, 0x0, 0⟩,
  ⟨0x10020, 1, 0x0, 1, 0x0, 0x0, 0x3FFFFFFF, 0x0, 0x0, 0x0, 0x0, 0x0, 0⟩,
  ⟨0x10024, 1, 0x0, 1, 0x0, 0x0, 0xFFFF, 0x0, 0x0, 0x0, 0x0, 0x0, 0⟩,
  ⟨0x10040, 16, 0x4, 1, 0x0, 0x0, 0xFFFFFFFF, 0x0, 0x0, 0x0, 0x0, 0x0, 0⟩,
  ⟨0x10100, 16, 0x40, 1, 0x0, 0x0, 0xFFFF001F, 0x0, 0x0, 0x0, 0x88B50000, 0x0, 0⟩,
  ⟨0x10600, 8, 0x40, 1, 0x0, 0x0, 0x7, 0x0, 0x0, 0x0, 0x0, 0x0, 0⟩,
  ⟨0x11000, 48, 0x100, 1, 0x0, 0x0, 0x3FFFFF, 0x0, 0x0, 0x0, 0x0, 0x0, 0⟩,
  ⟨0x11004, 48, 0x100, 1, 0x0, 0x0, 0x0, 0x0, 0x0, 0x0, 0x0, 0x3FFFFF, 0⟩,
  ⟨0x11008, 48, 0x100, 1, 0x0, 0x0, 0xFFFFFFFF, 0x0, 0x0, 0x0, 0x0, 0x0, 1⟩,
  ⟨0x1100C, 48, 0x100, 1, 0x0, 0x0, 0xFFFF, 0x0, 0x0, 0x0, 0x0, 0x0, 0⟩]

/-- The registers of the page at 0x20000. -/
def regPage2 : List RegRow := [
  ⟨0x20000, 1, 0x0, 1, 0x0, 0x0, 0xFFF, 0x0, 0x0, 0x0, 0x0, 0x0, 0⟩,
  ⟨0x20004, 1, 0x0, 1, 0x0, 0x0, 0xFFF, 0x0, 0x0, 0x0, 0x0, 0x0, 0⟩,
  ⟨0x20008, 1, 0x0, 1, 0x0, 0x0, 0xFFF, 0x0, 0x0, 0x0, 0x0, 0x0, 0⟩,
  ⟨0x20010, 1, 0x0, 1, 0x0, 0x0, 0x1FFFFF, 0x0, 0x0, 0x0, 0x0, 0x0, 0⟩,
  ⟨0x20014, 1, 0x0, 1, 0x0, 0x0, 0x1FFFFF, 0x0, 0x0, 0x0, 0x0, 0x0, 0⟩,
  ⟨0x20018, 1, 0x0, 1, 0x0, 0x0, 0x1FFFFF, 0x0, 0x0, 0x0, 0x0, 0x0, 0⟩,
  ⟨0x2001C, 1, 0x0, 1, 0x0, 0x0, 0x1FFFFF, 0x0, 0x0, 0x0, 0x0, 0x0, 0⟩,
  ⟨0x20020, 1, 0x0, 1, 0x0, 0x0, 0x1FFFFF, 0x0, 0x0, 0x0, 0x0, 0x0, 0⟩,
  ⟨0x20024, 1, 0x0, 1, 0x0, 0x0, 0x1FFFFF, 0x0, 0x0, 0x0, 0x0, 0x0, 0⟩,
  ⟨0x20030, 1, 0x0, 1, 0x0, 0x0, 0xFF, 0x0, 0x0, 0x0, 0x0, 0x0, 0⟩,
  ⟨0x20034, 1, 0x0, 1, 0x0, 0x0, 0x7FFFFFF, 0x0, 0x0, 0x0, 0x0, 0x0, 0⟩,
  ⟨0x20038, 1, 0x0, 1, 0x0, 0x0, 0x3FFFF, 0x0, 0x0, 0x0, 0x0, 0x0, 0⟩,
  ⟨0x2003C, 1, 0x0, 1, 0x0, 0x0, 0x3FFFF, 0x0, 0x0, 0x0, 0x0, 0x0, 0⟩,
  ⟨0x20040, 1, 0x0, 1, 0x0, 0x0, 0xFFFFFFFF, 0x0, 0x0, 0x0, 0x0, 0x0, 1⟩,
  ⟨0x20048, 1, 0x0, 1, 0x0, 0x0, 0xFFFFFFFF, 0x0, 0x0, 0x0, 0x0, 0x0, 1⟩,
  ⟨0x20044, 1, 0x0, 1, 0x0, 0x0, 0x7FFFFFFF, 0x0, 0x0, 0x0, 0x0, 0x0, 0⟩,
  ⟨0x2004C, 1, 0x0, 1, 0x0, 0x0, 0x7FFFFFFF, 0x0, 0x0, 0x0, 0x0, 0x0, 0⟩,
  ⟨0x20080, 16, 0x4, 1, 0x0, 0x0, 0x7FFFFF, 0x0, 0x0, 0x0, 0x0, 0x0, 0⟩,
  ⟨0x20100, 1, 0x0, 1, 0x0, 0x0, 0x0, 0x0, 0x0, 0x0, 0x0, 0x0, 0⟩,
  ⟨0x20104, 1, 0x0, 1, 0x0, 0x0, 0x0, 0x0, 0x0, 0x0, 0x0, 0x0, 0⟩,
  ⟨0x20108, 1, 0x0, 1, 0x0, 0x0, 0x0, 0x0, 0x0, 0x0, 0x0, 0x0, 0⟩,
  ⟨0x2010C, 1, 0x0, 1, 0x0, 0x0, 0x0, 0x0, 0x0, 0x0, 0x0, 0x0, 0⟩,
  ⟨0x20110, 1, 0x0, 1, 0x0, 0x0, 0x0, 0x0, 0x0, 0x0, 0x0, 0x0, 0⟩,
  ⟨0x20114, 1, 0x0, 1, 0x0, 0x0, 0x0, 0x0, 0x0, 0x0, 0x0, 0x0, 0⟩,
  ⟨0x20118, 1, 0x0, 1, 0x0, 0x0, 0x0, 0x0, 0x0, 0x0, 0x0, 0x0, 0⟩,
  ⟨0x2011C, 1, 0x0, 1, 0x0, 0x0, 0x0, 0x0, 0x0, 0x0, 0x0, 0x0, 0⟩,
  ⟨0x20120, 1, 0x0, 1, 0x0, 0x0, 0x0, 0x0, 0x0, 0x0, 0x0, 0x0, 0⟩]

/-- The registers of the page at 0x30000. -/
def regPage3 : List RegRow := [
  ⟨0x30000, 1, 0x0, 1, 0x0, 0x0, 0x7FFFFFF, 0x0, 0x0, 0x0, 0x0, 0x0, 0⟩,
  ⟨0x30004, 1, 0x0, 1, 0x0, 0x0, 0x3F, 0x0, 0x0, 0x0, 0x0, 0x0, 0⟩,
  ⟨0x30008, 1, 0x0, 1, 0x0, 0x0, 0x1FFF1FFF, 0x0, 0x0, 0x0, 0x0, 0x0, 0⟩,
  ⟨0x30010, 1, 0x0, 1, 0x0, 0xFFFFFFFF, 0x0, 0x0, 0x0, 0x0, 0x0, 0x0, 0⟩,
  ⟨0x30014, 1, 0x0, 1, 0x0, 0x0, 0x0, 0x0, 0x0, 0x0, 0x0, 0xFFFFFFFF, 0⟩,
  ⟨0x30018, 1, 0x0, 1, 0x0, 0xFFFFFFFF, 0x0, 0x0, 0x0, 0x0, 0x0, 0x0, 0⟩,
  ⟨0x3001C, 1, 0x0, 1, 0x0, 0x0, 0x0, 0x0, 0x0, 0x0, 0x0, 0xFFFFFFFF, 0⟩,
  ⟨0x30020, 1, 0x0, 1, 0x0, 0xFFFFFFFF, 0x0, 0x0, 0x0, 0x0, 0x0, 0x0, 1⟩,
  ⟨0x30024, 1, 0x0, 1, 0x0, 0xFFFFFFFF, 0x0, 0x0, 0x0, 0x0, 0x0, 0x0, 0⟩,
  ⟨0x30028, 1, 0x0, 1, 0x0, 0xFFFFFFFF, 0x0, 0x0, 0x0, 0x0, 0x0, 0x0, 1⟩,
  ⟨0x3002C, 1, 0x0, 1, 0x0, 0xFFFFFFFF, 0x0, 0x0, 0x0, 0x0, 0x0, 0x0, 0⟩,
  ⟨0x30030, 1, 0x0, 1, 0x0, 0x0, 0x0, 0x0, 0x0, 0x1, 0x0, 0x0, 0⟩,
  ⟨0x30034, 1, 0x0, 1, 0x0, 0x0, 0xFFFFF, 0x0, 0x0, 0x0, 0x0, 0x0, 0⟩,
  ⟨0x30040, 1, 0x0, 1, 0x0, 0x0, 0x0, 0x0, 0x0, 0x0, 0xFFFFFE00, 0x0, 0⟩,
  ⟨0x30044, 1, 0x0, 1, 0x0, 0x0, 0x0, 0x0, 0x0, 0x0, 0xFFFFFE00, 0x0, 0⟩,
  ⟨0x30048, 1, 0x0, 1, 0x0, 0x0, 0x0, 0x0, 0x0, 0x0, 0xFFFFFE00, 0x0, 0⟩,
  ⟨0x3004C, 1, 0x0, 1, 0x0, 0x0, 0x0, 0x0, 0x0, 0x0, 0xFFFFFE00, 0x0, 0⟩,
  ⟨0x30050, 1, 0x0, 1, 0x0, 0x0, 0x0, 0x0, 0x0, 0x0, 0x0, 0x0, 0⟩]

/-- The registers of the page at 0x40000. -/
def regPage4 : List RegRow := [
  ⟨0x40000, 32, 0x400, 1, 0x0, 0x0, 0x0, 0x0, 0x0, 0x0, 0x0, 0x0, 0⟩,
  ⟨0x40004, 32, 0x400, 1, 0x0, 0x0, 0x0, 0x0, 0x0, 0x0, 0x0, 0x0, 0⟩,
  ⟨0x40008, 32, 0x400, 1, 0x0, 0x0, 0x0, 0x7FFFF, 0x0, 0x0, 0x0, 0x0, 0⟩,
  ⟨0x4000C, 32, 0x400, 1, 0x0, 0x0, 0x0, 0x0, 0x0, 0x0, 0x0, 0x0, 0⟩]

/-- The registers of the page at 0x50000. -/
def regPage5 : List RegRow := [
  ⟨0x50000, 32, 0x400, 1, 0x0, 0x0, 0xFF, 0x0, 0x0, 0x0, 0xFF, 0x0, 0⟩,
  ⟨0x50008, 32, 0x400, 1, 0x0, 0x0, 0x0, 0xFF, 0x0, 0x0, 0x0, 0x0, 0⟩,
  ⟨0x5000C, 32, 0x400, 1, 0x0, 0x0, 0x0, 0x0, 0x0, 0x0, 0x0, 0x0, 0⟩,
  ⟨0x50100, 32, 0x400, 32, 0x10, 0x0, 0xFFFFF, 0x0, 0x0, 0x0, 0x0, 0x0, 0⟩,
  ⟨0x50104, 32, 0x400, 32, 0x10, 0x0, 0xFFFFFF, 0x0, 0x0, 0x0, 0x0, 0x0, 0⟩,
  ⟨0x50108, 32, 0x400, 32, 0x10, 0x0, 0x1FFF, 0x0, 0x0, 0x0, 0x0, 0x0, 0⟩,
  ⟨0x5010C, 32, 0x400, 32, 0x10, 0x0, 0x0, 0x0, 0x0, 0x0, 0x0, 0x0, 0⟩]

/-- The registers of the page at 0x60000. -/
def regPage6 : List RegRow := [
  ⟨0x60000, 32, 0x400, 1, 0x0, 0x0, 0xFF, 0x0, 0x0, 0x0, 0xFF, 0x0, 0⟩,
  ⟨0x60100, 32, 0x400, 16, 0x10, 0x0, 0x3FFFF, 0x0, 0x0, 0x0, 0x0, 0x0, 0⟩,
  ⟨0x60104, 32, 0x400, 16, 0x10, 0x0, 0x1FFFF, 0x0, 0x0, 0x0, 0x0, 0x0, 0⟩,
  ⟨0x60108, 32, 0x400, 16, 0x10, 0x0, 0x3F, 0x0, 0x0, 0x0, 0x0, 0x0, 0⟩,
  ⟨0x60200, 32, 0x400, 1, 0x0, 0x3FF, 0x0, 0x0, 0x0, 0x0, 0x0, 0x0, 0⟩,
  ⟨0x60204, 32, 0x400, 1, 0x0, 0x0, 0x0, 0x0, 0x0, 0x0, 0x0, 0x0, 0⟩,
  ⟨0x68000, 1, 0x0, 1, 0x0, 0x0, 0xFFFF, 0x0, 0x0, 0x0, 0xFFFF, 0x0, 0⟩,
  ⟨0x68004, 1, 0x0, 1, 0x0, 0x0, 0xFFFFFFFF, 0x0, 0x0, 0x0, 0xFFFFFFFF, 0x0, 0⟩,
  ⟨0x68100, 16, 0x10, 1, 0x0, 0x0, 0x1FFFFF, 0x0, 0x0, 0x0, 0x0, 0x0, 0⟩,
  ⟨0x68104, 16, 0x10, 1, 0x0, 0x0, 0x1FFFFF, 0x0, 0x0, 0x0, 0x0, 0x0, 0⟩,
  ⟨0x68108, 16, 0x10, 1, 0x0, 0x0, 0x7F, 0x0, 0x0, 0x0, 0x0, 0x0, 0⟩]

/-- The registers of the page at 0x70000. -/
def regPage7 : List RegRow := [
  ⟨0x70000, 32, 0x400, 1, 0x0, 0x0, 0x0, 0x0, 0x0, 0x0, 0x0, 0x0, 0⟩,
  ⟨0x70008, 32, 0x400, 1, 0x0, 0x0, 0x0, 0x3F, 0x0, 0x0, 0x0, 0x0, 0⟩,
  ⟨0x7000C, 32, 0x400, 1, 0x0, 0x0, 0x0, 0x0, 0x0, 0x0, 0x0, 0x0, 0⟩,
  ⟨0x70010, 32, 0x400, 4, 0x4, 0x0, 0x0, 0x0, 0x0, 0x0, 0x0, 0x0, 0⟩]

/-- The registers of the page at 0x80000. -/
def regPage8 : List RegRow := [
  ⟨0x88000, 1, 0x0, 1, 0x0, 0x0, 0x3, 0x0, 0x0, 0x0, 0x0, 0x0, 0⟩,
  ⟨0x88004, 1, 0x0, 1, 0x0, 0x0, 0x3FF, 0x0, 0x0, 0x0, 0x0, 0x0, 0⟩,
  ⟨0x88008, 1, 0x0, 1, 0x0, 0x0, 0xFFFFF, 0x0, 0x0, 0x0, 0x0, 0x0, 0⟩,
  ⟨0x8800C, 1, 0x0, 1, 0x0, 0x0, 0xFFFFF, 0x0, 0x0, 0x0, 0x0, 0x0, 0⟩,
  ⟨0x88010, 3, 0x10, 1, 0x0, 0x0, 0x1FFFFF, 0x0, 0x0, 0x0, 0x0, 0x0, 0⟩,
  ⟨0x88014, 3, 0x10, 1, 0x0, 0x0, 0x3FFFF, 0x0, 0x0, 0x0, 0x0, 0x0, 0⟩,
  ⟨0x88018, 3, 0x10, 1, 0x0, 0x0, 0xF, 0x0, 0x0, 0x0, 0x0, 0x0, 0⟩,
  ⟨0x8801C, 3, 0x10, 1, 0x0, 0x0, 0xFFFFF, 0x0, 0x0, 0x0, 0x0, 0x0, 0⟩,
  ⟨0x88100, 16, 0x10, 3, 0x4, 0x0, 0xFFFFFFFF, 0x0, 0x0, 0x0, 0x0, 0x0, 0⟩,
  ⟨0x8810C, 16, 0x10, 1, 0x0, 0x0, 0x1FFFFFFF, 0x0, 0x0, 0x0, 0x0, 0x0, 0⟩,
  ⟨0x88200, 16, 0x4, 1, 0x0, 0x0, 0x3FFFFFF, 0x0, 0x0, 0x0, 0x0, 0x0, 0⟩,
  ⟨0x88300, 1, 0x0, 1, 0x0, 0x0, 0x1FF, 0x0, 0x0, 0x0, 0x0, 0x0, 0⟩,
  ⟨0x88304, 1, 0x0, 1, 0x0, 0xFFFFFFFF, 0x0, 0x0, 0x0, 0x0, 0x40000000, 0x0, 0⟩,
  ⟨0x88308, 1, 0x0, 1, 0x0, 0xFFFFFFFF, 0x0, 0x0, 0x0, 0x0, 0x0, 0x0, 0⟩,
  ⟨0x80000, 32, 0x400, 1, 0x0, 0x0, 0x0, 0x0, 0x0, 0x0, 0x0, 0x0, 0⟩,
  ⟨0x80008, 32, 0x400, 1, 0x0, 0x0, 0x0, 0x1F, 0x0, 0x0, 0x0, 0x0, 0⟩]

/-- The registers of the page at 0x90000. -/
def regPage9 : List RegRow := [
  ⟨0x90000, 1, 0x0, 1, 0x0, 0x3, 0x0, 0x0, 0x0, 0x0, 0x0, 0x0, 0⟩,
  ⟨0x90004, 1, 0x0, 1, 0x0, 0x0, 0xFFF, 0x0, 0x0, 0x0, 0x0, 0x0, 0⟩,
  ⟨0x90010, 1, 0x0, 1, 0x0, 0x3, 0x0, 0x0, 0x1C, 0x0, 0x0, 0x0, 0⟩,
  ⟨0x90014, 1, 0x0, 1, 0x0, 0x0, 0x0, 0x0, 0x0, 0x0, 0x0, 0x0, 0⟩,
  ⟨0x90018, 1, 0x0, 1, 0x0, 0xFFFF, 0x0, 0x0, 0x0, 0x0, 0x0, 0x0, 0⟩,
  ⟨0x9001C, 1, 0x0, 1, 0x0, 0xFFFF, 0x0, 0x0, 0x0, 0x0, 0x0, 0x0, 0⟩,
  ⟨0x90020, 1, 0x0, 1, 0x0, 0xFFFFFFFF, 0x0, 0x0, 0x0, 0x0, 0x0, 0x0, 0⟩,
  ⟨0x90024, 1, 0x0, 1, 0x0, 0xFFFFFFFF, 0x0, 0x0, 0x0, 0x0, 0x0, 0x0, 0⟩,
  ⟨0x90028, 1, 0x0, 1, 0x0, 0x0, 0x0, 0x0, 0x0, 0x0, 0x0, 0x0, 1⟩,
  ⟨0x9002C, 1, 0x0, 1, 0x0, 0x0, 0x0, 0x0, 0x0, 0x0, 0x0, 0x0, 0⟩,
  ⟨0x90100, 4, 0x100, 1, 0x0, 0x0, 0x0, 0x0, 0x0, 0x0, 0x0, 0x0, 0⟩,
  ⟨0x90104, 4, 0x100, 1, 0x0, 0x0, 0x0, 0x0, 0x0, 0x0, 0x0, 0x0, 0⟩,
  ⟨0x90108, 4, 0x100, 1, 0x0, 0x0, 0x0, 0x3, 0x0, 0x0, 0x0, 0x0, 0⟩,
  ⟨0x91000, 32, 0x40, 1, 0x0, 0x0, 0x1FFFF, 0x0, 0x0, 0x0, 0x0, 0x0, 0⟩,
  ⟨0x91004, 32, 0x40, 1, 0x0, 0x0, 0x7FFF, 0x0, 0x0, 0x0, 0x0, 0x0, 0⟩,
  ⟨0x91008, 32, 0x40, 1, 0x0, 0x0, 0xFFFF, 0x0, 0x0, 0x0, 0x0, 0x0, 0⟩,
  ⟨0x9100C, 32, 0x40, 1, 0x0, 0x0, 0x0, 0x0, 0x0, 0x0, 0x0, 0x0, 0⟩,
  ⟨0x90900, 1, 0x0, 1, 0x0, 0x0, 0x0, 0x0, 0x0, 0x0, 0x0, 0x0, 0⟩,
  ⟨0x90904, 1, 0x0, 1, 0x0, 0x0, 0x0, 0x0, 0x0, 0x0, 0x0, 0x0, 0⟩,
  ⟨0x90908, 1, 0x0, 1, 0x0, 0x0, 0x0, 0x0, 0x0, 0x0, 0x0, 0x0, 1⟩,
  ⟨0x9090C, 1, 0x0, 1, 0x0, 0x0, 0x0, 0x0, 0x0, 0x0, 0x0, 0x0, 0⟩,
  ⟨0x90910, 1, 0x0, 1, 0x0, 0x0, 0x0, 0x0, 0x0, 0x0, 0x0, 0x0, 0⟩,
  ⟨0x90914, 1, 0x0, 1, 0x0, 0x0, 0x0, 0x0, 0x0, 0x0, 0x0, 0x0, 1⟩,
  ⟨0x90918, 1, 0x0, 1, 0x0, 0x0, 0x0, 0x0, 0x0, 0x0, 0x0, 0x0, 0⟩]

/-- The registers of the page at 0xA0000. -/
def regPage10 : List RegRow := [
  ⟨0xA0000, 1, 0x0, 1, 0x0, 0x0, 0xFFFF, 0x0, 0x0, 0x0, 0x0, 0x0, 0⟩,
  ⟨0xA0010, 1, 0x0, 1, 0x0, 0x0, 0x0, 0x0, 0x1, 0x0, 0x0, 0x0, 0⟩,
  ⟨0xA0014, 1, 0x0, 1, 0x0, 0x0, 0x0, 0x0, 0x0, 0x0, 0x0, 0x0, 0⟩,
  ⟨0xA0018, 1, 0x0, 1, 0x0, 0x0, 0xFFFFFFFF, 0x0, 0x0, 0x0, 0x0, 0x0, 0⟩,
  ⟨0xA001C, 1, 0x0, 1, 0x0, 0x0, 0xFFFF, 0x0, 0x0, 0x0, 0x0, 0x0, 0⟩,
  ⟨0xA0020, 1, 0x0, 1, 0x0, 0x0, 0xFFFF, 0x0, 0x0, 0x0, 0x0, 0x0, 0⟩,
  ⟨0xA0024, 1, 0x0, 1, 0x0, 0x0, 0x0, 0xF, 0x0, 0x0, 0x0, 0x0, 0⟩,
  ⟨0xA0040, 32, 0x4, 1, 0x0, 0x0, 0x7FF, 0x0, 0x0, 0x0, 0x0, 0x0, 0⟩,
  ⟨0xA1000, 64, 0x40, 1, 0x0, 0x0, 0x7FFFFFFF, 0x0, 0x0, 0x0, 0x0, 0x0, 0⟩,
  ⟨0xA1004, 64, 0x40, 1, 0x0, 0x0, 0xF, 0x0, 0x0, 0x0, 0x0, 0x0, 0⟩,
  ⟨0xA1008, 64, 0x40, 1, 0x0, 0x0, 0xFFFF, 0x0, 0x0, 0x0, 0x0, 0x0, 0⟩,
  ⟨0xA100C, 64, 0x40, 1, 0x0, 0x0, 0xFFFF, 0x0, 0x0, 0x0, 0x0, 0x0, 0⟩,
  ⟨0xA1010, 64, 0x40, 1, 0x0, 0x0, 0x0, 0x0, 0x0, 0x0, 0x0, 0x0, 0⟩,
  ⟨0xA1014, 64, 0x40, 1, 0x0, 0x0, 0x0, 0x0, 0x0, 0x0, 0x0, 0xFFFFFFFF, 0⟩,
  ⟨0xA1018, 64, 0x40, 1, 0x0, 0xFFFFFFFF, 0x0, 0x0, 0x0, 0x0, 0x0, 0x0, 0⟩,
  ⟨0xA101C, 64, 0x40, 1, 0x0, 0x0, 0x0, 0x0, 0x0, 0x0, 0x0, 0xFFFFFFFF, 0⟩,
  ⟨0xA1020, 64, 0x40, 1, 0x0, 0x0, 0x0, 0x0, 0x1, 0x0, 0x0, 0x0, 0⟩,
  ⟨0xA1024, 64, 0x40, 1, 0x0, 0x0, 0x0, 0x0, 0x0, 0x0, 0x0, 0x0, 0⟩,
  ⟨0xA1028, 64, 0x40, 1, 0x0, 0x0, 0x0, 0x0, 0x0, 0x0, 0x0, 0x0, 1⟩,
  ⟨0xA102C, 64, 0x40, 1, 0x0, 0x0, 0x0, 0x0, 0x0, 0x0, 0x0, 0x0, 0⟩,
  ⟨0xA8000, 64, 0x100, 64, 0x4, 0x0, 0xFFFFFFFF, 0x0, 0x0, 0x0, 0x0, 0x0, 0⟩]

/-- The registers of the page at 0xB0000. -/
def regPage11 : List RegRow := [
  ⟨0xB0000, 1, 0x0, 1, 0x0, 0x0, 0x0, 0x0, 0x0, 0x0, 0x0, 0x0, 0⟩,
  ⟨0xB0004, 1, 0x0, 1, 0x0, 0x0, 0x0, 0x0, 0x0, 0x0, 0x0, 0x3F, 0⟩,
  ⟨0xB0008, 1, 0x0, 1, 0x0, 0x0, 0x0, 0x0, 0x0, 0x0, 0x0, 0x0, 0⟩,
  ⟨0xB0010, 1, 0x0, 1, 0x0, 0x0, 0x0, 0x0, 0x0, 0x0, 0x0, 0x0, 1⟩,
  ⟨0xB0014, 1, 0x0, 1, 0x0, 0x0, 0x0, 0x0, 0x0, 0x0, 0x0, 0x0, 0⟩,
  ⟨0xB0018, 1, 0x0, 1, 0x0, 0x0, 0x0, 0x0, 0x0, 0x0, 0x0, 0x0, 0⟩,
  ⟨0xB0100, 32, 0x4, 1, 0x0, 0x0, 0x0, 0x0, 0x0, 0x0, 0x0, 0x0, 0⟩,
  ⟨0xB1000, 2048, 0x4, 1, 0x0, 0x0, 0x0, 0x0, 0x0, 0x0, 0x0, 0x0, 0⟩]

/-- The registers of the page at 0xC0000. -/
def regPage12 : List RegRow := [
  ⟨0xC0000, 12, 0x20, 1, 0x0, 0x0, 0x0, 0x0, 0x0, 0x0, 0x0, 0x0, 0⟩,
  ⟨0xC0004, 12, 0x20, 1, 0x0, 0x0, 0x0, 0x0, 0x0, 0x0, 0x0, 0x0, 1⟩,
  ⟨0xC0008, 12, 0x20, 1, 0x0, 0x0, 0x0, 0x0, 0x0, 0x0, 0x0, 0x0, 0⟩]

/-- The registers of the page at 0xD0000. -/
def regPage13 : List RegRow := [
  ⟨0xD0000, 1, 0x0, 1, 0x0, 0x0, 0x1FFFF, 0x0, 0x0, 0x0, 0xC000, 0x0, 0⟩,
  ⟨0xD0004, 1, 0x0, 1, 0x0, 0x0, 0xFFFFFF, 0x0, 0x0, 0x0, 0xFEF8FF, 0x0, 0⟩,
  ⟨0xD0008, 1, 0x0, 1, 0x0, 0x0, 0xFFFFFFFF, 0x0, 0x0, 0x0, 0x0, 0x0, 0⟩,
  ⟨0xD000C, 1, 0x0, 1, 0x0, 0x0, 0xFFFFFFFF, 0x0, 0x0, 0x0, 0x0, 0x0, 0⟩,
  ⟨0xD0010, 1, 0x0, 1, 0x0, 0x0, 0xFFFFFFFF, 0x0, 0x0, 0x0, 0x0, 0x0, 0⟩,
  ⟨0xD0014, 1, 0x0, 1, 0x0, 0x0, 0xFFFFFFFF, 0x0, 0x0, 0x0, 0x0, 0x0, 0⟩,
  ⟨0xD0018, 1, 0x0, 1, 0x0, 0x0, 0x0, 0x0, 0x0, 0x0, 0x0, 0x0, 0⟩,
  ⟨0xD0020, 1, 0x0, 1, 0x0, 0x0, 0x0, 0x0, 0x0, 0x0, 0x0, 0x0, 1⟩,
  ⟨0xD0024, 1, 0x0, 1, 0x0, 0x0, 0x0, 0x0, 0x0, 0x0, 0x0, 0x0, 0⟩,
  ⟨0xD0028, 1, 0x0, 1, 0x0, 0x0, 0x0, 0x0, 0x0, 0x0, 0x0, 0x0, 2⟩,
  ⟨0xD002C, 1, 0x0, 1, 0x0, 0x0, 0x0, 0x0, 0x0, 0x0, 0x0, 0x0, 0⟩,
  ⟨0xD0030, 1, 0x0, 1, 0x0, 0x0, 0x0, 0x0, 0x0, 0x0, 0x0, 0x0, 0⟩,
  ⟨0xD0040, 1, 0x0, 1, 0x0, 0x0, 0x0, 0x0, 0x0, 0x0, 0x0, 0x0, 2⟩,
  ⟨0xD0044, 1, 0x0, 1, 0x0, 0x0, 0x0, 0x0, 0x0, 0x0, 0x0, 0x0, 0⟩,
  ⟨0xD0048, 1, 0x0, 1, 0x0, 0x0, 0x0, 0x0, 0x0, 0x0, 0x0, 0x0, 0⟩,
  ⟨0xD004C, 1, 0x0, 1, 0x0, 0x0, 0x0, 0x0, 0x0, 0x0, 0x0, 0x0, 1⟩,
  ⟨0xD0050, 1, 0x0, 1, 0x0, 0x0, 0x0, 0x0, 0x0, 0x0, 0x0, 0x0, 0⟩,
  ⟨0xD0060, 1, 0x0, 1, 0x0, 0xFFFFFFFF, 0x0, 0x0, 0x0, 0x0, 0x0, 0x0, 2⟩,
  ⟨0xD0064, 1, 0x0, 1, 0x0, 0xFFFFFFFF, 0x0, 0x0, 0x0, 0x0, 0x0, 0x0, 0⟩,
  ⟨0xD0068, 1, 0x0, 1, 0x0, 0xFFFFFFFF, 0x0, 0x0, 0x0, 0x0, 0x0, 0x0, 0⟩,
  ⟨0xD006C, 1, 0x0, 1, 0x0, 0xFFFFFFFF, 0x0, 0x0, 0x0, 0x0, 0x0, 0x0, 1⟩,
  ⟨0xD0070, 1, 0x0, 1, 0x0, 0xFFFFFFFF, 0x0, 0x0, 0x0, 0x0, 0x0, 0x0, 0⟩,
  ⟨0xD0074, 1, 0x0, 1, 0x0, 0x0, 0x0, 0x0, 0x0, 0x1, 0x0, 0x0, 0⟩,
  ⟨0xD0078, 1, 0x0, 1, 0x0, 0x0, 0x0, 0x0, 0x0, 0x0, 0x0, 0x0, 1⟩,
  ⟨0xD007C, 1, 0x0, 1, 0x0, 0x0, 0x0, 0x0, 0x0, 0x0, 0x0, 0x0, 0⟩,
  ⟨0xD0080, 1, 0x0, 1, 0x0, 0x0, 0x0, 0x0, 0x0, 0x0, 0x0, 0x0, 1⟩,
  ⟨0xD0084, 1, 0x0, 1, 0x0, 0x0, 0x0, 0x0, 0x0, 0x0, 0x0, 0x0, 0⟩,
  ⟨0xD0100, 16, 0x8, 1, 0x0, 0x0, 0x3, 0x0, 0x0, 0x0, 0x0, 0x0, 0⟩,
  ⟨0xD0104, 16, 0x8, 1, 0x0, 0x0, 0xFFFFFFFF, 0x0, 0x0, 0x0, 0x0, 0x0, 0⟩,
  ⟨0xD1000, 24, 0x20, 1, 0x0, 0x7, 0x0, 0x0, 0x0, 0x0, 0x0, 0x0, 0⟩,
  ⟨0xD1004, 24, 0x20, 1, 0x0, 0xFFFFFFFF, 0x0, 0x0, 0x0, 0x0, 0x0, 0x0, 1⟩,
  ⟨0xD1008, 24, 0x20, 1, 0x0, 0xFFFFFFFF, 0x0, 0x0, 0x0, 0x0, 0x0, 0x0, 0⟩,
  ⟨0xD100C, 24, 0x20, 1, 0x0, 0xFFFFFFFF, 0x0, 0x0, 0x0, 0x0, 0x0, 0x0, 0⟩,
  ⟨0xD1010, 24, 0x20, 1, 0x0, 0xFFFFFF, 0x0, 0x0, 0x0, 0x0, 0x0, 0x0, 0⟩,
  ⟨0xD2000, 24, 0x20, 1, 0x0, 0xFF, 0x0, 0x0, 0x0, 0x0, 0x0, 0x0, 0⟩,
  ⟨0xD2004, 24, 0x20, 1, 0x0, 0x0, 0x0, 0x0, 0x0, 0x0, 0x0, 0x0, 1⟩,
  ⟨0xD2008, 24, 0x20, 1, 0x0, 0x0, 0x0, 0x0, 0x0, 0x0, 0x0, 0x0, 0⟩,
  ⟨0xD200C, 24, 0x20, 1, 0x0, 0x0, 0x0, 0x0, 0x0, 0x0, 0x0, 0x0, 0⟩]

/-- The registers of the page at 0xE0000. -/
def regPage14 : List RegRow := [
  ⟨0xE0000, 1, 0x0, 1, 0x0, 0x0, 0xF0, 0x0, 0x0, 0x0, 0x0, 0x0, 0⟩,
  ⟨0xE0004, 1, 0x0, 1, 0x0, 0x0, 0xFF, 0x0, 0x0, 0x0, 0x0, 0x0, 0⟩,
  ⟨0xE0008, 1, 0x0, 1, 0x0, 0x0, 0x0, 0x0, 0x0, 0x0, 0x0, 0xFF, 0⟩,
  ⟨0xE0010, 1, 0x0, 1, 0x0, 0x0, 0x0, 0x0, 0x0, 0x0, 0x0, 0x0, 0⟩,
  ⟨0xE0020, 4, 0x10, 1, 0x0, 0x0, 0xFFFFFFFF, 0x0, 0x0, 0x0, 0x0, 0x0, 0⟩,
  ⟨0xE0024, 4, 0x10, 1, 0x0, 0x0, 0xFFFFFFFF, 0x0, 0x0, 0x0, 0x0, 0x0, 0⟩,
  ⟨0xE0028, 4, 0x10, 1, 0x0, 0x0, 0xFFFFFFFF, 0x0, 0x0, 0x0, 0x0, 0x0, 1⟩,
  ⟨0xE002C, 4, 0x10, 1, 0x0, 0x0, 0xFFFFFFFF, 0x0, 0x0, 0x0, 0x0, 0x0, 0⟩,
  ⟨0xE0400, 3, 0x80, 1, 0x0, 0x0, 0x0, 0x0, 0x0, 0x0, 0x0, 0x0, 0⟩]

/-- The registers of the page at 0xF0000. -/
def regPage15 : List RegRow := [
  ⟨0xF0000, 1, 0x0, 1, 0x0, 0x0, 0x0, 0x0, 0x0, 0x0, 0x0, 0x0, 0⟩,
  ⟨0xF0040, 1, 0x0, 1, 0x0, 0x0, 0x0, 0x0, 0x0, 0xFF, 0x0, 0x0, 0⟩,
  ⟨0xF0044, 4, 0x4, 1, 0x0, 0xFFFFFFFF, 0x0, 0x0, 0x0, 0x0, 0x0, 0x0, 0⟩,
  ⟨0xF0054, 1, 0x0, 1, 0x0, 0x0, 0x0, 0x0, 0x0, 0x0, 0x0, 0x0, 0⟩,
  ⟨0xF0058, 1, 0x0, 1, 0x0, 0x0, 0x0, 0x0, 0x0, 0x0, 0x0, 0x0, 0⟩,
  ⟨0xF005C, 1, 0x0, 1, 0x0, 0x0, 0x0, 0x0, 0x0, 0x0, 0x0, 0x0, 0⟩,
  ⟨0xF0100, 4, 0x40, 1, 0x0, 0xFFFF03FF, 0x0, 0x0, 0x0, 0x0, 0x0, 0x0, 0⟩,
  ⟨0xF0200, 3, 0x40, 1, 0x0, 0xFFFF003F, 0x0, 0x0, 0x0, 0x0, 0x0, 0x0, 0⟩,
  ⟨0xF0104, 7, 0x40, 1, 0x0, 0xFFFFF000, 0x0, 0x0, 0x0, 0x0, 0x0, 0x0, 1⟩,
  ⟨0xF0108, 7, 0x40, 1, 0x0, 0xFFFFFFFF, 0x0, 0x0, 0x0, 0x0, 0x0, 0x0, 0⟩,
  ⟨0xF010C, 7, 0x40, 1, 0x0, 0xFFFFFFE0, 0x0, 0x0, 0x0, 0x0, 0x0, 0x0, 1⟩,
  ⟨0xF0110, 7, 0x40, 1, 0x0, 0xFFFFFFFF, 0x0, 0x0, 0x0, 0x0, 0x0, 0x0, 0⟩,
  ⟨0xF0114, 7, 0x40, 1, 0x0, 0x0, 0x0, 0x0, 0x0, 0x0, 0x0, 0x0, 0⟩,
  ⟨0xF0118, 7, 0x40, 1, 0x0, 0x0, 0x0, 0x0, 0x0, 0x0, 0x0, 0x0, 0⟩]

/-- The registers of the page at 0x100000. -/
def regPage16 : List RegRow := [
  ⟨0x100000, 1, 0x0, 1, 0x0, 0x0, 0x0, 0x0, 0x0, 0x0, 0x0, 0x0, 0⟩,
  ⟨0x100004, 1, 0x0, 1, 0x0, 0x0, 0xFFFF, 0x0, 0x0, 0x0, 0x6416, 0x0, 0⟩,
  ⟨0x100008, 1, 0x0, 1, 0x0, 0x0, 0xFFFFFFFF, 0x0, 0x0, 0x0, 0xC040A020, 0x0, 0⟩,
  ⟨0x10000C, 1, 0x0, 1, 0x0, 0x0, 0xFF, 0x0, 0x0, 0x0, 0x99, 0x0, 0⟩,
  ⟨0x100010, 4, 0x4, 1, 0x0, 0x0, 0x1FFFF, 0x0, 0x0, 0x0, 0x0, 0x0, 0⟩,
  ⟨0x101000, 32, 0x80, 1, 0x0, 0x0, 0x3F, 0x0, 0x0, 0x0, 0x0, 0x0, 0⟩,
  ⟨0x101004, 32, 0x80, 1, 0x0, 0x0, 0x0, 0x0, 0x0, 0x0, 0x0, 0x0, 0⟩]

/-- The registers of the page at 0x110000. -/
def regPage17 : List RegRow := [
  ⟨0x110000, 1, 0x0, 1, 0x0, 0x0, 0x0, 0x0, 0x0, 0x0, 0x7FF0000, 0x0, 0⟩,
  ⟨0x110004, 1, 0x0, 1, 0x0, 0x0, 0x0, 0x0, 0x0, 0x0, 0x0, 0x0, 0⟩,
  ⟨0x110008, 1, 0x0, 1, 0x0, 0x0, 0x0, 0x0, 0x0, 0x0, 0x0, 0x0, 0⟩,
  ⟨0x110040, 16, 0x4, 1, 0x0, 0x0, 0x0, 0x0, 0x0, 0x0, 0x0, 0x0, 0⟩,
  ⟨0x110080, 16, 0x4, 1, 0x0, 0x0, 0x0, 0x0, 0x0, 0x0, 0x0, 0x0, 0⟩,
  ⟨0x110100, 1, 0x0, 1, 0x0, 0x0, 0x3F, 0x0, 0x0, 0x0, 0x0, 0x0, 0⟩,
  ⟨0x110104, 1, 0x0, 1, 0x0, 0x0, 0x0, 0x0, 0x0, 0x0, 0x0, 0x3F, 0⟩,
  ⟨0x110108, 1, 0x0, 1, 0x0, 0x0, 0xFFFF, 0x0, 0x0, 0x0, 0x0, 0x0, 0⟩,
  ⟨0x11010C, 1, 0x0, 1, 0x0, 0x0, 0x0, 0x0, 0x0, 0x0, 0x0, 0xFFFF, 0⟩,
  ⟨0x110110, 1, 0x0, 1, 0x0, 0x0, 0xFFFF, 0x0, 0x0, 0x0, 0x0, 0x0, 0⟩,
  ⟨0x110114, 1, 0x0, 1, 0x0, 0x0, 0x0, 0x0, 0x0, 0x0, 0x0, 0xFFFF, 0⟩,
  ⟨0x110118, 1, 0x0, 1, 0x0, 0x0, 0x1, 0x0, 0x0, 0x0, 0x0, 0x0, 0⟩,
  ⟨0x110200, 16, 0x10, 1, 0x0, 0x0, 0xFFFF, 0x0, 0x0, 0x0, 0x0, 0x0, 0⟩,
  ⟨0x110204, 16, 0x10, 1, 0x0, 0x0, 0x0, 0x0, 0x0, 0x0, 0x0, 0xFFFF, 0⟩,
  ⟨0x110208, 16, 0x10, 1, 0x0, 0x0, 0xFFFF, 0x0, 0x0, 0x0, 0x0, 0x0, 0⟩,
  ⟨0x11020C, 16, 0x10, 1, 0x0, 0x0, 0x0, 0x0, 0x0, 0x0, 0x0, 0xFFFF, 0⟩]

/-- The registers of the page at 0x120000. -/
def regPage18 : List RegRow := [
  ⟨0x120000, 1, 0x0, 1, 0x0, 0x0, 0x0, 0x0, 0x0, 0x0, 0x0, 0x0, 0⟩,
  ⟨0x120004, 1, 0x0, 1, 0x0, 0x0, 0x0, 0x0, 0x0, 0x0, 0x0, 0x0, 0⟩,
  ⟨0x120008, 1, 0x0, 1, 0x0, 0x0, 0x0, 0x0, 0x0, 0x0, 0x0, 0x0, 0⟩,
  ⟨0x120010, 1, 0x0, 1, 0x0, 0x0, 0x1FFFFFFF, 0x0, 0x0, 0x0, 0x10428761, 0x0, 0⟩,
  ⟨0x120014, 1, 0x0, 1, 0x0, 0x0, 0x0, 0x0, 0x0, 0x0, 0x0, 0x0, 0⟩,
  ⟨0x120100, 17, 0x4, 1, 0x0, 0x0, 0x0, 0x0, 0x0, 0x0, 0x0, 0x0, 0⟩]

/-- The registers of a 64 KiB page (R472). -/
def regPage (p : Nat) : List RegRow :=
  match p with
  | 0 => regPage0
  | 1 => regPage1
  | 2 => regPage2
  | 3 => regPage3
  | 4 => regPage4
  | 5 => regPage5
  | 6 => regPage6
  | 7 => regPage7
  | 8 => regPage8
  | 9 => regPage9
  | 10 => regPage10
  | 11 => regPage11
  | 12 => regPage12
  | 13 => regPage13
  | 14 => regPage14
  | 15 => regPage15
  | 16 => regPage16
  | 17 => regPage17
  | 18 => regPage18
  | _ => []

/-- One row of the counter table: first address, number of counters and their stride; each counter occupies 16 bytes
as R67 gives: value low, value high, control. -/
structure CtrRow where
  base : Nat
  n : Nat
  s : Nat
  deriving DecidableEq, Repr

/-- The counters of the page at 0x10000. -/
def ctrPage1 : List CtrRow := [
  ⟨0x11040, 48, 0x100⟩,
  ⟨0x11050, 48, 0x100⟩,
  ⟨0x11060, 48, 0x100⟩,
  ⟨0x11070, 48, 0x100⟩,
  ⟨0x11080, 48, 0x100⟩,
  ⟨0x11090, 48, 0x100⟩,
  ⟨0x110A0, 48, 0x100⟩,
  ⟨0x110B0, 48, 0x100⟩,
  ⟨0x110C0, 48, 0x100⟩,
  ⟨0x110D0, 48, 0x100⟩,
  ⟨0x10110, 16, 0x40⟩,
  ⟨0x10120, 16, 0x40⟩,
  ⟨0x10130, 16, 0x40⟩,
  ⟨0x10610, 8, 0x40⟩,
  ⟨0x10620, 8, 0x40⟩]

/-- The counters of the page at 0x20000. -/
def ctrPage2 : List CtrRow := [
  ⟨0x20200, 1, 0x0⟩,
  ⟨0x20210, 1, 0x0⟩,
  ⟨0x20220, 1, 0x0⟩,
  ⟨0x20230, 1, 0x0⟩,
  ⟨0x20240, 1, 0x0⟩,
  ⟨0x20250, 1, 0x0⟩,
  ⟨0x20260, 1, 0x0⟩,
  ⟨0x20270, 1, 0x0⟩,
  ⟨0x20280, 1, 0x0⟩,
  ⟨0x20290, 1, 0x0⟩,
  ⟨0x202A0, 1, 0x0⟩]

/-- The counters of the page at 0x30000. -/
def ctrPage3 : List CtrRow := [
  ⟨0x30200, 1, 0x0⟩,
  ⟨0x30210, 1, 0x0⟩,
  ⟨0x30220, 1, 0x0⟩,
  ⟨0x30230, 1, 0x0⟩,
  ⟨0x30240, 1, 0x0⟩,
  ⟨0x30250, 1, 0x0⟩,
  ⟨0x30260, 1, 0x0⟩,
  ⟨0x30270, 1, 0x0⟩,
  ⟨0x30280, 1, 0x0⟩]

/-- The counters of the page at 0x40000. -/
def ctrPage4 : List CtrRow := [
  ⟨0x40100, 32, 0x400⟩,
  ⟨0x40110, 32, 0x400⟩,
  ⟨0x40120, 32, 0x400⟩,
  ⟨0x40130, 32, 0x400⟩,
  ⟨0x40140, 32, 0x400⟩,
  ⟨0x40150, 32, 0x400⟩,
  ⟨0x40160, 32, 0x400⟩,
  ⟨0x40170, 32, 0x400⟩,
  ⟨0x40180, 32, 0x400⟩]

/-- The counters of the page at 0x50000. -/
def ctrPage5 : List CtrRow := [
  ⟨0x50300, 32, 0x400⟩,
  ⟨0x50310, 32, 0x400⟩,
  ⟨0x50320, 32, 0x400⟩,
  ⟨0x50330, 32, 0x400⟩,
  ⟨0x50340, 32, 0x400⟩,
  ⟨0x50350, 32, 0x400⟩,
  ⟨0x50360, 32, 0x400⟩,
  ⟨0x50370, 32, 0x400⟩,
  ⟨0x50380, 32, 0x400⟩]

/-- The counters of the page at 0x60000. -/
def ctrPage6 : List CtrRow := [
  ⟨0x60300, 32, 0x400⟩,
  ⟨0x60310, 32, 0x400⟩,
  ⟨0x60320, 32, 0x400⟩,
  ⟨0x60330, 32, 0x400⟩,
  ⟨0x60340, 32, 0x400⟩,
  ⟨0x60350, 32, 0x400⟩,
  ⟨0x60360, 32, 0x400⟩,
  ⟨0x68300, 1, 0x0⟩,
  ⟨0x68310, 1, 0x0⟩,
  ⟨0x68320, 1, 0x0⟩]

/-- The counters of the page at 0x70000. -/
def ctrPage7 : List CtrRow := [
  ⟨0x70100, 32, 0x400⟩,
  ⟨0x70110, 32, 0x400⟩,
  ⟨0x70120, 32, 0x400⟩,
  ⟨0x70130, 32, 0x400⟩,
  ⟨0x70140, 32, 0x400⟩,
  ⟨0x70150, 32, 0x400⟩,
  ⟨0x70160, 32, 0x400⟩,
  ⟨0x70170, 32, 0x400⟩]

/-- The counters of the page at 0x80000. -/
def ctrPage8 : List CtrRow := [
  ⟨0x80100, 32, 0x400⟩,
  ⟨0x80110, 32, 0x400⟩,
  ⟨0x80120, 32, 0x400⟩,
  ⟨0x80130, 32, 0x400⟩,
  ⟨0x80140, 32, 0x400⟩,
  ⟨0x80150, 32, 0x400⟩,
  ⟨0x80160, 32, 0x400⟩,
  ⟨0x80170, 32, 0x400⟩,
  ⟨0x88400, 1, 0x0⟩,
  ⟨0x88410, 1, 0x0⟩,
  ⟨0x88420, 1, 0x0⟩]

/-- The counters of the page at 0x90000. -/
def ctrPage9 : List CtrRow := [
  ⟨0x90140, 4, 0x100⟩,
  ⟨0x90150, 4, 0x100⟩,
  ⟨0x90160, 4, 0x100⟩,
  ⟨0x90170, 4, 0x100⟩,
  ⟨0x90180, 4, 0x100⟩,
  ⟨0x90190, 4, 0x100⟩,
  ⟨0x901A0, 4, 0x100⟩,
  ⟨0x901B0, 4, 0x100⟩,
  ⟨0x90800, 1, 0x0⟩,
  ⟨0x90810, 1, 0x0⟩,
  ⟨0x90820, 1, 0x0⟩,
  ⟨0x90A00, 1, 0x0⟩,
  ⟨0x90A10, 1, 0x0⟩,
  ⟨0x90A20, 1, 0x0⟩,
  ⟨0x90A30, 1, 0x0⟩,
  ⟨0x90A40, 1, 0x0⟩,
  ⟨0x90A50, 1, 0x0⟩,
  ⟨0x90A60, 1, 0x0⟩,
  ⟨0x90A70, 1, 0x0⟩,
  ⟨0x90A80, 1, 0x0⟩]

/-- The counters of the page at 0xA0000. -/
def ctrPage10 : List CtrRow := [
  ⟨0xA3000, 64, 0x80⟩,
  ⟨0xA3010, 64, 0x80⟩,
  ⟨0xA3020, 64, 0x80⟩,
  ⟨0xA3030, 64, 0x80⟩,
  ⟨0xA3040, 64, 0x80⟩,
  ⟨0xA3050, 64, 0x80⟩,
  ⟨0xA0100, 1, 0x0⟩,
  ⟨0xA0110, 1, 0x0⟩,
  ⟨0xA0120, 1, 0x0⟩,
  ⟨0xA0130, 1, 0x0⟩]

/-- The counters of the page at 0xB0000. -/
def ctrPage11 : List CtrRow := [
  ⟨0xB0410, 11, 0x10⟩,
  ⟨0xB0500, 1, 0x0⟩,
  ⟨0xB0510, 1, 0x0⟩,
  ⟨0xB0520, 1, 0x0⟩,
  ⟨0xB0530, 1, 0x0⟩,
  ⟨0xB0540, 1, 0x0⟩,
  ⟨0xB0550, 1, 0x0⟩,
  ⟨0xB0560, 1, 0x0⟩,
  ⟨0xB0570, 1, 0x0⟩,
  ⟨0xB0580, 1, 0x0⟩]

/-- The counters of the page at 0xC0000. -/
def ctrPage12 : List CtrRow := [
  ⟨0xC0010, 12, 0x20⟩]

/-- The counters of the page at 0xD0000. -/
def ctrPage13 : List CtrRow := [
  ⟨0xD0200, 1, 0x0⟩,
  ⟨0xD0210, 1, 0x0⟩,
  ⟨0xD0220, 1, 0x0⟩,
  ⟨0xD0230, 1, 0x0⟩,
  ⟨0xD0240, 1, 0x0⟩,
  ⟨0xD0250, 1, 0x0⟩,
  ⟨0xD1800, 24, 0x20⟩,
  ⟨0xD1810, 24, 0x20⟩,
  ⟨0xD2800, 24, 0x20⟩,
  ⟨0xD2810, 24, 0x20⟩]

/-- The counters of the page at 0xE0000. -/
def ctrPage14 : List CtrRow := [
  ⟨0xE0410, 3, 0x80⟩,
  ⟨0xE0420, 3, 0x80⟩,
  ⟨0xE0430, 3, 0x80⟩,
  ⟨0xE0440, 3, 0x80⟩,
  ⟨0xE0450, 3, 0x80⟩,
  ⟨0xE0200, 1, 0x0⟩,
  ⟨0xE0210, 1, 0x0⟩,
  ⟨0xE0220, 1, 0x0⟩,
  ⟨0xE0230, 1, 0x0⟩]

/-- The counters of the page at 0xF0000. -/
def ctrPage15 : List CtrRow := [
  ⟨0xF0120, 7, 0x40⟩,
  ⟨0xF0130, 7, 0x40⟩,
  ⟨0xF0800, 1, 0x0⟩,
  ⟨0xF0810, 1, 0x0⟩,
  ⟨0xF0820, 1, 0x0⟩,
  ⟨0xF0830, 1, 0x0⟩,
  ⟨0xF0840, 1, 0x0⟩,
  ⟨0xF0850, 1, 0x0⟩,
  ⟨0xF0860, 1, 0x0⟩]

/-- The counters of the page at 0x100000. -/
def ctrPage16 : List CtrRow := [
  ⟨0x101010, 32, 0x80⟩,
  ⟨0x101020, 32, 0x80⟩,
  ⟨0x101030, 32, 0x80⟩,
  ⟨0x101040, 32, 0x80⟩,
  ⟨0x101050, 32, 0x80⟩,
  ⟨0x101060, 32, 0x80⟩,
  ⟨0x101070, 32, 0x80⟩]

/-- The counters of the page at 0x110000. -/
def ctrPage17 : List CtrRow := [
  ⟨0x110400, 1, 0x0⟩]

/-- The counters of the page at 0x120000. -/
def ctrPage18 : List CtrRow := [
  ⟨0x120200, 1, 0x0⟩,
  ⟨0x120210, 1, 0x0⟩,
  ⟨0x120220, 1, 0x0⟩]

/-- The counters of a page. -/
def ctrPage (p : Nat) : List CtrRow :=
  match p with
  | 1 => ctrPage1
  | 2 => ctrPage2
  | 3 => ctrPage3
  | 4 => ctrPage4
  | 5 => ctrPage5
  | 6 => ctrPage6
  | 7 => ctrPage7
  | 8 => ctrPage8
  | 9 => ctrPage9
  | 10 => ctrPage10
  | 11 => ctrPage11
  | 12 => ctrPage12
  | 13 => ctrPage13
  | 14 => ctrPage14
  | 15 => ctrPage15
  | 16 => ctrPage16
  | 17 => ctrPage17
  | 18 => ctrPage18
  | _ => []

end Sys2Proof.Machine
end

