-- ==== Sys2Proof/Machine/State.lean ====
section
/-! DEFINITION. The state of the LS8640 as plain data: every register, memory, queue, counter and mode of the manual,
block by block, and the queue of waiting commands. A field's default is its value after main power-on reset. -/

namespace Sys2Proof.Machine

/-! ### Registers and counters -/

/-- A SAT counter (R10): value and sticky overflow. -/
structure Ctr where
  v : Nat := 0
  ovf : Bool := false
  deriving DecidableEq, Repr

/-- The register file of BAR0. A key of each map is a BAR0 address; what is not listed holds its reset value. -/
structure RegFile where
  /-- The value of each register; of a complement-checked pair, the pair last accepted (R13). -/
  regs : SMap Word := []
  /-- The value held pending in a complement-checked pair (R13). -/
  pend : SMap (Option Word) := []
  /-- The value of a complement-checked pair that is applied to the device (R13). -/
  live : SMap Word := []
  /-- The complements with which the applied pairs and the table base pointers are held (R348); what is not listed is the
  complement of a reset value. -/
  comp : SMap Word := []
  /-- The SAT counters (R10, R67). -/
  ctrs : SMap Ctr := []
  /-- Upper words captured by a 4-byte read of a low word, by requester × 2^28 + address of the word (R7). -/
  capt : SMap (Option Word) := []
  /-- Complement-checked pairs accepted in the stroke in progress, by the address of their value (R13). -/
  acc : List Nat := []
  deriving DecidableEq, Repr

/-! ### Time (14_time_base, 01_sweep_to_stroke) -/

/-- A trigger output (R376 to R378). -/
structure Trig where
  /-- MODE, START, PERIOD and WIDTH in force (R378). -/
  mode : Nat := 0
  start : Nat := 0
  period : Nat := 0
  width : Nat := 0
  /-- The output's level, and the raw time (1/12 ns units of R × 10) at which the pulse in progress ends. -/
  high : Bool := false
  endAt : Nat := 0
  /-- Number k of the next PERIODIC edge, and whether a ONESHOT edge is still to come. -/
  nextK : Nat := 0
  armed : Bool := false
  /-- Whether a MODE other than OFF has taken effect, so that the pin is driven (R461). -/
  driven : Bool := false
  /-- Whether CFG has been written since the registers were last taken (R378). -/
  wrote : Bool := false
  deriving DecidableEq, Repr

/-- A capture input (R379): its entries (corrected ns, rising), oldest first, whether it has ever held one, and the last
read's RISE and VALID. -/
structure Capt where
  fifo : List (Nat × Bool) := []
  used : Bool := false
  rise : Bool := false
  valid : Bool := false
  deriving DecidableEq, Repr

/-- What the protocol engine holds (R370, R371). All times in units of 2^-16 ns. -/
structure PtpSt where
  /-- A Sync that waits for its Follow_Up: sequence, t2, correction, the raw time until which it waits. -/
  sync : Option (Nat × Int × Int × Nat) := none
  /-- t2 − t1 − correction of the last complete Sync exchange. -/
  lastDiff : Option Int := none
  /-- An outstanding delay request: sequence, time sent. -/
  req : Option (Nat × Int) := none
  /-- A Pdelay_Resp that waits for its Follow_Up: sequence, its arrival, the request's receipt, correction. -/
  resp : Option (Nat × Int × Int × Int) := none
  /-- The last 8 path-delay measurements, newest first. -/
  delays : List Int := []
  announce : List Byte := []
  /-- The raw time at which each master port last sent Sync (R370). -/
  syncAt : SMap (Option Nat) := []
  seqTx : Nat := 0
  seqReq : Nat := 0
  deriving DecidableEq, Repr

/-- The time base and the time structure of the device. -/
structure TimeSt where
  /-- Raw time R in array clocks of 5/6 ns (R364). -/
  raw : Nat := 0
  /-- OFFSET in units of 2^-32 ns, RATE in parts per 2^40, ANCHOR as raw time (R365). -/
  offset : Int := 0
  rate : Int := 0
  anchor : Nat := 0
  /-- The integral part of the servo (R367), the last measurement, and the measurements formed in this stroke. -/
  integ : Int := 0
  lastM : Int := 0
  meas : List Int := []
  /-- Consecutive measurements below LOCK_NS; LOCKED, HOLDOVER, ALIGNED (R368, R374). -/
  lockCnt : Nat := 0
  locked : Bool := false
  holdover : Bool := false
  aligned : Bool := false
  /-- Raw time at which a measurement was last formed (R368). -/
  measAt : Nat := 0
  /-- STROKE_OFFSET (R375). -/
  strokeOff : Stroke := 0
  /-- The adjustment a GO write holds for the next boundary: RATE and step in units of 2^-32 ns (R369). -/
  adj : Option (Int × Int) := none
  /-- Corrected time before and after the forward step with which the values in force began (R377). -/
  jump : Option (Int × Int) := none
  ptp : PtpSt := {}
  /-- PTP messages received and not yet handled: MAC, payload, receive time as raw time and, corrected under the values
  then in force, in units of 2^-16 ns (R38, R372). -/
  rxq : List (Nat × List Byte × Nat × Int) := []
  trig : SMap Trig := []
  capt : SMap Capt := []
  /-- In the operational state (R19). -/
  op : Bool := false
  /-- Stroke number in progress, its length in array clocks (R373), and its opening boundary in raw time. -/
  stroke : Stroke := 0
  len : Nat := 1200
  openRaw : Nat := 0
  /-- Frame sequence number in progress: 0xFFFF_FFFF in the lead-in (R22); and whether frame 0 has begun. -/
  frame : BitVec 32 := 0xFFFFFFFF
  framed : Bool := false
  /-- First stroke of the frame in progress, and the corrected time t_f of the frame and of the one before (R86). -/
  frameAt : Stroke := 0
  tf : Nat := 0
  tfPrev : Nat := 0
  /-- A frame boundary or a frame's retirement falls on the boundary that opened this stroke and is still to be done. -/
  frameDue : Bool := false
  retireDue : Bool := false
  deriving DecidableEq, Repr

/-! ### Intake (02_intake) -/

/-- A sector that intake holds open (R54): its number, its valid returns, the nearest of them in units of 2^-12 m, and the
stroke in which its last return so far was received (R23); a word of code 0 holds none (R47). -/
structure OpenSec where
  k : Nat
  cost : Nat := 0
  near : Option Nat := none
  ret : Option Stroke := none
  /-- Other chips that hold points of it (R392). -/
  fwd : List Nat := []
  deriving DecidableEq, Repr

/-- A stream's state (R51 to R54). -/
structure StreamSt where
  /-- Synchronised (R52); w and e of R51. -/
  sync : Bool := false
  w : BitVec 16 := 0
  e : Nat := 0
  /-- The SWEEP_SEQ last accepted, and whether the stream waits for a newer one after a re-enable (R44, R52). -/
  last : Option (BitVec 16) := none
  resync : Bool := false
  /-- Stroke of the last accepted packet (R54). -/
  lastAcc : Stroke := 0
  /-- The open sector, and the sector of the sweep that holds index e and has failed already (R55). -/
  sec : Option OpenSec := none
  dead : Option Nat := none
  deriving DecidableEq, Repr

/-- Why a sector failed (R44, R51, R54); `none_` for one that passed. -/
inductive FailReason where
  | none_ | masked | gap | timeout
  deriving DecidableEq, Repr

/-- An integrity verdict (R54, R55) that waits for the boundary closing its stroke. -/
structure Verdict where
  stream : Nat
  sweep : BitVec 16
  sector : Nat
  reason : FailReason
  cost : Nat := 0
  near : Option Nat := none
  /-- Stroke of the last return received (R23); in the lead-in (R22). -/
  last : Stroke := 0
  leadIn : Bool := false
  fwd : List Nat := []
  deriving DecidableEq, Repr

/-- The calibration tables of a stream (R57, R271): FP32 codes, 16-bit azimuths. -/
structure Calib where
  ext : List Nat := []
  ce : List Nat := []
  se : List Nat := []
  az : List Nat := []
  rfx : Nat := 0
  rfy : Nat := 0
  cx : Nat := 0
  cy : Nat := 0
  deriving DecidableEq, Repr

/-- Intake. -/
structure IntakeSt where
  streams : SMap StreamSt := []
  calib : SMap Calib := []
  /-- The stream mask in force (R44): bit n enables stream n. -/
  mask : BitVec 48 := 0xFFFFFFFFFFFF
  /-- Verdicts reached in the stroke in progress (R55). -/
  verd : List Verdict := []
  /-- `used` of the frame in progress (R62), and the derate level of its shed limits (R467). -/
  used : Nat := 0
  derate : Nat := 0
  /-- The same of the frame before it. -/
  usedPrev : Nat := 0
  deratePrev : Nat := 0
  /-- Bytes held by the receive buffer of each port (R40): MAC n at n, CSI-2 receiver n at 16 + n. -/
  bufs : SMap Nat := []
  deriving DecidableEq, Repr

/-! ### The grid builder (03_sparse_grid) -/

/-- A hash or stash entry that has been written (R73), its key in full. -/
structure HEnt where
  key : Nat
  fn : Nat
  ftag : Nat
  live : Bool
  pend : Nat
  /-- USED: the entry holds a key (R74). -/
  used : Bool := true
  deriving DecidableEq, Repr

/-- A point on its way to the grid: receive stroke (R77) and the point. -/
structure GPoint where
  r : Stroke
  pt : Point
  deriving DecidableEq, Repr

/-- An undecided sector in the grid builder (R78, R79): its key list in ascending order, its points that hold a key
(key, sub-voxel offsets, point), the count of valid returns that passed R69. -/
structure GSec where
  id : SecId
  keys : List Nat := []
  pts : List (Nat × (Nat × Nat × Nat) × Point) := []
  offered : Nat := 0
  doomed : Bool := false
  /-- A forwarded part that arrived late (R392). -/
  late : Bool := false
  /-- Rolled back under R84: its later points and its verdict change nothing. -/
  gone : Bool := false
  deriving DecidableEq, Repr

/-- The counts of one frame (R81, R90, R115): sites N_f, OFFERED, MERGED, sectors shed, dropped and failed, the
ordinal of its next commit (R191). -/
structure FrameCnt where
  sites : Nat := 0
  offered : Nat := 0
  merged : Nat := 0
  shed : Nat := 0
  drop : Nat := 0
  fail : Nat := 0
  ord : Nat := 0
  deriving DecidableEq, Repr

/-- A sorted run of a site set (R95): the commits it stands for, and its items: key, and handle or coarse index. -/
structure SiteRun where
  commits : Nat := 1
  items : List (Nat × Nat) := []
  deriving DecidableEq, Repr

/-- A site of a frame's site set, or an item of a sector's lists: key, handle, and whether the commit made it new. -/
structure Site where
  key : Nat
  handle : Nat
  new : Bool := false
  deriving DecidableEq, Repr

/-- A committed sector handed to the level merger (R187): identity, frame, ordinal, verdict stroke, its work set. -/
structure Commit where
  id : SecId
  frame : BitVec 32
  ord : Nat
  v : Stroke
  sites : List Site
  cost : Nat := 0
  prio : Nat := 0
  last : Stroke := 0
  /-- The returns that it added to MERGED of its frame (R90). -/
  merged : Nat := 0
  /-- The neighbour list's words, formed at the commit (R95 to R97). -/
  nbr : List Nat := []
  deriving DecidableEq, Repr

/-- The grid builder. -/
structure GridSt where
  /-- The spatial hash and its stash by handle (R71); the golden table and stash (R93). -/
  tab : SMap (Option HEnt) := []
  gtab : SMap (Option HEnt) := []
  /-- Points not yet inserted, in the order of R77; points inserted in this stroke (R76). -/
  inq : List GPoint := []
  taken : Nat := 0
  /-- The same of the golden sector, in the capacity reserved for it (R31, R32). -/
  gold : List GPoint := []
  goldTaken : Nat := 0
  secs : List GSec := []
  vq : List GVerd := []
  cur : FrameCnt := {}
  prev : FrameCnt := {}
  /-- The previous frame has not retired (R91). -/
  prevLive : Bool := false
  /-- Site sets of the two frames as sorted runs, newest first; of the golden sector's two frames (R93, R95). -/
  siteCur : List SiteRun := []
  sitePrev : List SiteRun := []
  siteGold : List SiteRun := []
  siteGoldPrev : List SiteRun := []
  /-- The retirement scrub (R91): tag and next handle. -/
  scrub : Option (Nat × Nat) := none
  /-- Commits waiting for the level merger. -/
  commits : List Commit := []
  /-- Accepted sectors with no held keys (R80), until their SCATTER_COMMIT. -/
  empties : List GVerd := []
  /-- Errors that the next operation of the grid builder or the level merger meets in the commons (R164, R347). -/
  upset : List CmnErr := []
  /-- An operation of this stroke has met a word that cannot be read: the grid builder and the level merger wait for the
  fault controller (R84). -/
  stuck : Bool := false
  deriving DecidableEq, Repr

/-! ### Cell memory and the record path (04_cell_memory) -/

/-- A context (R106). -/
structure Ctx where
  a0 : Word := 0
  a1 : Word := 0
  a2 : Word := 0
  a3 : Word := 0
  temp : Word64 := 0
  lastSeen : Stroke := 0
  seen : Bool := false
  prPend : Bool := false
  prDef : Bool := false
  prGen : Bool := false
  hits : Nat := 0
  prior : BitVec 256 := 0
  deriving DecidableEq, Repr

/-- A roll step in flight (R111): the boundary at which it began, the axis, the direction, the prior version it
uses. -/
structure RollStep where
  began : Stroke
  axisX : Bool
  up : Bool
  ver : Word
  px : Int
  py : Int
  /-- Its accesses of the store: those after the first number, up to the second (R431). -/
  reqs : Nat × Nat := (0, 0)
  deriving DecidableEq, Repr

/-- A reload in progress (R113): the next block, and the block in flight with its beginning, version and prior origin. -/
structure Reload where
  next : Nat
  flight : Option (Stroke × Word × Int × Int) := none
  /-- The accesses of the store of the block in flight, as of a roll step. -/
  reqs : Nat × Nat := (0, 0)
  deriving DecidableEq, Repr

/-- A record in the path from tile-head start to hand-over (R26, R115): the stroke-level header, the contexts of the
tile as read (those that differ from `dctx`), and what the tile heads delivered: 1,024 pairs of cell word and new
TEMP. -/
structure RecSlot where
  stroke : Stroke
  ox : Int := 0
  oy : Int := 0
  time : Nat := 0
  frame : BitVec 32 := 0
  cov : Nat := 0
  covLast : Nat := 0
  offLast : Nat := 0
  mrgLast : Nat := 0
  shed : Nat := 0
  drop : Nat := 0
  fail : Nat := 0
  ver : Nat := 0
  prPend : Bool := false
  mixed : Bool := false
  rolled : Bool := false
  absent : Bool := false
  dctx : Ctx := {}
  snap : SMap Ctx := []
  heads : Option (List (Word64 × Word64)) := none
  deriving DecidableEq, Repr

/-- Pose and yaw (R103, R205). -/
structure Pose where
  x : Int := 0
  y : Int := 0
  cos : Int := 1073741824
  sin : Int := 0
  deriving DecidableEq, Repr

/-- Cell memory. -/
structure CellSt where
  /-- What an unlisted slot holds, and the slots that differ from it (R105, R106). -/
  dctx : Ctx := {}
  ctxs : SMap Ctx := []
  /-- The golden region's contexts (R119). -/
  gold : SMap Ctx := []
  /-- Origin in force (R104). -/
  ox : Int := -512
  oy : Int := -512
  /-- Pose in force, the pose a GO holds for the next boundary, and the history by stroke (R205): newest first. -/
  pose : Pose := {}
  poseNext : Option Pose := none
  hist : List (Stroke × Pose) := []
  roll : Option RollStep := none
  reload : Option Reload := none
  /-- The reload and the generation before a reload that steps 3 and 4 of this boundary began (R25, R113). -/
  held : Option (Option Reload × Bool) := none
  gen : Bool := false
  /-- The contexts that this stroke's expiry zeroed, as they were (slot, context). -/
  expired : List (Nat × Ctx) := []
  /-- The scatter buffer (R207), the adds expected of each sector, and the cancelled sectors of this stroke. -/
  adds : List CellAdd := []
  exps : List AddExp := []
  /-- The record path: records not yet handed out, oldest first. -/
  path : List RecSlot := []
  deriving DecidableEq, Repr
/-! ### Faults and recovery (13_integrity_recovery) -/

/-- One fault report of the stroke in progress (R350, R351, R360). -/
structure FltRep where
  src : Nat
  unit : Nat := 0
  addr : Nat := 0
  detail : Nat := 0
  /-- Sectors that a containment of CANCEL names (R353). -/
  cancel : List SecId := []
  deriving DecidableEq, Repr

/-- A corrected-fault entry open for its window of 1,024 strokes (R361). -/
structure CoalEnt where
  rep : FltRep
  stroke : Stroke
  frame : BitVec 32
  time : Nat
  count : Nat := 1
  deriving DecidableEq, Repr

/-- The phase of an accelerator restart (R333). -/
inductive RestartPhase where
  | idle
  /-- Requested; the Stop phase begins at the next boundary (or at the boundary that R397 names). -/
  | requested
  | stop | reset | restore | reseat
  /-- Re-seat has ended; work resumes at a frame boundary at least one stroke later. -/
  | waiting
  deriving DecidableEq, Repr

/-- The fault controller (R350 to R362). -/
structure FltSt where
  reps : List FltRep := []
  /-- A recoverable fault has been reported in this stroke: every crew holds (R352 step 1). -/
  stopped : Bool := false
  /-- This stroke is a restoration stroke; its crews, journals and network have been restored (R352 step 3). -/
  rolling : Bool := false
  restored : Bool := false
  /-- The rolled-back stroke of the rollback in progress; the stroke in progress is the one after a restoration stroke, in
  which every turn context holds a null group (R352). -/
  rbStroke : Stroke := 0
  resumed : Bool := false
  phase : RestartPhase := .idle
  /-- Boundary at which a configuration's restart begins, and at which it resumes (R397). -/
  restartAt : Option Stroke := none
  resumeAt : Option Stroke := none
  reseatAt : Stroke := 0
  fatal : Bool := false
  permanent : Bool := false
  logPos : Nat := 0
  logSeq : Nat := 0
  boots : Nat := 0
  coal : List CoalEnt := []
  lost : Bool := false
  deriving DecidableEq, Repr

/-! ### Digests, recording (08_crews_determinism R226 to R234) -/

/-- A digest in formation (R227): CRCs of completed groups by group number, with byte counts. -/
structure DigAcc where
  id : SecId
  point : Nat
  level : Nat
  frame : BitVec 32
  ord : Nat
  entries : Nat
  groups : List (Nat × Nat × Nat) := []
  need : Nat := 0
  invalid : Bool := false
  golden : Bool := false
  migrated : Bool := false
  report : Bool := false
  deriving DecidableEq, Repr

/-- A digest record (R228) completed and not yet released. -/
structure DigRec where
  stroke : Stroke
  acc : DigAcc
  value : Nat
  deriving DecidableEq, Repr

/-- A log entry (R229, R230) not yet written: its STROKE, TYPE, SOURCE and payload. -/
structure LogEnt where
  stroke : Stroke
  type : Nat
  source : Nat := 0
  payload : List Byte
  deriving DecidableEq, Repr

/-- Digests, recording and replay. -/
structure RecSt where
  digs : List DigAcc := []
  done : List DigRec := []
  /-- DIGEST_EN and BALANCE_EN in force (R220, R226). -/
  digestEn : Bool := false
  balanceEn : Bool := false
  /-- CS_REC_CTRL MODE, and CS_REC_STATUS STATE and LAST_ABORT (R234). -/
  mode : Nat := 0
  state : Nat := 0
  lastAbort : Nat := 0
  stopReq : Bool := false
  /-- ARM of CS_REC_CTRL, written while a session is active (R9). -/
  armSet : Bool := false
  /-- ABORT of CS_REC_CTRL as it reads (R9), and whether a replay's START mismatch bars the entry to the operational state
  (R233). -/
  abortSet : Bool := false
  barred : Bool := false
  head : Nat := 0
  tail : Nat := 0
  /-- HEAD at START (R232) and the count of entries of the session. -/
  head0 : Nat := 0
  count : Nat := 0
  session : Nat := 0
  buf : List LogEnt := []
  /-- An aborted or starved replay has ended injection (R233). -/
  ended : Bool := false
  deriving DecidableEq, Repr

/-! ### The safety island (12_safety) -/

/-- A MARK of R313. -/
inductive MarkKind where
  | crewEnd (crew : Nat)
  | subSteps
  | heads (s : Stroke)
  | handOver (s : Stroke)
  deriving DecidableEq, Repr

/-- The events of a SECTOR message (R313); `accept`, `shed` and `fail` are its VERDICT. -/
inductive SecEv where
  | accept | shed | fail | commit | drop | cancel | backboneDone | scatterCommit
  deriving DecidableEq, Repr

/-- A message on the monitor port (R313). -/
inductive MonMsg where
  | boundary (s : Stroke) (frame : BitVec 32) (first retire : Bool) (ox oy : Int) (covLast : Nat)
  | record (s : Stroke) (bytes : Option (List Byte)) (notOwned : Bool)
  | delivered (s : Stroke) (source : Nat)
  | mark (k : MarkKind)
  | sector (ev : SecEv) (id : SecId) (frame : BitVec 32) (ord : Nat) (last v at_ : Stroke)
  | golden (point : Option Nat) (crc : Nat) (own : Bool := true)
  | pose (p : Pose)
  | fault (cls src : Nat)
  deriving DecidableEq, Repr

/-- A groundsheet cell (R319), in the cleared state by default. -/
structure GsCell where
  zmax : Int := -32768
  nObst : Nat := 0
  nGnd : Nat := 0
  tObst : BitVec 32 := 0
  tSeen : BitVec 32 := 0
  deriving DecidableEq, Repr

/-- A sector that Cox tracks (R327): its verdict stroke and which of its windows 2, 3 and 8 are still open. -/
structure Track where
  id : SecId
  v : Stroke
  gb : Bool := true
  bb : Bool := true
  scat : Bool := true
  deriving DecidableEq, Repr

/-- What the island keeps of a BOUNDARY message (R316, R317). -/
structure Bnd where
  s : Stroke
  frame : BitVec 32
  ox : Int
  oy : Int
  deriving DecidableEq, Repr

/-- A window watchdog's report state (R345): 0 off, 1 armed, 2 in window, 3 violated; the last violation. -/
structure Ww where
  state : Nat := 0
  early : Bool := false
  late : Bool := false
  noTrack : Bool := false
  last : Stroke := 0
  deriving DecidableEq, Repr

/-- A doubt found in the stroke in progress (R317): its rule, and its tile or ALL. -/
structure Doubt where
  rule : Nat
  tile : Option Nat
  deriving DecidableEq, Repr

/-- The island: Cox, Bivouac, the groundsheet and the window watchdogs. -/
structure IslandSt where
  /-- THRESHOLDS (word n, R342) and GOLDEN_REF (R330) as the island holds them; the load port is open (R312). -/
  thr : SMap Word := []
  /-- The complement with which each word of THRESHOLDS is held (R315, R341); all-ones where none is listed. -/
  thrC : SMap Word := []
  gref : List Byte := []
  portOpen : Bool := true
  /-- Monitor messages not yet taken, oldest first; points of the raw tap with their stroke of receipt; how many points
  received in stroke tapAt Bivouac has taken (R318). -/
  mq : List MonMsg := []
  tap : List (Stroke × Int × Int × Int) := []
  tapAt : Stroke := 0
  taps : Nat := 0
  /-- Pose of the latest POSE, and poses by stroke of the boundary (R318). -/
  poses : List (Stroke × Pose) := []
  gs : SMap GsCell := []
  /-- Groundsheet window origin (R320), rows and columns that await clearing: (a column, index mod 512). -/
  wx : Int := -256
  wy : Int := -256
  await : List (Bool × Nat) := []
  /-- Slots of those rows and columns that a placed point has cleared already (R318, R320). -/
  fresh : List Nat := []
  /-- Slots of the groundsheet that hold an error that cannot be corrected (R323). -/
  gsUpset : List Nat := []
  /-- The stroke at whose start rows and columns were last cleared (R320). -/
  gsAt : Stroke := 0
  sweep : Nat := 0
  /-- Recent BOUNDARY messages, newest first; the entry stroke. -/
  bnds : List Bnd := []
  entry : Option Stroke := none
  /-- Bivouac's words of the tile of a stroke (R322), newest first. -/
  biv : List (Stroke × List Word64) := []
  doubts : List Doubt := []
  serveAll : Bool := false
  serve : BitVec 1024 := 0
  latched : Bool := false
  permanent : Bool := false
  bivFail : Bool := false
  fatal : Bool := false
  cause : Nat := 0
  restarting : Bool := false
  /-- hist, period_doubt and clean of R332; the period so far is clean (R331); recoverable faults of the period. -/
  hist : Nat := 0
  perDoubt : Bool := false
  perClean : Bool := true
  clean : Nat := 0
  recov : Nat := 0
  /-- Island times (in 500 µs edges × 500 µs, as µs) of restart requests (R334); island time in µs. -/
  requests : List Nat := []
  time : Nat := 0
  lastRule : Nat := 0
  lastTile : Nat := 0
  lastAll : Bool := false
  lastStroke : Stroke := 0
  tracks : List Track := []
  ww : SMap Ww := []
  /-- The counters of R345 and R346 as the island counts them, by the address at which the mirror shows them (R475). -/
  cnt : SMap Ctr := []
  /-- Per-stroke windows that are open: window number and, for TH, the record's stroke. -/
  wins : List (Nat × Stroke) := []
  /-- Digest points of the golden sector that have arrived for the frame in progress, and the tile CRC. -/
  gpts : List Nat := []
  gcrc : Bool := false
  /-- Messages of frames that have closed at the front of the GOLDEN messages not yet taken (R33). -/
  gprev : Nat := 0
  /-- Frames still to be closed by a verdict boundary: the stroke at which each falls (R331). -/
  verdictAt : List Stroke := []
  /-- Records whose tile-head completion MARK has arrived (R324); records and strokes whose TH, OUT and crew windows
  close without violation (R355). -/
  thOk : List Stroke := []
  muted : List Stroke := []
  /-- A FAULT of class accelerator-fatal asks for latch and restart at the next boundary (R339), or, for sources 0x25
  and 0x26, for the permanent latch (R351). -/
  latchReq : Bool := false
  permReq : Bool := false
  /-- The self-test of the entry stroke failed (R337). -/
  firstFailed : Bool := false
  /-- The records for which the switch selected, by stroke: SOURCE expected in DELIVERED (R325). -/
  sel : List (Stroke × Nat) := []
  /-- SAFE_OK (R337): a first self-test has passed; edges are being made; the level of SAFE_OK_P. -/
  tested : Bool := false
  running : Bool := false
  pin : Bool := false
  maint : Bool := false
  pllLost : Bool := false
  deriving DecidableEq, Repr

/-! ### Regatta (15_regatta) -/

/-- A flit that a transmitter keeps until it is acknowledged (R386): what it carried, the credits that it returns among
them, and how often it has been resent. -/
structure Kept where
  seq : Nat
  type : Nat
  vc : Nat
  cvc : Nat
  cr : Nat
  payload : List Byte
  again : Nat := 0
  deriving DecidableEq, Repr

/-- A link (R386 to R388). States as RL_LINKk_STATUS: 0 disabled, 1 DETECT, 2 LOCK, 3 ALIGN, 4 IDENTIFY, 5 ACTIVE,
6 RETRAIN. -/
structure LinkSt where
  state : Nat := 0
  peer : Nat := 0
  reversed : Bool := false
  inverted : Nat := 0
  error : Bool := false
  cause : Nat := 0
  /-- Next SEQ expected, last accepted SEQ, and whether a gap has already been answered by a NAK. -/
  rxSeq : Nat := 0
  nakSent : Bool := false
  /-- Transmitter: next SEQ, unacknowledged flits, credits per VC. -/
  txSeq : Nat := 0
  replay : List Kept := []
  cred0 : Nat := 0
  cred1 : Nat := 0
  cred2 : Nat := 0
  /-- Flits that wait for a credit: TYPE, VC, payload; credits to be returned to the peer, per VC. -/
  txq : List (Nat × Nat × List Byte) := []
  /-- Flits sent since the last SKIP flit (R385). -/
  sent : Nat := 0
  /-- Whether a ready flit has lacked a credit in this stroke: 1 in a part of it, 2 since it opened (R401). -/
  waited : Nat := 0
  ret0 : Nat := 0
  ret1 : Nat := 0
  ret2 : Nat := 0
  /-- Receive buffers: flits held per VC. -/
  buf0 : List (List Byte) := []
  buf1 : List (List Byte) := []
  buf2 : List (List Byte) := []
  deriving DecidableEq, Repr

/-- A part forwarded to this chip (R392): points with the stroke in which they count, a verdict if it has arrived. -/
structure FwdPart where
  id : SecId
  late : Bool := false
  held : Bool := false
  deriving DecidableEq, Repr

/-- The Regatta configuration as this chip sees it. -/
structure RegattaSt where
  chip : Nat := 0
  countM1 : Nat := 0
  links : SMap LinkSt := []
  /-- Chips that sent READY; this chip has sent its own; START's stroke (R390). -/
  ready : List Nat := []
  readySent : Bool := false
  startAt : Option Stroke := none
  /-- Reachable set, peers' sets as last heard, strokes since the last heartbeat per peer, group, majority, takeover
  (R398, R399). -/
  reach : Nat := 0
  views : SMap Nat := []
  silent : SMap Nat := []
  group : Nat := 0
  majority : Bool := false
  takeover : Bool := false
  lost : Nat := 0
  changedAt : Option Stroke := none
  parts : List FwdPart := []
  /-- Verdicts that have arrived: identity, what, priority, cost, v + FWD_DELAY, frame, last stroke. -/
  verds : List GVerd := []
  /-- Path delays of the time exchange with chip 0 (R389), units of 2^-16 ns. -/
  delays : List Int := []
  /-- Chips that reported Re-seat complete (R397). -/
  reseated : List Nat := []
  deriving DecidableEq, Repr

/-! ### The host interface (16_host_pcie) -/

/-- A ring (R407, R408). -/
structure RingSt where
  /-- EN as written; the ring takes part; BASE, STAT and LOG2_SIZE are locked; a write that cleared EN waits for the
  boundary. -/
  en : Bool := false
  active : Bool := false
  locked : Bool := false
  clr : Bool := false
  prod : BitVec 32 := 0
  cons : BitVec 32 := 0
  /-- Ring 05: count of records fetched. -/
  fetched : BitVec 32 := 0
  lost : Nat := 0
  last : Stroke := 0
  /-- Entries since the last message of the ring's vector (R416). -/
  unsig : Nat := 0
  timer : Bool := false
  deriving DecidableEq, Repr

/-- An update record fetched from ring 05 and not yet decided (R412). -/
abbrev Fetched := List Byte

/-- A mailbox command in progress (R414). -/
structure MbxSt where
  /-- STATE: 0 idle, 1 busy, 2 done, 3 bad command, 4 bad state, 5 range, 6 flash error. -/
  state : Nat := 0
  cmd : Nat := 0
  /-- The command's effect has been carried out, and its result waits for its end. -/
  result : Option Nat := none
  res0 : Word := 0
  res1 : Word := 0
  deriving DecidableEq, Repr

/-- The host interface, and host memory as the device sees it. -/
structure HostSt where
  linkUp : Bool := false
  /-- The function's configuration space (R402). -/
  pci : PciCfg := {}
  width : Nat := 0
  rate : Nat := 0
  maint : Bool := false
  /-- Maintenance mode has been asked for (R415). -/
  maintReq : Bool := false
  rings : SMap RingSt := []
  /-- The output queue of 64 records (R409): stroke, the rings that take it as a mask, bytes. -/
  outq : List (Stroke × Nat × List Byte) := []
  fetchq : List Fetched := []
  /-- Update records decided in this stroke (R412). -/
  decided : Nat := 0
  mbx : MbxSt := {}
  /-- MSI-X table words (by entry × 4 + word) and pending bits. -/
  msix : SMap Word := []
  pba : BitVec 64 := 0
  cause : Word := 0
  /-- Host memory that the device's writes and reads reach. -/
  mem : Mem := []
  /-- A device reset is due 1 ms after LEAVE_MAINTENANCE (R414). -/
  leave : Bool := false
  /-- Vector 13 waits for the link (R444). -/
  due13 : Bool := false
  /-- SI_STATUS at the boundary that opened the stroke in progress (R449). -/
  siAt : Word := 0
  deriving DecidableEq, Repr
/-! ### Crews, cores and planes (05 to 08, 11) -/

/-- A group (R212): its sector, its level, its number n, its entries, and the engine addresses of entry 128n in the
work, source, parent and child lists (R287); 0 where a list does not exist. -/
structure Group where
  id : SecId
  frame : BitVec 32 := 0
  ord : Nat := 0
  verdict : Stroke := 0
  level : Nat := 0
  n : Nat := 0
  count : Nat := 0
  /-- Entries of the sector's work set at the level. -/
  total : Nat := 0
  lists : List Nat := []
  migrated : Bool := false
  deriving DecidableEq, Repr

/-- A turn context (R287): empty, or bound to a group, or to a null group; `quiet` suppresses its write-backs until its
next TURN (R352). -/
structure TurnCtx where
  bound : Bool := false
  null : Bool := false
  grp : Option Group := none
  level : Nat := 0
  quiet : Bool := false
  deriving DecidableEq, Repr

/-- A job of an array or a half (R125): number, format pair, transposed, and the sectors with a group in it (R351). -/
structure Job where
  no : Nat := 0
  /-- The core's own count of it among its JOBs. -/
  id : Nat := 0
  a : Nat := 0
  w : Nat := 0
  trans : Bool := false
  secs : List SecId := []
  deriving DecidableEq, Repr

/-- A target (R296): its pending and its running job; the schedule cycle from which its shadow fill is complete, and of
its last swap (R131). -/
structure Tgt where
  pend : Option Job := none
  run : Option Job := none
  fillEnd : Nat := 0
  swapAt : Option Nat := none
  deriving DecidableEq, Repr

/-- A window's geometry (R194, R298). -/
structure Win where
  lb : Nat := 0
  n : Nat := 1
  logP : Nat := 0
  c : Nat := 1
  k : Nat := 1
  deriving DecidableEq, Repr

/-- A ring's indices and epochs (R169), and its slots reserved and not yet completed, oldest first: slot, epoch. -/
structure RingPos where
  head : Nat := 0
  pep : Nat := 0
  tail : Nat := 0
  cep : Nat := 0
  resv : List (Nat × Nat) := []
  deriving DecidableEq, Repr

/-- A slot tag (R169), and the stroke in which it became FULL (R242). -/
structure SlotTag where
  full : Bool := false
  epoch : Nat := 0
  at_ : Stroke := 0
  deriving DecidableEq, Repr

/-- An open digest channel (R291, R293): the group, the point, the CRC and the bytes so far. -/
structure DigOpen where
  grp : Group
  point : Nat
  crc : Nat := 0
  len : Nat := 0
  invalid : Bool := false
  deriving DecidableEq, Repr

/-- A descriptor handed to the engine (R200): its 32 bytes with A0 and COUNT in force, the group of its context, and the
ring slot that it is to PUT: ring, slot, epoch at the reservation (R169). -/
structure QDesc where
  bytes : List Byte
  put : Option (Nat × Nat × Nat) := none
  deriving DecidableEq, Repr

/-- Where an operation of the engine stands (R202, R172, R174). -/
inductive OpStage where
  /-- Not issued. -/
  | idle
  /-- Issued: its read, or its add, travels over the network, or waits at a plane. -/
  | readNet | readPlane
  /-- Its data is at hand and its write travels, or waits at a plane. -/
  | writeNet | writePlane
  /-- Its data is at hand and its remote write waits for a credit (R174). -/
  | creditWait
  /-- Applied; the completion is still to be taken. -/
  | done
  deriving DecidableEq, Repr

/-- One operation of the engine (R202): a move of `len` bytes between engine addresses, or an add to cell memory. -/
structure GsOp where
  src : Nat := 0
  dst : Nat := 0
  len : Nat := 0
  /-- Of a WINDOW's fetch: the offsets of the local tile plane that its 16-byte pieces go to, in order. -/
  gran : List Nat := []
  /-- Credit entry of a remote write: entry, and whether of the commons table (R174, R204). -/
  credit : Option (Nat × Bool) := none
  add : Option CellAdd := none
  data : List Byte := []
  /-- Its place in the order of arrival at the planes (R159). -/
  since : Nat := 0
  stage : OpStage := .idle
  promoted : Bool := false
  deriving DecidableEq, Repr

/-- A descriptor that the engine has started (R200): its operations, and the ring slot that it PUTs when all have
completed. -/
structure GsAct where
  op : Nat
  ops : List GsOp
  put : Option (Nat × Nat × Nat) := none
  deriving DecidableEq, Repr

/-- What a core's part of the stroke checkpoint holds (R221, R285). -/
structure CoreChk where
  /-- Address and stride registers, WBSTEP, HSTEP, WQBASE (R285). -/
  ar : SMap Word := []
  as_ : SMap Word := []
  wbstep : Word := 0
  hstep : Word := 0
  wqbase : Word := 0
  /-- Turn contexts 0 to 3; windows 0 to 7. -/
  ctx : SMap TurnCtx := []
  wins : SMap Win := []
  /-- Column accumulator entries by 128 × array + entry: 64 columns; the job whose wave last landed in an entry, by
  256 × array + 128 × half + entry. -/
  acc : SMap (List Nat) := []
  tag : SMap (Option Job) := []
  /-- Row accumulator entries: 128 rows; their jobs. -/
  racc : SMap (List Nat) := []
  rtag : SMap (List Job) := []
  /-- Vector registers: 256 lanes. -/
  vr : SMap (List Nat) := []
  /-- Arrays that are split, and the targets by 2 × array + half; of a whole array, target 2 × array. -/
  split : SMap Bool := []
  tgts : SMap Tgt := []
  /-- JOBs taken so far, and the numbers of those aborted (R142). -/
  jobs : Nat := 0
  dead : List Nat := []
  /-- ROW of the map that the last WINDOW fetched into a window, by 8 × LB + k (R184, R194). -/
  rowOf : SMap Nat := []
  dig : Option DigOpen := none
  /-- The descriptor queue and the descriptors started (R200). -/
  descq : List QDesc := []
  acts : List GsAct := []
  /-- Rings and slot tags (R168, R169). -/
  rings : SMap RingPos := []
  tags : SMap SlotTag := []
  deriving DecidableEq, Repr

/-- An array's activity (R143): level; a ramp in progress and its direction; the schedule cycle of its next step; that
of its last wave; and that up to which its dummy waves are counted. -/
structure ArrAct where
  level : Nat := 0
  rising : Bool := false
  stepAt : Nat := 0
  last : Nat := 0
  counted : Nat := 0
  deriving DecidableEq, Repr

/-- A wave in flight (R126): the schedule cycle at which it lands, its array and half (0 whole, 1 low, 2 high), entry,
MODE, column (or row) results, and its job; of a transposed wave (array 4), the jobs of the four arrays. -/
structure Wave where
  due : Nat
  arr : Nat
  half : Nat
  entry : Nat
  add : Bool
  vals : List (Nat × Nat)
  jobs : List Job
  /-- It lands as a dummy wave: a rollback has overtaken it (R352). -/
  dummy : Bool := false
  deriving DecidableEq, Repr

/-- A broadcast in preparation or landed (R298, R299): its cycle, 128 lanes, the side lanes, and the sector whose group
it belongs to. -/
structure Feed where
  at_ : Nat
  lanes : List Nat
  scales : List Nat := []
  sec : Option SecId := none
  deriving DecidableEq, Repr

/-- A vector result on its way (R301). -/
structure VRes where
  due : Nat
  vd : Nat
  lanes : List Nat
  deriving DecidableEq, Repr

/-- A scheduled write on its way to its bank cycle (R158): plane (false tile, true word), offset, bytes, AOW code, and
whether the vector unit makes it. -/
structure PWrite where
  at_ : Nat
  word : Bool
  off : Nat
  bytes : List Byte
  aow : Nat := 0
  vec : Bool := false
  deriving DecidableEq, Repr

/-- A scheduled read whose bank cycle lies ahead (R129, R298). -/
inductive ReadKind where
  /-- 16 rows of a shadow fill, from row `row` on, of array `arr` and half `half`: 1 KiB from `off`, or a transposed
  COLUMN of 64 lines: line, granule, stride (R155). -/
  | fillLin (arr half row off : Nat)
  | fillCol (arr half row line gran stride : Nat)
  /-- The 256 block scales of a shadow fill. -/
  | fillScale (arr half off : Nat)
  /-- The segments of a broadcast, by lane: byte offsets in the tile plane (none: zero); the side lanes' bytes; the
  cycle at which it lands; its sector. -/
  | feed (land : Nat) (lanes : List (Option Nat)) (scales : List (Option Nat)) (sec : Option SecId)
  deriving DecidableEq, Repr

/-- A scheduled read and its bank cycle; the tile-plane bytes of it that an uncorrectable error leaves open, with the
values drawn for them. -/
structure PRead where
  at_ : Nat
  kind : ReadKind
  open_ : List (Nat × Byte) := []
  deriving DecidableEq, Repr

/-- The banks that scheduled accesses take in one bank cycle (R160). -/
structure Occ where
  at_ : Nat
  word : Bool
  banks : List Nat
  deriving DecidableEq, Repr

/-- What of a core no checkpoint holds: weights, pipelines, the journal's fill (R222), credits in use (R173). -/
structure CoreVol where
  /-- Active and shadow weight rows by 128 × array + row: 64 bytes; block scales by 4 × array + group: 64 bytes. -/
  wAct : SMap (List Nat) := []
  wSh : SMap (List Nat) := []
  sAct : SMap (List Nat) := []
  sSh : SMap (List Nat) := []
  arrs : SMap ArrAct := []
  waves : List Wave := []
  feeds : List Feed := []
  bcast : List Feed := []
  vres : List VRes := []
  arup : List (Nat × Nat × Word) := []
  /-- Turn contexts that take a binding from a schedule cycle on (R291). -/
  ctxup : List (Nat × Nat × TurnCtx) := []
  writes : List PWrite := []
  reads : List PRead := []
  occ : List Occ := []
  jfill : Nat := 0
  /-- Credits in use by 16 × destination + entry, destination 32 being the commons; those of them whose write has been
  applied, so that they are on their way back (R174). -/
  cred : SMap Nat := []
  owed : SMap Nat := []
  /-- Schedule cycles before which a tile-plane correction has frozen the crew (R165). -/
  corr : List Nat := []
  /-- Rings that a DRAIN has freed a slot of, with its schedule cycle: held PUTs go on after it (R170, R305). -/
  retry : List (Nat × Nat) := []
  /-- The entry that the patrol scrub reads next, of the tile plane and of the word plane (R166). -/
  scrubT : Nat := 0
  scrubW : Nat := 0
  deriving DecidableEq, Repr

/-- A crew within its stroke (R215, R217): schedule cycles of earlier programs (R284), the schedule cycle reached, the
boundary wait, the freezes by cycle and core, the freeze cycles of the stroke, and the checks that wait: core, cycle,
ring (32 the descriptor queue, 33 the merge unit), whether it is a GET. -/
structure CrewVol where
  base : Nat := 0
  pos : Nat := 0
  waiting : Bool := false
  /-- The program has stopped at an illegal bundle (R308). -/
  halted : Bool := false
  frz : List (Nat × Nat × Nat) := []
  frozen : Nat := 0
  /-- The schedule cycle in which an operation other than a check last issued (R305), and the bundles counted (R310). -/
  late : Option Nat := none
  bundles : Nat := 0
  wait : List (Nat × Nat × Nat × Bool) := []
  deriving DecidableEq, Repr

/-- A committed sector whose groups have been dispatched and not all released: groups left, whether its digests go to
the host, once its first digested layer has begun (R226). -/
structure LiveSec where
  id : SecId
  frame : BitVec 32
  ord : Nat
  v : Stroke
  last : Stroke := 0
  left : Nat
  dig : Option Bool := none
  deriving DecidableEq, Repr

/-- The crew sequencers' part of the checkpoint (R221): dispatch queues by 8 × crew + level (4: the golden queue), and
group slots held, by core. -/
structure SeqChk where
  queues : SMap (List Group) := []
  slots : SMap Nat := []
  live : List LiveSec := []
  deriving DecidableEq, Repr

/-- An error that stands in a memory (R164): SPACE of its engine address (R203), core, byte offset, whether it is
uncorrectable. -/
structure PlaneErr where
  sp : Nat
  core : Nat := 0
  off : Nat
  unc : Bool := false
  deriving DecidableEq, Repr

/-- The crews, the cores and the network between them. -/
structure CrewSide where
  seq : SeqChk := {}
  cores : SMap CoreChk := []
  /-- The last stroke checkpoint (R221). -/
  ckSeq : SeqChk := {}
  ckCores : SMap CoreChk := []
  vol : SMap CoreVol := []
  crews : SMap CrewVol := []
  /-- Accesses that have arrived at a plane so far (R159). -/
  arrivals : Nat := 0
  /-- Program slots by 16 × crew + slot (R273), and the stroke table (R274). -/
  progs : SMap (List Byte) := []
  table : List Byte := []
  /-- Unscheduled writes that the device itself makes to rings and that wait for a free slot (R170): core, ring, bytes. -/
  held : List (Nat × Nat × List Byte) := []
  /-- Work-set headers that the level merger has put into their ring since the last checkpoint: core, ring, bytes. -/
  pushed : List (Nat × Nat × List Byte) := []
  /-- Sectors whose group was bound to a context during the stroke, or lost an add (R353). -/
  touched : List SecId := []
  /-- Errors that stand in the planes and the commons where a block of the device or an engine reads next (R164, R167). -/
  upset : List PlaneErr := []
  deriving DecidableEq, Repr

/-- A work-set header sent (R191): the sector in full, which the header itself does not hold, and the returns that it
added to MERGED of its frame (R353). -/
structure SentHdr where
  id : SecId
  frame : BitVec 32
  ord : Nat
  last : Stroke
  v : Stroke := 0
  merged : Nat := 0
  cancelled : Bool := false
  deriving DecidableEq, Repr

/-- The level merger (R187 to R191): the run sets by level of the frame in progress, of the previous one and of the
golden sector; the golden level table's CHILD words; the next free unit of the list area. -/
structure AgSt where
  lvCur : SMap (List SiteRun) := []
  lvPrev : SMap (List SiteRun) := []
  lvGold : SMap (List SiteRun) := []
  goldEnt : SMap (List Nat) := []
  area : Nat := 0
  /-- The headers sent, newest first. -/
  sent : List SentHdr := []
  deriving DecidableEq, Repr
/-! ### Embedding tables (09_embedding_tables) -/

/-- An update operation (R249, R254): rows still to be written, rows written, its effect stroke. -/
structure UpdOp where
  table : Nat
  todo : List (Nat × List Byte)
  done : List Nat := []
  effect : Stroke
  aborted : Bool := false
  complete : Bool := false
  adapt : Bool := false
  deriving DecidableEq, Repr

/-- A lookup that the engine has taken up (R241 to R243). -/
structure Lookup where
  table : Nat
  putTo : Option Nat
  count : Nat
  dest : Nat
  tag : Nat
  core : Nat
  ring : Nat
  slot : Nat
  issue : Stroke
  ver : Word
  idx : List Nat
  /-- Rows whose reads have been issued (R241), and the next row to return. -/
  sent : Nat := 0
  next : Nat := 0
  defaults : Nat := 0
  /-- The crew lookup has been withdrawn by a rollback (R352): rows that return are discarded. -/
  withdrawn : Bool := false
  /-- The last stroke in which a row of it was substituted by the default row (R350, R351). -/
  subst : Option Stroke := none
  /-- The accesses of its reads that have been issued, in their order; 0 where an index needs none (R431). -/
  reqs : List Nat := []
  deriving DecidableEq, Repr

/-- The adaptation step before its effect stroke (R252 to R255): issue stroke, record count; in a configuration, the sums
per owned row by chip: table, row, chip, values; and the rows (table, row) that their owners have not sent back. -/
structure Adapt where
  issued : Stroke
  count : Nat
  merged : Bool := false
  applied : Bool := false
  sums : List (Nat × Nat × Nat × List Nat) := []
  want : List (Nat × Nat) := []
  /-- An operation of it has been aborted through its table (R250). -/
  cut : Bool := false
  deriving DecidableEq, Repr

/-- The table engine and the merge unit. -/
structure TabSt where
  /-- The version vectors latched at the last 64 boundaries, newest first (R242). -/
  latch : List (Stroke × List Word) := []
  /-- STATUS.OP, LAST_ABORT and OLD_BUSY of each table (R257); e_prev of R249. -/
  opStat : SMap Nat := []
  lastAb : SMap Nat := []
  oldBusy : SMap Bool := []
  effPrev : SMap (Option Stroke) := []
  /-- Commits accepted and not yet decided, and ABORTs accepted in this stroke (R245, R247). -/
  commits : List (Nat × Word) := []
  /-- Commits that step 4 of the last boundary rejected for OLD_BUSY alone (R246). -/
  refused : List (Nat × Word) := []
  aborts : List Nat := []
  ops : List UpdOp := []
  lookups : List Lookup := []
  adapt : Option Adapt := none
  adStat : Nat := 0
  adLastAb : Nat := 0
  adAbort : Bool := false
  /-- The SETTLED sweep's place (R244): table and slot. -/
  sweep : Nat × Nat := (0, 0)
  deriving DecidableEq, Repr
/-! ### The external store (17_external_store) -/

/-- A request that waits at a channel (R430): its class, its bytes within the channel's offset space, whether it
writes, the raw time of its arrival, whether it has been promoted, whether a restart drains it (R333, R431), and the access of
which it is a part (R431). -/
structure XsReq where
  cls : Nat
  off : Nat
  len : Nat
  write : Bool
  at_ : Nat := 0
  top : Bool := false
  accel : Bool := false
  id : Nat := 0
  deriving DecidableEq, Repr

/-- A cached check burst (R426): the 256 data bytes that it covers (offset div 256), whether a write has changed it, and
the raw time at which one first did. -/
structure ChkBurst where
  idx : Nat
  changed : Bool := false
  at_ : Nat := 0
  deriving DecidableEq, Repr

/-- A channel: its waiting requests, oldest first, its check bursts, newest first, and the patrol scrub's next row. -/
structure XsChan where
  reqs : List XsReq := []
  cache : List ChkBurst := []
  scrub : Nat := 0
  deriving DecidableEq, Repr

/-- The store: its data by store address (R422), and the controllers. -/
structure StoreSt where
  mem : Mem := []
  ready : Bool := false
  geomErr : Bool := false
  devicesM1 : Nat := 0
  density : Nat := 0
  chans : SMap XsChan := []
  /-- The number of the latest access (R431). -/
  next : Nat := 0
  /-- Bursts whose check word shows an error that cannot be corrected, by store address div 32 (R425, R427). -/
  bad : List Nat := []
  deriving DecidableEq, Repr

/-! ### Boot, fuses and flash (18_boot_security) -/

/-- The boot code's results, the fuses and the configuration flash. -/
structure BootSt where
  /-- BT_STATUS: STATE (0 booting), LOCKED, ID_FAIL, REASON, ENTRY. -/
  state : Nat := 0
  locked : Bool := false
  idFail : Bool := false
  /-- The boot code has read the fuses since the last reset, so that LIFECYCLE is known. -/
  begun : Bool := false
  reason : Nat := 0
  entry : Nat := 0x7FF
  /-- Steps 1 to 14 of R442 have passed: the chip may enter the operational state. -/
  placed : Bool := false
  /-- The header of the image that passed step 7, its measurement M, and SHA-512 of its signer's keys. -/
  header : List Byte := []
  meas : List Byte := []
  signer : List Byte := []
  /-- IDENTITY_PK of the key store (R441). -/
  idPk : List Byte := []
  /-- Where the golden input lies in the store, and its length (R276). -/
  gold : Nat := 0
  goldLen : Nat := 0
  /-- Plane segments that a plane section of the image loaded (R351), by 2 × core + plane (0 tile, 1 word): a mask. -/
  segs : SMap Nat := []
  /-- The fuse fields of R438, each at an offset of the model's own, and the SV pairs as two masks; none
  programmed after reset (DESIGN CHOICE, log entry 93). -/
  fuse : Mem := []
  svA : BitVec 64 := 0
  svB : BitVec 64 := 0
  /-- The bytes of the flash devices (R435): byte x of device k of port p at 2^28 × (16p + k) + x. -/
  flash : Mem := []
  /-- What discovery found (R436, R437): the installed capacity, whether both ports are populated, and the bytes of one
  device, 0 before discovery. -/
  flashCap : Nat := 0
  flashBoth : Bool := false
  flashDev : Nat := 0
  deriving DecidableEq, Repr

/-! ### Power, clocks and reset (19_power_clocks_reset) -/

/-- The power manager, the clocks and the reset state. -/
structure PowerSt where
  /-- The rails within their windows: VDD_CORE, VDD_SRAM, VDD_SAFE, VDDIO, VDDA_SERDES, VDDH_SERDES. -/
  rails : BitVec 6 := 0x3F
  rootLock : Bool := true
  refclk : Bool := true
  /-- Held in device reset, before RESET_RELEASE. -/
  held : Bool := false
  /-- CAUSE of PM_RESET_CAUSE, and the straps as sampled (R458). -/
  cause : Nat := 0
  chipSel : Nat := 0
  chipCntM1 : Nat := 0
  maintN : Bool := true
  /-- The hottest reading of the frame in progress (R467), the derate level, and the sensors whose last reading was at
  or above TSHUT (R469). -/
  hot : Option Int := none
  level : Nat := 0
  atShut : BitVec 17 := 0
  deriving DecidableEq, Repr

/-! ### Everything outside the part that it drives -/

/-- What the device does towards the outside: messages, edges, reads answered. -/
inductive OutEvent where
  /-- An MSI-X message of a vector, with the address and data of its table entry (R416). -/
  | msix (vector : Nat) (addr : Nat) (data : Word)
  /-- A time-synchronisation message sent on a MAC, by the transport of TB_CFG, under its EtherType or to its UDP port
  (R370, R371). -/
  | ptp (mac via dest : Nat) (payload : List Byte)
  /-- A trigger output's rising and falling edge (R376). -/
  | trigRise (n : Nat)
  | trigFall (n : Nat)
  /-- An edge of SAFE_OK: the new level of SAFE_OK_P (R337). -/
  | safeOk (p : Bool)
  /-- A command on a channel's bus to a device (R420, R422): the opcode and its complement, the device's byte, the bytes
  moved, and the data that a write carries. -/
  | storeBus (ch dev : Nat) (cmd : List Byte) (addr len : Nat) (data : List Byte)
  /-- A flit sent on a link (R385, R386). -/
  | flit (link : Nat) (bytes : List Byte)
  /-- A Regatta message to a chip: its kind and content (R390 to R398). -/
  | rg (chip : Nat) (kind : Nat) (content : List Nat)
  /-- A point forwarded to a chip (R392), a copy for its raw point tap (R393). -/
  | fwdPoint (chip : Nat) (r : Stroke) (pt : Point)
  | fwdVerdict (chip : Nat) (v : GVerd)
  | tapCopy (chip : Nat) (r : Stroke) (x y z : Int)
  | remoteAdd (chip : Nat) (a : CellAdd)
  | partHeader (chip : Nat) (e : AddExp)
  | partial_ (chip : Nat) (content : List Nat)
  /-- The answer to a host read of BAR0 or BAR2. -/
  | readData (bytes : List Byte)
  deriving DecidableEq, Repr

/-- The device. -/
structure Dev where
  reg : RegFile := {}
  tm : TimeSt := {}
  ig : IntakeSt := {}
  gb : GridSt := {}
  cm : CellSt := {}
  cw : CrewSide := {}
  ag : AgSt := {}
  et : TabSt := {}
  lg : RecSt := {}
  si : IslandSt := {}
  flt : FltSt := {}
  rl : RegattaSt := {}
  hi : HostSt := {}
  xs : StoreSt := {}
  bt : BootSt := {}
  pm : PowerSt := {}
  /-- Planes and commons by their BAR2 address (R480); the hash, the cell memory and the golden region have their own
  fields. -/
  mem : Mem := []
  /-- Events sent outside by the last commands, oldest first. -/
  out : List OutEvent := []
  /-- The model's own counter of free values drawn (not the manual's). -/
  free : Nat := 0
  deriving DecidableEq, Repr

/-- The block: the device and the queue of commands that wait, first in, first out. -/
structure State where
  dev : Dev := {}
  pending : List Instr := []
  deriving DecidableEq, Repr

/-- Faults that stop the machine: none. What the manual calls a fault is a report to the fault controller (R350), and the
device goes on; no command raises a stop of the model. -/
inductive Fault where
  deriving DecidableEq, Repr

/-- Refusals. -/
inductive Refusal where
  /-- A command whose meaning is not written: raised by an arm of `exec` alone. Safe: nothing is claimed of it. -/
  | notModelled (mnemonic : String)
  deriving DecidableEq, Repr

/-- The device right after its release from the main power-on reset with the straps at chip 0 of 1 and MAINT_N high
(R457, R458): every register at its reset value, BOOTS counted once, no command waiting; the boot code has not begun.
(DESIGN CHOICE, log entry 6.) -/
def State.reset : State := { dev := { flt := { boots := 1 } } }

end Sys2Proof.Machine
end

