-- ==== Sys2Proof/Machine/Ops.lean ====
section
/-! DEFINITION. The operations that every block shares: registers (R7 to R13), counters (R10), interrupts (R416),
fault reports and the fault log (R350, R360, R361), monitor messages (R313), corrected time (R365), free values. -/

namespace Sys2Proof.Machine

/-! ### Registers -/

/-- Whether an address is one of a row's registers. -/
def rowHit (r : RegRow) (a : Nat) : Bool :=
  decide (r.base ≤ a) &&
    (let o := a - r.base
     let i := if r.n1 ≤ 1 then 0 else o / r.s1
     let q := if r.n1 ≤ 1 then o else o % r.s1
     let j := if r.n2 ≤ 1 then 0 else q / r.s2
     let z := if r.n2 ≤ 1 then q else q % r.s2
     decide (i < r.n1) && decide (j < max r.n2 1) && decide (z = 0))

/-- The row of the register table that holds an address, if any does. -/
def regRow (a : Nat) : Option RegRow := (regPage (a / 65536)).find? (fun r => rowHit r a)

/-- The reset value of a register; 0 where no register lies. -/
def regReset (a : Nat) : Word := BitVec.ofNat 32 (match regRow a with | some r => r.rst | none => 0)

/-- A register as it stands (of a pair, as last accepted). -/
def Dev.rd (d : Dev) (a : Nat) : Word := smGet regReset d.reg.regs a

/-- A field of a register. -/
def Dev.rf (d : Dev) (a lo len : Nat) : Nat := fld (d.rd a) lo len

/-- A complement-checked value as it is applied to the device (R13). -/
def Dev.rdLive (d : Dev) (a : Nat) : Word := smGet regReset d.reg.live a

/-- A register that the hardware sets. -/
def Dev.hw (d : Dev) (a : Nat) (v : Word) : Dev :=
  { d with reg := { d.reg with regs := smSet regReset d.reg.regs a v } }

/-- A register that the hardware sets to a number. -/
def Dev.hwN (d : Dev) (a v : Nat) : Dev := d.hw a (BitVec.ofNat 32 v)

/-- Bits that the hardware sets in a fault register. -/
def Dev.hwOr (d : Dev) (a m : Nat) : Dev := d.hw a (d.rd a ||| BitVec.ofNat 32 m)

/-- The complement of a register's reset value. -/
def compReset (a : Nat) : Word := ~~~(regReset a)

/-- The complement with which a critical value is held (R348). -/
def Dev.setComp (d : Dev) (a : Nat) (v : Word) : Dev :=
  { d with reg := { d.reg with comp := smSet compReset d.reg.comp a (~~~v) } }

/-- A pair set by the boot code or the hardware: accepted and applied together, with its complement. -/
def Dev.hwPair (d : Dev) (a : Nat) (v : Word) : Dev :=
  let d := (d.hw a v).setComp a v
  { d with reg := { d.reg with live := smSet regReset d.reg.live a v } }

/-- Whether a value that is used agrees with the complement held for it (R349). -/
def Dev.agrees (d : Dev) (a : Nat) (v : Word) : Bool := decide (smGet compReset d.reg.comp a = ~~~v)

/-- Whether a pair as it is applied agrees with its complement. -/
def Dev.pairHeld (d : Dev) (a : Nat) : Bool := d.agrees a (d.rdLive a)

/-- The key of a requester's captured word (R7). -/
def captKey (req a : Nat) : Nat := req * 2 ^ 28 + a

/-- A captured word set or taken. -/
def Dev.setCapt4 (d : Dev) (req a : Nat) (v : Option Word) : Dev :=
  { d with reg := { d.reg with capt := smSet (fun _ => none) d.reg.capt (captKey req a) v } }

/-! ### Counters (R10) -/

/-- A counter that nothing has counted. -/
def ctr0 : Nat → Ctr := fun _ => {}

/-- A counter's value. -/
def Dev.ctr (d : Dev) (a : Nat) : Ctr := smGet ctr0 d.reg.ctrs a

/-- A SAT counter advanced by n: at all-ones it stops and sets its sticky overflow bit (R10). -/
def ctrAdd (c : Ctr) (n : Nat) : Ctr :=
  if n = 0 then c
  else if c.v + n ≥ 2 ^ 64 - 1 then { v := 2 ^ 64 - 1, ovf := true } else { c with v := c.v + n }

/-- An event counted n times. -/
def Dev.bump (d : Dev) (a : Nat) (n : Nat := 1) : Dev :=
  { d with reg := { d.reg with ctrs := smSet ctr0 d.reg.ctrs a (ctrAdd (d.ctr a) n) } }

/-- A counter cleared through its CLR field (R10). -/
def Dev.ctrClear (d : Dev) (a : Nat) : Dev :=
  { d with reg := { d.reg with ctrs := smSet ctr0 d.reg.ctrs a {} } }

/-! ### Outside, free values -/

/-- Something that the device does towards the outside. -/
def Dev.emit (d : Dev) (e : OutEvent) : Dev := { d with out := d.out ++ [e] }

/-! ### Messages to other chips (R385 to R387) -/

/-- Bytes that stand for numbers: 8 bytes each. The manual gives the messages of a virtual channel no layout. -/
def numBytes (l : List Int) : List Byte := l.flatMap (fun i => toLE 8 (wrapN 64 i))

/-- A sector's identity as numbers. -/
def SecId.nums (i : SecId) : List Int := [i.stream, i.sweep.toNat, i.sector]

/-- The content of a message as the model writes it into a flit: one message in a flit, at most 240 bytes.
(DESIGN CHOICE, log entry 40.) -/
def OutEvent.payload : OutEvent → List Byte
  | .rg _ k c => (numBytes ((k : Int) :: c.map Int.ofNat)).take 240
  | .fwdPoint _ r p =>
    numBytes [r.toNat, p.x, p.y, p.z, p.t, p.inten, p.stream, p.sweep, p.sector, p.pos, p.ret]
  | .fwdVerdict _ v => 
    numBytes (v.id.nums ++ ([v.what, v.prio, v.cost, v.v.toNat, v.last.toNat, v.frame.toNat].map Int.ofNat))
  | .tapCopy _ r x y z => numBytes [r.toNat, x, y, z]
  | .remoteAdd _ a =>
    numBytes (a.id.nums ++ [a.gx, a.gy] ++
      ([a.v0.toNat, a.v1.toNat, a.v2.toNat, a.v3.toNat, a.at_.toNat, a.frame.toNat].map Int.ofNat))
  | .partHeader _ e => numBytes (e.id.nums ++ ([e.at_.toNat, e.count].map Int.ofNat))
  | .partial_ _ c => (numBytes (c.map Int.ofNat)).take 240
  | _ => []

/-- A flit (R385): SEQ of DATA and HEARTBEAT flits, ACK, the credits it returns, payload, CRC-64 over bytes 0 to 247. -/
def flitBytes (type vc seq ack cvc cr : Nat) (payload : List Byte) : List Byte :=
  let b := toLE 1 type ++ toLE 1 vc ++ toLE 2 (seq % 4096) ++ toLE 2 (ack % 4096) ++ toLE 1 cvc ++ toLE 1 cr ++
    (payload ++ zeros 240).take 240
  b ++ toLE 8 (crc64 b)

/-- The link of a chip to another (R382). -/
def linkOf (me chip : Nat) : Nat := (chip + 4 - me % 4 - 1) % 4

/-- The chip at the other end of a link (R382). -/
def linkPeer (me k : Nat) : Nat := (me + k + 1) % 4

/-- A link's state. -/
def Dev.link (d : Dev) (k : Nat) : LinkSt := smGet (fun _ => {}) d.rl.links k

/-- A link's state replaced. -/
def Dev.setLink (d : Dev) (k : Nat) (l : LinkSt) : Dev :=
  { d with rl := { d.rl with links := smSet (fun _ => {}) d.rl.links k l } }

/-- Credits held for a virtual channel. -/
def LinkSt.cred (l : LinkSt) (vc : Nat) : Nat := if vc = 0 then l.cred0 else if vc = 1 then l.cred1 else l.cred2

/-- Credits of a virtual channel replaced. -/
def LinkSt.setCred (l : LinkSt) (vc n : Nat) : LinkSt :=
  if vc = 0 then { l with cred0 := n } else if vc = 1 then { l with cred1 := n } else { l with cred2 := n }

/-- Credits to be returned to the peer for a virtual channel. -/
def LinkSt.ret (l : LinkSt) (vc : Nat) : Nat := if vc = 0 then l.ret0 else if vc = 1 then l.ret1 else l.ret2

/-- Credits to be returned replaced. -/
def LinkSt.setRet (l : LinkSt) (vc n : Nat) : LinkSt :=
  if vc = 0 then { l with ret0 := n } else if vc = 1 then { l with ret1 := n } else { l with ret2 := n }

/-- The credits that the next flit returns (R387): a virtual channel and at most 255. -/
def LinkSt.retNext (l : LinkSt) : Nat × Nat :=
  if 0 < l.ret0 then (0, min 255 l.ret0) else if 0 < l.ret1 then (1, min 255 l.ret1) else (2, min 255 l.ret2)

/-- The flits that a transmitter keeps (R386): the last 512. -/
def replayDepth : Nat := 512

/-- The class in which a flit waits: its virtual channel, and 6 for the copies of points, which take virtual channel 2
after the forwarded parts (R393). -/
def copyClass : Nat := 6

/-- A flit put on link k (R385): after every 1,023 flits a SKIP flit follows. (DESIGN CHOICE, log entry 51.) -/
def Dev.flitPut (d : Dev) (k : Nat) (f : List Byte) : Dev :=
  let l := d.link k
  if l.sent < 1022 then (d.setLink k { l with sent := l.sent + 1 }).emit (.flit k f)
  else ((d.setLink k { l with sent := 0 }).emit (.flit k f)).emit (.flit k (flitBytes 3 0 0 0 0 0 []))

/-- A DATA or HEARTBEAT flit sent on link k (R385, R386): numbered, kept for replay, counted.
(DESIGN CHOICE, log entry 51.) -/
def Dev.flitOut (d : Dev) (k type cls : Nat) (payload : List Byte) : Dev :=
  let l := d.link k
  let vc := cls % 4
  let (cv, cr) := l.retNext
  let f := flitBytes type vc l.txSeq (l.rxSeq + 4095) cv cr payload
  let keep := l.replay ++ [{ seq := l.txSeq, type := type, vc := vc, cvc := cv, cr := cr, payload := payload }]
  let l := (l.setCred vc (l.cred vc - 1)).setRet cv (l.ret cv - cr)
  let l := { l with txSeq := (l.txSeq + 1) % 4096, replay := keep.drop (keep.length - replayDepth) }
  ((d.setLink k l).bump (RL_FLITS_TX k)).flitPut k f

/-- A flit sent, or kept until it has a credit of its virtual channel (R387) and its link is ACTIVE again (R388). -/
def Dev.flitSend (d : Dev) (k type cls : Nat) (payload : List Byte) : Dev :=
  let l := d.link k
  let l' := { l with txq := l.txq ++ [(type, cls, payload)] }
  if l.cred (cls % 4) = 0 then d.setLink k { l' with waited := max 1 l.waited }
  else if l.state ≠ 5 ∨ l.txq.any (fun q => q.2.1 == cls) then d.setLink k l'
  else d.flitOut k type cls payload

/-- A message to another chip, in its class, while the link to it is ACTIVE or retrains. -/
def Dev.linkSend (d : Dev) (chip cls : Nat) (e : OutEvent) : Dev :=
  let k := linkOf d.rl.chip chip
  if (d.link k).state = 5 ∨ (d.link k).state = 6 then (d.emit e).flitSend k 1 cls e.payload else d

/-- FRAME_MS of the image header (R259), in strokes: the frame length L. -/
def Dev.frameLen (d : Dev) : Nat := 1000 * leAt d.bt.header 32 2

/-- A free value: the manual gives none. (DESIGN CHOICE, log entry 4.) -/
def Dev.fresh (d : Dev) : Word64 × Dev := (Config.freeValue d.free, { d with free := d.free + 1 })

/-- Whether the island holds THRESHOLDS, word 0 of which is its MAGIC (R342); without it the island waits (R455). -/
def IslandSt.loaded (i : IslandSt) : Bool := decide (smGet (fun _ => (0 : Word)) i.thr 0 = 0x5448534C)

/-- A message on the monitor port (R313); an island that waits for its load takes none (R455). -/
def Dev.mon (d : Dev) (m : MonMsg) : Dev :=
  if d.si.loaded then { d with si := { d.si with mq := d.si.mq ++ [m] } } else d

/-! ### Interrupts (R416, R479) -/

/-- What an MSI-X table word holds after reset: its vector control word is masked (the PCI Express specification).
(PRESUMED, log entry 5.) -/
def msixReset : Nat → Word := fun i => if i % 4 = 3 then 1 else 0

/-- The class code and the device ID in configuration space (R402). -/
def pciClass : Nat := 0x120000
/-- The device ID in configuration space. -/
def pciDevice : Nat := 0x8640

/-- Whether the configuration of the function lets it send MSI-X messages (R402). (PRESUMED, log entry 161.) -/
def PciCfg.sends (c : PciCfg) : Bool := c.msixOn && !c.funcMask && !c.d3hot

/-- A message that comes due: sent, or made pending while the vector, or the function, is masked. -/
def Dev.msixSend (d : Dev) (v : Nat) : Dev :=
  let w (k : Nat) := smGet msixReset d.hi.msix (4 * v + k)
  if fld (w 3) 0 1 = 1 ∨ d.hi.pci.sends = false then
    { d with hi := { d.hi with pba := d.hi.pba ||| BitVec.ofNat 64 (2 ^ v) } }
  else
    (d.emit (.msix v ((w 0).toNat + 2 ^ 32 * (w 1).toNat) (w 2)))

/-- An event of a vector that does not coalesce. -/
def Dev.irq (d : Dev) (v : Nat) : Dev :=
  let d := { d with hi := { d.hi with cause := d.hi.cause ||| BitVec.ofNat 32 (2 ^ v) } }
  d.msixSend v

/-- A ring that nothing has configured. -/
def ring0 : Nat → RingSt := fun _ => {}

/-- A ring's state. -/
def Dev.ring (d : Dev) (rr : Nat) : RingSt := smGet ring0 d.hi.rings rr

/-- A ring's state replaced. -/
def Dev.setRing (d : Dev) (rr : Nat) (r : RingSt) : Dev :=
  { d with hi := { d.hi with rings := smSet ring0 d.hi.rings rr r } }

/-- The vector of a ring (R416): 4 to 7 the record rings, 8 ring 04, 9 ring 06. -/
def ringVector (rr : Nat) : Nat := if rr ≤ 4 then 4 + rr else 9

/-- The count and the timer of a ring's vector start anew (R416). -/
def Dev.coalRestart (d : Dev) (rr : Nat) : Dev := d.setRing rr { d.ring rr with unsig := 0, timer := false }

/-- A vector that is pending and whose mask has cleared is sent, and the count and the timer of its ring restart (R416). -/
def Dev.msixRelease (d : Dev) (v : Nat) : Dev :=
  if d.hi.pba.getLsbD v ∧ fld (smGet msixReset d.hi.msix (4 * v + 3)) 0 1 = 0 ∧ d.hi.pci.sends then
    let d := { d with hi := { d.hi with pba := d.hi.pba &&& ~~~(BitVec.ofNat 64 (2 ^ v)) } }
    let d := if 4 ≤ v ∧ v ≤ 8 then d.coalRestart (v - 4) else if v = 9 then d.coalRestart 6 else d
    d.msixSend v
  else d

/-- An entry written to a ring: vectors 4 to 9 coalesce by COAL_CNT, and the first unsignalled entry starts the
COAL_US timer (R416). -/
def Dev.irqRing (d : Dev) (rr : Nat) : Dev :=
  let v := ringVector rr
  let cnt := d.rf (HI_RING_CFG rr) 16 8
  let us := d.rf (HI_RING_CFG rr) 24 8
  let r := d.ring rr
  let d := { d with hi := { d.hi with cause := d.hi.cause ||| BitVec.ofNat 32 (2 ^ v) } }
  if r.unsig + 1 ≥ cnt then
    (d.coalRestart rr).msixSend v
  else d.setRing rr { r with unsig := r.unsig + 1, timer := decide (us ≠ 0) }

/-! ### Staging (R177) -/

/-- The regions of staging whose bases the manual leaves to the image. -/
def rgBuffers : Nat := 0
/-- The sector key lists (R78). -/
def rgKeys : Nat := 1
/-- The hash stash (R71). -/
def rgStash : Nat := 2
/-- The golden table (R93). -/
def rgGoldTab : Nat := 3
/-- The golden stash (R93). -/
def rgGoldStash : Nat := 4
/-- The site-set runs (R95). -/
def rgSites : Nat := 5
/-- The golden level table (R191). -/
def rgGoldLevels : Nat := 6

/-- Whether an image has placed the regions of staging: its measurement is held. -/
def Dev.laid (d : Dev) : Bool := !d.bt.meas.isEmpty

/-- The base of a region that no register places. (DESIGN CHOICE, log entry 104.) -/
def Dev.region (d : Dev) (n : Nat) : Nat := Config.stagingBase d.bt.meas n

/-- Bytes of one part of the run region of a level. -/
def Dev.runBytes (d : Dev) (l : Nat) : Nat := Config.stagingRuns d.bt.meas l

/-- The base of the run region of a level: of the site sets at level 0, else of AG_LVLl_RUNS (R95, R189). -/
def Dev.runBase (d : Dev) (l : Nat) : Nat := if l = 0 then d.region rgSites else 16 * d.rf (AG_LVL_RUNS (l - 1)) 0 20

/-- The BAR2 address of a staging offset (R480). -/
def stagingAt (off : Nat) : Nat := 0x26000000 + off

/-- Bytes that a block of the device writes into staging (16 MiB). -/
def Dev.stagingPut (d : Dev) (off : Nat) (bs : List Byte) : Dev :=
  if off + bs.length ≤ 0x1000000 then { d with mem := memWrite d.mem (stagingAt off) bs } else d

/-! ### Corrected time (R365) -/

/-- Division of an integer rounded to nearest, ties to even. -/
def rneDivI (n : Int) (k : Nat) : Int :=
  let q := Int.fdiv n k
  let r := n - q * k
  if 2 * r > k then q + 1 else if 2 * r = k then q + q % 2 else q

/-- `corrected(r)` of R365 in units of 2^-32 ns: the product is rounded to nearest even at that position. -/
def correctedOf (offset : Int) (rate : Int) (anchor r : Nat) : Int :=
  offset + rneDivI (((r : Int) - anchor) * 5 * (2 ^ 40 + rate)) 1536

/-- Corrected time at a raw time, under the values in force. -/
def Dev.corrected (d : Dev) (r : Nat) : Int := correctedOf d.tm.offset d.tm.rate d.tm.anchor r

/-- Corrected time in whole ns, as a 64-bit field. -/
def Dev.nsAt (d : Dev) (r : Nat) : Nat := wrapN 64 (fdiv (d.corrected r) (2 ^ 32))

/-! ### The fault log (R359 to R361) -/

/-- Bytes of one channel's devices: 16 MiB shifted by DENSITY, times the devices (R428, R432). -/
def StoreSt.chBytes (x : StoreSt) : Nat := (2 ^ 24 * 2 ^ x.density) * (x.devicesM1 + 1)

/-- The data capacity of the installed store: seven eighths, the rest holds check bursts (R423). -/
def StoreSt.cap (x : StoreSt) : Nat := 32 * x.chBytes / 8 * 7

/-- The store address of the fault log: the highest 1 MiB (R359). -/
def StoreSt.logBase (x : StoreSt) : Nat := x.cap - 2 ^ 20

/-- The channel of a store address (R422). -/
def xsChannel (a : Nat) : Nat := (a / 128 % 32) ^^^ (a / 2 ^ 17 % 32)

/-- The offset of a store address within its channel (R422). -/
def xsOffset (a : Nat) : Nat := a / 4096 * 128 + a % 128

/-- A channel of the store. -/
def Dev.xsChan (d : Dev) (ch : Nat) : XsChan := smGet (fun _ => {}) d.xs.chans ch

/-- A channel of the store replaced. -/
def Dev.setXsChan (d : Dev) (ch : Nat) (c : XsChan) : Dev :=
  { d with xs := { d.xs with chans := smSet (fun _ => {}) d.xs.chans ch c } }

/-- The pieces of a range of store addresses, one per granule of 128 bytes (R422): address and length. -/
def xsPieces (a n : Nat) : List (Nat × Nat) :=
  (List.range ((a % 128 + n + 127) / 128)).map (fun i =>
    let lo := max a (128 * (a / 128 + i))
    (lo, min (a + n) (128 * (a / 128 + i + 1)) - lo))

/-- The store address of an offset of a channel (R422). -/
def xsAddr (ch o : Nat) : Nat := o / 128 * 4096 + (ch ^^^ (o / 128 / 32 % 32)) * 128 + o % 128

/-- Whether a range of store addresses meets a burst that cannot be corrected (R427). -/
def StoreSt.badIn (x : StoreSt) (a n : Nat) : Bool := x.bad.any (fun b => decide (32 * b < a + n) && decide (a < 32 * b + 32))

/-- Bytes written to the store. A burst that they cover whole has a check word of its own again (R425, R426). -/
def StoreSt.put (x : StoreSt) (a : Nat) (bs : List Byte) : StoreSt :=
  { x with mem := memWrite x.mem a bs
           bad := x.bad.filter (fun b => !(decide (a ≤ 32 * b) && decide (32 * b + 32 ≤ a + bs.length))) }

/-- A request to the store (R430, R431): its pieces wait at their channels with the class of their requester, all of one
access; an access at or above the capacity does not execute (R423). Its data takes effect as it arrives; what has been served
is known by the pieces that wait. (DESIGN CHOICE, log entry 49.) -/
def Dev.storeReq (d : Dev) (cls : Nat) (write : Bool) (a n : Nat) (accel : Bool := true) : Dev :=
  if d.xs.ready ∧ a + n ≤ d.xs.cap then
    let id := d.xs.next + 1
    (xsPieces a n).foldl (fun d p =>
      let ch := xsChannel p.1
      let c := d.xsChan ch
      let r : XsReq := { cls := cls, off := xsOffset p.1, len := p.2, write := write, at_ := d.tm.raw, accel := accel, id := id }
      d.setXsChan ch { c with reqs := c.reqs ++ [r] }) { d with xs := { d.xs with next := id } }
  else d

/-- Whether no piece of the accesses after number lo up to number hi waits at a channel (R431). -/
def StoreSt.served (x : StoreSt) (lo hi : Nat) : Bool :=
  x.chans.all (fun p => p.2.reqs.all (fun r => !(decide (lo < r.id) && decide (r.id ≤ hi))))

/-- Whether the accesses of the accelerator have drained (R333, R431). -/
def StoreSt.drained (x : StoreSt) : Bool := x.chans.all (fun p => p.2.reqs.all (fun r => !r.accel))

/-- A command on a channel's bus (R420). -/
def Dev.storeCmd (d : Dev) (ch dev op addr len : Nat) (data : List Byte) : Dev :=
  d.emit (.storeBus ch dev [BitVec.ofNat 8 op, ~~~(BitVec.ofNat 8 op)] addr len data)

/-- The mode registers that XS_MRWk of the list name, written where EN is set, on every device found of a channel (R428,
R429). -/
def Dev.modeWrites (d : Dev) (ch : Nat) (regs : List Nat) : Dev :=
  (List.range (d.xs.devicesM1 + 1)).foldl (fun d dev =>
    regs.foldl (fun d a =>
      if d.rf a 16 1 = 1 then d.storeCmd ch dev (d.rf XS_OPCODE 24 8) (d.rf a 0 8) 1 [BitVec.ofNat 8 (d.rf a 8 8)] else d) d) d

/-- The class of a source code (R351): 1 corrected, 2 recoverable, 3 accelerator-fatal, 4 device-fatal. -/
def fltClass (src : Nat) : Nat := if src < 0x10 then 1 else if src < 0x20 then 2 else if src < 0x30 then 3 else 4

/-- The containment of a source code alone, as an ACTION code (R351, R360). -/
def fltAction (src : Nat) : Nat :=
  if src < 0x10 then 0
  else if src ≤ 0x16 then 1
  else if src ≤ 0x18 then 2
  else if src = 0x19 then 0
  else if src = 0x1A then 3
  else if src = 0x1B then 4
  else if src = 0x25 ∨ src = 0x26 then 7
  else if src < 0x30 then 5
  else 6

/-- The bytes of a log entry (R360). (DEDUCED, log entry 8.) -/
def fltEntry (seq : Nat) (stroke : Stroke) (action : Nat) (rep : FltRep) (flags frame time boots count : Nat) :
    List Byte :=
  let b := toLE 8 seq ++ toLE 6 stroke.toNat ++ toLE 1 (fltClass rep.src) ++ toLE 1 action ++ toLE 2 rep.src ++
    toLE 1 rep.unit ++ toLE 1 flags ++ toLE 4 frame ++ toLE 8 rep.addr ++ toLE 8 time ++ toLE 4 boots ++
    toLE 4 count ++ toLE 12 rep.detail
  b ++ toLE 4 (crc32c (b ++ zeros 4))

/-- Whether the fault controller's write queue has room (R361): fewer of its writes wait than it holds. (DESIGN CHOICE, log
entry 157.) -/
def Dev.logRoom (d : Dev) : Bool :=
  let n := (d.xs.chans.map (fun p => p.2.reqs.countP (fun r => decide (r.cls = 1)))).sum
  decide (n = 0) || decide (n < Config.logDepth)

/-- A log entry written (R361): the ring advances; LAST and vector 2 follow a fault that is not corrected. A store that
is not ready, or a write queue that is full, takes no entry, which is counted in LOG_LOST. -/
def Dev.fltLog (d : Dev) (rep : FltRep) (action : Nat) (stroke : Stroke) (frame : BitVec 32) (time count : Nat)
    (coalesced : Bool) : Dev :=
  let d :=
    if d.xs.ready ∧ d.logRoom then
      let fl := b2n d.flt.lost + 2 * b2n coalesced
      let d := d.storeReq 1 true (d.xs.logBase + 64 * (d.flt.logPos % 16384)) 64 false
      let e := fltEntry d.flt.logSeq stroke action rep fl frame.toNat time d.flt.boots count
      { d with
        xs := d.xs.put (d.xs.logBase + 64 * (d.flt.logPos % 16384)) e
        flt := { d.flt with logSeq := d.flt.logSeq + 1, logPos := (d.flt.logPos + 1) % 16384, lost := false } }
    else { d.bump FLT_LOG_LOST with flt := { d.flt with lost := true } }
  if fltClass rep.src = 1 then d
  else
    let d := d.hwN CS_FLT_LAST (rep.src + 2 ^ 16 * fltClass rep.src + 2 ^ 19 * action)
    let d := d.hwN CS_FLT_LAST_STROKE_LO (stroke.toNat % 2 ^ 32)
    let d := d.hwN CS_FLT_LAST_STROKE_HI (stroke.toNat / 2 ^ 32)
    d.irq 2

/-! ### Device-fatal (R338) and fault reports (R350) -/

/-- Every trigger output driven low (R338). -/
def trigLow (m : SMap Trig) : SMap Trig :=
  smMap (fun _ => ({} : Trig)) (fun _ t => { t with high := false }) m

/-- A SECTOR message of an event of the stroke in progress (R313). -/
def Dev.sectEv (d : Dev) (ev : SecEv) (id : SecId) (frame : BitVec 32) (ord : Nat) (last v : Stroke) : Dev :=
  d.mon (.sector ev id frame ord last v d.tm.stroke)

/-- A device-fatal condition (R338): the output path stops, vector 0 is sent, the triggers go low, the entry is
logged, and the island is told. It takes effect when it is reported. -/
def Dev.deviceFatal (d : Dev) (rep : FltRep) : Dev :=
  let d := d.mon (.fault 4 rep.src)
  if d.flt.fatal then d.fltLog rep 6 d.tm.stroke d.tm.frame (d.nsAt d.tm.raw) 1 false
  else
    let d := { d with flt := { d.flt with fatal := true }, tm := { d.tm with trig := trigLow d.tm.trig } }
    let d := d.irq 0
    d.fltLog rep 6 d.tm.stroke d.tm.frame (d.nsAt d.tm.raw) 1 false

/-- Whether an accelerator restart is in progress (R333). -/
def FltSt.restarting (f : FltSt) : Bool :=
  match f.phase with
  | .idle => false
  | .requested => false
  | _ => true

/-- A corrected fault joined to the entry that its window holds open, or opening one (R361). -/
def coalAdd (rep : FltRep) (s : Stroke) (fr : BitVec 32) (time : Nat) : List CoalEnt → List CoalEnt
  | [] => [{ rep := rep, stroke := s, frame := fr, time := time }]
  | e :: r =>
    if e.rep.src = rep.src ∧ e.rep.unit = rep.unit then { e with count := e.count + 1 } :: r
    else e :: coalAdd rep s fr time r

/-- A fault reported to the fault controller (R350, R351): counted, told to the island (R313), and kept for the boundary
that closes the stroke; a device-fatal fault takes effect at once. A recoverable fault in a restoration stroke is source
0x24; during a restart it is logged and otherwise ignored (R351). A fault whose containment is ROLLBACK stops every crew
from its report on (R352 step 1). -/
def Dev.report (d : Dev) (rep : FltRep) : Dev :=
  match fltClass rep.src with
  | 1 =>
    let d := (d.bump FLT_CORRECTED).mon (.fault 1 rep.src)
    { d with flt := { d.flt with coal := coalAdd rep d.tm.stroke d.tm.frame (d.nsAt d.tm.raw) d.flt.coal } }
  | 2 =>
    let d := d.bump FLT_RECOVERABLE
    if d.flt.rolling ∧ ¬ d.flt.restarting then
      let d := (d.bump FLT_ACCEL_FATAL).mon (.fault 3 0x24)
      { d with flt := { d.flt with reps := d.flt.reps ++ [{ rep with src := 0x24, detail := rep.src }], stopped := true } }
    else
      let d := d.mon (.fault 2 rep.src)
      let hold := decide (fltAction rep.src = 1) && !d.flt.restarting
      { d with flt := { d.flt with reps := d.flt.reps ++ [rep], stopped := d.flt.stopped || hold } }
  | 3 =>
    let d := (d.bump FLT_ACCEL_FATAL).mon (.fault 3 rep.src)
    { d with flt := { d.flt with reps := d.flt.reps ++ [rep] } }
  | _ => d.deviceFatal rep

/-- UNIT of a fault of one core or crew (block 0), and of another block (R360). -/
def unitOf (block n : Nat) : Nat := 32 * block + n % 32

/-- Critical values used (R349): a mismatch of one with its complement is device-fatal, and the use goes on with the value.
(DESIGN CHOICE, log entry 87.) -/
def Dev.useCritical (d : Dev) (held : Bool) : Dev := if held then d else d.report { src := 0x30, unit := unitOf 7 0 }

/-! ### The input log (R229 to R231) -/

/-- Whether a recording session logs inputs. -/
def RecSt.recording (r : RecSt) : Bool := decide (r.mode = 1) && decide (r.state = 2)

/-- Whether a replay drives the inputs (R233). -/
def RecSt.replaying (r : RecSt) : Bool := decide (r.mode = 2) && decide (r.state = 2) && !r.ended

/-- An input kept for the log; it is written, in order, when its stroke has begun (R230). -/
def Dev.logIn (d : Dev) (e : LogEnt) : Dev :=
  if d.lg.recording then { d with lg := { d.lg with buf := d.lg.buf ++ [e] } } else d

/-- The bits of a register that a write reaches: in a configuration of 3 or 4 chips DIGEST_EN of CS_CFG reads 0 (R226). -/
def Dev.digestMask (d : Dev) (a : Nat) : Word := if a = CS_CFG ∧ 2 ≤ d.rl.countM1 then 1 else 0xFFFFFFFF

/-! ### Device states -/

/-- The operational state: entered, not stopped by maintenance mode or a device-fatal condition. -/
def Dev.live (d : Dev) : Bool := d.tm.op && !d.hi.maint && !d.flt.fatal

/-- The accelerator works: operational, no restart in progress, no permanent latch's stop. -/
def Dev.accel (d : Dev) : Bool := d.live && !d.flt.restarting

/-- The crews run in this stroke: not held by a report, by a restoration stroke or by a restart (R352). -/
def Dev.crewsRun (d : Dev) : Bool := d.accel && !d.flt.stopped && !d.flt.rolling

/-! ### Mode flags -/

/-- A device with the mode flags of another state of it: operational, maintenance mode, held in reset, ready to enter
and locked. Few commands change one of them. -/
def Dev.sameMode (d old : Dev) : Dev :=
  let tm := { d.tm with op := old.tm.op }
  let hi := { d.hi with maint := old.hi.maint }
  let pm := { d.pm with held := old.pm.held }
  let bt := { d.bt with placed := old.bt.placed, locked := old.bt.locked }
  { d with tm := tm, hi := hi, pm := pm, bt := bt }

/-- A device with the SAFE_OK outputs, and what the island holds against them, of another state of it. -/
def Dev.sameOk (d old : Dev) : Dev :=
  let o := old.si
  { d with si := { d.si with running := o.running, pin := o.pin, maint := o.maint, pllLost := o.pllLost } }

/-- A stroke number advanced by n. -/
def sAdd (s : Stroke) (n : Nat) : Stroke := s + BitVec.ofNat 48 n

/-- Strokes from a to b. -/
def sDiff (b a : Stroke) : Nat := (b - a).toNat

/-- `older` of R15 on stroke numbers. -/
def sOlder (v c : Stroke) : Bool := older v.toNat c.toNat 48

/-- Whether stroke v lies at or before stroke c (R15). -/
def sLe (v c : Stroke) : Bool := decide (v = c) || sOlder v c

/-- The tile that a stroke addresses (R28). -/
def tileOf (s : Stroke) : Nat × Nat :=
  let k := s.toNat % 1024
  let ty := k / 32
  (if ty % 2 = 0 then k % 32 else 31 - k % 32, ty)

/-- Window quadrant of a tile (R394). -/
def quadOf (s : Stroke) : Nat :=
  let (tx, ty) := tileOf s
  2 * (ty / 16) + tx / 16

/-- The chip that owns the tile of a stroke (R394). -/
def Dev.ownerOf (d : Dev) (s : Stroke) : Nat :=
  if d.rl.countM1 = 0 then d.rl.chip else fld (d.rdLive RL_TILE_OWN) (2 * quadOf s) 2

end Sys2Proof.Machine
end

