-- ==== Sys2Proof/Machine/Planes.lean ====
section
/-! DEFINITION. Planes, rings and the passage of schedule cycles (06_scratchpads, 08_crews_determinism R215 to R222, 11
R286, R288): a core's state, its faults, bank conflicts and freezes, results and writes that fall due, journalled writes
and accumulate-on-write, ring slots. -/

namespace Sys2Proof.Machine

/-! ### Cores and crews -/

/-- A core that nothing has run on. -/
def core0 : Nat → CoreChk := fun _ => {}
/-- A core's volatile part that nothing has run on. -/
def vol0 : Nat → CoreVol := fun _ => {}
/-- A crew at the start. -/
def crew0 : Nat → CrewVol := fun _ => {}

/-- A core's checkpointed state. -/
def Dev.core (d : Dev) (c : Nat) : CoreChk := smGet core0 d.cw.cores c
/-- A core's checkpointed state replaced. -/
def Dev.setCore (d : Dev) (c : Nat) (x : CoreChk) : Dev :=
  { d with cw := { d.cw with cores := smSet core0 d.cw.cores c x } }
/-- A core's volatile state. -/
def Dev.vol (d : Dev) (c : Nat) : CoreVol := smGet vol0 d.cw.vol c
/-- A core's volatile state replaced. -/
def Dev.setVol (d : Dev) (c : Nat) (x : CoreVol) : Dev :=
  { d with cw := { d.cw with vol := smSet vol0 d.cw.vol c x } }
/-- A crew's state. -/
def Dev.crew (d : Dev) (k : Nat) : CrewVol := smGet crew0 d.cw.crews k
/-- A crew's state replaced. -/
def Dev.setCrew (d : Dev) (k : Nat) (x : CrewVol) : Dev :=
  { d with cw := { d.cw with crews := smSet crew0 d.cw.crews k x } }

/-- A schedule cycle counted across strokes (R284): the crew's earlier programs, and the cycle in this one. -/
def Dev.absCyc (d : Dev) (c cyc : Nat) : Nat := (d.crew (c / 8)).base + cyc

/-- The stroke-table entry of a stroke for a crew (R274): the program slot. -/
def Dev.progSlot (d : Dev) (s : Stroke) (k : Nat) : Nat :=
  ((d.cw.table.getD (4 * (s.toNat % 1024) + k) 0).toNat) % 16

/-- The program that a crew runs in the stroke in progress (R273): its section's bytes. -/
def Dev.prog (d : Dev) (k : Nat) : List Byte := smGet (fun _ => []) d.cw.progs (16 * k + d.progSlot d.tm.stroke k)

/-- BUNDLE, PSLOT and SPANPOS of a crew at a schedule cycle (R309). -/
def Dev.bundlePos (d : Dev) (k cyc : Nat) : Nat × Nat × Nat :=
  let (i, r) := bundleAt (bundlesOf (d.prog k)) 0 cyc
  (i % 2048, d.progSlot d.tm.stroke k, r % 16)

/-- The bundles of a crew's program begun up to a schedule cycle. -/
def Dev.begun (d : Dev) (k cyc : Nat) : Nat :=
  let l := bundlesOf (d.prog k)
  min l.length ((bundleAt l 0 cyc).1 + 1)

/-- Bundles executed counted for the eight cores of a crew (R310): those of this stroke that are not counted yet. -/
def Dev.countBundles (d : Dev) (k n : Nat) : Dev :=
  let cr := d.crew k
  let d := (List.range 8).foldl (fun d i => d.bump (CO_CTR_BUNDLES (8 * k + i)) (n - cr.bundles)) d
  d.setCrew k { cr with bundles := max n cr.bundles }

/-! ### Engine addresses (R203, R286) -/

/-- The engine address of a plane offset. -/
def engAddr (word : Bool) (c off : Nat) : Nat := 2 ^ 30 * b2n word + 2 ^ 27 * (c / 16) + 2 ^ 23 * (c % 16) + off

/-- An engine address read (R203): SPACE, core, offset; none where it raises RANGE. -/
def engDec (a : Nat) : Option (Nat × Nat × Nat) :=
  let sp := bits a 30 2
  let off := bits a 0 23
  let core := 16 * bits a 27 1 + bits a 23 4
  if sp = 3 then none
  else if sp = 2 then
    (if bits a 27 3 ≠ 0 ∨ bits a 0 27 ≥ 0x7000000 then none else some (2, 0, bits a 0 27))
  else if bits a 28 2 ≠ 0 then none
  else if sp = 1 ∧ off ≥ 0x200000 then none
  else some (sp, core, off)

/-- The offset of a plane access that a bundle makes (R286): SPACE must name the plane, CORE is ignored. -/
def localOff (word : Bool) (a : Nat) : Option Nat :=
  match engDec a with
  | some (sp, _, off) => if sp = b2n word then some off else none
  | none => none

/-- Bytes of a plane. -/
def planeSize (word : Bool) : Nat := if word then 0x200000 else 0x800000

/-- The BAR2 address of a plane offset (R480). -/
def planeAt (word : Bool) (c off : Nat) : Nat := if word then 0x10000000 + 0x200000 * c + off else 0x800000 * c + off

/-- The BAR2 address of a commons offset (R480). -/
def commonsAt (off : Nat) : Nat := 0x20000000 + off

/-! ### Faults of a core -/

/-- A fault that bundle execution raises in the core controller (R308): its bit, the slot (R309) and the place. -/
def Dev.coFault (d : Dev) (c bit bslot cyc src : Nat) : Dev :=
  let d := if (d.rd (CO_CORE_FAULT c)).toNat = 0 then
      let (b, ps, r) := d.bundlePos (c / 8) cyc
      d.hwN (CO_CORE_FAULT_AT c) (b + 2 ^ 11 * ps + 2 ^ 15 * r + 2 ^ 19 * bslot)
    else d
  (d.hwOr (CO_CORE_FAULT c) (2 ^ bit)).report { src := src, unit := unitOf 0 c }

/-- A fault of a core's planes, rings or credits (R181): its bit, the plane address, the ring. -/
def Dev.tpFault (d : Dev) (c bit : Nat) (word : Bool) (off ring src : Nat) : Dev :=
  let d := if (d.rd (TP_CORE_FAULT c)).toNat = 0 then
      d.hwN (TP_CORE_FAULT_ADDR c) (off % 2 ^ 23 + 2 ^ 23 * b2n word + 2 ^ 24 * ring)
    else d
  (d.hwOr (TP_CORE_FAULT c) (2 ^ bit)).report
    { src := src, unit := unitOf 0 c, addr := engAddr word c (off % 2 ^ 23), detail := ring }

/-- RANGE at a plane access (R154, R286). -/
def Dev.planeRange (d : Dev) (c : Nat) (word : Bool) (off : Nat) : Dev := d.tpFault c 2 word off 0 0x16

/-- A fault of a core's address generator or engine (R210). -/
def Dev.agFault (d : Dev) (c bit src : Nat) : Dev :=
  (d.hwOr (AG_CORE_FAULT c) (2 ^ bit)).report { src := src, unit := unitOf 0 c }

/-- A fault of a core's arrays (R149). -/
def Dev.maFault (d : Dev) (c bit src detail : Nat) : Dev :=
  (d.hwOr (MA_CORE_FAULT c) (2 ^ bit)).report { src := src, unit := unitOf 0 c, detail := detail }

/-! ### Freezes (R160, R217) -/

/-- The freeze of a crew at one schedule cycle: the longest that its cores ask for (R160). -/
def frzMax (l : List (Nat × Nat × Nat)) (at_ : Nat) : Nat :=
  (l.filter (fun x => decide (x.1 = at_))).foldl (fun m x => max m x.2.2) 0

/-- The requests with one more of n cycles by a core. -/
def frzAdd (l : List (Nat × Nat × Nat)) (at_ c n : Nat) : List (Nat × Nat × Nat) :=
  match l.find? (fun x => decide (x.1 = at_) && decide (x.2.1 = c)) with
  | some x => (at_, c, x.2.2 + n) :: l.filter (fun y => decide (y.1 ≠ at_) || decide (y.2.1 ≠ c))
  | none => (at_, c, n) :: l

/-- A freeze of n cycles that a core asks for at a schedule cycle (R160, R217). -/
def Dev.freeze (d : Dev) (c at_ n : Nat) : Dev :=
  if n = 0 then d
  else
    let k := c / 8
    let cr := d.crew k
    let l := frzAdd cr.frz at_ c n
    let more := frzMax l at_ - frzMax cr.frz at_
    (d.setCrew k { cr with frz := l, frozen := cr.frozen + more }).bump (CS_FREEZE k) more

/-- The largest number of times that a bank occurs. -/
def bankMax (l : List Nat) : Nat := (List.range 64).foldl (fun m b => max m (l.countP (fun x => decide (x = b)))) 0

/-- The banks that scheduled accesses take in a bank cycle so far. -/
def CoreVol.occAt (v : CoreVol) (at_ : Nat) (word : Bool) : List Nat :=
  (v.occ.filter (fun o => decide (o.at_ = at_) && decide (o.word = word))).flatMap (fun o => o.banks)

/-- A scheduled access takes its banks in its bank cycle; what it adds to the largest sum of bank costs freezes the crew
(R160). -/
def Dev.occupy (d : Dev) (c : Nat) (word : Bool) (at_ : Nat) (banks : List Nat) : Dev :=
  let v := d.vol c
  let old := v.occAt at_ word
  let n := (bankMax (old ++ banks) - 1) - (bankMax old - 1)
  let d := d.setVol c { v with occ := { at_ := at_, word := word, banks := banks } :: v.occ }
  (d.bump (if word then WP_CONFLICT_FREEZE c else TP_CONFLICT_FREEZE c) n).freeze c at_ n

/-- The bank of a tile-plane granule, numbered 64 × line + granule (R153). -/
def tileBank (g : Nat) : Nat := (g % 64 + g / 64) % 64

/-- Banks of a LINEAR access of n granules from offset `off` (R154). -/
def tileBanks (off n : Nat) : List Nat := (List.range n).map (fun i => tileBank (off / 16 + i))

/-- Banks of a word-plane access to words at byte offsets: each entry once (R157). -/
def wordBanks (offs : List Nat) : List Nat := ((offs.map (fun o => o / 16)).eraseDups).map (fun e => e % 64)

/-- Banks of the bytes of one access in a plane. -/
def spanBanks (word : Bool) (off n : Nat) : List Nat :=
  if word then (List.range ((off + n + 15) / 16 - off / 16)).map (fun i => (off / 16 + i) % 64)
  else (List.range ((off + n + 15) / 16 - off / 16)).map (fun i => tileBank (off / 16 + i))

/-- Banks of a write: of an accumulate-on-write twice (R163), and of a granule or a word that it covers in part (R154,
R157). -/
def writeBanks (word : Bool) (off n aow : Nat) : List Nat :=
  let b := spanBanks word off n
  let u := if word then 4 else 16
  if aow ≠ 0 then b ++ b
  else
    b ++ (if off % u ≠ 0 then b.take 1 else []) ++
      (if (off + n) % u ≠ 0 ∧ (off % u = 0 ∨ off / 16 ≠ (off + n) / 16) then b.drop (b.length - 1) else [])

/-! ### Power, journal, writes (R163, R178, R179, R222) -/

/-- The segment of a plane offset (R178). -/
def segOf (word : Bool) (off : Nat) : Nat := if word then off / 0x40000 else off / 0x100000

/-- Whether a plane segment is powered. -/
def Dev.powered (d : Dev) (c : Nat) (word : Bool) (off : Nat) : Bool :=
  bitOf (d.rd (if word then WP_CORE_POWER c else TP_CORE_POWER c)).toNat (segOf word off)

/-- Whether every byte of a range of a plane is powered. -/
def Dev.poweredAll (d : Dev) (c : Nat) (word : Bool) (off n : Nat) : Bool :=
  (List.range (segOf word (off + n - 1) + 1 - segOf word off)).all (fun i =>
    bitOf (d.rd (if word then WP_CORE_POWER c else TP_CORE_POWER c)).toNat (segOf word off + i))

/-- Whether writes to the segment of an offset are journalled (R222). -/
def Dev.journalled (d : Dev) (c : Nat) (word : Bool) (off : Nat) : Bool :=
  bitOf (d.rd (CS_CORE_JRNL_SEG c)).toNat (segOf word off + 8 * b2n word)

/-- The 64-byte blocks of a range whose writes are journalled (R222). -/
def Dev.jrnlBlocks (d : Dev) (c : Nat) (word : Bool) (off n : Nat) : List Nat :=
  ((List.range ((off + n + 63) / 64 - off / 64)).map (fun i => 64 * (off / 64 + i))).filter (d.journalled c word)

/-- Bytes of a plane. -/
def Dev.planeRead (d : Dev) (c : Nat) (word : Bool) (off n : Nat) : List Byte := memRead d.mem (planeAt word c off) n

/-- One journal entry (R222): the block's engine address, the stroke, the old block. -/
def Dev.jrnlEntry (d : Dev) (c : Nat) (word : Bool) (blk : Nat) : List Byte :=
  toLE 4 (engAddr word c blk) ++ toLE 4 d.tm.stroke.toNat ++ zeros 8 ++ d.planeRead c word blk 64

/-- The old blocks of a write saved in the journal; none where the journal is full (R222). -/
def Dev.journal (d : Dev) (c : Nat) (word : Bool) (off n : Nat) : Option Dev :=
  match d.jrnlBlocks c word off n with
  | [] => some d
  | blks =>
    let v := d.vol c
    if v.jfill + blks.length > d.rf (CS_CORE_JRNL_SIZE c) 0 15 then none
    else
      let base := planeAt true c (16 * d.rf (CS_CORE_JRNL_BASE c) 0 17)
      let es := blks.flatMap (fun b => d.jrnlEntry c word b)
      some ({ d with mem := memWrite d.mem (base + 80 * v.jfill) es }.setVol c
        { v with jfill := v.jfill + blks.length })

/-- One 32-bit lane of an accumulate-on-write (R163): codes of the W slot (R297); the events of R133. -/
def aowWord (code old new : Nat) : Nat × FStat :=
  let i (x : Nat) := sext 32 x
  match code with
  | 1 => ((old + new) % 2 ^ 32, {})
  | 2 => (if i old < i new then new else old, {})
  | 3 => (if i new < i old then new else old, {})
  | 4 => fMinMax fmtF32 true old new
  | 5 => fMinMax fmtF32 false old new
  | 6 => fAdd fmtF32 old new
  | _ => (new, {})

/-- Each 32-bit lane of the new bytes combined with the matching lane in memory (R163). -/
def aowBytes (code : Nat) : Nat → List Byte → List Byte → List Byte × FStat
  | 0, _, new => (new, {})
  | n + 1, old, new =>
    if new.length < 4 then (new, {})
    else
      let x := aowWord code (leAt old 0 4) (leAt new 0 4)
      let r := aowBytes code n (old.drop 4) (new.drop 4)
      (toLE 4 x.1 ++ r.1, x.2.add r.2)

/-- The events of an accumulate-on-write counted (R133): of the vector unit's stores with its own, of write-backs with
the arrays' (R150, R151). (DEDUCED, log entry 121.) -/
def Dev.aowStat (d : Dev) (c : Nat) (vec : Bool) (st : FStat) : Dev :=
  if vec then ((d.bump (CO_CTR_SAT c) st.sat).bump (CO_CTR_NAN c) st.nan).bump (CO_CTR_IN_INF c) st.inf
  else ((d.bump (MA_SAT c) st.sat).bump (MA_NAN c) st.nan).bump (MA_IN_INF c) st.inf

/-- A full journal (R222): JOURNAL_FULL. -/
def Dev.journalFull (d : Dev) (c : Nat) (word : Bool) (off : Nat) : Dev :=
  (d.hwOr (CS_CREW_FAULT (c / 8)) 2).report { src := 0x13, unit := unitOf 0 c, addr := engAddr word c off }

/-- A write to a plane (R162, R163, R179, R222): out of range RANGE, unpowered POWERED_DOWN, journal full JOURNAL_FULL,
each without effect on the plane. -/
def Dev.planeWrite (d : Dev) (c : Nat) (word : Bool) (off : Nat) (bytes : List Byte) (aow : Nat := 0) (vec : Bool := false) :
    Dev :=
  let n := bytes.length
  if n = 0 then d
  else if off + n > planeSize word then d.planeRange c word off
  else if d.poweredAll c word off n = false then d.tpFault c 1 word off 0 0x16
  else
    match d.journal c word off n with
    | none => d.journalFull c word off
    | some d =>
      if aow = 0 then { d with mem := memWrite d.mem (planeAt word c off) bytes }
      else
        let x := aowBytes aow ((n + 3) / 4) (d.planeRead c word off n) bytes
        ({ d with mem := memWrite d.mem (planeAt word c off) x.1 } : Dev).aowStat c vec x.2

/-- Whether a plane section of the image loaded a segment (R351). -/
def Dev.segLoaded (d : Dev) (c : Nat) (word : Bool) (off : Nat) : Bool :=
  bitOf (smGet (fun _ => 0) d.bt.segs (2 * c + b2n word)) (segOf word off)

/-- Bytes of the unit that a plane's code protects (R164): a granule of the tile plane, a word of the word plane. -/
def eccUnit (word : Bool) : Nat := if word then 4 else 16

/-- The place of unit g of an access, counted from the unit that holds its first byte. -/
def eccAt (u off g : Nat) : Nat := off / u * u + u * g

/-- An uncorrectable error of a granule or word (R164, R167, R351): reported; where no plane section loaded the segment
it is rewritten as zero, a write that is journalled as any other (R222). -/
def Dev.uncorr (d : Dev) (c : Nat) (word : Bool) (off : Nat) : Dev :=
  let u := eccUnit word
  let off := off / u * u
  let d := d.bump (if word then WP_UNCORR c else TP_UNCORR c)
  if d.segLoaded c word off then d.tpFault c 0 word off 0 0x20
  else
    let d := d.tpFault c 0 word off 0 0x14
    match d.journal c word off u with
    | none => d.journalFull c word off
    | some d => { d with mem := memWrite d.mem (planeAt word c off) (zeros u) }

/-- Corrected errors of an access (R164, R165): counted and reported one by one. -/
def Dev.corrected_ (d : Dev) (c : Nat) (word : Bool) (off n : Nat) : Dev :=
  loopN (fun _ d => d.report
    { src := if word then 0x02 else 0x01, unit := unitOf 0 c, addr := engAddr word c off }) n
    (d.bump (if word then WP_CORR c else TP_CORR c) n)

/-- `n` free bytes: the manual gives no value of data read with an uncorrectable error. -/
def Dev.freeBytes (d : Dev) : Nat → List Byte × Dev
  | 0 => ([], d)
  | n + 1 =>
    let (v, d) := d.fresh
    let (r, d) := d.freeBytes n
    (BitVec.ofNat 8 v.toNat :: r, d)

/-- The freeze of 2 cycles before the schedule cycle at which a tile-plane read with a non-zero syndrome is due (R165): asked for once by
a core for one schedule cycle. (DEDUCED, log entry 122.) -/
def Dev.corrFreeze (d : Dev) (c due : Nat) : Dev :=
  let v := d.vol c
  if v.corr.contains due then d
  else ((d.setVol c { v with corr := due :: v.corr }).bump (TP_CORR_FREEZE c) 2).freeze c due 2

/-- What error correction does to a scheduled read whose unit g lies at `at_ g`, due at a schedule cycle (R158, R164,
R165, R167): corrections counted, with the freeze of the tile plane's; an uncorrectable granule or word reported. The
answer gives the bytes that are left open, by offset, with the free values drawn for them. -/
def Dev.readEcc (d : Dev) (c : Nat) (word : Bool) (at_ : Nat → Nat) (due : Nat) (e : Ecc) : List (Nat × Byte) × Dev :=
  let d := d.corrected_ c word (at_ 0) e.corr
  let d := if (e.corr ≠ 0 ∨ e.unc.isSome) ∧ word = false then d.corrFreeze c due else d
  match e.unc with
  | none => ([], d)
  | some g =>
    let u := eccUnit word
    let p := at_ g
    let (fb, d) := d.freeBytes u
    (fb.mapIdx (fun i b => (p + i, b)), d.uncorr c word p)

/-- Bytes read from an offset with the values drawn for those left open. -/
def overlay (bs : List Byte) (off : Nat) (o : List (Nat × Byte)) : List Byte :=
  match o with
  | [] => bs
  | _ => bs.mapIdx (fun i b => match o.find? (fun p => decide (p.1 = off + i)) with
    | some p => p.2
    | none => b)

/-- A scheduled read of `n` bytes (R158): the bytes, and what error correction does. -/
def Dev.schedRead (d : Dev) (c : Nat) (word : Bool) (off n due : Nat) (e : Ecc) : List Byte × Dev :=
  let bs := d.planeRead c word off n
  let (o, d) := d.readEcc c word (eccAt (eccUnit word) off) due e
  (overlay bs off o, d)

/-! ### The passage of schedule cycles -/

/-- One row of a pair of rows, `new` put into the columns of a half (0: all 64). -/
def halfRow (half : Nat) (old new : List Nat) : List Nat :=
  if half = 0 then new
  else (List.range 64).map (fun j => if j / 32 + 1 = half then new.getD j 0 else old.getD j 0)

/-- An empty row. -/
def row0 : Nat → List Nat := fun _ => []

/-- 16 rows of 64 bytes put into the shadow set of an array or a half (R129). -/
def CoreVol.fillRows (v : CoreVol) (arr half row : Nat) (rows : List (List Nat)) : CoreVol :=
  let set := (rows.mapIdx (fun i r => (128 * arr + row + i, r))).foldl
    (fun m p => smSet row0 m p.1 (halfRow half (smGet row0 m p.1) p.2)) v.wSh
  { v with wSh := set }

/-- The rows of a 1 KiB read. -/
def rowsOf (bs : List Byte) : List (List Nat) :=
  (List.range 16).map (fun q => (List.range 64).map (fun j => (bs.getD (64 * q + j) 0).toNat))

/-- A scheduled read at its bank cycle. -/
def Dev.doRead (d : Dev) (c : Nat) (q : PRead) : Dev :=
  let v := d.vol c
  let get (off n : Nat) : List Byte := overlay (d.planeRead c false off n) off q.open_
  match q.kind with
  | .fillLin arr half row off => d.setVol c (v.fillRows arr half row (rowsOf (get off 1024)))
  | .fillCol arr half row line gran stride =>
    let g := (List.range 64).map (fun n => get (1024 * (line + n * stride) + 16 * gran) 16)
    d.setVol c (v.fillRows arr half row
      ((List.range 16).map (fun r => g.map (fun bs => (bs.getD r 0).toNat))))
  | .fillScale arr half off =>
    let bs := get off 256
    let set := (List.range 4).foldl (fun m g =>
      smSet row0 m (4 * arr + g) (halfRow half (smGet row0 m (4 * arr + g))
        ((List.range 64).map (fun j => (bs.getD (4 * j + g) 0).toNat)))) v.sSh
    d.setVol c { v with sSh := set }
  | .feed land lanes scales sec =>
    let byte (o : Option Nat) : Nat := match o with
      | some a => ((get a 1).getD 0 0).toNat
      | none => 0
    let f : Feed := { at_ := land, lanes := lanes.map byte, scales := scales.map byte, sec := sec }
    d.setVol c { v with feeds := v.feeds ++ [f] }

/-- A register of the core controller (R285) loaded: an AR by its number, an AS by 16 more, WBSTEP, HSTEP and WQBASE by 32,
33 and 34. -/
def CoreChk.setReg (k : CoreChk) (reg : Nat) (v : Word) : CoreChk :=
  if reg < 16 then { k with ar := smSet (fun _ => (0 : Word)) k.ar reg v }
  else if reg < 32 then { k with as_ := smSet (fun _ => (0 : Word)) k.as_ (reg - 16) v }
  else if reg = 32 then { k with wbstep := v }
  else if reg = 33 then { k with hstep := v }
  else { k with wqbase := v }

/-- Results and register values of a core that are due by a schedule cycle take effect; writes whose bank cycle has
passed are applied and reads whose bank cycle has come are made, in the order of their bank cycles: a read sees every
write of an earlier one (R158, R162, R288, R305). -/
def Dev.settle (d : Dev) (c now : Nat) : Dev :=
  let v := d.vol c
  let k := d.core c
  let res := sortBy (fun (a b : VRes) => decide (a.due < b.due)) (v.vres.filter (fun x => decide (x.due ≤ now)))
  let ups := v.arup.filter (fun x => decide (x.1 ≤ now))
  let cups := v.ctxup.filter (fun x => decide (x.1 ≤ now))
  let ws := v.writes.filter (fun x => decide (x.at_ < now))
  let rs := v.reads.filter (fun x => decide (x.at_ ≤ now))
  let k := ups.foldl (fun (k : CoreChk) x => k.setReg x.2.1 x.2.2) k
  let k := { k with
    vr := res.foldl (fun m x => smSet row0 m x.vd x.lanes) k.vr
    ctx := cups.foldl (fun m x => smSet (fun _ => ({} : TurnCtx)) m x.2.1 x.2.2) k.ctx }
  let v := { v with
    vres := v.vres.filter (fun x => decide (now < x.due))
    arup := v.arup.filter (fun x => decide (now < x.1))
    ctxup := v.ctxup.filter (fun x => decide (now < x.1))
    writes := v.writes.filter (fun x => decide (now ≤ x.at_))
    reads := v.reads.filter (fun x => decide (now < x.at_))
    bcast := v.bcast.filter (fun x => decide (now ≤ x.at_ + 2))
    corr := v.corr.filter (fun x => decide (now < x))
    occ := v.occ.filter (fun x => decide (now ≤ x.at_)) }
  let d := (d.setCore c k).setVol c v
  let evs : List (Nat × Option PWrite × Option PRead) :=
    rs.map (fun r => (2 * r.at_, none, some r)) ++ ws.map (fun w => (2 * w.at_ + 1, some w, none))
  (sortBy (fun a b => decide (a.1 < b.1)) evs).foldl (fun d e =>
    match e with
    | (_, some w, _) => d.planeWrite c w.word w.off w.bytes w.aow w.vec
    | (_, none, some r) => d.doRead c r
    | _ => d) d

/-! ### Rings (R168 to R170) -/

/-- A ring's descriptor (R168): plane, base, slot size, slots, tag base. -/
structure RingDesc where
  word : Bool
  base : Nat
  size : Nat
  slots : Nat
  tagBase : Nat
  deriving DecidableEq, Repr

/-- The descriptor of a core's ring. -/
def Dev.ringDesc (d : Dev) (c k : Nat) : RingDesc :=
  { word := decide (d.rf (TP_CORE_RING_BASE c k) 19 1 = 1), base := 16 * d.rf (TP_CORE_RING_BASE c k) 0 19,
    size := 16 * d.rf (TP_CORE_RING_SIZE c k) 0 11, slots := d.rf (TP_CORE_RING_SIZE c k) 11 13,
    tagBase := d.rf (TP_CORE_RING_TAG c k) 0 13 }

/-- A ring's indices. -/
def CoreChk.ring (k : CoreChk) (n : Nat) : RingPos := smGet (fun _ => {}) k.rings n
/-- A ring's indices replaced. -/
def CoreChk.setRing (k : CoreChk) (n : Nat) (r : RingPos) : CoreChk :=
  { k with rings := smSet (fun _ => ({} : RingPos)) k.rings n r }
/-- A slot tag. -/
def CoreChk.tagAt (k : CoreChk) (i : Nat) : SlotTag := smGet (fun _ => {}) k.tags i
/-- A slot tag replaced. -/
def CoreChk.setTag (k : CoreChk) (i : Nat) (t : SlotTag) : CoreChk :=
  { k with tags := smSet (fun _ => ({} : SlotTag)) k.tags i t }

/-- The check of a GET (R169): the tail's slot is FULL, of the consumer epoch. -/
def Dev.getOk (d : Dev) (c n : Nat) : Bool :=
  let k := d.core c
  let t := k.tagAt ((d.ringDesc c n).tagBase + (k.ring n).tail)
  t.full && decide (t.epoch = (k.ring n).cep)

/-- The slot at a ring's head reserved (R169): the head advances, the producer epoch is recorded. -/
def RingPos.reserve (r : RingPos) (slots : Nat) : RingPos :=
  if r.head + 1 ≥ slots then { r with head := 0, pep := (r.pep + 1) % 8, resv := r.resv ++ [(r.head, r.pep)] }
  else { r with head := r.head + 1, resv := r.resv ++ [(r.head, r.pep)] }

/-- A slot marked FULL with the epoch of its reservation (R169). -/
def Dev.markFull (d : Dev) (c n slot ep : Nat) : Dev :=
  let k := d.core c
  d.setCore c (k.setTag ((d.ringDesc c n).tagBase + slot) { full := true, epoch := ep, at_ := d.tm.stroke })

/-- Whether a slot is FULL. -/
def Dev.slotFull (d : Dev) (c n slot : Nat) : Bool := ((d.core c).tagAt ((d.ringDesc c n).tagBase + slot)).full

/-- The check of a PUTC (R304): the oldest reserved slot is not FULL; with no slot reserved there is nothing to check. -/
def Dev.putOk (d : Dev) (c n : Nat) : Bool :=
  match ((d.core c).ring n).resv with
  | [] => true
  | (s, _) :: _ => !(d.slotFull c n s)

/-- PUTC (R169): the oldest reserved slot becomes FULL. -/
def Dev.putComplete (d : Dev) (c n : Nat) : Dev :=
  let k := d.core c
  let r := k.ring n
  match r.resv with
  | [] => d
  | (s, e) :: rest => (d.setCore c (k.setRing n { r with resv := rest })).markFull c n s e

/-- DRAIN (R169): the tail's slot is freed, the tail advances. -/
def Dev.drain (d : Dev) (c n : Nat) : Dev :=
  let k := d.core c
  let r := k.ring n
  let g := d.ringDesc c n
  let i := g.tagBase + r.tail
  let t := k.tagAt i
  let r' := if r.tail + 1 ≥ g.slots then { r with tail := 0, cep := (r.cep + 1) % 8 } else { r with tail := r.tail + 1 }
  d.setCore c ((k.setTag i { t with full := false }).setRing n r')

/-- The bytes of a ring's slot in its plane. -/
def Dev.slotBytes (d : Dev) (c n slot len : Nat) : List Byte :=
  let g := d.ringDesc c n
  d.planeRead c g.word (g.base + slot * g.size) len

/-- Whether a ring is the work-set ring (R191), whose slots the level merger fills once and for all. -/
def Dev.isWset (d : Dev) (c n : Nat) : Bool :=
  decide (c = d.rf AG_WSET_CFG 0 5) && decide (n = d.rf AG_WSET_CFG 5 5)

/-- A slot that a block of the device itself fills by an unscheduled PUT (R159, R170): at the head, where that slot is
not FULL; otherwise the write is held. -/
def Dev.putSlot (d : Dev) (c n : Nat) (bytes : List Byte) : Dev :=
  let g := d.ringDesc c n
  let k := d.core c
  let r := k.ring n
  if g.slots = 0 then d.tpFault c 2 false 0 n 0x16
  else if d.slotFull c n r.head then { d with cw := { d.cw with held := d.cw.held ++ [(c, n, bytes)] } }
  else
    let r' := r.reserve g.slots
    let d := d.setCore c (k.setRing n { r' with resv := r.resv })
    let d := d.planeWrite c g.word (g.base + r.head * g.size) bytes
    let d := if d.isWset c n then { d with cw := { d.cw with pushed := d.cw.pushed ++ [(c, n, bytes)] } } else d
    d.markFull c n r.head r.pep

/-- Held PUTs of a ring tried again, in their order (R170). -/
def Dev.retryHeld (d : Dev) (c n : Nat) : Dev :=
  match takeFirst (fun (h : Nat × Nat × List Byte) => decide (h.1 = c) && decide (h.2.1 = n)) d.cw.held with
  | none => d
  | some (h, rest) =>
    if d.slotFull c n ((d.core c).ring n).head then d
    else ({ d with cw := { d.cw with held := rest } } : Dev).putSlot c n h.2.2

/-! ### The passage of schedule cycles, DRAINs included -/

/-- The passage of schedule cycles: what falls due by a schedule cycle takes effect; then the PUTs that the device holds
for slots drained in an earlier cycle are tried again, so that the reads of that cycle come before them (R170, R305). -/
def Dev.sync (d : Dev) (c now : Nat) : Dev :=
  let d := d.settle c now
  match (d.vol c).retry.filter (fun x => decide (x.1 < now)) with
  | [] => d
  | l =>
    let v := d.vol c
    let d := d.setVol c { v with retry := v.retry.filter (fun x => decide (now ≤ x.1)) }
    l.foldl (fun d x => d.retryHeld c x.2) d

/-- A core brought to the schedule cycle that its crew has reached, for an access that no schedule orders. -/
def Dev.syncNow (d : Dev) (c : Nat) : Dev := d.sync c (d.absCyc c (d.crew (c / 8)).pos)

/-- Whether a core's crew executes an operation at a schedule cycle: it runs (R352), its program has not ended (R215),
the stroke has room for the cycle (R217), and no check holds it at an earlier one (R170). -/
def Dev.runs (d : Dev) (c cyc : Nat) : Bool :=
  let cr := d.crew (c / 8)
  d.crewsRun && decide (c < 32) && !cr.waiting && !cr.halted && decide (cyc + cr.frozen < d.tm.len) && cr.wait.isEmpty

/-- The schedule cycle reached by a crew. -/
def Dev.reach (d : Dev) (c cyc : Nat) : Dev :=
  let cr := d.crew (c / 8)
  d.setCrew (c / 8) { cr with pos := max cr.pos cyc }

/-- An operation issued, after which no check of its schedule cycle is to come (R305). -/
def Dev.issued (d : Dev) (c cyc : Nat) : Dev :=
  let d := d.reach c cyc
  d.setCrew (c / 8) { d.crew (c / 8) with late := some cyc }

/-- An operation of a bundle: executed at its schedule cycle where the crew executes it, without effect elsewhere (DESIGN CHOICE, log
entry 1). -/
def Dev.bundleOp (d : Dev) (c cyc : Nat) (f : Nat → Dev → Dev) : Dev :=
  if d.runs c cyc then
    let now := d.absCyc c cyc
    f now ((d.sync c now).issued c cyc)
  else d

/-- An operation of the S slot, which comes before the other slots' (R305). -/
def Dev.firstOp (d : Dev) (c cyc : Nat) (f : Nat → Dev → Dev) : Dev :=
  if d.runs c cyc then
    let now := d.absCyc c cyc
    f now ((d.sync c now).reach c cyc)
  else d

/-- A bundle of which no slot executes (R308): the crew stops its program at that schedule cycle. -/
def Dev.haltAt (d : Dev) (c cyc bit : Nat) : Dev :=
  if d.runs c cyc then
    let k := c / 8
    let d := (d.reach c cyc).countBundles k (d.begun k cyc - 1)
    let d := d.setCrew k { d.crew k with halted := true }
    d.coFault c bit 7 cyc 0x22
  else d

/-- BUNDLE_ILLEGAL (R307, R308): of a bundle that every core of a crew fetches. -/
def Dev.bundleIllegal (d : Dev) (k cyc : Nat) : Dev :=
  if d.runs (8 * k) cyc then
    (List.range 7).foldl (fun d i => d.coFault (8 * k + 1 + i) 1 7 cyc 0x22) (d.haltAt (8 * k) cyc 1)
  else d

/-- PSTORE_UNCORR (R308): an uncorrectable program-store error in the bundle fetched. -/
def Dev.pstoreUncorr (d : Dev) (c cyc : Nat) : Dev := d.haltAt c cyc 0

/-- Program-store words corrected in the fetch of a bundle (R308, R351). -/
def Dev.pstoreCorr (d : Dev) (c cyc n : Nat) : Dev :=
  if d.runs c cyc then
    loopN (fun _ d => d.report { src := 0x05, unit := unitOf 0 c }) n (d.bump (CO_CTR_PSTORE_CORR c) n)
  else d

/-! ### Bundles that break a rule (R307, R308) -/

/-- Whether a bundle is legal for a crew whose program has the bundles `l` (R307): by itself, its STAGE beside the program's
other TURNs (rule 10), and the ring that it names in use at each of the crew's cores (rule 11). -/
def Dev.bundleFits (d : Dev) (k : Nat) (l : List Nat) (b : Nat) : Bool :=
  bundleOk (d.rf AG_LVL_CFG 0 2) b &&
    (turnsOf [b]).all (fun x => (turnsOf l).all (fun y => decide (x.1 = y.1) == decide (x.2 = y.2))) &&
    match bunRing b with
    | none => true
    | some n => (List.range 8).all (fun i => decide ((d.ringDesc (8 * k + i) n).slots ≠ 0))

/-- The schedule cycle of the first bundle that a test refuses, of bundles that begin at a schedule cycle. -/
def firstBad (ok : Nat → Bool) : List Nat → Nat → Option Nat
  | [], _ => none
  | b :: r, at_ => if ok b then firstBad ok r (at_ + bunSpan b) else some at_

/-- The schedule cycle of the first illegal bundle of a crew's program that begins before a cycle. -/
def Dev.badBefore (d : Dev) (k cyc : Nat) : Option Nat :=
  let l := bundlesOf (d.prog k)
  (firstBad (d.bundleFits k l) l 0).filter (fun t => decide (t < cyc))

/-- A crew stops at an illegal bundle that comes before a schedule cycle, be it all NOPs (R308). -/
def Dev.stopIllegal (d : Dev) (k cyc : Nat) : Dev :=
  match d.badBefore k cyc with
  | some t => d.bundleIllegal k t
  | none => d

/-! ### Address operands (R286, R288) -/

/-- A plane access of n bytes at an address: its offset, unless it is out of range or unpowered. -/
def Dev.vecAt (d : Dev) (c : Nat) (word : Bool) (a n : Nat) : Option Nat × Dev :=
  match localOff word a with
  | none => (none, d.planeRange c word a)
  | some off =>
    if off + n > planeSize word then (none, d.planeRange c word off)
    else if d.poweredAll c word off n = false then (none, d.tpFault c 1 word off 0 0x16)
    else (some off, d)

/-- An address register. -/
def CoreChk.arOf (k : CoreChk) (n : Nat) : Word := smGet (fun _ => (0 : Word)) k.ar n
/-- A stride register. -/
def CoreChk.asOf (k : CoreChk) (n : Nat) : Word := smGet (fun _ => (0 : Word)) k.as_ n

/-- The address that an operand gives in span cycle r (R288). -/
def CoreChk.addr (k : CoreChk) (base r : Nat) (inc : Bool) : Nat :=
  (if inc then k.arOf base + BitVec.ofNat 32 r * k.asOf base else k.arOf base).toNat

/-- A register's new value from the next schedule cycle on (R288, R306). -/
def Dev.arNext (d : Dev) (c now reg : Nat) (v : Word) : Dev :=
  let w := d.vol c
  d.setVol c { w with arup := w.arup ++ [(now + 1, reg, v)] }

/-- The step of an address register at the end of a span of n cycles (R288). -/
def Dev.arStep (d : Dev) (c now base n r : Nat) (inc : Bool) : Dev :=
  if inc && decide (r + 1 = n) then
    let k := d.core c
    d.arNext c now base (k.arOf base + BitVec.ofNat 32 n * k.asOf base)
  else d

end Sys2Proof.Machine
end

