-- ==== Sys2Proof/Machine/Access.lean ====
section
/-! DEFINITION. Unscheduled accesses to the planes (06_scratchpads R159 to R167, R170): the engines' operations at a plane and
the order in which they are served, the accesses that blocks of the device make themselves, and the errors that they meet. -/

namespace Sys2Proof.Machine

/-! ### Operations at a plane (R159, R172, R202) -/

/-- Whether a core reaches an engine address without the network: its own planes. -/
def engLocal (c a : Nat) : Bool := match engDec a with
  | some (2, _, _) => false
  | some (_, k, _) => decide (k = c)
  | none => true

/-- The operations of a core's started descriptors, in their order. -/
def CoreChk.opList (k : CoreChk) : List GsOp := k.acts.flatMap (fun a => a.ops)

/-- One operation, by its place among them, changed. -/
def opsSet : List GsAct → Nat → (GsOp → GsOp) → List GsAct
  | [], _, _ => []
  | a :: r, i, f =>
    if i < a.ops.length then
      { a with ops := a.ops.mapIdx (fun j o => if j = i then f o else o) } :: r
    else a :: opsSet r (i - a.ops.length) f

/-- One operation of a core changed. -/
def Dev.setOpAt (d : Dev) (c i : Nat) (f : GsOp → GsOp) : Dev :=
  let k := d.core c
  d.setCore c { k with acts := opsSet k.acts i f }

/-- The key of a credit counter (R173): destination core, or 32 for the commons, and entry. -/
def credKey (dst : Nat) (e : Nat × Bool) : Nat :=
  16 * (if e.2 then 32 else match engDec dst with
    | some (_, k, _) => k
    | none => 0) + e.1

/-- The next stage of an operation whose data is at hand: a remote write waits for its credit. -/
def writeStage (c : Nat) (o : GsOp) : OpStage :=
  if o.gran.isEmpty && !(engLocal c o.dst) then (if o.credit.isSome then .creditWait else .writeNet) else .writePlane

/-- An operation of a core that arrives at a plane, or stays there for its write: its place in the order of arrival (R159). -/
def Dev.toPlane (d : Dev) (c i : Nat) (f : GsOp → GsOp) : Dev :=
  let n := d.cw.arrivals
  let d := { d with cw := { d.cw with arrivals := n + 1 } }
  d.setOpAt c i (fun o => { f o with since := n, promoted := false })

/-- The plane and offset of a plane access; none in the commons. -/
def planeOf (c a : Nat) : Option (Nat × Bool × Nat) :=
  match engDec a with
  | some (2, _, _) => none
  | some (sp, k, off) => some (if engLocal c a then c else k, decide (sp = 1), off)
  | none => none

/-- Data of an access at an offset that cannot be trusted past a plane's or the commons' correction (R164): the bytes of its
bad unit are free. -/
def Dev.eccData (d : Dev) (bs : List Byte) (off u : Nat) (e : Ecc) : List Byte × Dev :=
  match e.unc with
  | none => (bs, d)
  | some g =>
    let (fb, d) := d.freeBytes u
    (overlay bs off (fb.mapIdx (fun i b => (eccAt u off g + i, b))), d)

/-- The credit of a remote write that its owner has applied is on its way back (R174). -/
def Dev.owe (d : Dev) (c : Nat) (o : GsOp) : Dev :=
  match o.credit with
  | none => d
  | some e =>
    let v := d.vol c
    let key := credKey o.dst e
    d.setVol c { v with owed := smSet (fun _ => 0) v.owed key (smGet (fun _ => 0) v.owed key + 1) }

/-- The descriptor of the operation at a place among its core's. -/
def actAt : List GsAct → Nat → Option (GsAct × Nat)
  | [], _ => none
  | a :: r, i => if i < a.ops.length then some (a, i) else actAt r (i - a.ops.length)

/-- Whether the write of operation i would complete a PUT whose slot is still FULL (R169, R170): it is then held. -/
def Dev.putHeld (d : Dev) (c i : Nat) : Bool :=
  match actAt (d.core c).acts i with
  | none => false
  | some (a, j) =>
    match a.put with
    | none => false
    | some (r, s, _) =>
      d.slotFull c r s && (a.ops.mapIdx (fun n o => decide (n = j) || decide (o.stage = .done))).all (fun b => b)

/-- The pieces of a write that an operation makes at a plane: owner, plane, offset, bytes. -/
def opWrites (c : Nat) (o : GsOp) : List (Nat × Bool × Nat × List Byte) :=
  if o.gran.isEmpty then
    match planeOf c o.dst with
    | some (k, w, off) => [(k, w, off, o.data)]
    | none => []
  else o.gran.mapIdx (fun j g => (c, false, g, (o.data.drop (16 * j)).take 16))

/-- The plane spans that an operation waits to read or write: owner, plane, offset, length. -/
def opSpans (c : Nat) (o : GsOp) : List (Nat × Bool × Nat × Nat) :=
  match o.stage with
  | .readPlane => match planeOf c o.src with
    | some (k, w, off) => [(k, w, off, o.len)]
    | none => []
  | .writePlane => (opWrites c o).map (fun w => (w.1, w.2.1, w.2.2.1, w.2.2.2.length))
  | _ => []

/-- The banks that an operation waits for: core, plane, bank. -/
def opBanks (c : Nat) (o : GsOp) : List (Nat × Bool × Nat) :=
  (opSpans c o).flatMap (fun s => (spanBanks s.2.1 s.2.2.1 s.2.2.2).map (fun b => (s.1, s.2.1, b)))

/-- Whether an access is served before another (R159): promoted first, then the older. -/
def servedBefore (a b : GsOp) : Bool :=
  if a.promoted = b.promoted then decide (a.since < b.since) else a.promoted

/-- Whether scheduled accesses hold a bank of a core in the cycle that it has reached (R159). -/
def Dev.bankHeld (d : Dev) (b : Nat × Bool × Nat) : Bool :=
  ((d.vol b.1).occAt (d.absCyc b.1 (d.crew (b.1 / 8)).pos) b.2.1).contains b.2.2

/-- Whether operation i is served (R159): no other unscheduled access comes before it at a bank that it needs, one whose write
is held taking no bank (R170); and no scheduled access holds such a bank, unless it has been promoted. -/
def Dev.servedNow (d : Dev) (c i : Nat) (o : GsOp) : Bool :=
  let mine := opBanks c o
  (o.promoted || mine.all (fun b => !(d.bankHeld b))) && (List.range 32).all (fun k =>
    ((d.core k).opList.mapIdx (fun j x =>
      (decide (k = c) && decide (j = i)) || !(servedBefore x o) || (opBanks k x).all (fun b => !(mine.contains b)) ||
        (decide (x.stage = .writePlane) && d.putHeld k j))).all (fun b => b))

/-- An unscheduled access's corrections at a plane (R164 to R167). -/
def Dev.unschedEcc (d : Dev) (c : Nat) (word : Bool) (off : Nat) (e : Ecc) : Dev :=
  let d := d.corrected_ c word off e.corr
  match e.unc with
  | none => d
  | some g => d.uncorr c word (eccAt (eccUnit word) off g)

/-- Whether a write to a plane is applied: within the plane, powered, and with room in the journal (R179, R222). -/
def Dev.takesWrite (d : Dev) (c : Nat) (word : Bool) (off n : Nat) : Bool :=
  decide (off + n ≤ planeSize word) && d.poweredAll c word off n && (d.journal c word off n).isSome

/-- An operation's read at its plane. -/
def Dev.serveRead (d : Dev) (c i : Nat) (o : GsOp) (e : Ecc) : Dev :=
  let ended (d : Dev) : Dev := d.setOpAt c i (fun o => { o with stage := .done })
  match planeOf c o.src with
  | none => ended (d.agFault c 3 0x16)
  | some (k, word, off) =>
    let d := d.syncNow k
    if off + o.len > planeSize word then ended (d.planeRange k word off)
    else if d.poweredAll k word off o.len = false then ended (d.tpFault k 1 word off 0 0x16)
    else
      let (bs, d) := d.eccData (d.planeRead k word off o.len) off (eccUnit word) e
      let d := d.unschedEcc k word off e
      let go (o : GsOp) : GsOp := { o with data := bs, stage := writeStage c o }
      if writeStage c o = .writePlane then d.toPlane c i go else d.setOpAt c i (fun o => { go o with promoted := false })

/-- An operation's write at its plane; of a remote one the credit goes back once it is applied. -/
def Dev.serveWrite (d : Dev) (c i : Nat) (o : GsOp) (e : Ecc) : Dev :=
  let ws := opWrites c o
  let d := ws.foldl (fun (d : Dev) w => (d.syncNow w.1).unschedEcc w.1 w.2.1 w.2.2.1 e) d
  let ok := ws.all (fun w => d.takesWrite w.1 w.2.1 w.2.2.1 w.2.2.2.length)
  let d := ws.foldl (fun (d : Dev) w => d.planeWrite w.1 w.2.1 w.2.2.1 w.2.2.2) d
  (if ok then d.owe c o else d).setOpAt c i (fun o => { o with stage := .done })

/-! ### Accesses of other blocks (R159, R162) -/

/-- The operations that wait at a bank of a list, by core and place, in the order in which they are served. -/
def Dev.waitAt (d : Dev) (banks : List (Nat × Bool × Nat)) : List (Nat × Nat × GsOp) :=
  sortBy (fun a b => servedBefore a.2.2 b.2.2)
    ((List.range 32).flatMap (fun k => ((d.core k).opList.mapIdx (fun j x => (k, j, x))).filter (fun x =>
      (opBanks k x.2.2).any (fun b => banks.contains b) && !(decide (x.2.2.stage = .writePlane) && d.putHeld k x.2.1))))

/-- The engines' operations that have come to these banks before are served (R159): they are older. In a restoration stroke
and outside operation the engines hold theirs (R175, R352). -/
def Dev.serveAhead (d : Dev) (banks : List (Nat × Bool × Nat)) : Dev :=
  if d.accel = false ∨ d.flt.rolling then d
  else (d.waitAt banks).foldl (fun d x =>
    if x.2.2.stage = .readPlane then d.serveRead x.1 x.2.1 x.2.2 {} else d.serveWrite x.1 x.2.1 x.2.2 {}) d

/-- A plane brought to the point at which an access that a block of the device, or the host, makes to `n` bytes is served
(R159, R162): after the scheduled accesses of earlier cycles and after the unscheduled ones that came before it. (DESIGN CHOICE,
log entry 150.) -/
def Dev.planeTurn (d : Dev) (c : Nat) (word : Bool) (off n : Nat) : Dev :=
  (d.syncNow c).serveAhead ((spanBanks word off (min n 2048)).map (fun b => (c, word, b)))

/-- An unscheduled write of a block of the device (R159, R222). -/
def Dev.unschedWrite (d : Dev) (c : Nat) (word : Bool) (off : Nat) (bytes : List Byte) : Dev :=
  (d.planeTurn c word off bytes.length).planeWrite c word off bytes

/-- A plane brought to its turn as an unscheduled read sees it (R159, R162): where scheduled accesses hold banks of the read
in the cycle reached, it is served after them and sees their writes. -/
def Dev.planeSight (d : Dev) (c : Nat) (word : Bool) (off n : Nat) : Dev :=
  if (spanBanks word off (min n 2048)).any (fun b => d.bankHeld (c, word, b)) then
    d.sync c (d.absCyc c (d.crew (c / 8)).pos + 1)
  else d

/-- An error that stands in a plane lies among `n` bytes. -/
def PlaneErr.hits (e : PlaneErr) (sp core off n : Nat) : Bool :=
  let u := if sp = 0 then 16 else if sp = 1 then 4 else 8
  decide (e.sp = sp) && decide (e.core = core) && decide (e.off / u * u < off + n) && decide (off < e.off / u * u + u)

/-- Data in which the errors that an access has met leave bytes open. -/
def Dev.errData (d : Dev) (bs : List Byte) (off u : Nat) (es : List PlaneErr) : List Byte × Dev :=
  es.foldl (fun x e =>
    if e.unc then
      let (fb, d) := x.2.freeBytes u
      (overlay x.1 off (fb.mapIdx (fun i b => (e.off / u * u + i, b))), d)
    else x) (bs, d)

/-- The errors that stand where an access reads: taken out, to be answered by it. -/
def Dev.errsAt (d : Dev) (sp core off n : Nat) : List PlaneErr × Dev :=
  (d.cw.upset.filter (fun e => e.hits sp core off n),
   { d with cw := { d.cw with upset := d.cw.upset.filter (fun e => !(e.hits sp core off n)) } })

/-- Bytes of a plane as a read of the core itself finds them, with the errors that stand in them (R164, R166, R167): each
corrected one is counted, an uncorrectable one reported, its unit being open; whether all of it can be trusted. -/
def Dev.planeMeet (d : Dev) (c : Nat) (word : Bool) (off n : Nat) (bs : List Byte) : List Byte × Bool × Dev :=
  let (es, d) := d.errsAt (b2n word) c off n
  let (bs, d) := d.errData bs off (eccUnit word) es
  let d := es.foldl (fun d e => if e.unc then d.uncorr c word e.off else d.corrected_ c word e.off 1) d
  (bs, es.all (fun e => !e.unc), d)

/-- An unscheduled read of a plane by a block of the device (R159, R164, R179): out of range RANGE, unpowered POWERED_DOWN,
which leave the data open; whether all of it can be trusted. -/
def Dev.planeGet (d : Dev) (c : Nat) (word : Bool) (off n : Nat) : List Byte × Bool × Dev :=
  let open_ (d : Dev) : List Byte × Bool × Dev :=
    let (bs, d) := d.freeBytes n
    (bs, false, d)
  if off + n > planeSize word then open_ (d.planeRange c word off)
  else if d.poweredAll c word off n = false then open_ (d.tpFault c 1 word off 0 0x16)
  else
    let d := d.planeTurn c word off n
    d.planeMeet c word off n ((d.planeSight c word off n).planeRead c word off n)

/-- The bytes of a ring's slot read by a block of the device. -/
def Dev.slotGet (d : Dev) (c n slot len : Nat) : List Byte × Dev :=
  let g := d.ringDesc c n
  let (bs, _, d) := d.planeGet c g.word (g.base + slot * g.size) len
  (bs, d)

/-- A slot that a block of the device fills by an unscheduled PUT (R159, R170), once the accesses before it are served. -/
def Dev.pushSlot (d : Dev) (c n : Nat) (bytes : List Byte) : Dev :=
  let g := d.ringDesc c n
  (d.planeTurn c g.word (g.base + ((d.core c).ring n).head * g.size) bytes.length).putSlot c n bytes

end Sys2Proof.Machine
end

