-- ==== Sys2Proof/Machine/Intake.lean ====
section
/-! DEFINITION. Intake (02_intake): frames and packets, binding (R42), verification (R49), order (R51, R52), sectors and
verdicts (R54, R55), the conversion (R57), the shed decision (R62), and the Regatta split of points (R391 to R393). -/

namespace Sys2Proof.Machine

/-! ### A stream's configuration -/

/-- The configuration that packets and returns of one stream are judged by (R64, R65, R271); the golden sector has one
of its own (R329). -/
structure StreamCfg where
  cls : Nat
  indices : Nat
  elems : Nat
  rets : Nat
  shift : Nat
  fromArrival : Bool
  secLen : Nat
  rmin : Nat
  rmax : Nat
  conf : Nat
  cal : Calib
  deriving DecidableEq, Repr

/-- A configuration from the words of GEOM, SECTOR and RANGE (R50, R65). -/
def cfgOf (cls geom sector range : Nat) (cal : Calib) : StreamCfg :=
  let ind := bits geom 0 14
  let si := bits sector 0 14
  { cls := cls, indices := ind, elems := bits geom 14 12, rets := bits geom 26 2 + 1, shift := bits geom 28 3,
    fromArrival := bitOf geom 31, secLen := if si = 0 then (ind + 63) / 64 else si,
    rmin := bits range 0 12 * 64, rmax := bits range 12 12 * 512, conf := bits range 24 8, cal := cal }

/-- Bytes of one sector buffer of a stream (R59). -/
def StreamCfg.bufBytes (c : StreamCfg) : Nat := 24 * (c.secLen * c.elems * c.rets)

/-- The configuration of a bound stream. -/
def Dev.streamCfg (d : Dev) (n : Nat) : StreamCfg :=
  cfgOf (fld (d.rdLive (IG_STREAM_BIND n)) 16 2) (d.rd (IG_STREAM_GEOM n)).toNat (d.rd (IG_STREAM_SECTOR n)).toNat
    (d.rd (IG_STREAM_RANGE n)).toNat (smGet (fun _ => {}) d.ig.calib n)

/-- A stream's state. -/
def Dev.strm (d : Dev) (n : Nat) : StreamSt := smGet (fun _ => {}) d.ig.streams n

/-- A stream's state replaced. -/
def Dev.setStrm (d : Dev) (n : Nat) (st : StreamSt) : Dev :=
  { d with ig := { d.ig with streams := smSet (fun _ => {}) d.ig.streams n st } }

/-! ### The stream packet (R45 to R49) -/

/-- A stream packet's header fields (R45). -/
structure Pkt where
  cls : Nat
  sid : Nat
  flags : Nat
  seq : Nat
  first : Nat
  count : Nat
  elems : Nat
  rets : Nat
  shift : Nat
  ts : Nat
  period : Nat
  bytes : List Byte
  deriving DecidableEq, Repr

/-- Bytes of an index block (R46): rotating blocks have a 4-byte prefix. -/
def blockLen (cls elems rets : Nat) : Nat := (if cls = 1 then 4 else 0) + 4 * elems * rets

/-- A packet's header read from its bytes; its bytes beyond the length of R48 are ignored. -/
def parsePkt (bs : List Byte) : Pkt :=
  let cls := leAt bs 3 1
  let count := leAt bs 10 2
  let elems := leAt bs 12 2
  let rets := leAt bs 14 1
  { cls := cls, sid := leAt bs 4 1, flags := leAt bs 5 1, seq := leAt bs 6 2, first := leAt bs 8 2, count := count,
    elems := elems, rets := rets, shift := bits (leAt bs 15 1) 0 3, ts := leAt bs 16 8, period := leAt bs 24 4,
    bytes := bs.take (36 + count * blockLen cls elems rets) }

/-- The length computed from a packet's own header (R48). -/
def Pkt.len (p : Pkt) : Nat := 36 + p.count * blockLen p.cls p.elems p.rets

/-- How a packet fails R49. -/
inductive PktErr where
  | fmt | crc
  deriving DecidableEq, Repr

/-- Verification (R49), in the order of its table. INDEX_COUNT 0 fails no check of it: such a packet is verified and
delivers nothing. (DESIGN CHOICE, log entry 117.) -/
def verifyPkt (c : StreamCfg) (bs : List Byte) : Option PktErr :=
  let p := parsePkt bs
  if bs.length < 36 ∨ bs.length < p.len then some .fmt
  else if crc32c (bs.take (p.len - 4)) ≠ leAt bs (p.len - 4) 4 then some .crc
  else if leAt bs 0 2 ≠ 0x4C53 ∨ leAt bs 2 1 ≠ 1 then some .fmt
  else if p.cls ≠ c.cls ∨ p.elems ≠ c.elems ∨ p.rets ≠ c.rets ∨ p.shift ≠ c.shift then some .fmt
  else if p.first + p.count > c.indices then some .fmt
  else if bitOf p.flags 0 ∧ p.first + p.count ≠ c.indices then some .fmt
  else none

/-! ### From return to point (R56, R57) -/

/-- A table entry; a missing one reads 0. -/
def tabAt (l : List Nat) (i : Nat) : Nat := l.getD i 0

/-- The sensor-frame point of R57, by class. -/
def sensorPoint (c : StreamCfg) (code azim i j : Nat) : Option Nat × Option Nat × Option Nat :=
  let r := ieeeRound false code ((c.shift : Int) - 12)
  let k := c.cal
  match c.cls with
  | 1 =>
    let a := (azim + tabAt k.az j) % 65536
    let q := ieeeMul r (some (tabAt k.ce j))
    let cs := romCosSin a
    (ieeeMul q (some cs.1), ieeeMul q (some cs.2), ieeeMul r (some (tabAt k.se j)))
  | 2 =>
    let q := ieeeMul r (some (tabAt k.ce i))
    let cs := romCosSin (tabAt k.az j)
    (ieeeMul q (some cs.1), ieeeMul q (some cs.2), ieeeMul r (some (tabAt k.se i)))
  | _ =>
    (ieeeMul (ieeeMul (ieeeSub (ieeeOfNat j) (some k.cx)) (some k.rfx)) r,
     ieeeMul (ieeeMul (ieeeSub (ieeeOfNat i) (some k.cy)) (some k.rfy)) r, r)

/-- One row of the extrinsic matrix applied, and quantised (R57). -/
def extRow (m : List Nat) (k : Nat) (p : Option Nat × Option Nat × Option Nat) : Option Int :=
  let g (i : Nat) := some (tabAt m (4 * k + i))
  let v := ieeeAdd (ieeeAdd (ieeeAdd (ieeeMul (g 0) p.1) (ieeeMul (g 1) p.2.1)) (ieeeMul (g 2) p.2.2)) (g 3)
  match ieeeQuant v with
  | some q => if q.natAbs < 2 ^ 31 then some q else none
  | none => none

/-- `to_point` of R57: none where a step overflows, is invalid, or a coordinate does not fit. -/
def toPoint (c : StreamCfg) (code azim i j : Nat) : Option (Int × Int × Int) :=
  let p := sensorPoint c code azim i j
  match extRow c.cal.ext 0 p, extRow c.cal.ext 1 p, extRow c.cal.ext 2 p with
  | some x, some y, some z => some (x, y, z)
  | _, _, _ => none

/-- What becomes of one return word: nothing (code 0), an invalid return, or a point with its range in units of
2^-12 m (R56, R57). -/
inductive Ret where
  | empty
  | invalid
  | ok (x y z : Int) (inten near ret pos : Nat)
  deriving DecidableEq, Repr

/-- One return word judged and converted: index i, word m of the index. (DEDUCED, log entry 12.) -/
def convert (c : StreamCfg) (w azim i m : Nat) : Ret :=
  let depth := decide (c.cls = 3)
  let code := if depth then bits w 0 16 else bits w 0 18
  let inten := if depth then bits w 24 8 else bits w 18 8
  let near := code * 2 ^ c.shift
  if code = 0 then .empty
  else if near < c.rmin ∨ near > c.rmax ∨ (depth ∧ bits w 16 8 < c.conf) then .invalid
  else
    match toPoint c code azim i (m / c.rets) with
    | some (x, y, z) => .ok x y z inten near (m % c.rets) ((i % c.secLen) * c.elems * c.rets + m)
    | none => .invalid

/-- The return words of an index block. -/
def wordsOf (bs : List Byte) : Nat → List Nat
  | 0 => []
  | n + 1 => leAt bs 0 4 :: wordsOf (bs.drop 4) n

/-- The returns of index i of a packet, in element order and then return order (R59). -/
def returnsOf (c : StreamCfg) (p : Pkt) (i : Nat) : List Ret :=
  let bl := blockLen p.cls p.elems p.rets
  let blk := (p.bytes.drop (32 + (i - p.first) * bl)).take bl
  let azim := if p.cls = 1 then leAt blk 0 2 else 0
  let body := if p.cls = 1 then blk.drop 4 else blk
  let ws := wordsOf body (p.elems * p.rets)
  ws.mapIdx (fun m w => convert c w azim i m)

/-! ### Shards (R391 to R393) -/

/-- A signed register. -/
def Dev.rdInt (d : Dev) (a : Nat) : Int := sext 32 (d.rd a).toNat

/-- A signed 64-bit register pair. -/
def Dev.rdInt64 (d : Dev) (lo hi : Nat) : Int := sext 64 ((d.rd lo).toNat + 2 ^ 32 * (d.rd hi).toNat)

/-- Chips of the configuration. -/
def Dev.chips (d : Dev) : Nat := d.rl.countM1 + 1

/-- `cross(d[k], x, y)` of R391. -/
def Dev.cross (d : Dev) (k : Nat) (x y : Int) : Int :=
  d.rdInt (RL_SHARD_DIR_X k) * y - d.rdInt (RL_SHARD_DIR_Y k) * x

/-- `shard_of` of R391. -/
def Dev.shardOf (d : Dev) (x y : Int) : Nat :=
  let n := d.chips
  ((List.range n).find? (fun k => decide (d.cross k x y ≥ 0) && decide (d.cross ((k + 1) % n) x y < 0))).getD 0

/-- `halo_of` of R391. -/
def Dev.haloOf (d : Dev) (x y : Int) (k : Nat) : List Nat :=
  let n := d.chips
  let h (j : Nat) := d.rdInt64 (RL_SHARD_HALO_LO j) (RL_SHARD_HALO_HI j)
  let a := if d.cross k x y < h k then [(k + n - 1) % n] else []
  let b := if -(d.cross ((k + 1) % n) x y) ≤ h ((k + 1) % n) then [(k + 1) % n] else []
  (a ++ b).filter (fun j => j != k)

/-- The chips that hold a point: its shard's owner and those whose halo it lies in (R392). -/
def Dev.holders (d : Dev) (x y : Int) : List Nat :=
  if d.rl.countM1 = 0 then [0] else d.shardOf x y :: d.haloOf x y (d.shardOf x y)

/-- Whether receive place (r, stream) of one point comes before another's (R77). -/
def gpBefore (a b : GPoint) : Bool :=
  if a.r = b.r then decide (a.pt.stream < b.pt.stream) else sOlder a.r b.r

/-- The stream tag of the golden sector (R31). -/
def goldStream : Nat := 48

/-- A point queued for the grid builder in the order of R77; one of the golden sector in the capacity reserved for it
(R31, R32). -/
def Dev.queuePoint (d : Dev) (g : GPoint) : Dev :=
  if g.pt.stream = goldStream then { d with gb := { d.gb with gold := insertBy gpBefore g d.gb.gold } }
  else { d with gb := { d.gb with inq := insertBy gpBefore g d.gb.inq } }

/-- A point's record in its sector buffer (R59). -/
def Point.bytes (p : Point) : List Byte :=
  toLE 4 (wrapN 32 p.x) ++ toLE 4 (wrapN 32 p.y) ++ toLE 4 (wrapN 32 p.z) ++ toLE 8 p.t ++ toLE 1 p.inten ++
    toLE 1 (p.stream % 64 + 64 * p.ret) ++ toLE 2 (p.sector % 2 ^ 14)

/-- Bytes of the sector buffers of the streams below n that are bound (R59). -/
def Dev.bufsBelow (d : Dev) (n : Nat) : Nat :=
  ((List.range n).map (fun m => if fld (d.rdLive (IG_STREAM_BIND m)) 0 1 = 1 then 2 * (d.streamCfg m).bufBytes else 0)).sum

/-- Where the half of a stream's sector buffers that a sector uses begins, from the base of the region: streams in
ascending order, a sector's number modulo 2 naming the half. (DESIGN CHOICE, log entry 104.) -/
def Dev.bufAt (d : Dev) (n sector : Nat) : Nat := d.bufsBelow n + sector % 2 * (d.streamCfg n).bufBytes

/-- A delivered point written to its sector buffer (R59), at its position in the sector. -/
def Dev.bufPoint (d : Dev) (p : Point) : Dev :=
  if d.laid then d.stagingPut (d.region rgBuffers + d.bufAt p.stream p.sector + 24 * p.pos) p.bytes else d

/-- A point delivered: kept if this chip holds it, forwarded to every other chip that does (R392). -/
def Dev.deliver (d : Dev) (pt : Point) : Dev :=
  let hs := d.holders pt.x pt.y
  let me := d.rl.chip
  let d := if d.rl.countM1 = 0 ∨ hs.contains me then (d.queuePoint ⟨d.tm.stroke, pt⟩).bufPoint pt else d
  if d.rl.countM1 = 0 then d
  else (hs.filter (fun j => j != me)).eraseDups.foldl (fun d j => d.linkSend j 2 (.fwdPoint j d.tm.stroke pt)) d

/-- A converted point copied to the raw point tap (R60), and in a configuration to the other chips' taps (R393). -/
def Dev.tapPoint (d : Dev) (x y z : Int) : Dev :=
  let d := { d with si := { d.si with tap := d.si.tap ++ [(d.tm.stroke, x, y, z)] } }
  ((List.range d.chips).filter (fun j => j != d.rl.chip)).foldl (fun d j => d.linkSend j copyClass (.tapCopy j d.tm.stroke x y z)) d

/-! ### Verdicts (R51, R54, R55) -/

/-- Whether a stroke lies in the lead-in (R22): it comes before the first stroke of frame 0, which is the stroke in progress
where FRAME_BOUNDARY is still due at the boundary that opened it. -/
def Dev.leadInAt (d : Dev) (s : Stroke) : Bool :=
  if d.tm.framed then decide (d.tm.frame = 0) && sOlder s d.tm.frameAt
  else !d.tm.frameDue || sOlder s d.tm.stroke

/-- A sector of the stream's sweep fails: its valid returns so far count in RET_INVALID, its verdict waits for the
boundary that closes the stroke. A sector that has failed already is passed over. A sector whose last return fell in
the lead-in is shed, not failed (R22); one of which no return came has none, and its verdict stroke decides
(DESIGN CHOICE, log entry 106). -/
def Dev.failSector (d : Dev) (n k : Nat) (why : FailReason) : Dev :=
  let st := d.strm n
  if st.dead = some k then d
  else
    let os : OpenSec :=
      match st.sec with
      | some o => if o.k = k then o else { k := k }
      | none => { k := k }
    let last := os.ret.getD d.tm.stroke
    let li := d.leadInAt last
    let d := d.bump (IG_STREAM_RET_INVALID n) (if li then 0 else os.cost)
    let v : Verdict := { stream := n, sweep := st.w, sector := k, reason := why, cost := os.cost, near := os.near,
                         last := last, leadIn := li, fwd := os.fwd }
    { d with ig := { d.ig with verd := d.ig.verd ++ [v] } }

/-- Every sector that holds an index from a to b − 1 fails, once each, in the stroke of the packet or of the withdrawal
(R51), those never opened as well. (DEDUCED, log entry 118.) -/
def Dev.failRange (d : Dev) (n secLen a b : Nat) (why : FailReason) : Dev :=
  if a < b ∧ 0 < secLen then
    let k0 := a / secLen
    let d := (List.range ((b - 1) / secLen + 1 - k0)).foldl (fun d m => d.failSector n (k0 + m) why) d
    let st := d.strm n
    d.setStrm n { st with sec := none, dead := if b % secLen = 0 then none else some ((b - 1) / secLen) }
  else d

/-- The valid returns of an index of a packet of stream n, as points with their distances. -/
def pktPoints (n : Nat) (c : StreamCfg) (p : Pkt) (base i : Nat) : List (Point × Nat) :=
  (returnsOf c p i).filterMap (fun r => match r with
    | .ok x y z inten near ret pos =>
      some (({ x := x, y := y, z := z, t := (base + (i - p.first) * p.period) % 2 ^ 64, inten := inten, stream := n,
               sweep := p.seq, sector := i / c.secLen, pos := pos, ret := ret } : Point), near)
    | _ => none)

/-- The valid returns of one index given to its sector (R55): of a sector whose verdict is reached they count as
invalid; otherwise the sector opens, they are delivered, and its last index reaches its verdict (R54). Returns of a sector
shed in the lead-in, which has not failed, count as invalid from frame 0 on alone. (DESIGN CHOICE, log entry 119.) -/
def Dev.acceptIndex (d : Dev) (n : Nat) (c : StreamCfg) (p : Pkt) (base i : Nat) : Dev :=
  let rs := returnsOf c p i
  let st := d.strm n
  let k := i / c.secLen
  let pts := pktPoints n c p base i
  let bad := rs.filter (fun r => decide (r = .invalid))
  let d := (d.bump (IG_STREAM_RET_VALID n) pts.length).bump (IG_STREAM_RET_INVALID n) bad.length
  if st.dead = some k then d.bump (IG_STREAM_RET_INVALID n) (if d.leadInAt d.tm.stroke then 0 else pts.length)
  else
    let os : OpenSec :=
      match st.sec with
      | some o => if o.k = k then o else { k := k }
      | none => { k := k }
    let near := pts.foldl (fun (m : Option Nat) q => some (min (m.getD q.2) q.2)) os.near
    let fwd := if d.rl.countM1 = 0 then []
      else ((os.fwd ++ pts.flatMap (fun q => d.holders q.1.x q.1.y)).filter (fun j => j != d.rl.chip)).eraseDups
    let ret := if rs.any (fun r => decide (r ≠ .empty)) then some d.tm.stroke else os.ret
    let os := { os with cost := os.cost + pts.length, near := near, fwd := fwd, ret := ret }
    let d := pts.foldl (fun d q => d.deliver q.1) d
    if i + 1 = min ((k + 1) * c.secLen) c.indices then
      let v : Verdict := { stream := n, sweep := st.w, sector := k, reason := .none_, cost := os.cost, near := os.near,
                           last := ret.getD d.tm.stroke, leadIn := d.leadInAt (ret.getD d.tm.stroke), fwd := os.fwd }
      let d := { d with ig := { d.ig with verd := d.ig.verd ++ [v] } }
      d.setStrm n { st with sec := none }
    else d.setStrm n { st with sec := some os }

/-- An accepted packet (R51, R52): its indices from `lo` on are taken in order; the copies for the raw point taps (R60)
follow the points that go to other chips, after which they take virtual channel 2 (R393). -/
def Dev.acceptPkt (d : Dev) (n : Nat) (c : StreamCfg) (p : Pkt) (arr lo : Nat) : Dev :=
  let base := if bitOf p.flags 1 ∧ ¬ c.fromArrival then p.ts else arr
  let d := d.bump (IG_STREAM_PKT_OK n)
  let st := d.strm n
  let d := d.setStrm n { st with lastAcc := d.tm.stroke, last := some (BitVec.ofNat 16 p.seq) }
  let hi := p.first + p.count
  let is := (List.range (hi - lo)).map (fun m => lo + m)
  let d := is.foldl (fun d i => d.acceptIndex n c p base i) d
  let d := (is.flatMap (pktPoints n c p base)).foldl (fun d q => d.tapPoint q.1.x q.1.y q.1.z) d
  d.setStrm n { d.strm n with e := max lo hi }

/-- A verified packet of a synchronised stream (R51). -/
def Dev.orderPkt (d : Dev) (n : Nat) (c : StreamCfg) (p : Pkt) (arr : Nat) : Dev :=
  let st := d.strm n
  let d :=
    if newer p.seq st.w.toNat 16 then
      let d := d.failRange n c.secLen st.e c.indices .gap
      d.setStrm n { d.strm n with w := BitVec.ofNat 16 p.seq, e := 0, sec := none, dead := none }
    else d
  let st := d.strm n
  if older p.seq st.w.toNat 16 ∨ p.first < st.e then d.bump (IG_STREAM_PKT_ORDER n)
  else (d.failRange n c.secLen st.e p.first .gap).acceptPkt n c p arr p.first

/-- A verified packet of an unsynchronised stream (R52). -/
def Dev.syncPkt (d : Dev) (n : Nat) (c : StreamCfg) (p : Pkt) (arr : Nat) : Dev :=
  let st := d.strm n
  let stale := match st.last with
    | some l => st.resync && !(newer p.seq l.toNat 16)
    | none => false
  if stale then d.bump (IG_STREAM_PKT_ORDER n)
  else
    let e := if p.first % c.secLen = 0 then p.first else min ((p.first / c.secLen + 1) * c.secLen) c.indices
    let d := d.setStrm n { st with sync := true, resync := false, w := BitVec.ofNat 16 p.seq, e := e, sec := none,
                                   dead := none }
    d.acceptPkt n c p arr e

/-- SECTOR_TIMEOUT (R54): the open sector of a stream fails 16 × TIMEOUT strokes after the last accepted packet. -/
def sectorTimeout (n : Nat) (d : Dev) : Dev :=
  let st := d.strm n
  let due := 16 * d.rf (IG_STREAM_SECTOR n) 24 8
  match st.sec with
  | some o =>
    if d.live ∧ 0 < due ∧ due ≤ sDiff d.tm.stroke st.lastAcc then
      let d := d.failSector n o.k .timeout
      d.setStrm n { d.strm n with sec := none, dead := some o.k }
    else d
  | none => d

/-- A packet that a binding has matched: verified (R49), logged (R229), then taken in order. A packet of a masked
stream is discarded and counted in PKT_ORDER (R44). A timeout that is due comes before the packet (R54). (DEDUCED, log
entry 10.) -/
def Dev.streamPkt (d : Dev) (n source arr : Nat) (bs : List Byte) : Dev :=
  let c := d.streamCfg n
  match verifyPkt c bs with
  | some .fmt => d.bump (IG_STREAM_PKT_FMT n)
  | some .crc => d.bump (IG_STREAM_PKT_CRC n)
  | none =>
    let p := parsePkt bs
    let d := d.logIn { stroke := d.tm.stroke, type := 2, source := source, payload := toLE 8 arr ++ p.bytes }
    if ¬ d.ig.mask.getLsbD n then d.bump (IG_STREAM_PKT_ORDER n)
    else
      let d := sectorTimeout n d
      if (d.strm n).sync then d.orderPkt n c p arr else d.syncPkt n c p arr

/-! ### Binding (R42) -/

/-- Whether the binding of stream n, as it is applied, matches an Ethernet packet. -/
def Dev.ethMatch (d : Dev) (mac : Nat) (src : Nat) (sid n : Nat) : Bool :=
  let b := d.rdLive (IG_STREAM_BIND n)
  let addr := (d.rd (IG_STREAM_SRCMAC_LO n)).toNat + 2 ^ 32 * d.rf (IG_STREAM_SRCMAC_HI n) 0 16
  decide (fld b 0 1 = 1) && decide (fld b 1 1 = 0) && decide (fld b 2 4 = mac) && decide (fld b 8 8 = sid) &&
    (decide (fld b 18 1 = 0) || decide (src = addr))

/-- Whether the binding of stream n matches a CSI-2 packet. -/
def Dev.csiMatch (d : Dev) (rx vc dt sid n : Nat) : Bool :=
  let b := d.rdLive (IG_STREAM_BIND n)
  decide (fld b 0 1 = 1) && decide (fld b 1 1 = 1) && decide (fld b 2 4 = rx) && decide (fld b 6 2 = vc) &&
    decide (0x30 + fld b 19 3 = dt) && decide (fld b 8 8 = sid)

/-- Whether the bindings of all streams agree with their complements (R348). -/
def Dev.bindsHeld (d : Dev) : Bool := (List.range 48).all (fun n => d.pairHeld (IG_STREAM_BIND n))

/-- A stream packet from a port: bound and taken, or counted in the port's UNBOUND (R42). In a replay the ports are
ignored for stream packets (R233). -/
def Dev.portPkt (d : Dev) (unbound source arr : Nat) (bs : List Byte) (hit : Nat → Nat → Bool) : Dev :=
  if d.lg.replaying ∨ ¬ d.live then d
  else if bs.length < 5 then d.bump unbound
  else
    let d := d.useCritical d.bindsHeld
    match (List.range 48).find? (fun n => hit (leAt bs 4 1) n) with
    | some n => d.streamPkt n source arr bs
    | none => d.bump unbound

/-! ### Ethernet frames (R38) -/

/-- A big-endian field of a frame. -/
def beAt (bs : List Byte) (o n : Nat) : Nat := leNat ((bs.drop o).take n).reverse

/-- Where a frame goes: to the time base, to the stream path with its payload, or nowhere. -/
inductive FrameTo where
  | ptp (payload : List Byte)
  | stream (payload : List Byte)
  | drop
  deriving DecidableEq, Repr

/-- A UDP datagram's payload, within its length field, by its port (R38). (DEDUCED, log entry 13.) -/
def udpTo (wanted : Bool) (port : Nat) (dg : List Byte) : FrameTo :=
  let dst := beAt dg 2 2
  let body := (dg.drop 8).take (beAt dg 4 2 - 8)
  if dg.length < 8 then .drop
  else if dst = 319 ∨ dst = 320 then .ptp body
  else if wanted ∧ dst = port then .stream body
  else .drop

/-- The EtherType and what follows it, routed (R38; the header checksum of IPv4 is not checked, DESIGN CHOICE, log entry
138): a configured EtherType or UDP port carries stream packets; 0x88F7
and UDP ports 319 and 320 carry time synchronisation; IPv4 options and fragments and IPv6 extension headers are not
supported. -/
def routeFrame (cfg : Word) (etype : Nat) (body : List Byte) : FrameTo :=
  let udp := decide (fld cfg 2 1 = 1)
  let v6 := decide (fld cfg 3 1 = 1)
  let m := fld cfg 16 16
  if etype = 0x88F7 then .ptp body
  else if ¬ udp ∧ etype = m then .stream body
  else if etype = 0x0800 then
    if beAt body 0 1 ≠ 0x45 ∨ beAt body 6 2 % 2 ^ 14 ≠ 0 ∨ beAt body 9 1 ≠ 17 then .drop
    else udpTo (udp && !v6) m ((body.take (beAt body 2 2)).drop 20)
  else if etype = 0x86DD then
    if beAt body 6 1 ≠ 17 then .drop else udpTo (udp && v6) m (body.drop 40)
  else .drop

/-- A MAC's receive or transmit latency in units of raw time: 1/16 ns is 3/40 array clock (R372); the capture's
resolution is one array clock. -/
def Dev.latency (d : Dev) (mac lo : Nat) : Int := rneDivI (sext 16 (d.rf (TB_MAC_LAT mac) lo 16) * 3) 40

/-- A capture on receive, corrected for the PHY, as raw time (R372). -/
def Dev.rxRaw (d : Dev) (mac raw : Nat) : Nat := ((raw : Int) - d.latency mac 0).toNat

/-! ### Receive buffers (R40) -/

/-- Bytes that a port's receive buffer holds: 256 KiB of a MAC, 128 KiB of a CSI-2 receiver. -/
def bufSize (port : Nat) : Nat := if port < 16 then 0x40000 else 0x20000

/-- Bytes of earlier packets that a port's buffer still holds as a packet arrives, where at most `left` of them remain:
how fast the conversion empties a buffer, the manual does not fix. (DESIGN CHOICE, log entry 107.) -/
def Dev.bufLeft (d : Dev) (port left : Nat) : Nat := min left (smGet (fun _ => 0) d.ig.bufs port)

/-- Whether a packet of n bytes finds no room in its port's buffer. -/
def Dev.bufFull (d : Dev) (port left n : Nat) : Bool := decide (bufSize port < d.bufLeft port left + n)

/-- A port's buffer as a packet of which it takes n bytes has arrived. -/
def Dev.bufKeep (d : Dev) (port left n : Nat) : Dev :=
  { d with ig := { d.ig with bufs := smSet (fun _ => 0) d.ig.bufs port (d.bufLeft port left + n) } }

/-- ETH_FRAME_RX (R38, R40 to R42): a frame from destination address to payload, without its FCS, whose check came out
as `fcsOk`; `left` bytes of earlier frames are still in the MAC's receive buffer; `raw` is the raw time of its capture.
(DEDUCED, log entry 11.) -/
def ethFrame (mac : Nat) (frame : List Byte) (fcsOk : Bool) (left raw : Nat) (d : Dev) : Dev :=
  if d.bufFull mac left (frame.length + 4) then (d.bufKeep mac left 0).bump (IG_MAC_BUF_DROP mac)
  else
    let d := d.bufKeep mac left (frame.length + 4)
    if ¬ fcsOk then d.bump (IG_MAC_FCS_ERR mac)
  else if frame.length + 4 > 9216 ∨ frame.length < 14 then d.bump (IG_MAC_UNBOUND mac)
  else
    let cfg := d.rd (IG_MAC_CFG mac)
    let t1 := beAt frame 12 2
    let tagged := decide (t1 = 0x8100)
    let etype := if tagged then beAt frame 16 2 else t1
    let body := if tagged then frame.drop 18 else frame.drop 14
    if (tagged ∧ fld cfg 4 1 = 0) ∨ (tagged ∧ (etype = 0x8100 ∨ etype = 0x88A8)) then d.bump (IG_MAC_UNBOUND mac)
    else
      match routeFrame cfg etype body with
      | .ptp b =>
        let r := d.rxRaw mac raw
        { d with tm := { d.tm with rxq := d.tm.rxq ++ [(mac, b, r, fdiv (d.corrected r) (2 ^ 16))] } }
      | .stream b =>
        d.portPkt (IG_MAC_UNBOUND mac) (2 * mac) (d.nsAt (d.rxRaw mac raw)) b (d.ethMatch mac (beAt frame 6 6))
      | .drop => d.bump (IG_MAC_UNBOUND mac)

/-- CSI2_PACKET_RX (R39, R40, R42): a packet of a virtual channel and data type; short packets (data types below 0x10)
are ignored, the generic ones too (DESIGN CHOICE, log entry 139); a header that could not be corrected or a bad CRC-16 is counted in UNBOUND. -/
def csiPacket (rx vc dt : Nat) (payload : List Byte) (hdrOk crcOk : Bool) (left raw : Nat) (d : Dev) : Dev :=
  if d.bufFull (16 + rx) left (payload.length + 6) then (d.bufKeep (16 + rx) left 0).bump (IG_CSI_BUF_DROP rx)
  else
    let d := d.bufKeep (16 + rx) left (payload.length + 6)
    if ¬ hdrOk then d.bump (IG_CSI_UNBOUND rx)
    else if dt < 0x10 then d
    else if ¬ crcOk then d.bump (IG_CSI_UNBOUND rx)
    else d.portPkt (IG_CSI_UNBOUND rx) (1 + 2 * rx + 32 * vc) (d.nsAt raw) payload (d.csiMatch rx vc dt)

/-- The stream mask of the registers. -/
def Dev.maskReg (d : Dev) : BitVec 48 :=
  BitVec.ofNat 48 ((d.rd IG_STREAM_MASK_LO).toNat + 2 ^ 32 * d.rf IG_STREAM_MASK_HI 0 16)

/-- STREAM_WITHDRAW at a boundary (R44, R52): a stream whose bit has been cleared fails its undecided sectors with
reason MASKED in the stroke that opens, and becomes unsynchronised. -/
def Dev.applyMask (d : Dev) : Dev :=
  let new := d.maskReg
  let d := (List.range 48).foldl (fun d n =>
    if d.ig.mask.getLsbD n ∧ ¬ new.getLsbD n then
      let c := d.streamCfg n
      let st := d.strm n
      let d := if st.sync then d.failRange n c.secLen st.e c.indices .masked else d
      d.setStrm n { d.strm n with sync := false, resync := true, sec := none, dead := none }
    else d) d
  { d with ig := { d.ig with mask := new } }

/-- IG_STREAMnn_STAT (R65). Of an unsynchronised stream, which has no w and e (R52), it shows the last ones.
(DESIGN CHOICE, log entry 120.) -/
def Dev.streamStat (d : Dev) (n : Nat) : Word :=
  let st := d.strm n
  let state := if ¬ d.ig.mask.getLsbD n then 2 else if ¬ st.sync then 3 else if st.sec.isSome then 1 else 0
  BitVec.ofNat 32 (st.w.toNat + 2 ^ 16 * (st.e % 2 ^ 14) + 2 ^ 30 * state)

/-! ### The shed decision (R61, R62) -/

/-- The band of a sector (R61): the comparison with a threshold in units of 0.5 m is exact in units of 2^-12 m. -/
def Dev.bandOf (d : Dev) (near : Option Nat) : Nat :=
  match near with
  | none => 3
  | some r =>
    if r < d.rf IG_BAND_CFG 0 10 * 2048 then 0
    else if r < d.rf IG_BAND_CFG 10 10 * 2048 then 1
    else if r < d.rf IG_BAND_CFG 20 10 * 2048 then 2
    else 3

/-- The effective priority (R61). -/
def Dev.prioOf (d : Dev) (v : Verdict) : Nat :=
  min 15 (d.rf (IG_STREAM_SECTOR v.stream) 14 4 + d.rf IG_BAND_BONUS (4 * d.bandOf v.near) 4)

/-- The frame to which a sector belongs by the stroke of its last return (R23): the frame in progress, or the one before it
while that one is live. (DEDUCED, log entry 59.) -/
def Dev.frameOf (d : Dev) (last : Stroke) : BitVec 32 :=
  if d.gb.prevLive ∧ sOlder last d.tm.frameAt then d.tm.frame - 1 else d.tm.frame

/-- The shed limit of a priority in a frame, by the derate level of that frame (R467). -/
def Dev.shedLimit (d : Dev) (f : BitVec 32) (p : Nat) : Nat :=
  (d.rd (IG_SHED_LIMIT p)).toNat * (16 - (if f = d.tm.frame then d.ig.derate else d.ig.deratePrev)) / 16

/-- `used` of a frame (R62). -/
def Dev.usedOf (d : Dev) (f : BitVec 32) : Nat := if f = d.tm.frame then d.ig.used else d.ig.usedPrev

/-- The cost of an accepted sector added to its frame's `used`. -/
def Dev.addUsed (d : Dev) (f : BitVec 32) (n : Nat) : Dev :=
  if f = d.tm.frame then { d with ig := { d.ig with used := d.ig.used + n } }
  else { d with ig := { d.ig with usedPrev := d.ig.usedPrev + n } }

/-- Whether a verdict comes before another of the same stroke (R55). -/
def verdBefore (a b : Verdict) : Bool :=
  if a.stream ≠ b.stream then decide (a.stream < b.stream)
  else if a.sweep ≠ b.sweep then older a.sweep.toNat b.sweep.toNat 16
  else decide (a.sector < b.sector)

/-- What becomes of a verdict (R55, R62, R22, R333): 0 fail, 1 shed, 2 accept. Nothing is costed in the lead-in, and
during a restart every passing sector is shed. -/
def Dev.verdictWhat (d : Dev) (v : Verdict) (p : Nat) : Nat :=
  if v.leadIn then 1
  else if v.reason ≠ .none_ then 0
  else if d.flt.restarting then 1
  else if d.usedOf (d.frameOf v.last) + v.cost ≤ d.shedLimit (d.frameOf v.last) p then 2
  else 1

/-- The counts of a verdict's frame: the frame in progress or the previous one. -/
def Dev.cntOf (d : Dev) (f : BitVec 32) : FrameCnt := if f = d.tm.frame then d.gb.cur else d.gb.prev

/-- The counts of a frame replaced. -/
def Dev.setCnt (d : Dev) (f : BitVec 32) (c : FrameCnt) : Dev :=
  if f = d.tm.frame then { d with gb := { d.gb with cur := c } }
  else if f = d.tm.frame - 1 then { d with gb := { d.gb with prev := c } } else d

/-- One verdict decided and handed to the grid builder; its SECTOR message, and in a configuration its verdict sent to
the chips that hold points of it (R392). A failed sector belongs to the frame of its verdict (R55), any other to that of its
last return; one of the lead-in enters no frame's counts (R22). -/
def Dev.applyVerdict (d : Dev) (v : Verdict) : Dev :=
  let p := d.prioOf v
  let w := d.verdictWhat v p
  let fr := if w = 0 then d.tm.frame else d.frameOf v.last
  let d :=
    if w = 0 then d.bump (IG_STREAM_SECT_FAIL v.stream)
    else if w = 2 then
      (d.bump (IG_STREAM_SECT_ACCEPT v.stream)).addUsed fr v.cost
    else (d.bump (IG_STREAM_SECT_SHED v.stream)).bump (IG_STREAM_RET_SHED v.stream) v.cost
  let c := d.cntOf fr
  let c := if v.leadIn then c
    else if w = 0 then { c with fail := c.fail + 1 }
    else if w = 1 then { c with shed := c.shed + 1 } else c
  let id : SecId := ⟨v.stream, v.sweep, v.sector⟩
  let g : GVerd := { id := id, what := w, prio := p, cost := v.cost, v := d.tm.stroke, last := v.last, frame := fr,
                     leadIn := v.leadIn }
  let d := d.setCnt fr c
  let d := { d with gb := { d.gb with vq := d.gb.vq ++ [g] } }
  let ev := if w = 2 then SecEv.accept else if w = 1 then .shed else .fail
  let d := d.sectEv ev id fr 0 v.last d.tm.stroke
  v.fwd.foldl (fun d j => d.linkSend j 2 (.fwdVerdict j g)) d

/-- A forwarded part's verdict that counts as reached now (R392): handed to the grid builder as the home chip gave it. -/
def Dev.applyForward (d : Dev) (g : GVerd) : Dev :=
  { d with gb := { d.gb with vq := d.gb.vq ++ [g] }
           rl := { d.rl with parts := d.rl.parts.filter (fun p => decide (p.id ≠ g.id)) } }

/-- The verdicts of the stroke that closes, the chip's own and those of forwarded parts together in the order of R55. -/
def Dev.closeVerdicts (d : Dev) : Dev :=
  let own := d.ig.verd.map (fun v => (v, (none : Option GVerd)))
  let (now, later) := d.rl.verds.partition (fun g => decide (g.v = d.tm.stroke))
  let fwd := now.map (fun g =>
    (({ stream := g.id.stream, sweep := g.id.sweep, sector := g.id.sector, reason := .none_, last := g.last } : Verdict),
     some g))
  let vs := sortBy (fun (a b : Verdict × Option GVerd) => verdBefore a.1 b.1) (own ++ fwd)
  let d := { d with ig := { d.ig with verd := [] }, rl := { d.rl with verds := later } }
  vs.foldl (fun d v => match v.2 with
    | some g => d.applyForward g
    | none => d.applyVerdict v.1) d

end Sys2Proof.Machine
end

