-- ==== Sys2Proof/Machine/Grid.lean ====
section
/-! DEFINITION. The grid builder (03_sparse_grid): voxels and keys (R69, R70), the hash and its placement (R71 to R75),
speculation, commit and rollback (R77 to R82), records (R85 to R87), coverage (R90), retirement and its scrub (R91),
neighbour lists (R95 to R97). -/

namespace Sys2Proof.Machine

/-! ### Errors of the commons (R164, R167, R351) -/

/-- Whether a commons offset lies in the memory of the grid builder: the hash, the stash, the golden table and stash (first
answer); the sector buffers and key lists (second answer). -/
def Dev.cmnGrid (d : Dev) (off : Nat) : Bool × Bool :=
  if off < 0x2000000 then (true, false)
  else if off < 0x6000000 ∨ d.laid = false then (false, false)
  else
    let within (b n : Nat) : Bool := decide (0x6000000 + b ≤ off) && decide (off < 0x6000000 + b + n)
    let buf := d.bufsBelow 48
    (within (d.region rgStash) 0x10000 || within (d.region rgGoldTab) 0x80000 || within (d.region rgGoldStash) 0x1000,
     within (d.region rgBuffers) buf || within (d.region rgKeys) (buf / 3))

/-- The unit that a report of a commons offset names (R360). -/
def Dev.cmnUnit (d : Dev) (off : Nat) : Nat := unitOf (if (d.cmnGrid off).1 || (d.cmnGrid off).2 then 1 else 7) 0

/-- The source of an uncorrectable error at a commons offset (R351). The manual names none for staging that is neither the
stash nor a sector buffer or key list: it is taken as the planes' is. (DESIGN CHOICE, log entry 130.) -/
def Dev.cmnSource (d : Dev) (off : Nat) : Nat :=
  let g := d.cmnGrid off
  if g.1 then 0x21 else if g.2 then 0x19
  else if off < 0x6000000 then 0x21
  else
    let gold := 0x6000000 + 64 * d.rf CM_GOLD_CFG 0 20
    if gold ≤ off ∧ off < gold + 65536 then 0x21 else 0x14

/-- Commons words corrected in one access (R164). -/
def Dev.cmnFixed (d : Dev) (off n : Nat) : Dev :=
  loopN (fun _ d => d.report { src := 0x03, unit := d.cmnUnit off, addr := 2 ^ 31 + off }) n (d.bump WP_CMN_CORR n)

/-- An uncorrectable word of the commons (R164, R167): counted and reported with its address; in staging it is rewritten as
zero. -/
def Dev.cmnLost (d : Dev) (off : Nat) : Dev :=
  let off := off / 8 * 8
  let d := (d.bump WP_CMN_UNCORR).report { src := d.cmnSource off, unit := d.cmnUnit off, addr := 2 ^ 31 + off }
  if off < 0x6000000 then d else d.stagingPut (off - 0x6000000) (zeros 8)

/-- A network transfer of a commons word whose CRC fails (R347, R351): 0x19 for sector buffers and key lists. (DEDUCED for
other words, which are taken as the transfers of crew work, log entry 131.) -/
def Dev.cmnNoc (d : Dev) (off : Nat) : Dev :=
  (d.bump FLT_NOC_CRC).report (if (d.cmnGrid off).2 then { src := 0x19, unit := unitOf 1 0, addr := 2 ^ 31 + off }
    else { src := 0x15, unit := unitOf 4 0 })

/-- Whether an error leaves a block without the word. -/
def wordLost (e : CmnErr) : Bool := e.unc || e.noc

/-- The errors that a block of the device meets in the commons (R164, R347). -/
def Dev.commonsErrs (d : Dev) (es : List CmnErr) : Dev :=
  es.foldl (fun d e => if e.noc then d.cmnNoc e.off else if e.unc then d.cmnLost e.off else d.cmnFixed e.off 1) d

/-- An operation of the grid builder or the level merger, with the errors that stand in what it reads (R84, R164, R167): one
that meets an uncorrectable error does not complete, and its item waits, as those of later operations of the stroke do,
until the fault controller has answered the report. (DEDUCED, log entry 131.) -/
def Dev.gridAccess (d : Dev) (f : Dev → Dev) : Dev :=
  if d.gb.stuck then d
  else
    let es := d.gb.upset
    let lost := es.any wordLost
    let e := ({ d with gb := { d.gb with upset := [], stuck := lost } } : Dev).commonsErrs es
    if lost then e else f e

/-! ### Voxel index and Morton key -/

/-- The signed 21-bit ROI bound of an axis (R69, R100). -/
def Dev.roi (d : Dev) (a : Nat) : Int := sext 21 (d.rf a 0 21)

/-- One axis of `voxelise` (R69): index and sub-voxel offset, or none where the point is out of range. -/
def Dev.voxAxis (d : Dev) (q : Int) (vox lo hi : Nat) : Option (Int × Nat) :=
  let mul : Int := d.rf vox 0 8
  let den : Int := ((2 ^ d.rf vox 8 4 : Nat) : Int)
  let i := fdiv (q * mul) den
  let dd := (fdiv (q * mul * 64) den % 64).toNat
  if i < -(2 ^ 20) ∨ i > 2 ^ 20 - 1 ∨ i < d.roi lo ∨ i > d.roi hi then none else some (i, dd)

/-- Bits of a 21-bit number spread three apart (R70). -/
def spread3 : Nat → Nat → Nat
  | 0, _ => 0
  | n + 1, u => u % 2 + 8 * spread3 n (u / 2)

/-- `morton` of R70 on biased indices. -/
def morton (ux uy uz : Nat) : Nat := spread3 21 ux + 2 * spread3 21 uy + 4 * spread3 21 uz

/-- Every third bit of a key collected. -/
def gather3 : Nat → Nat → Nat
  | 0, _ => 0
  | n + 1, k => k % 2 + 2 * gather3 n (k / 8)

/-- The signed indices that a key stands for. -/
def unMorton (k : Nat) : Int × Int × Int :=
  ((gather3 21 k : Int) - 2 ^ 20, (gather3 21 (k / 2) : Int) - 2 ^ 20, (gather3 21 (k / 4) : Int) - 2 ^ 20)

/-- The key of signed indices within [−2^20, 2^20 − 1]. -/
def keyOf (x y z : Int) : Nat := morton (x + 2 ^ 20).toNat (y + 2 ^ 20).toNat (z + 2 ^ 20).toNat

/-- `voxelise` of R69: key and sub-voxel offsets. -/
def Dev.voxelise (d : Dev) (p : Point) : Option (Nat × (Nat × Nat × Nat)) :=
  match d.voxAxis p.x GB_VOX_X GB_ROI_X_LO GB_ROI_X_HI, d.voxAxis p.y GB_VOX_Y GB_ROI_Y_LO GB_ROI_Y_HI,
        d.voxAxis p.z GB_VOX_Z GB_ROI_Z_LO GB_ROI_Z_HI with
  | some (x, dx), some (y, dy), some (z, dz) => some (keyOf x y z, (dx, dy, dz))
  | _, _, _ => none

/-! ### The spatial hash (R71 to R75) -/

/-- What a table is made of: b, stash entries, salts, and the tags of frames not retired. The golden table has b 14
and 256 stash entries (R93). -/
structure HashCfg where
  b : Nat
  stash : Nat
  salt0 : Nat
  salt1 : Nat
  tags : List Nat
  deriving DecidableEq, Repr

/-- The frame tags in use: the frame in progress, and the previous one until it retires (R74, R91). -/
def Dev.tags (d : Dev) : List Nat :=
  let f := d.tm.frame.toNat
  if d.gb.prevLive then [f % 4, (f + 3) % 4] else [f % 4]

/-- The scene's hash. -/
def Dev.hashCfg (d : Dev) : HashCfg :=
  let salt (lo hi : Nat) := (d.rd lo).toNat + 2 ^ 32 * d.rf hi 0 31
  { b := d.rf GB_HASH_CFG 0 5, stash := 4096, salt0 := salt GB_SALT0_LO GB_SALT0_HI,
    salt1 := salt GB_SALT1_LO GB_SALT1_HI, tags := d.tags }

/-- The golden table (R93): the chapter's rules on frames and retirement apply to it. (DEDUCED, log entry 108.) -/
def Dev.goldCfg (d : Dev) : HashCfg := { d.hashCfg with b := 14, stash := 256 }

/-- `h(f, k)` of R72. -/
def HashCfg.h (c : HashCfg) (f k : Nat) : Nat :=
  if f = 0 then ((k ^^^ c.salt0) * 0x5A3C96E12F47B8D3) % 2 ^ 63 else ((k ^^^ c.salt1) * 0x3B761C9DE48A5F27) % 2 ^ 63

/-- `bucket(f, k)` of R72. -/
def HashCfg.bucket (c : HashCfg) (f k : Nat) : Nat := c.h f k >>> (63 - c.b)

/-- No entry. -/
def noEnt : Nat → Option HEnt := fun _ => none

/-- The entry at a handle. -/
def entAt (t : SMap (Option HEnt)) (h : Nat) : Option HEnt := smGet noEnt t h

/-- An entry stored. -/
def entSet (t : SMap (Option HEnt)) (h : Nat) (e : Option HEnt) : SMap (Option HEnt) := smSet noEnt t h e

/-- Whether an entry is FREE (R74): unused, or LIVE of a retired frame. -/
def HashCfg.free (c : HashCfg) (e : Option HEnt) : Bool :=
  match e with
  | none => true
  | some x => !x.used || (x.live && !(c.tags.contains x.ftag))

/-- Whether an entry is PENDING (R74). -/
def entPending (e : Option HEnt) : Bool :=
  match e with
  | some x => x.used && !x.live
  | none => false

/-- An entry set to FREE (R81, R82, R91): USED := 0; the rest is left. -/
def HEnt.release (x : HEnt) : HEnt := { x with used := false }

/-- Counts of a placement (R102). -/
structure PlaceStat where
  swaps : Nat := 0
  stash : Nat := 0
  fail : Nat := 0
  deriving DecidableEq, Repr

/-- The handles of a key's two buckets, in the order of `place`. -/
def HashCfg.slots (c : HashCfg) (k : Nat) : List (Nat × Nat) :=
  [0, 1].flatMap (fun f => [0, 1, 2, 3].map (fun w => (f, 4 * c.bucket f k + w)))

/-- `victim(c, d)` of R75. `pinned` are targets of a commit, which no placement of it moves (R81 step 3). -/
def HashCfg.victim (c : HashCfg) (t : SMap (Option HEnt)) (pinned path : List Nat) (k dd : Nat) : Option Nat :=
  let cand := [c.bucket (dd % 2) k, c.bucket ((dd + 1) % 2) k].flatMap
    (fun bk => [0, 1, 2, 3].map (fun n => 4 * bk + (dd + n) % 4))
  cand.find? (fun h =>
    match entAt t h with
    | some x => x.used && !x.live && decide (c.bucket 0 x.key ≠ c.bucket 1 x.key) && !(path.contains h) && !(pinned.contains h)
    | none => false)

/-- The lowest-numbered free stash entry. -/
def HashCfg.freeStash (c : HashCfg) (t : SMap (Option HEnt)) : Option Nat :=
  (((List.range c.stash).map (fun s => 4 * 2 ^ c.b + s)).find? (fun h => c.free (entAt t h)))

/-- The function number under which an entry lies at a handle: that of the bucket that holds it. -/
def HashCfg.fnAt (c : HashCfg) (k h : Nat) : Nat := if c.bucket 0 k = h / 4 then 0 else 1

/-- `place` of R75 from step d on: `cur` is the entry in hand, `path` the positions swapped so far, newest first. It
gives the table, the last position of the chain where one was found, and the counts. -/
def HashCfg.placeLoop (c : HashCfg) (pinned : List Nat) :
    Nat → Nat → HEnt → List Nat → SMap (Option HEnt) → PlaceStat → SMap (Option HEnt) × Option (List Nat × Nat) × PlaceStat
  | 0, _, _, _, t, st => (t, none, st)
  | n + 1, dd, cur, path, t, st =>
    match (c.slots cur.key).find? (fun s => c.free (entAt t s.2)) with
    | some (f, h) => (entSet t h (some { cur with fn := f }), some (path, h), st)
    | none =>
      let v := if dd = 16 then none else c.victim t pinned path cur.key dd
      match v with
      | some h =>
        match entAt t h with
        | some x =>
          c.placeLoop pinned n (dd + 1) x (h :: path) (entSet t h (some { cur with fn := c.fnAt cur.key h }))
            { st with swaps := st.swaps + 1 }
        | none => (t, none, st)
      | none =>
        match c.freeStash t with
        | some h => (entSet t h (some { cur with fn := 0 }), some (path, h), { st with stash := st.stash + 1 })
        | none => (t, none, { st with swaps := 2 * st.swaps, fail := 1 })

/-- `place(k)` of R75: the handle at which the entry lies afterwards, or none with the table as it was found. -/
def HashCfg.place (c : HashCfg) (pinned : List Nat) (e : HEnt) (t : SMap (Option HEnt)) :
    SMap (Option HEnt) × Option Nat × PlaceStat :=
  match c.placeLoop pinned 17 0 e [] t {} with
  | (t', some (path, h), st) => (t', some (path.getLast?.getD h), st)
  | (_, none, st) => (t, none, st)

/-- The positions at which a key may lie: its two buckets and the stash. -/
def HashCfg.findKey (c : HashCfg) (t : SMap (Option HEnt)) (k : Nat) (p : HEnt → Bool) : Option Nat :=
  let hit (h : Nat) := match entAt t h with
    | some x => x.used && decide (x.key = k) && p x
    | none => false
  match (c.slots k).find? (fun s => hit s.2) with
  | some s => some s.2
  | none =>
    (t.find? (fun q => decide (4 * 2 ^ c.b ≤ q.1) && hit q.1)).map (fun q => q.1)

/-- The PENDING entry of a key (at most one, R74). -/
def HashCfg.pendingOf (c : HashCfg) (t : SMap (Option HEnt)) (k : Nat) : Option Nat := c.findKey t k (fun x => !x.live)

/-- The LIVE entry of a key in a frame (at most one, R74). -/
def HashCfg.liveOf (c : HashCfg) (t : SMap (Option HEnt)) (k tag : Nat) : Option Nat :=
  if c.tags.contains tag then c.findKey t k (fun x => x.live && decide (x.ftag = tag)) else none

/-- A placement's counts added to the counters (R102). -/
def Dev.countPlace (d : Dev) (gold : Bool) (st : PlaceStat) : Dev :=
  if gold then d.bump GB_GOLD_PLACE_FAIL st.fail
  else ((d.bump GB_DISPLACE st.swaps).bump GB_STASH_PUT st.stash).bump GB_PLACE_FAIL st.fail

/-! ### Speculation (R77 to R79) -/

/-- The table of a sector: the scene's or the golden one (R93). -/
def Dev.tabOf (d : Dev) (gold : Bool) : SMap (Option HEnt) := if gold then d.gb.gtab else d.gb.tab

/-- A table replaced. -/
def Dev.setTab (d : Dev) (gold : Bool) (t : SMap (Option HEnt)) : Dev :=
  if gold then { d with gb := { d.gb with gtab := t } } else { d with gb := { d.gb with tab := t } }

/-- The hash configuration of a sector. -/
def Dev.cfgFor (d : Dev) (gold : Bool) : HashCfg := if gold then d.goldCfg else d.hashCfg

/-- An undecided sector's entry, or a new one. -/
def Dev.gsec (d : Dev) (id : SecId) : GSec := (d.gb.secs.find? (fun s => decide (s.id = id))).getD { id := id }

/-- An undecided sector replaced. -/
def Dev.setGsec (d : Dev) (s : GSec) : Dev :=
  { d with gb := { d.gb with secs := s :: d.gb.secs.filter (fun x => decide (x.id ≠ s.id)) } }

/-- A key put into a list in ascending order. -/
def insKey (k : Nat) (l : List Nat) : List Nat := insertBy (fun a b => decide (a < b)) k l

/-- How a hold ends: taken, refused because PEND stands at 1,023, or without a place (R78, R79). -/
inductive HoldEnd where
  | taken | refused | full
  deriving DecidableEq, Repr

/-- A hold of key k (R78): a PENDING entry's PEND rises, or a placement creates one. A hold beyond 1,023 is source 0x23:
PEND stays, and the point holds nothing. (DESIGN CHOICE, log entry 109.) FTAG of a new entry is 0. (DESIGN CHOICE, log entry
140.) -/
def Dev.hold (d : Dev) (gold : Bool) (k : Nat) : Dev × HoldEnd :=
  let c := d.cfgFor gold
  let t := d.tabOf gold
  match c.pendingOf t k with
  | some h =>
    match entAt t h with
    | some x =>
      if x.pend ≥ 1023 then (d.report { src := 0x23, unit := unitOf 1 0 }, .refused)
      else (d.setTab gold (entSet t h (some { x with pend := x.pend + 1 })), .taken)
    | none => (d, .taken)
  | none =>
    let (t', r, st) := c.place [] { key := k, fn := 0, ftag := 0, live := false, pend := 1 } t
    ((d.setTab gold t').countPlace gold st, if r.isSome then .taken else .full)

/-- One point inserted speculatively (R69, R78, R79). -/
def Dev.insertPoint (d : Dev) (g : GPoint) : Dev :=
  let p := g.pt
  let gold := decide (p.stream = goldStream)
  let id : SecId := ⟨p.stream, BitVec.ofNat 16 p.sweep, p.sector⟩
  match d.voxelise p with
  | none => if gold then d else d.bump GB_PT_RANGE
  | some (k, sub) =>
    let s := d.gsec id
    let s := { s with offered := s.offered + 1 }
    if s.gone then d
    else if s.doomed ∨ s.late then (d.setGsec s).bump GB_PT_DOOMED (b2n (!gold))
    else if s.keys.contains k then d.setGsec { s with pts := s.pts ++ [(k, sub, p)] }
    else
      let (d, e) := d.hold gold k
      match e with
      | .taken => d.setGsec { s with keys := insKey k s.keys, pts := s.pts ++ [(k, sub, p)] }
      | .refused => d.setGsec s
      | .full => (d.setGsec { s with doomed := true }).bump GB_PT_DOOMED (b2n (!gold))

/-- The verdicts of the golden sector, or of the scene, that wait for their operation, in the order of R77. -/
def Dev.vqOf (d : Dev) (gold : Bool) : List GVerd := d.gb.vq.filter (fun v => decide (v.id.stream = goldStream) == gold)

/-- The points of the golden sector, or of the scene, that wait, in the order of R77. -/
def Dev.inqOf (d : Dev) (gold : Bool) : List GPoint := if gold then d.gb.gold else d.gb.inq

/-- The next point of the scene, or of the golden sector, where it can be inserted now: received in an earlier stroke,
one of at most 64 in a stroke (R76; of the golden sector, of its reserved capacity, log entry 110), ahead of no verdict
operation of an earlier stroke. -/
def Dev.nextPoint (d : Dev) (gold : Bool) : Option (GPoint × Dev) :=
  match d.inqOf gold with
  | [] => none
  | g :: r =>
    let after : Bool := match d.vqOf gold with
      | [] => true
      | v :: _ => sLe g.r v.v
    if (if gold then d.gb.goldTaken else d.gb.taken) < 64 ∧ sOlder g.r d.tm.stroke ∧ after then
      some (g, if gold then { d with gb := { d.gb with gold := r, goldTaken := d.gb.goldTaken + 1 } }
        else { d with gb := { d.gb with inq := r, taken := d.gb.taken + 1 } })
    else none

/-- SPECULATIVE_INSERT (R76 to R79): the next point in the order of R77; the golden sector's have a capacity of their own
(R31, R32), which a backlog of the scene does not take. A restoration stroke holds the crews alone (R352). -/
def specInsert (d : Dev) : Dev :=
  if d.accel then
    d.gridAccess (fun d => match (d.nextPoint false).or (d.nextPoint true) with
      | some (g, d) => d.insertPoint g
      | none => d)
  else d

/-! ### Records (R85 to R87) -/

/-- SLOTS (R85, R100). -/
def Dev.slotsN (d : Dev) : Nat :=
  match d.rf GB_HASH_CFG 5 3 with
  | 0 => 0 | 1 => 1 | 2 => 2 | 3 => 4 | _ => 8

/-- Where the record of a handle lies: its BAR2 address in the tile plane of core h mod 32 (R85). -/
def Dev.recAddr (d : Dev) (gold : Bool) (h : Nat) : Nat :=
  let base := if gold then d.rf GB_GOLD_CFG 0 18 else d.rf GB_STORE_CFG 0 18
  h % 32 * 0x800000 + 32 * base + h / 32 * (32 + 8 * d.slotsN)

/-- A record written in its tile plane, as any other unscheduled write (R159, R222). -/
def Dev.recWrite (d : Dev) (gold : Bool) (h : Nat) (bs : List Byte) : Dev :=
  d.unschedWrite (h % 32) false (d.recAddr gold h % 0x800000) bs

/-- A new record (R85). -/
def newRec (key slots : Nat) : List Byte :=
  toLE 8 (key + 2 ^ 63) ++ zeros 21 ++ toLE 1 63 ++ zeros 2 ++ zeros (8 * slots)

/-- `tq(t, f)` of R86. -/
def tqOf (t tf : Nat) : Nat :=
  (min (262143 : Int) (max 0 ((t / 1024 : Int) - ((tf / 1024 : Int) - 65536)))).toNat

/-- The slot word of a point (R86). -/
def slotWord (tq : Nat) (p : Point) (sub : Nat × Nat × Nat) : Nat :=
  sub.1 + 2 ^ 6 * sub.2.1 + 2 ^ 12 * sub.2.2 + 2 ^ 18 * p.inten + 2 ^ 26 * (16383 - p.pos) +
    2 ^ 40 * (63 - p.stream) + 2 ^ 46 * tq

/-- A word put into the slots, largest first, when it is among the largest; the flag says that a word was not kept. -/
def slotPut (slots w : Nat) (ws : List Nat) : List Nat × Bool :=
  let l := insertBy (fun a b => decide (a > b)) w ws
  (l.take slots, decide (l.length > slots))

/-- `n` little-endian words of 8 bytes. -/
def words8 (bs : List Byte) : Nat → List Nat
  | 0 => []
  | n + 1 => leAt bs 0 8 :: words8 (bs.drop 8) n

/-- A point merged into a record's bytes (R87); the flag counts SLOT_DROP. -/
def mergePoint (slots tq : Nat) (p : Point) (sub : Nat × Nat × Nat) (r : List Byte) : List Byte × Bool :=
  let sat (m x : Nat) := min m x
  let ns := leAt r 31 1
  let (ws, dropped) := slotPut slots (slotWord tq p sub) (words8 (r.drop 32) ns)
  (r.take 8 ++ toLE 2 (sat 65535 (leAt r 8 2 + 1)) ++ toLE 2 (leAt r 10 2 ||| 2 ^ (p.sweep % 16)) ++
    toLE 4 (max (leAt r 12 4) tq) ++ toLE 3 (sat 16777215 (leAt r 16 3 + sub.1)) ++
    toLE 3 (sat 16777215 (leAt r 19 3 + sub.2.1)) ++ toLE 3 (sat 16777215 (leAt r 22 3 + sub.2.2)) ++
    toLE 3 (sat 16777215 (leAt r 25 3 + p.inten)) ++ toLE 1 (max (leAt r 28 1) p.inten) ++
    toLE 1 (min (leAt r 29 1) sub.2.2) ++ toLE 1 (max (leAt r 30 1) sub.2.2) ++ toLE 1 ws.length ++
    ws.flatMap (toLE 8) ++ zeros (8 * (slots - ws.length)), dropped)

/-! ### Site sets (R95) -/

/-- A commit's new sites appended to a site set as a run, newest first: while the two most recent runs hold the same number of
commits, they are merged into one. -/
def runPush (x : SiteRun) : List SiteRun → List SiteRun
  | [] => [x]
  | y :: r =>
    if x.commits = y.commits then
      runPush { commits := x.commits + y.commits, items := sortBy (fun a b => decide (a.1 < b.1)) (y.items ++ x.items) } r
    else x :: y :: r

/-- A site set with the sites that a commit has created, which are in ascending key order. -/
def runAdd (items : List (Nat × Nat)) (rs : List SiteRun) : List SiteRun :=
  if items.isEmpty then rs else runPush { items := items } rs

/-- The handle of a key in a site set. -/
def runFind (rs : List SiteRun) (k : Nat) : Option Nat :=
  rs.findSome? (fun r => (r.items.find? (fun q => decide (q.1 = k))).map (fun q => q.2))

/-- Sites of a site set. -/
def runCount (rs : List SiteRun) : Nat := (rs.map (fun r => r.items.length)).sum

/-! ### Neighbour lists (R94 to R97) -/

/-- The offsets of a 3 × 3 × 3 mask in ascending bit order (R94). -/
def nbrOffsets (mask : Nat) : List (Int × Int × Int) :=
  ((List.range 27).filter (fun n => bitOf mask n)).map
    (fun n => (((n % 3 : Nat) : Int) - 1, ((n / 3 % 3 : Nat) : Int) - 1, ((n / 9 : Nat) : Int) - 1))

/-- One neighbour word (R96): VALID, OUTSIDE and the handle, or 0. -/
def nbrWord (set : List SiteRun) (own : List Nat) (k : Nat) (o : Int × Int × Int) : Nat :=
  let (x, y, z) := unMorton k
  let (x, y, z) := (x + o.1, y + o.2.1, z + o.2.2)
  let ok (i : Int) := decide (-(2 ^ 20) ≤ i) && decide (i ≤ 2 ^ 20 - 1)
  if ok x && ok y && ok z then
    let nk := keyOf x y z
    match runFind set nk with
    | none => 0
    | some h => h % 2 ^ 23 + 2 ^ 23 * b2n (!(own.contains nk)) + 2 ^ 31
  else 0

/-- A work list's words (R96). -/
def workList (sites : List Site) : List Nat := sites.map (fun x => x.handle % 2 ^ 23 + 2 ^ 23 * b2n x.new)

/-- A neighbour list's words, entry by entry in offset order (R96, R97). -/
def nbrList (set : List SiteRun) (offs : List (Int × Int × Int)) (sites : List Site) : List Nat :=
  let own := sites.map (fun x => x.key)
  sites.flatMap (fun x => offs.map (fun o => nbrWord set own x.key o))

/-! ### Verdict operations (R80 to R82) -/

/-- The release of one hold (R82): PEND falls by one, and the entry is FREE at 0. -/
def Dev.unhold (d : Dev) (gold : Bool) (k : Nat) : Dev :=
  let t := d.tabOf gold
  match (d.cfgFor gold).pendingOf t k with
  | some h =>
    match entAt t h with
    | some x =>
      let y := { x with pend := x.pend - 1 }
      d.setTab gold (entSet t h (some (if x.pend ≤ 1 then y.release else y)))
    | none => d
  | none => d

/-- The site set of a frame, of the scene or of the golden sector. -/
def Dev.siteSet (d : Dev) (gold cur : Bool) : List SiteRun :=
  if gold then (if cur then d.gb.siteGold else d.gb.siteGoldPrev) else if cur then d.gb.siteCur else d.gb.sitePrev

/-- A site set replaced. -/
def Dev.setSiteSet (d : Dev) (gold cur : Bool) (rs : List SiteRun) : Dev :=
  let gb := d.gb
  { d with gb :=
    if gold then (if cur then { gb with siteGold := rs } else { gb with siteGoldPrev := rs })
    else if cur then { gb with siteCur := rs } else { gb with sitePrev := rs } }

/-- The entries that step 3 of R81 reserved set to FREE again; those taken over by their PENDING entry stay. -/
def freeReserved (t : SMap (Option HEnt)) (acc : List (Nat × Nat × Bool)) : SMap (Option HEnt) :=
  acc.foldl (fun t x => if x.2.2 then t else entSet t x.2.1 ((entAt t x.2.1).map HEnt.release)) t

/-- The targets of R81 step 3: a key's PENDING entry where its PEND is 1, else a placed entry. Where a placement fails, the
reserved entries are freed; what displacements moved stays (R82). -/
def commitTargets (c : HashCfg) (tag : Nat) :
    List Nat → SMap (Option HEnt) → List (Nat × Nat × Bool) → PlaceStat →
      SMap (Option HEnt) × Option (List (Nat × Nat × Bool)) × PlaceStat
  | [], t, acc, st => (t, some acc.reverse, st)
  | k :: r, t, acc, st =>
    let pinned := acc.map (fun x => x.2.1)
    let own := match c.pendingOf t k with
      | some h => (match entAt t h with | some x => if x.pend = 1 then some h else none | none => none)
      | none => none
    match own with
    | some h => commitTargets c tag r t ((k, h, true) :: acc) st
    | none =>
      let (t', h, s) := c.place pinned { key := k, fn := 0, ftag := tag, live := true, pend := 0 } t
      let st := { st with swaps := st.swaps + s.swaps, stash := st.stash + s.stash, fail := st.fail + s.fail }
      match h with
      | some h => commitTargets c tag r t' ((k, h, false) :: acc) st
      | none => (freeReserved t acc, none, st)

/-- A sector dropped for capacity (R89): counted, rolled back; the island learns of it. -/
def Dev.dropSector (d : Dev) (v : GVerd) (s : GSec) : Dev :=
  let gold := decide (v.id.stream = goldStream)
  let d := s.keys.foldl (fun d k => d.unhold gold k) d
  if gold then d
  else
    let d := (d.bump GB_SECT_DROP).bump GB_RET_DROP v.cost
    let c := d.cntOf v.frame
    let d := d.setCnt v.frame { c with drop := c.drop + 1 }
    d.sectEv .drop v.id v.frame 0 v.last v.v

/-- Steps 1 to 3 of R81 give targets or a drop; steps 4 to 6 carry the commit out. The limit of the golden sector takes its
stash in (DESIGN CHOICE, log entry 141). -/
def Dev.commitSector (d : Dev) (v : GVerd) (s : GSec) : Dev :=
  let gold := decide (v.id.stream = goldStream)
  let cur := decide (v.frame = d.tm.frame)
  let c := d.cfgFor gold
  let tag := v.frame.toNat % 4
  let t := d.tabOf gold
  let cnt := d.cntOf v.frame
  let newKeys := s.keys.filter (fun k => (c.liveOf t k tag).isNone)
  let limit := if gold then 4 * 2 ^ c.b + c.stash else d.rf (GB_FILL_LIMIT v.prio) 0 23
  let nf := if gold then runCount (d.siteSet true cur) else cnt.sites
  if nf + newKeys.length > limit then d.dropSector v s
  else
    match commitTargets c tag newKeys t [] {} with
    | (t', none, st) => ((d.setTab gold t').countPlace gold st).dropSector v s
    | (t', some targets, st) =>
      let d := (d.setTab gold t').countPlace gold st
      let d := targets.foldl (fun d x =>
        d.setTab gold (entSet (d.tabOf gold) x.2.1
          (some { key := x.1, fn := (match entAt (d.tabOf gold) x.2.1 with | some e => e.fn | none => 0), ftag := tag,
                  live := true, pend := 0 }))) d
      let d := (s.keys.filter (fun k => !(targets.any (fun x => decide (x.1 = k) && x.2.2)))).foldl
        (fun d k => d.unhold gold k) d
      let slots := d.slotsN
      let d := targets.foldl (fun d x => d.recWrite gold x.2.1 (newRec x.1 slots)) d
      let t := d.tabOf gold
      let sites := s.keys.filterMap (fun k =>
        (c.liveOf t k tag).map (fun h => ({ key := k, handle := h, new := newKeys.contains k } : Site)))
      let hOf (k : Nat) := ((sites.find? (fun x => decide (x.key = k))).map (fun x => x.handle)).getD 0
      let tf := if cur then d.tm.tf else d.tm.tfPrev
      let d := s.pts.foldl (fun d q =>
        let h := hOf q.1
        let (old, _, d) := d.planeGet (h % 32) false (d.recAddr gold h % 0x800000) (32 + 8 * slots)
        let (r, dropped) := mergePoint slots (tqOf q.2.2.t tf) q.2.2 q.2.1 old
        let d := d.recWrite gold (hOf q.1) r
        d.bump GB_SLOT_DROP (b2n (dropped && !gold))) d
      let created := (sites.filter (fun x => x.new)).map (fun x => (x.key, x.handle))
      let set := runAdd created (d.siteSet gold cur)
      let d := d.setSiteSet gold cur set
      let cm : Commit := { id := v.id, frame := v.frame, ord := cnt.ord, v := v.v, sites := sites, cost := v.cost,
                           prio := v.prio, last := v.last,
                           merged := s.pts.length, nbr := nbrList set (nbrOffsets (d.rf GB_NBR_MASK 0 27)) sites }
      let d := { d with gb := { d.gb with commits := d.gb.commits ++ [cm] } }
      if gold then d
      else
        let d := d.bump GB_SECT_COMMIT
        let d := d.setCnt v.frame { cnt with sites := cnt.sites + newKeys.length, merged := cnt.merged + s.pts.length,
                                             ord := cnt.ord + 1 }
        d.sectEv .commit v.id v.frame cnt.ord v.last v.v

/-- An accepted sector with no held keys (R80): its commit only counts. It has no work set, and so no ordinal and no header;
its COMMIT, and with nothing to run its BACKBONE_DONE, tell the island that its stages are over (R326).
(DEDUCED, log entry 111.) -/
def Dev.commitEmpty (d : Dev) (v : GVerd) : Dev :=
  if v.id.stream = goldStream then d
  else
    let c := d.cntOf v.frame
    let d := (d.bump GB_SECT_COMMIT).sectEv .commit v.id v.frame c.ord v.last v.v
    let d := d.sectEv .backboneDone v.id v.frame c.ord v.last v.v
    { d with gb := { d.gb with empties := d.gb.empties ++ [v] } }

/-- A verdict operation carried out (R80). OFFERED takes the sector's returns that passed R69 (R90); a sector of the
lead-in enters no counts (R22). -/
def Dev.runVerdict (d : Dev) (v : GVerd) : Dev :=
  let gold := decide (v.id.stream = goldStream)
  let s := d.gsec v.id
  let d := { d with gb := { d.gb with secs := d.gb.secs.filter (fun x => decide (x.id ≠ v.id)) } }
  if s.gone then d else
  let c := d.cntOf v.frame
  let d := if gold ∨ v.leadIn then d else d.setCnt v.frame { c with offered := c.offered + s.offered }
  if s.late then
    let d := s.keys.foldl (fun d k => d.unhold gold k) d
    let c := d.cntOf v.frame
    ((d.bump RL_FWD_LATE).bump GB_SECT_DROP).setCnt v.frame { c with drop := c.drop + 1 }
  else if v.what ≠ 2 then
    let d := s.keys.foldl (fun d k => d.unhold gold k) d
    d.bump GB_SECT_ROLLBACK (b2n (!gold))
  else if s.doomed then d.dropSector v s
  else if s.keys.isEmpty then d.commitEmpty v
  else d.commitSector v s

/-- The next verdict of the scene, or of the golden sector, once every point of it received up to its stroke has been
inserted. -/
def Dev.nextVerdict (d : Dev) (gold : Bool) : Option GVerd :=
  match d.vqOf gold with
  | [] => none
  | v :: _ =>
    let ready : Bool := match d.inqOf gold with
      | [] => true
      | g :: _ => sOlder v.v g.r
    if ready ∧ sOlder v.v d.tm.stroke then some v else none

/-- Whether the planes can be written by the grid builder and the level merger: in a restoration stroke once the journals
have been restored, which would undo what was written before. (DEDUCED, log entry 149.) -/
def Dev.planesFree (d : Dev) : Bool := !d.flt.rolling || d.flt.restored

/-- VERDICT_OPERATION (R77, R80): the next verdict operation; the golden sector's does not wait for the scene's points
(R32). -/
def verdictOperation (d : Dev) : Dev :=
  if d.accel ∧ d.planesFree then
    d.gridAccess (fun d => match (d.nextVerdict false).or (d.nextVerdict true) with
      | some v => ({ d with gb := { d.gb with vq := d.gb.vq.erase v } } : Dev).runVerdict v
      | none => d)
  else d

/-! ### Frames sharing the table (R90, R91) -/

/-- Stash entries in use (R101): those that are not FREE. -/
def Dev.stashFill (d : Dev) : Nat :=
  let c := d.hashCfg
  (d.gb.tab.filter (fun q => decide (4 * 2 ^ c.b ≤ q.1) && !(c.free q.2))).length

/-- The status registers of R101, as they stand after the stroke just ended. -/
def Dev.gridStatus (d : Dev) : Dev :=
  let fill := d.stashFill
  let pend := (d.gb.tab.filter (fun q => entPending q.2)).length
  let d := d.hwN GB_SITES d.gb.cur.sites
  let d := d.hwN GB_SITES_PREV (if d.gb.prevLive then d.gb.prev.sites else 0)
  let d := d.hwN GB_STASH_FILL fill
  let d := d.hwN GB_PEND_FILL pend
  let d := d.hwN GB_COV_OFFERED d.gb.cur.offered
  let d := d.hwN GB_COV_MERGED d.gb.cur.merged
  let d := if d.gb.prevLive then (d.hwN GB_COV_LAST_OFFERED d.gb.prev.offered).hwN GB_COV_LAST_MERGED d.gb.prev.merged
    else d
  d.hwN GB_FRAME_STAT (d.tm.frame.toNat % 4 + 4 * b2n d.gb.prevLive)

/-- Strokes from a frame's first stroke to the retirement of the frame before (R91). -/
def Dev.retireDelay (d : Dev) : Nat := 320 + if d.rl.countM1 = 0 then 0 else d.rf RL_CFG 4 4

/-- FRAME_RETIRE (R77 step 1, R91): at its boundary the previous frame's LIVE entries are FREE, its site set is no
longer valid, its counts are final, and the scrub starts. Work of the frame that is still outstanding is left to the
window watchdogs (R92). -/
def frameRetire (d : Dev) : Dev :=
  if d.tm.retireDue then
    let f := d.tm.frame - 1
    let d := (d.hwN GB_COV_LAST_OFFERED d.gb.prev.offered).hwN GB_COV_LAST_MERGED d.gb.prev.merged
    let d := { d with
      gb := { d.gb with prevLive := false, sitePrev := [], siteGoldPrev := [], scrub := some (f.toNat % 4, 0) }
      tm := { d.tm with retireDue := false } }
    let d := (d.hwN GB_SITES_PREV 0).hwN GB_STASH_FILL d.stashFill
    d.hwN GB_FRAME_STAT (d.tm.frame.toNat % 4)
  else d

/-- The scrub's visit of the handles from `lo` to `hi` − 1 of a table: USED := 0 in entries still LIVE with a tag. -/
def scrubTab (tag lo hi : Nat) (t : SMap (Option HEnt)) : SMap (Option HEnt) :=
  t.map (fun q => match q.2 with
    | some e =>
      if lo ≤ q.1 ∧ q.1 < hi ∧ e.used ∧ e.live ∧ e.ftag = tag then (q.1, some e.release) else q
    | none => q)

/-- HASH_SCRUB_STEP (R91): the scrub visits `n` more handles of the table and the stash in ascending order, at least
1,024 in a stroke, and clears USED in entries that are still LIVE with the retired tag. It passes over the golden table
beside them (R93, log entry 108). -/
def hashScrub (n : Nat) (d : Dev) : Dev :=
  if ¬ d.accel then d
  else
  match d.gb.scrub with
  | none => d
  | some (tag, at_) =>
    let last := 4 * 2 ^ d.rf GB_HASH_CFG 0 5 + 4096
    let stop := min last (at_ + max n 1024)
    let gstop := if stop = last then 2 ^ 17 else stop
    d.gridAccess (fun d =>
      { d with gb := { d.gb with
        scrub := if stop = last then none else some (tag, stop)
        tab := scrubTab tag at_ stop d.gb.tab, gtab := scrubTab tag at_ gstop d.gb.gtab } })

/-- The sector of a point. -/
def GPoint.sec (g : GPoint) : SecId := ⟨g.pt.stream, BitVec.ofNat 16 g.pt.sweep, g.pt.sector⟩

/-- The sectors without a verdict that intake holds open, and the forwarded parts whose verdict operation is still to come
(R54, R392). -/
def Dev.openSectors (d : Dev) : List SecId :=
  d.ig.streams.filterMap (fun p => p.2.sec.map (fun o => ⟨p.1, p.2.w, o.k⟩)) ++
    d.rl.parts.map (fun p => p.id) ++ d.rl.verds.map (fun v => v.id)

/-- R84: every sector whose verdict operation has not completed, whether its points have been inserted or wait, or none of
them lies in range, is treated as shed: rolled back and counted; the island gets SECTOR CANCEL. Of a sector that is still
open, later points and the verdict change nothing. The golden sector is left out, and OFFERED does not take the returns of
the sectors shed. (DESIGN CHOICE, log entry 142.) -/
def Dev.shedUndecided (d : Dev) : Dev :=
  let decided := (d.vqOf false).map (fun v => v.id)
  let held := (d.gb.secs.filter (fun s => decide (s.id.stream ≠ goldStream))).map (fun s => s.id)
  let ids := (held ++ decided ++ d.gb.inq.map GPoint.sec ++ d.openSectors).eraseDups
  let d := (ids.filter (fun i => !(d.gsec i).gone)).foldl (fun d i =>
    let d := (d.gsec i).keys.foldl (fun d k => d.unhold false k) d
    let d := d.setGsec { id := i, gone := true }
    (d.bump GB_SECT_ROLLBACK).sectEv .cancel i d.tm.frame 0 d.tm.stroke d.tm.stroke) d
  { d with gb := { d.gb with
    vq := d.vqOf true
    inq := []
    secs := d.gb.secs.filter (fun s => !(decided.contains s.id)) } }

/-- The bytes of a hash entry in the table (R73): REM, FN, FTAG, LIVE, PEND and USED. (DESIGN CHOICE, log entry 92.) -/
def entBits (c : HashCfg) (e : Option HEnt) : Nat :=
  match e with
  | none => 0
  | some x =>
    c.h x.fn x.key % 2 ^ 49 + 2 ^ 49 * x.fn + 2 ^ 50 * x.ftag + 2 ^ 52 * b2n x.live + 2 ^ 53 * x.pend + 2 ^ 63 * b2n x.used

/-- The 16 bytes of a stash entry (R73) as one number: the key in full and USED; FTAG, LIVE and PEND. -/
def stashBits (e : Option HEnt) : Nat :=
  match e with
  | none => 0
  | some x =>
    x.key + 2 ^ 63 * b2n x.used + 2 ^ 64 * (2 ^ 50 * x.ftag + 2 ^ 52 * b2n x.live + 2 ^ 53 * x.pend)

end Sys2Proof.Machine
end

