-- ==== Sys2Proof/Machine/Tables.lean ====
section
/-! DEFINITION. The embedding tables (09_embedding_tables): rows and versions (R237 to R243), the row protocol (R244),
the switch (R245 to R248), update operations (R249 to R251), adaptation (R252 to R255). -/

namespace Sys2Proof.Machine

/-! ### Geometry (R237, R257) -/

/-- ROWS of a table. -/
def Dev.tRows (d : Dev) (t : Nat) : Nat := d.rf (ET_TABLE_CFG t) 0 24 + 1
/-- ROW_SIZE of a table. -/
def Dev.tSize (d : Dev) (t : Nat) : Nat := 16 * (d.rf (ET_TABLE_CFG t) 24 4 + 1)
/-- Row-by-row mode. -/
def Dev.tByRow (d : Dev) (t : Nat) : Bool := decide (d.rf (ET_TABLE_CFG t) 28 1 = 1)
/-- ADAPT. -/
def Dev.tAdapt (d : Dev) (t : Nat) : Bool := decide (d.rf (ET_TABLE_CFG t) 29 1 = 1)
/-- EN. -/
def Dev.tEn (d : Dev) (t : Nat) : Bool := decide (d.rf (ET_TABLE_CFG t) 30 1 = 1)
/-- VERSION in force. -/
def Dev.tVer (d : Dev) (t : Nat) : Word := d.rdLive (ET_TABLE_VER t)

/-- Where a row lies: in the copy of a version, or in its slot (R238). -/
def Dev.rowAt (d : Dev) (t : Nat) (ver : Word) (i : Nat) : Nat :=
  if d.tByRow t then d.rf (ET_TABLE_COPY0 t) 0 16 * 65536 + i * ((32 + 2 * d.tSize t + 63) / 64 * 64)
  else if ver.toNat % 2 = 0 then d.rf (ET_TABLE_COPY0 t) 0 16 * 65536 + i * d.tSize t
  else d.rf (ET_TABLE_COPY1 t) 0 16 * 65536 + i * d.tSize t

/-- The default row (R239). -/
def Dev.defaultRow (d : Dev) (t : Nat) : List Byte :=
  ((List.range 64).flatMap (fun j => toLE 4 (d.rd (ET_DEFAULT t j)).toNat)).take (d.tSize t)

/-- The base pointer from which `rowAt` forms a row's address. -/
def Dev.rowBase (d : Dev) (t : Nat) (ver : Word) : Nat :=
  if d.tByRow t ∨ ver.toNat % 2 = 0 then ET_TABLE_COPY0 t else ET_TABLE_COPY1 t

/-- Whether that pointer agrees with its complement (R348, R349). -/
def Dev.baseHeld (d : Dev) (t : Nat) (ver : Word) : Bool := d.agrees (d.rowBase t ver) (d.rd (d.rowBase t ver))

/-- An access of the engine to `n` bytes of a row from byte `off` on: the base pointer is used (R349), the store asked. -/
def Dev.rowReq (d : Dev) (cls : Nat) (write : Bool) (t : Nat) (ver : Word) (i off n : Nat) : Dev :=
  (d.useCritical (d.baseHeld t ver)).storeReq cls write (d.rowAt t ver i + off) n

/-- Whether the bytes of a row are bad (R239, R427): a burst of them cannot be corrected. -/
def Dev.rowBad (d : Dev) (t : Nat) (ver : Word) (i : Nat) : Bool :=
  decide (i < d.tRows t) && d.xs.badIn (d.rowAt t ver i) (if d.tByRow t then 32 + 2 * d.tSize t else d.tSize t)

/-- A row whose read failed (R239, R351): the default row replaces it, and the report names its address. Where no burst of
the channel has shown the error, it is counted here (R427). -/
def Dev.rowUnc (d : Dev) (t : Nat) (ver : Word) (i : Nat) : Dev :=
  let a := d.rowAt t ver i
  let d := if d.rowBad t ver i then d else d.bump (XS_UNCORR (xsChannel a))
  d.report { src := 0x1A, unit := unitOf 2 t, addr := a }

/-- Whether the versions and the requested versions of all tables agree with their complements (R348). -/
def Dev.versionsHeld (d : Dev) : Bool :=
  (List.range 64).all (fun t => d.pairHeld (ET_TABLE_VER t) && d.pairHeld (ET_TABLE_COMMIT t))

/-- Whether an operation of a table with an effect stroke is live and not complete (`pending` of R243). -/
def Dev.opPending (d : Dev) (t : Nat) (e : Nat) : Bool :=
  d.et.ops.any (fun o => decide (o.table = t) && decide (o.effect.toNat = e) && !o.complete)

/-- Whether a read of a row meets a slot whose SEQ is odd (R243): every read of it fails the test of the headers. The
engine's own writes leave SEQ even (a row's write is one step); a BAR2 write can leave it odd. -/
def Dev.rowTorn (d : Dev) (t : Nat) (ver : Word) (i : Nat) (bad : Bool) : Bool :=
  d.tByRow t && decide (i < d.tRows t) && !bad && bitOf (memNat d.xs.mem (d.rowAt t ver i) 1) 0

/-- A row returned and counted (R258): with a torn slot nine reads fail, and SHADOW is returned. (DEDUCED, log entry 112.) -/
def Dev.countRead (d : Dev) (t : Nat) (dflt torn : Bool) : Dev :=
  (((d.bump (ET_LOOKUPS t)).bump (ET_DEFAULTS t) (b2n dflt)).bump (ET_RETRIES t) (9 * b2n torn)).bump (ET_SHADOW_READS t)
    (b2n torn)

/-- `row_for_lookup` of R243 for a versioned table under the latched version, or for a row-by-row table at its issue
stroke; the flags: a default row; a shadow. `bad` marks a read with an uncorrectable store error (R239). -/
def Dev.rowFor (d : Dev) (t : Nat) (ver : Word) (issue : Stroke) (i : Nat) (bad : Bool) : List Byte × Bool × Bool :=
  let n := d.tSize t
  if i = 0xFFFFFFFF ∨ i ≥ d.tRows t ∨ bad then (d.defaultRow t, true, false)
  else
    let a := d.rowAt t ver i
    if ¬ d.tByRow t then (memRead d.xs.mem a n, false, false)
    else
      let eff := memNat d.xs.mem (a + 4) 6
      let settled := bitOf (memNat d.xs.mem (a + 10) 1) 0
      if d.rowTorn t ver i bad then (memRead d.xs.mem (a + 32 + n) n, false, true)
      else if settled then (memRead d.xs.mem (a + 32) n, false, false)
      else if older issue.toNat eff 48 ∨ d.opPending t eff then (memRead d.xs.mem (a + 32 + n) n, false, true)
      else (memRead d.xs.mem (a + 32) n, false, false)

/-! ### The row protocol (R244, R250) -/

/-- SEQ after the second and the fourth step of R244: the next odd value, then the next even value. -/
def seqNext (old : Nat) : Nat := (old + old % 2 + 2) % 2 ^ 32

/-- The bytes of a slot after the four steps of R244. -/
def slotWrite (size : Nat) (old data : List Byte) (effect : Stroke) : List Byte :=
  toLE 4 (seqNext (leAt old 0 4)) ++ toLE 6 effect.toNat ++ zeros 6 ++ old.take 16 ++ data.take size ++
    (old.drop 32).take size

/-- The bytes of a slot after a restore (R250): EFFECT, RFLAGS and DATA from the shadow, SEQ through its odd and even
steps. (DEDUCED, log entry 15.) -/
def slotRestore (size : Nat) (old : List Byte) : List Byte :=
  toLE 4 (seqNext (leAt old 0 4)) ++ (old.drop 20).take 12 ++ (old.drop 16).take 16 ++
    (old.drop (32 + size)).take size ++ (old.drop (32 + size)).take size

/-- An element of the operations replaced at a position. -/
def Dev.setOp (d : Dev) (i : Nat) (o : UpdOp) : Dev := { d with et := { d.et with ops := setAt d.et.ops i o } }

/-- Whether an aborted operation of a table has written a row and not restored it yet (R250). -/
def Dev.unrestored (d : Dev) (t row : Nat) : Bool :=
  d.et.ops.any (fun o => o.aborted && decide (o.table = t) && o.done.contains row)

/-- Operations that are aborted with nothing to restore are no longer live (R249). -/
def Dev.dropRestored (d : Dev) : Dev :=
  { d with et := { d.et with ops := d.et.ops.filter (fun o => !(o.aborted && o.done.isEmpty)) } }

/-- ROW_WRITE (R244): the next row of the oldest operation that has one to write, once the row's previous write has
taken effect. -/
def rowWrite (d : Dev) : Dev :=
  match d.et.ops.findIdx? (fun o => !o.aborted && !o.complete && !o.todo.isEmpty) with
  | none => d
  | some i =>
    match d.et.ops[i]? with
    | none => d
    | some o =>
      match o.todo with
      | [] => d
      | (row, data) :: rest =>
        let a := d.rowAt o.table 0 row
        let n := d.tSize o.table
        let old := memRead d.xs.mem a (32 + 2 * n)
        let settled := bitOf (leAt old 10 1) 0
        let eff : Stroke := BitVec.ofNat 48 (leAt old 4 6)
        let d := d.rowReq 4 false o.table 0 row 0 (32 + 2 * n)
        if ¬ d.unrestored o.table row ∧ (settled ∨ sLe eff d.tm.stroke) then
          let d := d.rowReq 4 true o.table 0 row 0 (32 + 2 * n)
          let d := { d with xs := d.xs.put a (slotWrite n old data o.effect) }
          d.setOp i { o with todo := rest, done := o.done ++ [row] }
        else d

/-- ROW_RESTORE (R250): the next written row of an aborted operation is restored from its shadow; an operation with none
left is no longer live. -/
def rowRestore (d : Dev) : Dev :=
  match d.et.ops.findIdx? (fun o => o.aborted) with
  | none => d
  | some i =>
    match d.et.ops[i]? with
    | none => d
    | some o =>
      match o.done with
      | [] => { d with et := { d.et with ops := d.et.ops.eraseIdx i } }
      | row :: rest =>
        let a := d.rowAt o.table 0 row
        let n := d.tSize o.table
        let old := memRead d.xs.mem a (32 + 2 * n)
        let d := (d.rowReq 4 false o.table 0 row 0 (32 + 2 * n)).rowReq 4 true o.table 0 row 0 (32 + 2 * n)
        let d := { d with xs := d.xs.put a (slotRestore n old) }
        if rest.isEmpty then { d with et := { d.et with ops := d.et.ops.eraseIdx i } }
        else d.setOp i { o with done := rest }

/-- The slot after one in the sweep's order: row-by-row tables in ascending number, slots in ascending row. -/
def Dev.sweepNext (d : Dev) (p : Nat × Nat) : Nat × Nat :=
  if d.tEn p.1 ∧ d.tByRow p.1 ∧ p.2 + 1 < d.tRows p.1 then (p.1, p.2 + 1) else ((p.1 + 1) % 64, 0)

/-- One visit of the SETTLED sweep (R244). -/
def Dev.sweepOne (d : Dev) : Dev :=
  let (t, i) := d.et.sweep
  let d := { d with et := { d.et with sweep := d.sweepNext d.et.sweep } }
  if d.tEn t ∧ d.tByRow t then
    let a := d.rowAt t 0 i
    let eff := memNat d.xs.mem (a + 4) 6
    let fl := memNat d.xs.mem (a + 10) 1
    let d := d.rowReq 4 false t 0 i 0 32
    if ¬ bitOf fl 0 ∧ subMod d.tm.stroke.toNat eff 48 ≥ 2 ^ 20 ∧ older eff d.tm.stroke.toNat 48 ∧
        ¬ d.et.ops.any (fun o => decide (o.table = t) && decide (o.effect.toNat = eff)) then
      let d := d.rowReq 4 true t 0 i 10 1
      { d with xs := { d.xs with mem := memSet d.xs.mem (a + 10) (BitVec.ofNat 8 (fl + 1)) } }
    else d
  else d

/-- SETTLED_SWEEP (R244): the sweep goes on over `n` places, at least one. -/
def settledSweep (n : Nat) (d : Dev) : Dev := loopN (fun _ d => d.sweepOne) (max n 1) d

/-! ### Update operations (R249 to R251) -/

/-- The effect stroke of an operation accepted now (R249). -/
def Dev.effectOf (d : Dev) (t : Nat) : Stroke :=
  let e := sAdd d.tm.stroke (d.rf ET_CFG 0 8)
  match smGet (fun _ => none) d.et.effPrev t with
  | none => e
  | some p => if sLe e p then sAdd p 1 else e

/-- A live operation added, with the table's EFFECT and STATUS (R257). -/
def Dev.addOp (d : Dev) (o : UpdOp) : Dev :=
  let d := { d with et := { d.et with
    ops := d.et.ops ++ [o]
    opStat := smSet (fun _ => 0) d.et.opStat o.table 1
    effPrev := smSet (fun _ => none) d.et.effPrev o.table (some o.effect) } }
  (d.hwN (ET_TABLE_EFFECT_LO o.table) (o.effect.toNat % 2 ^ 32)).hwN (ET_TABLE_EFFECT_HI o.table)
    (o.effect.toNat / 2 ^ 32)

/-- The completion STATUS of an update record (R412), in the order: operational state, replay, CRC, definition, KIND,
INDEX, ADAPT, OLD_BUSY, BUSY. (DESIGN CHOICE, log entry 14.) -/
def Dev.updStatus (d : Dev) (bs : List Byte) : Nat :=
  let t := leAt bs 0 1 % 64
  let kind := leAt bs 1 1
  let n := d.tSize t
  let body := (bs.take 12) ++ zeros 4 ++ (bs.drop 16).take n
  if ¬ d.live then 9
  else if d.lg.replaying then 8
  else if crc32c body ≠ leAt bs 12 4 then 1
  else if ¬ d.tEn t then 4
  else if kind ≠ (if d.tByRow t then 2 else 1) then 2
  else if leAt bs 4 4 ≥ d.tRows t then 3
  else if d.tAdapt t then 5
  else if ¬ d.tByRow t ∧ smGet (fun _ => false) d.et.oldBusy t then 6
  else if d.tByRow t ∧ d.et.ops.length ≥ 16 then 7
  else 0

/-- A row taken into a table (R249, R251): into the inactive copy at once, or as an update operation. -/
def Dev.takeRow (d : Dev) (t i : Nat) (row : List Byte) : Dev :=
  if d.tByRow t then d.addOp { table := t, todo := [(i, row)], effect := d.effectOf t }
  else
    let a := d.rowAt t (d.tVer t + 1) i
    let d := d.rowReq 4 true t (d.tVer t + 1) i 0 row.length
    { d with xs := d.xs.put a row }

/-! ### At a boundary -/

/-- A table's operations made ABORTED (R247, R250); LAST_ABORT says whether anything was aborted. -/
def Dev.abortTable (d : Dev) (t : Nat) : Dev :=
  let hadCommit := d.et.commits.any (fun c => decide (c.1 = t))
  let liveOps := d.et.ops.filter (fun o => decide (o.table = t) && !o.complete && !o.aborted)
  let hit := hadCommit || !liveOps.isEmpty
  let n := liveOps.length + b2n hadCommit
  let d := d.bump (ET_OPS_ABORTED t) n
  let step := liveOps.any (fun o => o.adapt)
  Dev.dropRestored { d with et := { d.et with
    adapt := if step then d.et.adapt.map (fun a => { a with cut := true }) else d.et.adapt
    commits := d.et.commits.filter (fun c => decide (c.1 ≠ t))
    ops := d.et.ops.map (fun o => if o.table = t ∧ ¬ o.complete then { o with aborted := true, todo := [] } else o)
    opStat := if hit then smSet (fun _ => 0) d.et.opStat t 3 else d.et.opStat
    lastAb := smSet (fun _ => 0) d.et.lastAb t (if hit then 1 else 2) } }

/-- An operation of a table counted as ABORTED, and its STATUS.OP (R257, R258). -/
def Dev.opAborted (d : Dev) (t : Nat) : Dev :=
  let d := d.bump (ET_OPS_ABORTED t)
  { d with et := { d.et with opStat := smSet (fun _ => 0) d.et.opStat t 3 } }

/-- The adaptation step made ABORTED (R254); its written rows are to be restored. -/
def Dev.abortAdapt (d : Dev) : Dev :=
  let d := d.et.ops.foldl (fun d o => if o.adapt ∧ ¬ o.complete ∧ ¬ o.aborted then d.opAborted o.table else d) d
  Dev.dropRestored { d with et := { d.et with
    adapt := none
    adStat := 4
    ops := d.et.ops.map (fun o => if o.adapt ∧ ¬ o.complete then { o with aborted := true, todo := [] } else o) } }

/-- Whether an adaptation step is live (R249, R252): until the boundary after its effect or, aborted, until its rows are
restored. -/
def Dev.adaptLive (d : Dev) : Bool := d.et.adapt.isSome || d.et.ops.any (fun o => o.adapt)

/-- The ABORTs accepted in the stroke that closes (R247, R250, R254), before any operation completes. -/
def Dev.tableAborts (d : Dev) : Dev :=
  let as_ := d.et.aborts
  let d := { d with et := { d.et with aborts := [] } }
  let d := as_.foldl (fun d t => d.abortTable t) d
  if d.et.adAbort then
    let d := { d with et := { d.et with adAbort := false } }
    let live := match d.et.adapt with
      | some _ => true
      | none => d.et.ops.any (fun o => o.adapt && !o.complete && !o.aborted)
    if live then
      let d := d.abortAdapt
      { d with et := { d.et with adLastAb := 1 } }
    else { d with et := { d.et with adLastAb := 2 } }
  else d

/-- A version set by the engine, with its complement. -/
def Dev.setVer (d : Dev) (t : Nat) (v : Word) : Dev := d.hwPair (ET_TABLE_VER t) v

/-- ROW_LATE (R250, R258, R360), once for each table whose operation was aborted for lateness. -/
def Dev.rowLate (d : Dev) (ts : List Nat) : Dev :=
  ts.foldl (fun d t => ((d.hwOr ET_FAULT 2).report { src := 0x1B, unit := unitOf 2 t }).bump ET_ROW_LATE_CTR) d

/-- ROW_OP_EFFECT (R250): at its effect stroke an operation is COMPLETE if all its rows are written, else ABORTED with
ROW_LATE; an operation that completed at an earlier boundary is no longer live. -/
def Dev.rowEffects (d : Dev) (s : Stroke) : Dev :=
  let keep := d.et.ops.filter (fun o => !o.complete)
  let d := { d with et := { d.et with ops := keep } }
  Dev.dropRestored <| (List.range keep.length).foldl (fun d i =>
    match d.et.ops[i]? with
    | none => d
    | some o =>
      if o.effect ≠ s ∨ o.aborted then d
      else if o.todo.isEmpty then
        let d := (d.setOp i { o with complete := true }).bump (ET_OPS_COMPLETE o.table)
        let d := d.setVer o.table (d.tVer o.table + 1)
        let d := { d with et := { d.et with opStat := smSet (fun _ => 0) d.et.opStat o.table 2 } }
        if o.adapt then d.bump ET_MERGE_ROWS o.done.length else d
      else
        let d := (d.setOp i { o with aborted := true, todo := [] }).opAborted o.table
        let d := if o.adapt then { d with et := { d.et with adapt := d.et.adapt.map (fun a => { a with cut := true }) } } else d
        d.rowLate [o.table]) d

/-- Whether a read issued under another version of a table is outstanding (R246). -/
def Dev.oldReads (d : Dev) (t : Nat) : Bool :=
  d.et.lookups.any (fun l => decide (l.table = t) && decide (l.ver ≠ d.tVer t)) ||
    (decide (d.rf CM_PRIOR_CFG 0 6 = t) &&
      ((match d.cm.roll with | some r => decide (r.ver ≠ d.tVer t) | none => false) ||
       (match d.cm.reload with
        | some r => (match r.flight with | some f => decide (f.2.1 ≠ d.tVer t) | none => false)
        | none => false)))

/-- OLD_BUSY cleared where no read under the previous version is outstanding (R246). -/
def Dev.clearOldBusy (d : Dev) : Dev :=
  (List.range 64).foldl (fun d t =>
    if smGet (fun _ => false) d.et.oldBusy t ∧ ¬ d.oldReads t then
      { d with et := { d.et with oldBusy := smSet (fun _ => false) d.et.oldBusy t false } } else d) d

/-- TABLE_SWITCH (R245, R246, R248): the pending commits decided at step 4; a switch of the prior table starts a reload,
which the answer's list names. -/
def Dev.tableSwitches (d : Dev) (s : Stroke) : Dev × List Nat :=
  let d := d.clearOldBusy
  let cs := d.et.commits
  let busy := cs.filter (fun c => decide (c.2 = d.tVer c.1 + 1) && smGet (fun _ => false) d.et.oldBusy c.1)
  let d := { d with et := { d.et with commits := [], refused := if d.lg.replaying then [] else busy } }
  cs.foldl (fun (q : Dev × List Nat) c =>
    let d := q.1
    let t := c.1
    if ¬ d.lg.replaying ∧ (c.2 ≠ d.tVer t + 1 ∨ smGet (fun _ => false) d.et.oldBusy t) then
      ({ d with et := { d.et with opStat := smSet (fun _ => 0) d.et.opStat t 4 } }, q.2)
    else
      let d := d.setVer t c.2
      let d := { d with et := { d.et with
        oldBusy := smSet (fun _ => false) d.et.oldBusy t true
        opStat := smSet (fun _ => 0) d.et.opStat t 2 } }
      let d := d.bump (ET_OPS_COMPLETE t)
      let d := d.logIn { stroke := s, type := 5, payload := toLE 4 t ++ toLE 4 c.2.toNat }
      (d, q.2 ++ [t])) (d, [])

/-- VERSION_LATCH (R25 step 4, R242): the vector for the stroke that opens, kept for 64 boundaries. -/
def Dev.latchVersions (d : Dev) (s : Stroke) : Dev :=
  let old := d.et.latch.filter (fun p => decide (p.1 ≠ s))
  { d with et := { d.et with latch := ((s, (List.range 64).map (fun t => d.tVer t)) :: old).take 64 } }

/-- Step 4 of this boundary again for the commits that it has rejected for OLD_BUSY, once sub-step 3 of the same boundary
has completed the reads that kept it (R25, R246): those of tables no longer busy are decided, and the vector is latched.
The answer's list names the tables switched. -/
def Dev.switchAgain (d : Dev) (s : Stroke) : Dev × List Nat :=
  let d := d.clearOldBusy
  let (go, stay) := d.et.refused.partition (fun c => !(smGet (fun _ => false) d.et.oldBusy c.1))
  if go.isEmpty then (d, [])
  else
    let pend := d.et.commits
    let d := d.useCritical d.versionsHeld
    let (d, ts) := ({ d with et := { d.et with commits := go } } : Dev).tableSwitches s
    (({ d with et := { d.et with commits := pend, refused := stay } } : Dev).latchVersions s, ts)

/-- The version of a table latched for a stroke, if it is still kept. -/
def Dev.latched (d : Dev) (s : Stroke) (t : Nat) : Option Word :=
  (d.et.latch.find? (fun p => decide (p.1 = s))).map (fun p => p.2.getD t 0)

/-- TABLE_ABORT (R247, R250): a write of ABORT to ET_TABLEtt_CTRL, handled at the boundary that closes the stroke. -/
def tableAbort (t : Nat) (d : Dev) : Dev :=
  if d.lg.replaying then d
  else
    let d := d.logIn { stroke := sAdd d.tm.stroke 1, type := 3, payload := toLE 4 (ET_TABLE_CTRL t) ++ toLE 4 1 }
    { d with et := { d.et with aborts := d.et.aborts ++ [t] } }

/-- ADAPT_ABORT (R254): a write of ABORT to ET_ADAPT_CTRL. -/
def adaptAbort (d : Dev) : Dev :=
  if d.lg.replaying then d
  else
    let d := d.logIn { stroke := sAdd d.tm.stroke 1, type := 3, payload := toLE 4 ET_ADAPT_CTRL ++ toLE 4 1 }
    { d with et := { d.et with adAbort := true } }

/-- ET_TABLEtt_STATUS (R257). -/
def Dev.tableStatus (d : Dev) (t : Nat) : Word :=
  BitVec.ofNat 32 (smGet (fun _ => 0) d.et.opStat t + 2 ^ 3 * smGet (fun _ => 0) d.et.lastAb t +
    2 ^ 5 * b2n (smGet (fun _ => false) d.et.oldBusy t) +
    2 ^ 6 * (d.et.ops.filter (fun o => decide (o.table = t))).length)

/-! ### Adaptation (R252 to R255) -/

/-- One gradient record: table, row, sample index, values. -/
structure Grad where
  table : Nat
  row : Nat
  sample : Nat
  vals : List Nat
  deriving DecidableEq, Repr

/-- FP32 codes of a byte string. -/
def codes4 (bs : List Byte) : Nat → List Nat
  | 0 => []
  | n + 1 => leAt bs 0 4 :: codes4 (bs.drop 4) n

/-- Bytes of an element of an ADAPT table: 2 for BF16, 4 for FP32 (R252). -/
def Dev.tElem (d : Dev) (t : Nat) : Nat := if d.rf (ET_TABLE_FMT t) 0 4 = 8 then 2 else 4

/-- The records of a batch in the merge area (R252), and the bytes they take. -/
def Dev.gradsFrom (d : Dev) : Nat → Nat → List Grad → List Grad × Nat
  | 0, a, acc => (acc.reverse, a)
  | n + 1, a, acc =>
    let h := memNat d.xs.mem a 8
    let t := bits h 24 6
    let e := d.tSize t / d.tElem t
    d.gradsFrom n (a + 8 + 4 * e)
      ({ table := t, row := bits h 0 24, sample := bits h 32 16, vals := codes4 (memRead d.xs.mem (a + 8) (4 * e)) e } :: acc)

/-- Order of the merge: table, row, sample (R253). -/
def gradBefore (a b : Grad) : Bool :=
  if a.table ≠ b.table then decide (a.table < b.table)
  else if a.row ≠ b.row then decide (a.row < b.row) else decide (a.sample < b.sample)

/-- The table of the first two neighbours of a sorted batch with one key. -/
def gradDup : List Grad → Option Nat
  | a :: b :: r => if a.table = b.table ∧ a.row = b.row ∧ a.sample = b.sample then some a.table else gradDup (b :: r)
  | _ => none

/-- Element by element add32 (R135). -/
def addVec (a b : List Nat) : List Nat := List.zipWith add32 a b

/-- The sums per row of a sorted batch, in ascending sample index: table, row, acc. -/
def gradSums : List Grad → List (Nat × Nat × List Nat) → List (Nat × Nat × List Nat)
  | [], acc => acc.reverse
  | g :: r, (t, i, v) :: acc =>
    if t = g.table ∧ i = g.row then gradSums r ((t, i, addVec v g.vals) :: acc)
    else gradSums r ((g.table, g.row, g.vals) :: (t, i, v) :: acc)
  | g :: r, [] => gradSums r [(g.table, g.row, g.vals)]

/-- `new` of R253: one rounding in FP32, then the table's format. -/
def Dev.newRow (d : Dev) (t : Nat) (old : List Byte) (acc : List Nat) : List Byte :=
  let e := d.tElem t
  let lr := (d.rd ET_ADAPT_LR).toNat
  (acc.mapIdx (fun k g =>
    let o := leAt old (e * k) e
    let o32 := if e = 2 then (fCvt fmtBF16 fmtF32 o).1 else o
    let r := (fFma fmtF32 lr g o32).1
    toLE e (if e = 2 then (fCvt fmtF32 fmtBF16 r).1 else r))).flatten

/-- The operations of a step, one per table it touches (R254). -/
def Dev.adaptOps (d : Dev) (a : Stroke) (rows : List (Nat × Nat × List Byte)) : Dev :=
  let ts := (rows.map (fun r => r.1)).eraseDups
  let e := sAdd a (d.rf ET_CFG 8 8)
  let todoOf (t : Nat) := (rows.filter (fun r => decide (r.1 = t))).map (fun r => (r.2.1, r.2.2))
  let merge (o : UpdOp) (t : Nat) : Bool := o.adapt && !o.aborted && !o.complete && decide (o.table = t)
  ts.foldl (fun d t =>
    if d.et.ops.any (fun o => merge o t) then
      { d with et := { d.et with ops := d.et.ops.map (fun o =>
        if merge o t then { o with todo := o.todo ++ todoOf t } else o) } }
    else d.addOp { table := t, effect := e, adapt := true, todo := todoOf t }) d

/-- Whether operations for more tables find room beside the live ones (R249): 16 in the device. -/
def Dev.opsFit (d : Dev) (ts : List Nat) : Bool :=
  let new := (ts.eraseDups).filter (fun t => !(d.et.ops.any (fun o => o.adapt && !o.aborted && !o.complete && decide (o.table = t))))
  decide (d.et.ops.length + new.length ≤ 16)

/-- A fault of the merge unit (R253, R254): the step is ABORTED before any row is written. UNIT is the table of the first
record concerned (R360). (DEDUCED, log entry 154.) -/
def Dev.mergeFault (d : Dev) (bit t : Nat) : Dev :=
  ((d.hwOr ET_FAULT bit).report { src := 0x1B, unit := unitOf 2 t }).abortAdapt

/-- The rows in force that a step is applied to, read from the store (R253, R430); one that cannot be corrected is replaced
by the default row (R239). -/
def Dev.oldRows (d : Dev) (ks : List (Nat × Nat)) : Dev :=
  ks.foldl (fun d k =>
    let d := d.rowReq 3 false k.1 0 k.2 0 (32 + 2 * d.tSize k.1)
    if d.rowBad k.1 0 k.2 then d.rowUnc k.1 0 k.2 else d) d

/-- Partial sums of one owned row added in ascending chip number, and the new row (R255 steps 3 and 4). -/
def Dev.ownedRow (d : Dev) (a : Adapt) (k : Nat × Nat) : Nat × Nat × List Byte :=
  let parts := sortBy (fun x y => decide (x.2.2.1 < y.2.2.1))
    (a.sums.filter (fun q => decide (q.1 = k.1) && decide (q.2.1 = k.2)))
  let acc := match parts with
    | [] => []
    | p :: r => r.foldl (fun v q => addVec v q.2.2.2) p.2.2.2
  (k.1, k.2, d.newRow k.1 (d.rowFor k.1 0 a.issued k.2 (d.rowBad k.1 0 k.2)).1 acc)

/-- The other chips of the configuration. -/
def Dev.others (d : Dev) : List Nat := (List.range (d.rl.countM1 + 1)).filter (fun j => j != d.rl.chip)

/-- New rows sent to every other chip (R255 step 5). -/
def Dev.sendRows (d : Dev) (rows : List (Nat × Nat × List Byte)) : Dev :=
  d.others.foldl (fun d j =>
    rows.foldl (fun d r => d.linkSend j 1 (.partial_ j (1 :: d.rl.chip :: r.1 :: r.2.1 :: r.2.2.map BitVec.toNat))) d) d

/-- The owner's part of R255 as stroke a + ADAPT_DELAY − 1 opens: partial sums added in ascending chip number, the new
rows computed, sent to every other chip and kept for writing. A sum that arrives in that stroke joins them
(`partialSum`). -/
def Dev.adaptApply (d : Dev) (s : Stroke) : Dev :=
  match d.et.adapt with
  | none => d
  | some a =>
    if a.applied ∨ ¬ a.merged ∨ sAdd a.issued (d.rf ET_CFG 8 8 - 1) ≠ s then d
    else
      let keys := (a.sums.map (fun q => (q.1, q.2.1))).eraseDups
      if ¬ d.opsFit (keys.map (fun k => k.1)) then d.mergeFault 8 ((keys.map (fun k => k.1)).headD 0)
      else
        let rows := keys.map (fun k => d.ownedRow a k)
        let d := ((d.oldRows keys).adaptOps a.issued rows).sendRows rows
        { d with et := { d.et with adapt := some { a with applied := true } } }

/-- ADAPT_MERGE (R253 to R255): the live step's batch sorted and summed; on one chip the new rows become the step's
operations; in a configuration the sums of rows that other chips own go to their owners, and a merge
in stroke a + ADAPT_DELAY − 1 itself forms the new rows of the chip's own (R255 step 4). A batch that meets bad data is
ABORTED (R427). -/
def adaptMerge (d : Dev) : Dev :=
  match d.et.adapt with
  | none => d
  | some a =>
    if a.merged then d
    else
      let base := d.rf ET_MERGE_BASE 0 16 * 65536
      let (gs, stop) := d.gradsFrom a.count base []
      let d := d.storeReq 3 false base (stop - base)
      let gs := sortBy gradBefore gs
      let sums := gradSums gs []
      let tabs := (gs.map (fun g => g.table)).eraseDups
      if d.xs.badIn base (stop - base) then d.abortAdapt
      else if stop - base > d.rf ET_MERGE_SIZE 0 16 * 65536 ∨ a.count > 65536 ∨ sums.length > 16384 ∨
          ¬ d.opsFit tabs then d.mergeFault 8 (tabs.headD 0)
      else match gradDup gs with
      | some t => d.mergeFault 4 t
      | none =>
        let d := d.bump ET_MERGE_RECORDS gs.length
        let n := d.rl.countM1 + 1
        let me := d.rl.chip
        if n = 1 then
          let rows := sums.map (fun q =>
            (q.1, q.2.1, d.newRow q.1 (d.rowFor q.1 0 a.issued q.2.1 (d.rowBad q.1 0 q.2.1)).1 q.2.2))
          let d := (d.oldRows (sums.map (fun q => (q.1, q.2.1)))).adaptOps a.issued rows
          { d with et := { d.et with adapt := some { a with merged := true, applied := true }, adStat := 2 } }
        else
          let mine := sums.filter (fun q => decide (q.2.1 % n = me))
          let d := (sums.filter (fun q => decide (q.2.1 % n ≠ me))).foldl
            (fun d q => d.linkSend (q.2.1 % n) 1 (.partial_ (q.2.1 % n) (0 :: me :: q.1 :: q.2.1 :: q.2.2))) d
          let away := (sums.filter (fun q => decide (q.2.1 % n ≠ me))).map (fun q => (q.1, q.2.1))
          let here (k : Nat × Nat) : Bool :=
            d.et.ops.any (fun o => o.adapt && decide (o.table = k.1) && (o.done.contains k.2 || o.todo.any (fun x => decide (x.1 = k.2))))
          let a' := { a with merged := true, sums := a.sums ++ mine.map (fun q => (q.1, q.2.1, me, q.2.2))
                             want := away.filter (fun k => !(here k)) }
          Dev.adaptApply { d with et := { d.et with adapt := some a', adStat := 2 } } d.tm.stroke

/-- A row of the step that comes again or anew before its effect: joined to its table's operation, or written over the
DATA that has been written for it. -/
def Dev.putRow (d : Dev) (a : Adapt) (r : Nat × Nat × List Byte) : Dev :=
  let (t, i, row) := r
  match d.et.ops.findIdx? (fun o => o.adapt && !o.aborted && !o.complete && decide (o.table = t)) with
  | none => d.adaptOps a.issued [r]
  | some k =>
    match d.et.ops[k]? with
    | none => d
    | some o =>
      if o.done.contains i then
        let d := d.rowReq 4 true t 0 i 32 (d.tSize t)
        { d with xs := d.xs.put (d.rowAt t 0 i + 32) (row.take (d.tSize t)) }
      else d.setOp k { o with todo := o.todo.filter (fun x => decide (x.1 ≠ i)) ++ [(i, row)] }

/-- The tables that the live step touches (R254): those of its operations, of the sums it holds and of the rows that other
chips form; where it has not been merged, those of its batch. -/
def Dev.stepTables (d : Dev) : List Nat :=
  let held := match d.et.adapt with
    | none => []
    | some a => a.sums.map (fun q => q.1) ++ a.want.map (fun q => q.1) ++
        (if a.merged then [] else (d.gradsFrom a.count (d.rf ET_MERGE_BASE 0 16 * 65536) []).1.map (fun g => g.table))
  ((d.et.ops.filter (fun o => o.adapt)).map (fun o => o.table) ++ held).eraseDups

/-- An adaptation step aborted on this chip for lateness (R255): its operations, COMPLETE ones included while they are live,
are to be restored; ROW_LATE is raised for each table. (DEDUCED, log entry 113.) -/
def Dev.abortStep (d : Dev) : Dev :=
  let ts := d.stepTables
  let d := d.et.ops.foldl (fun d o => if o.adapt ∧ o.complete then d.opAborted o.table else d) d.abortAdapt
  let back (o : UpdOp) : UpdOp := if o.adapt ∧ o.complete then { o with aborted := true, complete := false } else o
  (Dev.dropRestored { d with et := { d.et with ops := d.et.ops.map back } }).rowLate ts

/-- A partial sum or new row that arrives too late (R255): the step is aborted, with ROW_LATE, on this chip and, by a
message, on the others. -/
def Dev.lateSum (d : Dev) : Dev :=
  if d.adaptLive then
    d.others.foldl (fun d j => d.linkSend j 1 (.partial_ j [2, d.rl.chip])) d.abortStep
  else d

/-- RG_PARTIAL_SUM (R255): of kind 0 a partial sum from a chip for a row that this chip owns, of kind 1 a new row of
another owner, of kind 2 the abort of the step. One that arrives after stroke a + ADAPT_DELAY − 1 aborts the step. -/
def partialSum (chip kind t i : Nat) (vals : List Nat) (d : Dev) : Dev :=
  if kind = 2 then (if d.adaptLive then d.abortStep else d)
  else
    match d.et.adapt with
    | none => d.lateSum
    | some a =>
      if sDiff d.tm.stroke a.issued > d.rf ET_CFG 8 8 - 1 then d.lateSum
      else if kind = 1 then
        if ¬ d.opsFit [t] then d.mergeFault 8 t
        else
          let d := { d with et := { d.et with adapt := some { a with want := a.want.filter (fun k => decide (k ≠ (t, i))) } } }
          d.putRow a (t, i, vals.map (fun v => BitVec.ofNat 8 v))
      else
        let a := { a with sums := a.sums ++ [(t, i, chip, vals)] }
        let d := { d with et := { d.et with adapt := some a } }
        if a.applied then
          let r := d.ownedRow a (t, i)
          ((d.oldRows [(t, i)]).putRow a r).sendRows [r]
        else d

end Sys2Proof.Machine
end

