-- ==== Sys2Proof/Machine/CellMem.lean ====
section
/-! DEFINITION. Cell memory (04_cell_memory): pose and target (R103), slots (R105), write-back and scatter (R108),
expiry (R109), the roll engine and the reload (R110 to R113), the tile read and the record (R115 to R118), the golden
region (R119). -/

namespace Sys2Proof.Machine

/-! ### Pose and target (R103, R205) -/

/-- The ego cell's coordinate of a pose coordinate. -/
def egoCell (p : Int) : Int := fdiv (5 * p) 256

/-- The target origin of a pose (R103). -/
def targetOf (p : Pose) : Int × Int := (egoCell p.x - 512, egoCell p.y - 512)

/-- The target origin. -/
def Dev.target (d : Dev) : Int × Int := targetOf d.cm.pose

/-- Whether the target differs from the origin in force (R111). -/
def Dev.lagging (d : Dev) : Bool := decide (d.target.1 ≠ d.cm.ox) || decide (d.target.2 ≠ d.cm.oy)

/-- Pose and yaw as the registers hold them. -/
def Dev.poseRegs (d : Dev) : Pose :=
  { x := d.rdInt64 CM_POSE_X_LO CM_POSE_X_HI, y := d.rdInt64 CM_POSE_Y_LO CM_POSE_Y_HI,
    cos := d.rdInt AG_BEV_COS, sin := d.rdInt AG_BEV_SIN }

/-- POSE_COMMIT (R103, R205, R233): a write of GO holds pose and yaw for the next boundary; in a replay the host's
write is ignored. The write is logged (R229). (DEDUCED, log entry 22.) -/
def poseCommit (d : Dev) : Dev :=
  if d.lg.replaying then d
  else
    let d := d.logIn { stroke := sAdd d.tm.stroke 1, type := 3, payload := toLE 4 CM_POSE_COMMIT ++ toLE 4 1 }
    { d with cm := { d.cm with poseNext := some d.poseRegs } }

/-- POSE_APPLY (R103, R205), before step 1 of the boundary that opens stroke s: the committed pose comes into force,
the island is told, and the history takes the pose of this boundary. -/
def Dev.poseApply (d : Dev) (s : Stroke) : Dev :=
  let d :=
    match d.cm.poseNext with
    | some p => ({ d with cm := { d.cm with pose := p, poseNext := none } }).mon (.pose p)
    | none => d
  { d with cm := { d.cm with hist := ((s, d.cm.pose) :: d.cm.hist).take 512 } }

/-- The pose and yaw in force at the boundary that opened a stroke, while it is kept (R205). -/
def Dev.poseAt (d : Dev) (s : Stroke) : Pose :=
  match d.cm.hist.find? (fun p => decide (p.1 = s)) with
  | some p => p.2
  | none => d.cm.pose

/-! ### Slots (R104, R105) -/

/-- The slot of a world cell (R105). -/
def slotOf (gx gy : Int) : Nat := (gx % 1024).toNat + 1024 * (gy % 1024).toNat

/-- The context in a slot. -/
def CellSt.ctx (c : CellSt) (s : Nat) : Ctx := smGet (fun _ => c.dctx) c.ctxs s

/-- A context stored in a slot. -/
def CellSt.setCtx (c : CellSt) (s : Nat) (x : Ctx) : CellSt := { c with ctxs := smSet (fun _ => c.dctx) c.ctxs s x }

/-- Whether a world cell lies in the window whose origin is (ox, oy) (R104). -/
def inWindow (ox oy gx gy : Int) : Bool :=
  decide (ox ≤ gx) && decide (gx ≤ ox + 1023) && decide (oy ≤ gy) && decide (gy ≤ oy + 1023)

/-- The world cell of cell n (32 × cy + cx) of the tile of stroke s, under an origin (R104, R115). -/
def tileCell (s : Stroke) (ox oy : Int) (n : Nat) : Int × Int :=
  let (tx, ty) := tileOf s
  (ox + ((32 * tx + n % 32 : Nat) : Int), oy + ((32 * ty + n / 32 : Nat) : Int))

/-! ### Sub-step 1: write-back (R108) -/

/-- A context after the write-back of what the tile heads read: TEMP replaced, ACC decreased lane by lane. -/
def Ctx.writeBack (c read : Ctx) (temp : Word64) : Ctx :=
  { c with temp := temp, a0 := c.a0 - read.a0, a1 := c.a1 - read.a1, a2 := c.a2 - read.a2, a3 := c.a3 - read.a3 }

/-- CELL_WRITE_BACK (R108, R355): the write-back of a record that the tile heads completed, in the window in force; a
cell that has left it is counted in WB_OUTSIDE. (DEDUCED, log entry 26.) -/
def Dev.writeBack (d : Dev) (r : RecSlot) : Dev :=
  match r.heads with
  | none => d
  | some hs =>
    (List.range 1024).foldl (fun d n =>
      let (gx, gy) := tileCell r.stroke r.ox r.oy n
      if inWindow d.cm.ox d.cm.oy gx gy then
        let s := slotOf gx gy
        let read := smGet (fun _ => r.dctx) r.snap n
        { d with cm := d.cm.setCtx s ((d.cm.ctx s).writeBack read ((hs.getD n (0, 0)).2)) }
      else d.bump CM_CTR_WB_OUTSIDE) d

/-! ### Sub-step 2: scatter (R107, R108, R354) -/

/-- The wrapping adds of a site to the four lanes of ACC (R107). -/
def Ctx.addLanes (c : Ctx) (a : CellAdd) : Ctx :=
  { c with a0 := c.a0 + a.v0, a1 := c.a1 + a.v1, a2 := c.a2 + a.v2, a3 := c.a3 + a.v3 }

/-- A context that a scatter reached in stroke s (R108). -/
def Ctx.reach (c : Ctx) (s : Stroke) : Ctx := { c with lastSeen := s, seen := true, hits := min 255 (c.hits + 1) }

/-- The adds of one stroke applied to the scene, those outside the window counted; each cell reached is marked once. -/
def Dev.addScene (d : Dev) (s : Stroke) (as_ : List CellAdd) : Dev :=
  let ins := as_.filter (fun a => inWindow d.cm.ox d.cm.oy a.gx a.gy)
  let d := d.bump CM_CTR_SCAT_OUTSIDE (as_.length - ins.length)
  let cm := ins.foldl (fun (c : CellSt) a =>
    let k := slotOf a.gx a.gy
    c.setCtx k ((c.ctx k).addLanes a)) d.cm
  let cm := ((ins.map (fun a => slotOf a.gx a.gy)).eraseDups).foldl
    (fun (c : CellSt) k => c.setCtx k ((c.ctx k).reach s)) cm
  { d with cm := cm }

/-- A context of the golden region that nothing has reached. -/
def gold0 : Nat → Ctx := fun _ => {}

/-- The adds of the golden sector applied to the golden region (R119, R208), whose contexts lie row after row. (DESIGN CHOICE,
log entry 143.) -/
def Dev.addGold (d : Dev) (s : Stroke) (as_ : List CellAdd) : Dev :=
  let key (a : CellAdd) : Nat := a.gx.toNat % 32 + 32 * (a.gy.toNat % 32)
  let g := as_.foldl (fun (m : SMap Ctx) a => smSet gold0 m (key a) ((smGet gold0 m (key a)).addLanes a))
    d.cm.gold
  let g := ((as_.map key).eraseDups).foldl (fun (m : SMap Ctx) k => smSet gold0 m k ((smGet gold0 m k).reach s)) g
  { d with cm := { d.cm with gold := g } }

/-- The announcements of one part joined: the adds expected of a sector are those of all its descriptors (R354). -/
def joinExps : List AddExp → List AddExp → List AddExp
  | acc, [] => acc
  | acc, e :: r =>
    let same (x : AddExp) : Bool := decide (x.id = e.id) && decide (x.from_ = e.from_)
    if acc.any same then joinExps (acc.map (fun x => if same x then { x with count := x.count + e.count } else x)) r
    else joinExps (acc ++ [e]) r

/-- The parts whose adds are due with the stroke s that closes: those complete, and those with an add missing (R354,
R395). -/
def Dev.dueParts (d : Dev) (s : Stroke) : List AddExp × List AddExp :=
  let due := joinExps [] (d.cm.exps.filter (fun e => decide (e.at_ = s)))
  due.partition (fun e =>
    decide ((d.cm.adds.filter (fun a => decide (a.id = e.id) && decide (a.from_ = e.from_))).length = e.count))

/-- SCATTER_COMMIT (R313) of the sectors whose adds are committed with stroke s, which closes: those with a work set, as
their headers were sent, and those without one (R80). -/
def Dev.scatterCommits (d : Dev) (s : Stroke) (ok : List SecId) : Dev :=
  let v : Stroke := s - BitVec.ofNat 48 (d.rf AG_BEV_CFG 0 9)
  let d := ok.foldl (fun d i =>
    match d.ag.sent.find? (fun h => decide (h.id = i) && decide (h.v = v)) with
    | some h => d.mon (.sector .scatterCommit i h.frame h.ord h.last h.v s)
    | none => d.mon (.sector .scatterCommit i d.tm.frame 0 v v s)) d
  let (now, later) := d.gb.empties.partition (fun g => decide (g.v = v))
  let d := { d with gb := { d.gb with empties := later } }
  now.foldl (fun d g => d.mon (.sector .scatterCommit g.id g.frame 0 g.last g.v s)) d

/-- SCATTER_APPLY (R108 sub-step 2, R354): of stroke s that closes, the adds of each complete part are applied; the
answer names the incomplete parts, which are cancelled. -/
def Dev.scatterApply (d : Dev) (s : Stroke) : Dev × List AddExp :=
  let (ok, bad) := d.dueParts s
  let isOk (a : CellAdd) : Bool := ok.any (fun e => decide (e.id = a.id) && decide (e.from_ = a.from_))
  let due := d.cm.adds.filter (fun a => decide (a.at_ = s))
  let take := due.filter isOk
  let d := { d with cm := { d.cm with
    adds := d.cm.adds.filter (fun a => decide (a.at_ ≠ s))
    exps := d.cm.exps.filter (fun e => decide (e.at_ ≠ s)) } }
  let d := d.addScene s (take.filter (fun a => decide (a.id.stream ≠ goldStream)))
  let d := d.addGold s (take.filter (fun a => decide (a.id.stream = goldStream)))
  let own := (ok.filter (fun e => decide (e.from_ = 4) && decide (e.id.stream ≠ goldStream))).map (fun e => e.id)
  (d.scatterCommits s own, bad)

/-! ### Sub-step 3: roll, re-seat, reload (R110 to R113) -/

/-- A prior row as a bit vector. -/
def priorBits (row : List Byte) : BitVec 256 := BitVec.ofNat 256 (leNat (row.take 32))

/-- The prior row of a world cell (R112): its bytes, whether the cell lies outside the prior table, and whether its
read failed. A failed read gives the default row without the flag PRIOR_DEFAULT, which R112 sets for a cell outside the table
alone; the counter of R121 counts both. (DEDUCED, log entry 114.) -/
def Dev.priorRow (d : Dev) (ver : Word) (issue : Stroke) (px py gx gy : Int) (bad : Bool) :
    BitVec 256 × Bool × Bool :=
  let t := d.rf CM_PRIOR_CFG 0 6
  let w : Int := d.rf CM_PRIOR_SIZE 0 13
  let h : Int := d.rf CM_PRIOR_SIZE 16 13
  let dx := gx - px
  let dy := gy - py
  if 0 ≤ dx ∧ dx < w ∧ 0 ≤ dy ∧ dy < h then
    let i := (dx + w * dy).toNat
    let bad := bad || d.rowBad t ver i
    (priorBits (d.rowFor t ver issue i bad).1, false, bad)
  else (priorBits (d.defaultRow t), true, false)

/-- The row of the prior table that holds a world cell, if it lies in the table (R112). -/
def Dev.priorIdx (d : Dev) (px py : Int) (cell : Int × Int) : Option Nat :=
  let w : Int := d.rf CM_PRIOR_SIZE 0 13
  let h : Int := d.rf CM_PRIOR_SIZE 16 13
  let dx := cell.1 - px
  let dy := cell.2 - py
  if 0 ≤ dx ∧ dx < w ∧ 0 ≤ dy ∧ dy < h then some (dx + w * dy).toNat else none

/-- The reads that a roll step or a reload block asks of the store as it begins (R111, R430): the row of each of its cells that
lies in the prior table. (DESIGN CHOICE, log entry 49.) -/
def Dev.priorAsk (d : Dev) (ver : Word) (px py : Int) (cells : List (Int × Int)) : Dev :=
  let t := d.rf CM_PRIOR_CFG 0 6
  let d := d.useCritical (d.baseHeld t ver)
  if d.xs.ready then
    (cells.filterMap (d.priorIdx px py)).foldl (fun d i => d.rowReq 2 false t ver i 0 (d.tSize t)) d
  else d

/-- The rows of a roll step or a reload block as they have come: every row is counted, and every use of the default row (R239,
R258); one that failed is reported with its address (R351, R360). `bad` names the cells whose reads failed. -/
def Dev.priorReads (d : Dev) (ver : Word) (px py : Int) (cells : List (Int × Int)) (bad : List Nat) : Dev :=
  let t := d.rf CM_PRIOR_CFG 0 6
  (cells.zip (List.range cells.length)).foldl (fun d q =>
    match d.priorIdx px py q.1 with
    | some i =>
      let b := bad.contains q.2 || d.rowBad t ver i
      let d := d.countRead t b (d.rowTorn t ver i b)
      if b then d.rowUnc t ver i else d
    | none => d.countRead t true false) d

/-- A reload begins (R113): the generation toggles and the reload restarts from block 0. -/
def Dev.reloadBegin (d : Dev) : Dev :=
  let d := d.bump CM_CTR_RELOAD
  { d with cm := { d.cm with gen := !d.cm.gen, reload := some { next := 0 } } }

/-- A reload that step 3 or 4 of the boundary begins (R25, R113): what sub-step 3 of the same boundary still needs of the
one before is kept. (DEDUCED, log entry 71.) -/
def Dev.reloadStep (d : Dev) : Dev :=
  let h := match d.cm.held with
    | some h => h
    | none => (d.cm.reload, d.cm.gen)
  ({ d with cm := { d.cm with held := some h } } : Dev).reloadBegin

/-- The generation in force at sub-step 3 of this boundary. -/
def CellSt.gen3 (c : CellSt) : Bool :=
  match c.held with
  | some h => h.2
  | none => c.gen

/-- The reload in progress at sub-step 3 of this boundary. -/
def CellSt.reload3 (c : CellSt) : Option Reload :=
  match c.held with
  | some h => h.1
  | none => c.reload

/-- The reload of sub-step 3 replaced. -/
def CellSt.setReload3 (c : CellSt) (r : Option Reload) : CellSt :=
  match c.held with
  | some h => { c with held := some (r, h.2) }
  | none => { c with reload := r }

/-- Every context in the re-seat state, under the target (R110, R114). -/
def Dev.reseatCells (d : Dev) : Dev :=
  let (tx, ty) := d.target
  let d := { d with cm := { d.cm with
    ox := tx, oy := ty, dctx := { prPend := true, prGen := d.cm.gen }, ctxs := [], roll := none } }
  d.reloadBegin

/-- RE_SEAT (R110): where the target is more than JUMP cells from the origin in force. -/
def Dev.reseat (d : Dev) : Dev :=
  let (tx, ty) := d.target
  let j : Int := d.rf CM_CFG 16 10
  if (tx - d.cm.ox).natAbs > j.toNat ∨ (ty - d.cm.oy).natAbs > j.toNat then
    (d.bump CM_CTR_JUMP).reseatCells
  else d

/-- Whether cell memory works: the accelerator is operational, and a restart has not begun or has re-seated it. -/
def Dev.cellsUp (d : Dev) : Bool :=
  d.live && (match d.flt.phase with
    | .idle => true
    | .requested => true
    | .waiting => true
    | _ => false)

/-- The world cell that entry n of a roll step's leaving column or row takes (R111). -/
def rollCell (ox oy : Int) (r : RollStep) (n : Nat) : Int × Int :=
  if r.axisX then ((if r.up then ox + 1024 else ox - 1), oy + n) else (ox + n, (if r.up then oy + 1024 else oy - 1))

/-- The slots of reload block n (R113). -/
def blockSlots (n : Nat) : List Nat :=
  (List.range 1024).map (fun i => (32 * (n % 32) + i % 32) + 1024 * (32 * (n / 32) + i / 32))

/-- The world cell that a slot holds in the window in force (R104, R105). -/
def Dev.cellOfSlot (d : Dev) (k : Nat) : Int × Int :=
  (d.cm.ox + ((k % 1024 : Nat) - d.cm.ox) % 1024, d.cm.oy + ((k / 1024 : Nat) - d.cm.oy) % 1024)

/-- The boundary of stroke s at an idle engine (R111, R113): a roll step begins while the target differs from the origin
in force, otherwise the next block of a reload. (DEDUCED, log entry 23.) -/
def Dev.engineBegin (d : Dev) (s : Stroke) : Dev :=
  let idle : Bool := d.cm.roll.isNone && (match d.cm.reload with | some r => r.flight.isNone | none => true)
  if ¬ idle ∨ ¬ d.cellsUp then d
  else
    let (tx, ty) := d.target
    let ver := d.tVer (d.rf CM_PRIOR_CFG 0 6)
    let held := d.pairHeld CM_PRIOR_ORIGIN_X && d.pairHeld CM_PRIOR_ORIGIN_Y
    let px := sext 32 (d.rdLive CM_PRIOR_ORIGIN_X).toNat
    let py := sext 32 (d.rdLive CM_PRIOR_ORIGIN_Y).toNat
    let dx := tx - d.cm.ox
    let dy := ty - d.cm.oy
    if dx ≠ 0 ∨ dy ≠ 0 then
      let ax := decide (dx.natAbs ≥ dy.natAbs)
      let st : RollStep := { began := s, axisX := ax, up := decide (0 < if ax then dx else dy), ver := ver,
                             px := px, py := py }
      let a := d.xs.next
      let d := (d.useCritical held).priorAsk ver px py ((List.range 1024).map (rollCell d.cm.ox d.cm.oy st))
      { d with cm := { d.cm with roll := some { st with reqs := (a, d.xs.next) } } }
    else
      match d.cm.reload with
      | some r =>
        let a := d.xs.next
        let d := (d.useCritical held).priorAsk ver px py ((blockSlots r.next).map d.cellOfSlot)
        { d with cm := { d.cm with reload := some { r with flight := some (s, ver, px, py), reqs := (a, d.xs.next) } } }
      | none => d

/-- Commits that this boundary's step 4 rejected for reads that its sub-step 3 has now completed (R246); a switch of the
prior table begins a reload. -/
def Dev.decideAgain (d : Dev) : Dev :=
  let (d, ts) := d.switchAgain d.tm.stroke
  if ts.contains (d.rf CM_PRIOR_CFG 0 6) then d.reloadStep else d

/-! ### Sub-step 4: expiry and the tile read (R109, R115) -/

/-- A context expired (R109). -/
def Ctx.expire (c : Ctx) : Ctx :=
  { c with a0 := 0, a1 := 0, a2 := 0, a3 := 0, temp := 0, lastSeen := 0, seen := false, hits := 0 }

/-- Whether a context is expired when stroke s addresses its tile (R109). -/
def Dev.isExpired (d : Dev) (s : Stroke) (c : Ctx) : Bool :=
  c.seen && decide (sDiff s c.lastSeen > 1024 * d.rf CM_CFG 0 16)

/-- The slots of the tile of stroke s under the origin in force, in cell order. -/
def Dev.tileSlots (d : Dev) (s : Stroke) : List Nat :=
  (List.range 1024).map (fun n => let (gx, gy) := tileCell s d.cm.ox d.cm.oy n; slotOf gx gy)

/-- CONTEXT_EXPIRY (R109) of the tile of stroke s; the contexts zeroed are kept for a roll step that completes at this
same boundary. -/
def Dev.expireTile (d : Dev) (s : Stroke) : Dev :=
  let hit := ((d.tileSlots s).map (fun k => (k, d.cm.ctx k))).filter (fun p => d.isExpired s p.2)
  let d := d.bump CM_CTR_EXPIRED hit.length
  let cm := hit.foldl (fun (c : CellSt) p => c.setCtx p.1 p.2.expire) d.cm
  { d with cm := { cm with expired := hit } }

/-- An event counter taken back: the sub-step that a later one of the same boundary precedes. -/
def Dev.unbump (d : Dev) (a n : Nat) : Dev :=
  let c := d.ctr a
  if c.ovf then d
  else { d with reg := { d.reg with ctrs := smSet ctr0 d.reg.ctrs a { c with v := c.v - n } } }

/-- This boundary's expiry taken back, for sub-step 3 to come before it. -/
def Dev.unexpire (d : Dev) : Dev :=
  let d := d.unbump CM_CTR_EXPIRED d.cm.expired.length
  let cm := d.cm.expired.foldl (fun (c : CellSt) p => c.setCtx p.1 p.2) d.cm
  { d with cm := { cm with expired := [] } }

/-- floor(65,535 × merged / offered), 65,535 where nothing was offered (R115). -/
def coverage (merged offered : Nat) : Nat := if offered = 0 then 65535 else 65535 * merged / offered

/-- The stroke-level header and the tile as the tile heads read it for stroke s (R115 to R117, R22, R333). During a restart
PRIOR_PENDING and PRIOR_MIXED come from the contexts as they stand. (DESIGN CHOICE, log entry 145.) -/
def Dev.recOpen (d : Dev) (s : Stroke) : RecSlot :=
  let down : Bool := d.live && !d.cellsUp
  let (tx, ty) := d.target
  let slots := d.tileSlots s
  let cs := slots.map (fun k => d.cm.ctx k)
  let snap := (cs.mapIdx (fun n c => (n, c))).filter (fun p => decide (p.2 ≠ d.cm.dctx))
  let lead := !d.tm.framed
  let c := d.gb.cur
  { stroke := s, ox := if down then tx else d.cm.ox, oy := if down then ty else d.cm.oy,
    time := d.nsAt d.tm.openRaw, frame := d.tm.frame,
    cov := if lead then 65535 else coverage c.merged c.offered,
    covLast := if lead then 65535 else coverage (d.rd GB_COV_LAST_MERGED).toNat (d.rd GB_COV_LAST_OFFERED).toNat,
    offLast := if lead then 0 else (d.rd GB_COV_LAST_OFFERED).toNat,
    mrgLast := if lead then 0 else (d.rd GB_COV_LAST_MERGED).toNat,
    shed := min 65535 c.shed, drop := min 65535 c.drop, fail := min 65535 c.fail,
    ver := (d.tVer (d.rf CM_PRIOR_CFG 0 6)).toNat % 65536,
    prPend := cs.any (fun c => c.prPend),
    mixed := cs.any (fun c => c.prGen) && cs.any (fun c => !c.prGen),
    absent := !(d.accel),
    dctx := d.cm.dctx, snap := snap }

/-- TILE_HEAD_START (R25 step 5, R26): the record of stroke s joins the record path, or is taken anew where it stands
there already. -/
def Dev.openTile (d : Dev) (s : Stroke) : Dev :=
  let r := d.recOpen s
  let keep := d.cm.path.filter (fun x => decide (x.stroke ≠ s))
  let old := d.cm.path.find? (fun x => decide (x.stroke = s))
  let r := match old with
    | some x => { r with rolled := x.rolled, absent := x.absent || r.absent }
    | none => r
  { d with cm := { d.cm with path := keep ++ [r] } }

/-! ### The BOUNDARY message (R313) -/

/-- Whether a frame retires at the boundary that opens stroke s (R91). -/
def Dev.retiresAt (d : Dev) (s : Stroke) : Bool :=
  d.tm.framed && decide (d.tm.frame ≠ 0) && decide (s = sAdd d.tm.frameAt d.retireDelay)

/-- The BOUNDARY message of the stroke in progress. -/
def Dev.boundaryMsg (d : Dev) : MonMsg :=
  let s := d.tm.stroke
  let r := d.cm.path.find? (fun x => decide (x.stroke = s))
  .boundary s d.tm.frame (d.tm.framed && decide (d.tm.frameAt = s)) (d.retiresAt s) d.cm.ox d.cm.oy
    (match r with | some x => x.covLast | none => 65535)

/-- The BOUNDARY message of this boundary sent, or brought up to date by a sub-step of the same boundary. -/
def Dev.sendBoundary (d : Dev) : Dev :=
  let m := d.boundaryMsg
  let same (x : MonMsg) : Bool := match x with
    | .boundary s .. => decide (s = d.tm.stroke)
    | _ => false
  if d.si.mq.any same then { d with si := { d.si with mq := d.si.mq.map (fun x => if same x then m else x) } }
  else d.mon m

/-- What follows a sub-step that comes with its own command at the boundary that opened this stroke: the tile is read
anew, and the BOUNDARY message follows it. -/
def Dev.resume (d : Dev) : Dev := (d.openTile d.tm.stroke).sendBoundary

/-! ### Errors met in cell memory (R164, R167) -/

/-- The slots of cell memory whose context an uncorrectable error has reached. -/
def lostSlots (es : List CmnErr) : List Nat :=
  ((es.filter (fun e => wordLost e && decide (0x2000000 ≤ e.off) && decide (e.off < 0x6000000))).map
    (fun e => (e.off - 0x2000000) / 64)).eraseDups

/-- Errors met in the commons by the engines of cell memory (R164): a context that cannot be corrected is not written, it
keeps what it held (R167). (DEDUCED, log entry 131.) -/
def Dev.cellErrs (d : Dev) (old : CellSt) (es : List CmnErr) : Dev :=
  let cm := (lostSlots es).foldl (fun (c : CellSt) k => c.setCtx k (old.ctx k)) d.cm
  ({ d with cm := cm } : Dev).commonsErrs es

/-- The record of stroke s, where its tile reads a context that cannot be corrected, is not completed (R167). -/
def Dev.tileErrs (d : Dev) (s : Stroke) (es : List CmnErr) : Dev :=
  let lost := lostSlots es
  if (d.tileSlots s).any (fun k => lost.contains k) then
    let f (r : RecSlot) : RecSlot := if r.stroke = s then { r with absent := true } else r
    { d with cm := { d.cm with path := d.cm.path.map f } }
  else d

/-! ### Roll step and reload block (R111, R113) -/

/-- ROLL_STEP_COMPLETE (R111): at sub-step 3 of the boundary that opened this stroke, at least 16 strokes after its
beginning, the step in flight completes; `bad` names the rows whose reads failed, `errs` the errors met in cell memory. The
next step or block begins at the same boundary. (DESIGN CHOICE, log entry 18.) -/
def rollStepComplete (bad : List Nat) (errs : List CmnErr) (d : Dev) : Dev :=
  match d.cm.roll with
  | none => d
  | some r =>
    let s := d.tm.stroke
    if ¬ d.cellsUp ∨ sDiff s r.began < 16 ∨ d.xs.served r.reqs.1 r.reqs.2 = false then d
    else
      let d := d.unexpire
      let lagged := d.lagging
      let cells := (List.range 1024).map (rollCell d.cm.ox d.cm.oy r)
      let rows := (List.range 1024).map (fun n =>
        let (gx, gy) := rollCell d.cm.ox d.cm.oy r n
        (slotOf gx gy, d.priorRow r.ver r.began r.px r.py gx gy (bad.contains n)))
      let cm := rows.foldl (fun (c : CellSt) p =>
        c.setCtx p.1 { prior := p.2.1, prDef := p.2.2.1, prGen := c.gen3 }) d.cm
      let k : Int := if r.up then 1 else -1
      let cm := { cm with roll := none, ox := if r.axisX then cm.ox + k else cm.ox,
                          oy := if r.axisX then cm.oy else cm.oy + k }
      let d := (({ d with cm := cm } : Dev).cellErrs d.cm errs).bump CM_CTR_ROLL_STEP
      let d := d.bump CM_CTR_PRIOR_DEFAULT (rows.countP (fun p => p.2.2.1 || p.2.2.2))
      let d := d.bump CM_CTR_ROLL_SLOW (b2n (decide (sDiff s r.began > 16)))
      let d := (d.priorReads r.ver r.px r.py cells bad).decideAgain
      let d := if lagged && !d.lagging then d.unbump CM_CTR_ROLL_LAG 1
        else if !lagged && d.lagging then d.bump CM_CTR_ROLL_LAG else d
      ((d.expireTile s).engineBegin s).resume

/-- RELOAD_BLOCK_COMPLETE (R113): the block in flight replaces PRIOR, PRIOR_DEFAULT and PRIOR_GEN and clears
PRIOR_PENDING in its slots; `errs` are the errors met in cell memory. -/
def reloadBlockComplete (bad : List Nat) (errs : List CmnErr) (d : Dev) : Dev :=
  match d.cm.reload3 with
  | none => d
  | some rl =>
    match rl.flight with
    | none => d
    | some (began, ver, px, py) =>
      let s := d.tm.stroke
      if ¬ d.cellsUp ∨ sDiff s began < 16 ∨ d.xs.served rl.reqs.1 rl.reqs.2 = false then d
      else
        let rows := (blockSlots rl.next).mapIdx (fun n k =>
          let (gx, gy) := d.cellOfSlot k
          (k, d.priorRow ver began px py gx gy (bad.contains n)))
        let cm := rows.foldl (fun (c : CellSt) p =>
          c.setCtx p.1 { c.ctx p.1 with prior := p.2.1, prDef := p.2.2.1, prGen := c.gen3, prPend := false }) d.cm
        let cm := cm.setReload3 (if rl.next = 1023 then none else some { next := rl.next + 1 })
        let d := ({ d with cm := cm } : Dev).cellErrs d.cm errs
        let d := d.bump CM_CTR_PRIOR_DEFAULT (rows.countP (fun p => p.2.2.1 || p.2.2.2))
        let d := d.bump CM_CTR_ROLL_SLOW (b2n (decide (sDiff s began > 16)))
        let d := (d.priorReads ver px py ((blockSlots rl.next).map d.cellOfSlot) bad).decideAgain
        (d.engineBegin s).resume

/-! ### The record (R115 to R118) -/

/-- AGE of a cell word (R117). -/
def ageOf (s : Stroke) (c : Ctx) : Nat := if c.seen then min 254 (sDiff s c.lastSeen / 1024) else 255

/-- The accelerator's cell words with AGE filled from the contexts as read (R117). -/
def RecSlot.accelWords (r : RecSlot) : List Word64 :=
  let hs := r.heads.getD []
  (List.range 1024).map (fun n =>
    BitVec.ofNat 64 ((hs.getD n (0, 0)).1.toNat % 2 ^ 56 + 2 ^ 56 * ageOf r.stroke (smGet (fun _ => r.dctx) r.snap n)))

/-- FLAGS of a record (R116). -/
def RecSlot.flags (r : RecSlot) (latched : Bool) : Nat :=
  b2n (decide (r.shed ≠ 0)) + 2 * b2n (decide (r.drop ≠ 0)) + 4 * b2n (decide (r.fail ≠ 0)) + 8 * b2n r.rolled +
    16 * b2n r.prPend + 32 * b2n r.mixed + 64 * b2n latched

/-- The bytes of a record as finally handed out (R115, R118): `compat` for the LS4210-compatible format, `src` the
SOURCE. -/
def RecSlot.bytes (r : RecSlot) (compat : Bool) (src : Nat) (latched : Bool) (words : List Word64) : List Byte :=
  let (tx, ty) := tileOf r.stroke
  let head := toLE 2 0x4C54 ++ toLE 1 (if compat then 1 else 2) ++ toLE 1 src ++ toLE 2 (tx + 32 * ty) ++
    toLE 2 (r.flags latched) ++ toLE 8 r.stroke.toNat ++ toLE 8 r.time ++ toLE 4 r.frame.toNat ++ toLE 4 (wrapN 32 r.ox) ++
    toLE 4 (wrapN 32 r.oy)
  let rest := if compat then zeros 24 else
    toLE 2 r.cov ++ toLE 2 r.covLast ++ toLE 4 r.offLast ++ toLE 4 r.mrgLast ++ toLE 2 r.shed ++ toLE 2 r.drop ++
      toLE 2 r.fail ++ toLE 2 r.ver ++ zeros 4
  let body := words.flatMap (fun w => toLE (if compat then 4 else 8) w.toNat)
  let crc := crc32c (head ++ rest ++ zeros 4 ++ body)
  head ++ rest ++ toLE 4 crc ++ body

/-! ### Contexts as bytes (R106), for reads through BAR2 -/

/-- The 64 bytes of a context. -/
def Ctx.bytes (c : Ctx) : List Byte :=
  toLE 4 c.a0.toNat ++ toLE 4 c.a1.toNat ++ toLE 4 c.a2.toNat ++ toLE 4 c.a3.toNat ++ toLE 8 c.temp.toNat ++
    toLE 6 c.lastSeen.toNat ++ toLE 1 (b2n c.seen + 2 * b2n c.prPend + 4 * b2n c.prDef + 8 * b2n c.prGen) ++
    toLE 1 c.hits ++ toLE 32 c.prior.toNat

/-- CM_STATUS (R120): BLOCK is the block in flight until it completes, and 0 with no reload. (DESIGN CHOICE, log entry
144.) -/
def Dev.cmStatus (d : Dev) : Word :=
  let (rel, blk) : Bool × Nat := match d.cm.reload with
    | some r => (true, r.next)
    | none => (false, 0)
  BitVec.ofNat 32 (b2n d.cm.roll.isSome + 2 * b2n rel + 4 * b2n d.cm.gen + 8 * blk)

end Sys2Proof.Machine
end

