-- ==== Sys2Proof/Machine/Levels.lean ====
section
/-! DEFINITION. The level merger (07 R187 to R191): coarse sites, its lists, the work-set header; and the groups of a
work set and their dispatch (08 R212 to R214). -/

namespace Sys2Proof.Machine

/-! ### Coarse levels (R187 to R190) -/

/-- LEVELS (R187). -/
def Dev.levels (d : Dev) : Nat := d.rf AG_LVL_CFG 0 2

/-- The offsets of a 125-bit kernel mask in ascending bit order (R190). -/
def kernelOffsets (mask : Nat) : List (Int × Int × Int) :=
  ((List.range 125).filter (fun n => bitOf mask n)).map
    (fun n => (((n % 5 : Nat) : Int) - 2, ((n / 5 % 5 : Nat) : Int) - 2, ((n / 25 : Nat) : Int) - 2))

/-- The kernel mask of a coarse level. -/
def Dev.kernelMask (d : Dev) (l : Nat) : Nat :=
  let k := d.rf (AG_LVL_KERNEL (l - 1)) 0 4
  (List.range 4).foldl (fun m w => m + (d.rd (AG_KERNEL_MASK k w)).toNat * 2 ^ (32 * w)) 0

/-- The kernel offsets of a level's neighbour lists: the grid builder's at level 0. -/
def Dev.lvlOffsets (d : Dev) (l : Nat) : List (Int × Int × Int) :=
  if l = 0 then nbrOffsets (d.rf GB_NBR_MASK 0 27) else kernelOffsets (d.kernelMask l)

/-- A level-ℓ neighbour word against a run set (R189, R97): biased indices of 21 − ℓ bits. -/
def lvlNbrWord (l : Nat) (set : List SiteRun) (own : List Nat) (k : Nat) (o : Int × Int × Int) : Nat :=
  let x := (gather3 21 k : Int) + o.1
  let y := (gather3 21 (k / 2) : Int) + o.2.1
  let z := (gather3 21 (k / 4) : Int) + o.2.2
  let ok (i : Int) := decide (0 ≤ i) && decide (i < 2 ^ (21 - l))
  if ok x && ok y && ok z then
    let nk := morton x.toNat y.toNat z.toNat
    match runFind set nk with
    | none => 0
    | some h => h % 2 ^ 23 + 2 ^ 23 * b2n (!(own.contains nk)) + 2 ^ 31
  else 0

/-- Indices that a frame may use at a level (R188, R191 of the golden sector). -/
def Dev.lvlCap (d : Dev) (gold : Bool) (l : Nat) : Nat := if gold then 2048 else d.rf (AG_LVL_CAP (l - 1)) 0 21

/-- First index of a frame at a level (R188). -/
def Dev.lvlBase (d : Dev) (gold : Bool) (l : Nat) (frame : BitVec 32) : Nat :=
  if gold then 0 else frame.toNat % 2 * d.lvlCap false l

/-- The run set of a commit's frame at a level. -/
def Dev.lvlSet (d : Dev) (gold : Bool) (frame : BitVec 32) (l : Nat) : List SiteRun :=
  smGet (fun _ => []) (if gold then d.ag.lvGold else if frame = d.tm.frame then d.ag.lvCur else d.ag.lvPrev) l

/-- A run set replaced. -/
def Dev.setLvlSet (d : Dev) (gold : Bool) (frame : BitVec 32) (l : Nat) (m : List SiteRun) : Dev :=
  let put (s : SMap (List SiteRun)) := smSet (fun _ => ([] : List SiteRun)) s l m
  if gold then { d with ag := { d.ag with lvGold := put d.ag.lvGold } }
  else if frame = d.tm.frame then { d with ag := { d.ag with lvCur := put d.ag.lvCur } }
  else { d with ag := { d.ag with lvPrev := put d.ag.lvPrev } }

/-- The place of a coarse site entry (R188): core and tile-plane offset. -/
def Dev.entryAt (d : Dev) (l idx : Nat) : Nat × Nat :=
  (idx % 32, 32 * d.rf (AG_LVL_ENTRY (l - 1)) 0 18 + idx / 32 * 40)

/-- A coarse site entry written anew: KEY, every CHILD invalid (R188, R189). -/
def Dev.entryNew (d : Dev) (gold : Bool) (l idx key : Nat) : Dev :=
  if gold then { d with ag := { d.ag with goldEnt := smSet (fun _ => []) d.ag.goldEnt (2048 * l + idx) (List.replicate 8 0) } }
  else
    let (c, off) := d.entryAt l idx
    d.unschedWrite c false off (toLE 8 (key + 2 ^ 63) ++ zeros 32)

/-- One CHILD word of an entry. -/
def Dev.entryChild (d : Dev) (gold : Bool) (l idx code word : Nat) : Dev :=
  if gold then
    let e := smGet (fun _ => []) d.ag.goldEnt (2048 * l + idx)
    { d with ag := { d.ag with goldEnt := smSet (fun _ => []) d.ag.goldEnt (2048 * l + idx) (setAt e code word) } }
  else
    let (c, off) := d.entryAt l idx
    d.unschedWrite c false (off + 8 + 4 * code) (toLE 4 word)

/-- The eight CHILD words of an entry of the golden level table. -/
def Dev.goldChildren (d : Dev) (l idx : Nat) : List Nat :=
  smGet (fun _ => List.replicate 8 0) d.ag.goldEnt (2048 * l + idx)

/-- The eight CHILD words of an entry. -/
def Dev.entryChildren (d : Dev) (gold : Bool) (l idx : Nat) : List Nat × Dev :=
  if gold then (d.goldChildren l idx, d)
  else
    let (c, off) := d.entryAt l idx
    let (bs, _, d) := d.planeGet c false (off + 8) 32
    ((List.range 8).map (fun n => leAt bs (4 * n) 4), d)

/-- The CHILD words of entries in turn. -/
def Dev.childWords (gold : Bool) (l : Nat) : List Site → Dev → List Nat × Dev
  | [], d => ([], d)
  | x :: r, d =>
    let (ws, d) := d.entryChildren gold l x.handle
    let (rest, d) := Dev.childWords gold l r d
    (ws ++ rest, d)

/-- What the merger writes for one level: the coarse work set (key, index, new), and the four lists' words. -/
structure LvlOut where
  sites : List Site
  parent : List Nat
  child : List Nat
  nbr : List Nat
  deriving DecidableEq, Repr

/-- `level_merge` of R189 for level l over the work set of level l − 1. -/
def Dev.levelMerge (d : Dev) (gold : Bool) (frame : BitVec 32) (l : Nat) (a : List Site) : Dev × LvlOut :=
  let b := (a.map (fun x => x.key / 8)).eraseDups
  let cap := d.lvlCap gold l
  let base := d.lvlBase gold l frame
  let set := d.lvlSet gold frame l
  let step (q : Dev × Nat × List Site) (k : Nat) : Dev × Nat × List Site :=
    let (d, n, out) := q
    match runFind set k with
    | some i => (d, n, out ++ [{ key := k, handle := i, new := false }])
    | none =>
      if n < cap then
        (d.entryNew gold l (base + n) k, n + 1, out ++ [{ key := k, handle := base + n, new := true }])
      else (d.bump AG_LVL_DROP, n, out)
  let (d, _, sites) := b.foldl step (d, runCount set, [])
  let m := runAdd ((sites.filter (fun x => x.new)).map (fun x => (x.key, x.handle))) set
  let idx (k : Nat) : Option Nat := (sites.find? (fun x => decide (x.key = k))).map (fun x => x.handle)
  let parent := a.map (fun x => match idx (x.key / 8) with
    | some i => i % 2 ^ 23 + 2 ^ 23 * (x.key % 8) + 2 ^ 31
    | none => 0)
  let d := a.foldl (fun d x => match idx (x.key / 8) with
    | some i => d.entryChild gold l i (x.key % 8) (x.handle % 2 ^ 23 + 2 ^ 31)
    | none => d) d
  let d := d.setLvlSet gold frame l m
  let own := sites.map (fun x => x.key)
  let offs := d.lvlOffsets l
  let (child, d) := Dev.childWords gold l sites d
  (d, { sites := sites, parent := parent, child := child,
        nbr := sites.flatMap (fun x => offs.map (fun o => lvlNbrWord l m own x.key o)) })

/-- Every configured level in turn (R187), from the work set of the level below. -/
def Dev.allLevels (d : Dev) (gold : Bool) (frame : BitVec 32) : Nat → Nat → List Site → Dev × List LvlOut
  | 0, _, _ => (d, [])
  | n + 1, l, a =>
    let (d, o) := d.levelMerge gold frame l a
    let (d, r) := d.allLevels gold frame n (l + 1) o.sites
    (d, o :: r)

/-! ### The list area and the header (R191) -/

/-- The words of a list as bytes, filled up to 16. -/
def listBytes (ws : List Nat) : List Byte := padTo 16 (ws.flatMap (toLE 4))

/-- Bytes of a list of n words in the area. -/
def listLen (n : Nat) : Nat := (4 * n + 15) / 16 * 16

/-- A sector's lists in the area, in order of processing (R191; log entry 30): the level-0 work and neighbour lists,
then for each level the coarse work, parent, child and neighbour lists. -/
def sectorLists (c : Commit) (os : List LvlOut) : List Byte :=
  listBytes (workList c.sites) ++ listBytes c.nbr ++
    os.flatMap (fun o => listBytes (workList o.sites) ++ listBytes o.parent ++ listBytes o.child ++ listBytes o.nbr)

/-- The work-set header (R191). -/
def wsetHeader (c : Commit) (os : List LvlOut) (units : Nat) : List Byte :=
  let gold := decide (c.id.stream = goldStream)
  let counts := c.sites.length :: os.map (fun o => o.sites.length)
  toLE 6 c.v.toNat ++ toLE 2 (c.id.sector % 2 ^ 14) ++ toLE 4 c.frame.toNat ++
    toLE 1 (if gold then 64 else c.id.stream % 64) ++ toLE 1 (c.prio % 16) ++ zeros 2 ++
    (List.range 4).flatMap (fun n => toLE 2 (counts.getD n 0)) ++ toLE 4 units ++ toLE 4 c.ord

/-- Where the lists of a sector come to lie: the next free units of the area, from its base again where they do not fit
its size (DESIGN CHOICE, log entry 30). -/
def Dev.areaFor (d : Dev) (bytes : Nat) : Nat :=
  let size := d.rf AG_WSET_SIZE 0 20
  if size ≠ 0 ∧ d.ag.area + bytes / 16 > size then 0 else d.ag.area

/-! ### Dispatch (R212 to R214) -/

/-- Offsets in bytes, from the sector's first list, of the lists of each level: work, source, parent, child (R287); 0
where the level has none. `ks` kernel sizes, `es` entries per level. -/
def listOffs (ks es : List Nat) : Nat → Nat → Nat → List (Nat × Nat × Nat × Nat)
  | 0, _, _ => []
  | n + 1, l, at_ =>
    let e := es.getD l 0
    let work := at_
    let par := work + listLen e
    if l = 0 then
      let nbr := par
      let next := nbr + listLen (ks.getD 0 0 * e)
      (work, nbr, 0, 0) :: listOffs ks es n 1 next
    else
      let child := par + listLen (es.getD (l - 1) 0)
      let nbr := child + listLen (8 * e)
      let next := nbr + listLen (ks.getD l 0 * e)
      (work, nbr, par, child) :: listOffs ks es n (l + 1) next

/-- Whether a program of a crew has a TURN of a level (R291, R292): stages and their levels come from the program
image. -/
def progHasTurn (bs : List Byte) (level : Nat) : Bool :=
  let n := leAt bs 2 2
  (List.range n).any (fun i =>
    let s := leAt bs (32 + 32 * i) 4
    decide (bits s 5 4 = 1) && decide (bits s 4 1 = 0) && decide (bits s 14 2 = level))

/-- The STAGE of a level in a program, where it has a TURN of that level. -/
def progStage (bs : List Byte) (level : Nat) : Option Nat :=
  let n := leAt bs 2 2
  ((List.range n).map (fun i => leAt bs (32 + 32 * i) 4)).findSome? (fun s =>
    if bits s 5 4 = 1 ∧ bits s 4 1 = 0 ∧ bits s 14 2 = level then some (bits s 9 5) else none)

/-- The replica crews of a level's stage (R213; log entry 31): the crews of whose programs one turns that level. -/
def Dev.replicas (d : Dev) (level : Nat) : List Nat :=
  (List.range 4).filter (fun k => (List.range 16).any (fun s =>
    progHasTurn (smGet (fun _ => []) d.cw.progs (16 * k + s)) level))

/-- The groups of a work set at one level (R212): bound to core 8c + (n mod 8) of crew c (R213). -/
def groupsOf (g : Group) (base : Nat) (offs : Nat × Nat × Nat × Nat) (k kpar : Nat) : List Group :=
  let eng (o stride n : Nat) : Nat := 2 ^ 31 + 0x6000000 + base + o + stride * 128 * n
  (List.range ((g.total + 127) / 128)).map (fun n =>
    let parent := if kpar = 0 then 0 else eng kpar 4 n
    { g with
      n := n, count := min 128 (g.total - 128 * n),
      lists := [eng offs.1 4 n, eng offs.2.1 (4 * k) n, parent, if offs.2.2.2 = 0 then 0 else eng offs.2.2.2 32 n] })

/-- Groups held by a core's slots. -/
def Dev.slotsUsed (d : Dev) (c : Nat) : Nat := smGet (fun _ => 0) d.cw.seq.slots c

/-- A header read: identity, verdict, frame, ordinal, counts, first list (R191). -/
def Dev.headerGroups (d : Dev) (h : List Byte) : List (Nat × Group) × LiveSec :=
  let gold := bitOf (leAt h 12 1) 6
  let id : SecId := ⟨if gold then goldStream else leAt h 12 1 % 64, 0, leAt h 6 2 % 2 ^ 14⟩
  let ord := leAt h 28 4
  let base := 16 * leAt h 24 4
  let es := (List.range 4).map (fun n => leAt h (16 + 2 * n) 2)
  let ks := (List.range 4).map (fun l => (d.lvlOffsets l).length)
  let offs := listOffs ks es (d.levels + 1) 0 0
  let v : Stroke := BitVec.ofNat 48 (leAt h 0 6)
  let fr : BitVec 32 := BitVec.ofNat 32 (leAt h 8 4)
  let gs := (List.range (d.levels + 1)).flatMap (fun l =>
    let rs := d.replicas l
    if rs.isEmpty then []
    else
      let crew := rs.getD (ord % rs.length) 0
      let g : Group := { id := id, frame := fr, ord := ord, verdict := v, level := l, total := es.getD l 0 }
      let kpar := (offs.getD (l + 1) (0, 0, 0, 0)).2.2.1
      (groupsOf g base (offs.getD l (0, 0, 0, 0)) (ks.getD l 0) kpar).map (fun g => (crew, g)))
  (gs, { id := id, frame := fr, ord := ord, v := v, left := gs.length })

/-- The dispatch queue's key of a group in a crew: its level, or the golden queue (R292). -/
def queueKey (crew : Nat) (g : Group) : Nat := 8 * crew + if g.id.stream = goldStream then 4 else g.level

/-- A group placed in a crew's queue. -/
def SeqChk.enqueue (q : SeqChk) (crew : Nat) (g : Group) : SeqChk :=
  let key := queueKey crew g
  { q with queues := smSet (fun _ => []) q.queues key (smGet (fun _ => []) q.queues key ++ [g]) }

/-- The sector of a header as the commits know it: the sweep is not in the header, so the sequencer keeps it beside the
header (DESIGN CHOICE, log entry 32). -/
def Dev.sectorOf (d : Dev) (l : LiveSec) : SecId × Stroke :=
  match d.ag.sent.find? (fun c => decide (c.id.stream = l.id.stream) && decide (c.frame = l.frame) &&
      decide (c.ord = l.ord)) with
  | some c => (c.id, c.last)
  | none => (l.id, l.v)

/-- BACKBONE_DONE (R313) of a scene sector whose every group has been released. -/
def Dev.backboneDone (d : Dev) (l : LiveSec) : Dev :=
  if l.id.stream = goldStream then d else d.sectEv .backboneDone l.id l.frame l.ord l.last l.v

/-- Whether the sector of a header has been cancelled (R353). -/
def Dev.headerGone (d : Dev) (l : LiveSec) : Bool :=
  d.ag.sent.any (fun c => decide (c.id.stream = l.id.stream) && decide (c.frame = l.frame) && decide (c.ord = l.ord) &&
    c.cancelled)

/-- The header at the tail of the work-set ring dispatched, where its groups find free slots (R213, R214); that of a sector that
has been cancelled is taken without a group (R353). -/
def Dev.dispatchOne (d : Dev) : Option Dev :=
  let wc := d.rf AG_WSET_CFG 0 5
  let wr := d.rf AG_WSET_CFG 5 5
  let g := d.ringDesc wc wr
  if g.slots = 0 then none
  else if d.getOk wc wr = false then none
  else
    let (h, d) := d.slotGet wc wr ((d.core wc).ring wr).tail 32
    let (gs, l) := d.headerGroups h
    let gone := d.headerGone l
    let gs := if gone then [] else gs
    let (id, last) := d.sectorOf l
    let l := { l with id := id, last := last }
    let gs := gs.map (fun p => (p.1, { p.2 with id := id }))
    let coreOf (p : Nat × Group) : Nat := 8 * p.1 + p.2.n % 8
    let need (c : Nat) : Nat := gs.countP (fun p => decide (coreOf p = c))
    if (List.range 32).any (fun c => decide (need c + d.slotsUsed c > 1024)) then none
    else
      let q := gs.foldl (fun (q : SeqChk) p => q.enqueue p.1 p.2) d.cw.seq
      let slots := (List.range 32).foldl (fun m c =>
        smSet (fun _ => 0) m c (smGet (fun _ => 0) m c + need c)) q.slots
      let q := { q with slots := slots, live := if gs.isEmpty then q.live else q.live ++ [l] }
      let d := { d with cw := { d.cw with seq := q } }
      let d := (d.drain wc wr).retryHeld wc wr
      some (if gs.isEmpty && !gone then d.backboneDone l else d)

/-- Headers dispatched in ring order until one has to wait (R214). -/
def Dev.dispatchN : Nat → Dev → Dev
  | 0, d => d
  | n + 1, d => match d.dispatchOne with
    | some d => Dev.dispatchN n d
    | none => d

/-- Every header that can be dispatched now. -/
def Dev.dispatch (d : Dev) : Dev := Dev.dispatchN 4096 d

/-- One commit processed for every level, its lists written, its header PUT (R187 to R191). -/
def Dev.mergeCommit (d : Dev) (c : Commit) : Dev :=
  let gold := decide (c.id.stream = goldStream)
  let (d, os) := d.allLevels gold c.frame d.levels 1 c.sites
  let bytes := sectorLists c os
  let at_ := d.areaFor bytes.length
  let units := d.rf AG_WSET_AREA 0 20 + at_
  let sh : SentHdr := { id := c.id, frame := c.frame, ord := c.ord, last := c.last, v := c.v, merged := c.merged }
  let ag := { d.ag with area := at_ + bytes.length / 16, sent := (sh :: d.ag.sent).take 4096 }
  let d := { d with mem := memWrite d.mem (stagingAt (16 * units)) bytes, ag := ag }
  d.pushSlot (d.rf AG_WSET_CFG 0 5) (d.rf AG_WSET_CFG 5 5) (wsetHeader c os units)

/-- LEVEL_MERGE (R187 to R191): the next commit processed, its groups dispatched. -/
def levelMergeOp (d : Dev) : Dev :=
  match d.gb.commits with
  | [] => d
  | c :: r =>
    if d.accel = false ∨ d.planesFree = false then d
    else
      d.gridAccess (fun d =>
        let d := ({ d with gb := { d.gb with commits := r } } : Dev).mergeCommit c
        if d.crewsRun then d.dispatch else d)

end Sys2Proof.Machine
end

