-- ==== Sys2Proof/Machine/Arrays.lean ====
section
/-! DEFINITION. The matrix arrays (05_matrix_arrays, 11 R294 to R297): formats, waves and their reduction (R124, R135,
R138), shadow fills and swaps (R129 to R131), targets and jobs (R296), splitting (R140), aborts (R142), activity
(R143, R144), write-back (R137, R139). -/

namespace Sys2Proof.Machine

/-! ### Format pairs (R124, R132) -/

/-- A legal format pair. -/
def pairOk (a w : Nat) : Bool :=
  match a with
  | 0 => w == 0
  | 1 => w == 0
  | 2 => w == 2
  | 3 => w == 3 || w == 4
  | 4 => w == 3 || w == 4
  | 5 => w == 5 || w == 6
  | 6 => w == 5 || w == 6
  | 7 => w == 7
  | 8 => w == 8
  | _ => false

/-- Pairs that transposed mode takes (R138): INT8 with INT8, FP8 pairs, BF16 pairs. -/
def pairTransOk (a w : Nat) : Bool := pairOk a w && (a == 0 || a == 3 || a == 4 || a == 8)

/-- Whether a pair accumulates in FP32. -/
def pairFp (w : Nat) : Bool := decide (3 ≤ w)

/-- Whether a format carries block scales. -/
def isMx (w : Nat) : Bool := decide (5 ≤ w) && decide (w ≤ 7)

/-- The value of an 8-bit floating or MX element: E4M3, E5M2, or a MXINT8 number of units 2^-6 (R132). -/
def elemVal (fmt code : Nat) : FVal × Bool :=
  if fmt = 3 ∨ fmt = 5 then fUnpack fmtE4M3 code
  else if fmt = 4 ∨ fmt = 6 then fUnpack fmtE5M2 code
  else if fmt = 8 then fUnpack fmtBF16 code
  else (.fin (decide (sext 8 code < 0)) (sext 8 code).natAbs (-6), false)

/-- A product of two values, exact. -/
def fvMul : FVal → FVal → FVal
  | .fin n1 m1 e1, .fin n2 m2 e2 => .fin (n1 != n2) (m1 * m2) (e1 + e2)
  | _, _ => .nan

/-- A sum of two values, exact. -/
def fvAdd : FVal → FVal → FVal
  | .fin n1 m1 e1, .fin n2 m2 e2 => let (n, m, e) := fSumExact n1 m1 e1 n2 m2 e2; .fin n m e
  | _, _ => .nan

/-- `fp32()` of R135. -/
def fvF32 : FVal → Nat × FStat
  | .fin n m e => fRoundDy fmtF32 n m e
  | .nan => fNan fmtF32

/-- FP32 additions in order, counted (R133, R135). -/
def addChain (x : Nat × FStat) (l : List (Nat × FStat)) : Nat × FStat :=
  l.foldl (fun a b => let r := fAdd fmtF32 a.1 b.1; (r.1, (a.2.add b.2).add r.2)) x

/-! ### One column, one row (R135, R138) -/

/-- Operands of an integer dot product: activation INT8, UINT8, INT4; weight INT8, INT4. -/
def intElem (fmt byte nib : Nat) : Int :=
  match fmt with
  | 1 => (byte % 256 : Nat)
  | 2 => sext 4 (if nib = 0 then byte else byte / 16)
  | _ => sext 8 byte

/-- The integer sum of a wave (R135): exact, then wrapped to 32 bits. -/
def intDot (a w : Nat) (lanes ws : List Nat) : Nat :=
  let one (p : Nat × Nat) : Int :=
    if a = 2 then intElem 2 p.1 0 * intElem w p.2 0 + intElem 2 p.1 1 * intElem w p.2 1
    else intElem a p.1 0 * intElem w p.2 0
  wrapN 32 ((lanes.zip ws).foldl (fun s p => s + one p) 0)

/-- An exact group sum and the infinite inputs in it. -/
def groupSum (a w : Nat) (ps : List (Nat × Nat)) : FVal × Nat :=
  let xs := ps.map (fun p =>
    let (x, i) := elemVal a p.1
    let (y, j) := elemVal w p.2
    (fvMul x y, b2n i + b2n j))
  match xs with
  | [] => (.fin false 0 0, 0)
  | x :: r => r.foldl (fun s y => (fvAdd s.1 y.1, s.2 + y.2)) x

/-- A group sum scaled by the block scales' codes (R134, R135): 0xFF makes it NaN. -/
def scaleSum (v : FVal) (sa sw : Nat) : FVal :=
  if sa = 255 ∨ sw = 255 then .nan
  else match v with
    | .fin n m e => .fin n m (e + sa + sw - 254)
    | .nan => .nan

/-- The FP8 and MX group sums added in order (R135): groups of 32; for MX the scales of each group. -/
def fp8Dot (a w : Nat) (ps : List (Nat × Nat)) (sa sw : List Nat) (groups : Nat) : Nat × FStat :=
  let gs := (List.range groups).map (fun g =>
    let (v, i) := groupSum a w ((ps.drop (32 * g)).take 32)
    let v := if isMx w then scaleSum v (sa.getD g 0) (sw.getD g 0) else v
    let (x, st) := fvF32 v
    (x, { st with inf := st.inf + i }))
  match gs with
  | [] => (0, {})
  | x :: r => addChain x r

/-- The BF16 sums (R135, R138): products rounded one by one and added in sequence within groups of n. -/
def bfDot (ps : List (Nat × Nat)) (n : Nat) : Nat × FStat :=
  let prod (p : Nat × Nat) : Nat × FStat :=
    let (x, i) := elemVal 8 p.1
    let (y, j) := elemVal 8 p.2
    let (z, st) := fvF32 (fvMul x y)
    (z, { st with inf := st.inf + b2n i + b2n j })
  let group (g : Nat) : Nat × FStat :=
    match ((ps.drop (n * g)).take n).map prod with
    | [] => (0, {})
    | x :: r => addChain x r
  addChain (group 0) [group 1]

/-- Pairs of bytes as 16-bit codes, low byte first. -/
def halves : List Nat → List Nat
  | a :: b :: r => (a + 256 * b) :: halves r
  | _ => []

/-- Columns of an array or a half that a job computes, by place in the accumulator entry: BF16 column j at 2j.
(DEDUCED, log entry 80.) -/
def jobCols (w half : Nat) : List Nat :=
  let all := if w = 8 then (List.range 32).map (fun j => 2 * j) else List.range 64
  all.filter (fun j => decide (half = 0) || decide (j / 32 + 1 = half))

/-- An active weight byte of an array. -/
def CoreVol.wByte (v : CoreVol) (arr row j : Nat) : Nat := (smGet row0 v.wAct (128 * arr + row)).getD j 0

/-- A column of the active weights; of BF16, 64 rows of 16-bit weights. -/
def CoreVol.wCol (v : CoreVol) (arr w j : Nat) : List Nat :=
  if w = 8 then (List.range 64).map (fun i => v.wByte arr i j + 256 * v.wByte arr i (j + 1))
  else (List.range 128).map (fun i => v.wByte arr i j)

/-- `wave_column` of R135 for one accumulator column. -/
def CoreVol.waveCol (v : CoreVol) (arr : Nat) (job : Job) (f : Feed) (j : Nat) : Nat × FStat :=
  let ws := v.wCol arr job.w j
  if pairFp job.w then
    if job.w = 8 then bfDot ((halves f.lanes).zip ws) 32
    else fp8Dot job.a job.w (f.lanes.zip ws) f.scales
      ((List.range 4).map (fun g => (smGet row0 v.sAct (4 * arr + g)).getD j 0)) 4
  else (intDot job.a job.w f.lanes ws, {})

/-- The column inputs of an array in a transposed wave (R138): lane group k of the two issue cycles, the first of which carries
the lower half. (DESIGN CHOICE, log entry 148.) -/
def transIn (w arr : Nat) (f1 f2 : Feed) : List Nat :=
  let g (f : Feed) := (List.range 32).map (fun i => f.lanes.getD (32 * arr + i) 0)
  if w = 8 then halves (g f1) ++ halves (g f2) else g f1 ++ g f2

/-- The reduction of one array's row i in a transposed wave (R138). -/
def CoreVol.transRow (v : CoreVol) (arr : Nat) (job : Job) (f1 f2 : Feed) (i : Nat) : Nat × FStat :=
  let ins := transIn job.w arr f1 f2
  let ws := if job.w = 8 then (List.range 32).map (fun j => v.wByte arr i (2 * j) + 256 * v.wByte arr i (2 * j + 1))
    else (List.range 64).map (fun j => v.wByte arr i j)
  if pairFp job.w then
    if job.w = 8 then bfDot (ins.zip ws) 16 else fp8Dot job.a job.w (ins.zip ws) [] [] 2
  else (intDot job.a job.w ins ws, {})

/-- Two results added as an accumulator adds them: FP32, or INT32 with the wrap counted (R133, R135). -/
def accAdd (fp : Bool) (x y : Nat) : Nat × FStat :=
  if fp then fAdd fmtF32 x y
  else
    let s := sext 32 x + sext 32 y
    (wrapN 32 s, { wrap := b2n (decide (s < -(2 ^ 31)) || decide (s ≥ 2 ^ 31)) })

/-- The four arrays' row results added in ascending array number (R138). -/
def sumRows (fp : Bool) : List (Nat × FStat) → Nat × FStat
  | [] => (0, {})
  | x :: r => r.foldl (fun a b => let s := accAdd fp a.1 b.1; (s.1, (a.2.add b.2).add s.2)) x

/-- Events of the arrays added to the core's counters (R150). -/
def Dev.maStat (d : Dev) (c : Nat) (st : FStat) : Dev :=
  (((d.bump (MA_SAT c) st.sat).bump (MA_NAN c) st.nan).bump (MA_IN_INF c) st.inf).bump (MA_INT_WRAP c) st.wrap

/-! ### Targets (R294, R296) -/

/-- A core's target. -/
def CoreChk.tgt (k : CoreChk) (i : Nat) : Tgt := smGet (fun _ => {}) k.tgts i
/-- A target replaced. -/
def CoreChk.setTgt (k : CoreChk) (i : Nat) (t : Tgt) : CoreChk :=
  { k with tgts := smSet (fun _ => ({} : Tgt)) k.tgts i t }
/-- Whether an array is split (R140). -/
def CoreChk.isSplit (k : CoreChk) (arr : Nat) : Bool := smGet (fun _ => false) k.split arr

/-- The targets of an operation (R294): array, half (0 whole, 1 low, 2 high); none for a half of an array that is not
split. -/
def CoreChk.targets (k : CoreChk) (arrays half : Nat) : List (Nat × Option Nat) :=
  ((List.range 4).filter (fun a => bitOf arrays a)).flatMap (fun a =>
    if k.isSplit a then (if half = 0 then [(a, some 1), (a, some 2)] else [(a, some half)])
    else [(a, if half = 0 then some 0 else none)])

/-- The number of a target: 2 × array + half, a whole array as its low half. -/
def tgtNo (arr half : Nat) : Nat := 2 * arr + (half - 1)

/-- A core's target changed. -/
def Dev.modTgt (d : Dev) (c i : Nat) (f : Tgt → Tgt) : Dev :=
  let k := d.core c
  d.setCore c (k.setTgt i (f (k.tgt i)))

/-! ### Job aborts (R141, R142) -/

/-- Whether a job has been aborted (R142). -/
def CoreChk.jobDead (k : CoreChk) (j : Job) : Bool := k.dead.contains j.id

/-- The sectors of a job as its target, where it still runs there, and an older copy of it know them. -/
def CoreChk.jobSecs (k : CoreChk) (i : Nat) (j : Job) : List SecId :=
  match (k.tgt i).run with
  | some r => if r.id = j.id then r.secs else j.secs
  | none => j.secs

/-- JOB_ABORT (R142, R351) of a job of a target: from now on its waves are dummy waves and its write-backs suppressed, and
its digests are invalid; `bit` is the fault's own bit in MA_COREnn_FAULT. A job that is aborted already detects nothing
more (R143). -/
def Dev.abortOf (d : Dev) (c arr half : Nat) (bit : Option Nat) (j : Job) : Dev :=
  let k := d.core c
  if k.jobDead j then d
  else
    let i := tgtNo arr half
    let secs := k.jobSecs i j
    let d := match bit with
      | some b => d.hwOr (MA_CORE_FAULT c) (2 ^ b)
      | none => d
    let d := d.setCore c { k with
      dead := j.id :: k.dead
      dig := k.dig.map (fun (g : DigOpen) => if secs.contains g.grp.id then { g with invalid := true } else g) }
    let d := { d with lg := { d.lg with digs := d.lg.digs.map (fun (g : DigAcc) =>
      if secs.contains g.id then { g with invalid := true } else g) } }
    let d := (d.hwN (MA_CORE_LAST_JOB c) (j.no + 2 ^ 16 * i)).bump (MA_JOB_ABORT c)
    (d.hwOr (MA_CORE_FAULT c) ((if half = 0 then 3 else 1) * 2 ^ i)).report
      { src := 0x17, unit := unitOf 0 c, detail := j.no, cancel := secs }

/-- Whether a mask of halves, bit 2 × array + half, names a target. -/
def hitsTgt (mask arr half : Nat) : Bool :=
  if half = 0 then bitOf mask (2 * arr) || bitOf mask (2 * arr + 1) else bitOf mask (2 * arr + half - 1)

/-- The running job of a target aborted. -/
def Dev.jobAbort (d : Dev) (c arr half : Nat) (bit : Option Nat) : Dev :=
  match ((d.core c).tgt (tgtNo arr half)).run with
  | none => d
  | some j => d.abortOf c arr half bit j

/-- An error found at an entry of a target that no wave has entered since its core began (R141): the running job of the
target is aborted; where none runs the fault's own bit alone is set. (DEDUCED, log entry 82.) -/
def Dev.abortIdle (d : Dev) (c arr half : Nat) (bit : Option Nat) : Dev :=
  match ((d.core c).tgt (tgtNo arr half)).run, bit with
  | none, some b => d.hwOr (MA_CORE_FAULT c) (2 ^ b)
  | _, _ => d.jobAbort c arr half bit

/-- The transposed job of a wave or an entry aborted: the jobs of the four arrays (R141). -/
def Dev.abortRows (d : Dev) (c : Nat) (js : List Job) : Dev :=
  (js.mapIdx (fun a j => (a, j))).foldl (fun d p => d.abortOf c p.1 0 (some 16) p.2) d

/-! ### Activity (R143, R144) -/

/-- An array's activity. -/
def CoreVol.arr (v : CoreVol) (i : Nat) : ArrAct := smGet (fun _ => {}) v.arrs i
/-- An array's activity replaced. -/
def Dev.setArr (d : Dev) (c i : Nat) (a : ArrAct) : Dev :=
  let v := d.vol c
  d.setVol c { v with arrs := smSet (fun _ => ({} : ArrAct)) v.arrs i a }

/-- Dummy waves of an array at level 8 counted up to a schedule cycle (R143). -/
def Dev.countDummy (d : Dev) (c i now : Nat) : Dev :=
  let a := (d.vol c).arr i
  if a.level = 8 ∧ a.counted < now then (d.bump (MA_DUMMY c) (now - a.counted)).setArr c i { a with counted := now }
  else d

/-- A wave wakes arrays that are below level 8 (R144): they rise together, and the crew freezes until the last of them is
at level 8. -/
def Dev.rampFreeze (d : Dev) (c : Nat) (arrs : List Nat) (now : Nat) : Dev :=
  let low := arrs.filter (fun i => decide (((d.vol c).arr i).level < 8))
  match low with
  | [] => d
  | _ =>
    let need (i : Nat) : Nat :=
      let a := (d.vol c).arr i
      (if a.rising then a.stepAt - now else 32) + 32 * (7 - a.level)
    let n := low.foldl (fun m i => max m (need i)) 0
    let d := low.foldl (fun (d : Dev) i =>
      d.setArr c i { (d.vol c).arr i with level := 8, rising := false, last := now, counted := now }) d
    (d.bump (MA_RAMP_FREEZE c) n).freeze c now n

/-- Arrays made ready for a wave: woken (R144), their dummy waves counted, their idle counts restarted. -/
def Dev.readyArrs (d : Dev) (c : Nat) (arrs : List Nat) (now : Nat) : Dev :=
  arrs.foldl (fun (d : Dev) i =>
    let d := d.countDummy c i now
    d.setArr c i { (d.vol c).arr i with last := now, counted := now + 1 }) (d.rampFreeze c arrs now)

/-- WAKE (R143, R295): each named array below level 8 starts its ramp. -/
def wakeOp (c cyc arrays : Nat) (d : Dev) : Dev :=
  d.bundleOp c cyc (fun now d =>
    ((List.range 4).filter (fun i => bitOf arrays i)).foldl (fun d i =>
      let a := (d.vol c).arr i
      if a.level < 8 ∧ a.rising = false then d.setArr c i { a with rising := true, stepAt := now + 32 } else d) d)

/-- The activity of the arrays alone, on their way down (R464): what a stop leaves of cores and crews. -/
def CrewSide.ramps (c : CrewSide) : SMap CoreVol :=
  smMap vol0 (fun _ v => { arrs := smMap (fun _ => {}) (fun _ (a : ArrAct) => { level := a.level }) v.arrs }) c.vol

/-- Whether every array stands at level 0. -/
def CrewSide.rampedDown (c : CrewSide) : Bool :=
  c.vol.all (fun v => v.2.arrs.all (fun a => decide (a.2.level = 0)))

/-- ARRAY_RAMP_STEP (R143): 32 cycles after the last step of a ramp-up the level rises by 1; after 64 idle cycles and
each further 32 it falls by 1. Arrays that a restart, a device-fatal condition, maintenance mode or RESET_N stops ramp down
step by step (R464). -/
def arrayRampStep (c cyc i : Nat) (d : Dev) : Dev :=
  if d.flt.fatal ∨ d.flt.phase = .stop ∨ d.hi.maint ∨ d.pm.held then
    let a := (d.vol c).arr i
    d.setArr c i { a with level := a.level - 1, rising := false }
  else d.bundleOp c cyc (fun now d =>
    let a := (d.vol c).arr i
    if a.rising then
      if a.stepAt ≤ now then
        if a.level + 1 ≥ 8 then d.setArr c i { a with level := 8, rising := false, last := now, counted := now }
        else d.setArr c i { a with level := a.level + 1, stepAt := a.stepAt + 32 }
      else d
    else if 0 < a.level ∧ a.last + 64 + 32 * (9 - a.level) ≤ now then
      let d := d.countDummy c i now
      d.setArr c i { (d.vol c).arr i with level := a.level - 1 }
    else d)

/-! ### JOB, SPLIT, FILL (R295) -/

/-- ARRAY_STATE (R296, R308). (DEDUCED, log entry 81.) -/
def Dev.arrayState (d : Dev) (c cyc bslot : Nat) : Dev := d.coFault c 3 bslot cyc 0x16
/-- FORMAT_ILLEGAL (R124, R132, R138). -/
def Dev.formatIllegal (d : Dev) (c : Nat) : Dev := d.maFault c 18 0x16 0
/-- SHADOW_HAZARD (R131). -/
def Dev.shadowHazard (d : Dev) (c : Nat) : Dev := d.maFault c 17 0x16 0

/-- JOB (R295, R296): the target's pending job. -/
def jobOp (c cyc arr half a w no : Nat) (d : Dev) : Dev :=
  d.bundleOp c cyc (fun _ d =>
    let ts := (d.core c).targets (2 ^ arr) half
    if a ≥ 10 ∨ w ≥ 10 then d.formatIllegal c
    else if ts.any (fun t => t.2.isNone) then d.arrayState c cyc 2
    else
      ts.foldl (fun (d : Dev) t =>
        let k := d.core c
        let i := tgtNo t.1 (t.2.getD 0)
        let j : Job := { no := no, id := k.jobs, a := a, w := w }
        d.setCore c { k.setTgt i { k.tgt i with pend := some j } with jobs := k.jobs + 1 }) d)

/-- SPLIT (R140, R296): arrays that are idle, without pending job and without wave in flight, are split or made whole.
(DEDUCED, log entry 95.) -/
def splitOp (c cyc arrays value : Nat) (d : Dev) : Dev :=
  d.bundleOp c cyc (fun now d =>
    let is := (List.range 4).filter (fun i => bitOf arrays i)
    let k := d.core c
    let idle (n : Nat) : Bool := (k.tgt n).run.isNone && (k.tgt n).pend.isNone
    let flying (i : Nat) : Bool :=
      (d.vol c).waves.any (fun w => decide (w.arr = i ∨ w.arr = 4) && decide (now < w.due))
    if is.all (fun i => idle (2 * i) && idle (2 * i + 1) && !(flying i)) then
      d.setCore c { k with split := is.foldl (fun m i => smSet (fun _ => false) m i (bitOf value i)) k.split }
    else d.arrayState c cyc 2)

/-- The reads of a shadow fill (R129, R295): a read for each 16 rows, and one of the block scales. -/
def fillCount (w layout : Nat) : Nat := (if w = 8 then 4 else 8) + (if isMx w ∧ layout = 0 then 1 else 0)

/-- The granules of read r of a shadow fill, in the order of the access: a line from BASE on, or of a COLUMN of 64 lines
granule G + r; the scales fill 16 granules after the tile. -/
def fillGrans (off layout stride r : Nat) : List Nat :=
  if layout = 0 then (List.range (if r = 8 then 16 else 64)).map (fun i => 16 * (off / 16 + 64 * r + i))
  else (List.range 64).map (fun n => 1024 * (off / 1024 + n * stride) + 16 * (off / 16 % 64 + r))

/-- What read r of a shadow fill delivers to a target. -/
def fillKind (arr half off layout stride r : Nat) : ReadKind :=
  if layout = 0 then
    if r = 8 then .fillScale arr half (off + 8192) else .fillLin arr half (16 * r) (off + 1024 * r)
  else .fillCol arr half (16 * r) (off / 1024) (off / 16 % 64 + r) stride

/-- Whether every granule of n reads lies in the plane; of a COLUMN, in its lines. -/
def fillInRange (off layout stride n : Nat) : Bool :=
  (List.range n).all (fun r => (fillGrans off layout stride r).all (fun g => decide (g + 16 ≤ planeSize false))) &&
    (decide (layout = 0) || decide (off / 16 % 64 + n ≤ 64))

/-- Schedule cycles from a fill's issue to its completion (R129). -/
def fillCycles (w : Nat) : Nat := if w = 8 then 12 else if isMx w then 17 else 16

/-- The reads of a shadow fill scheduled: read r has its bank cycle r cycles after the issue, and its data is due 8 later
(R158); both halves of an array take what one read delivers. -/
def Dev.fillSched (d : Dev) (c now arr off layout stride : Nat) (js : List (Nat × Job)) (es : List Ecc) (n : Nat) : Dev :=
  (List.range n).foldl (fun (d : Dev) r =>
    let gs := fillGrans off layout stride r
    let d := d.occupy c false (now + r) (gs.map (fun g => tileBank (g / 16)))
    let (o, d) := d.readEcc c false (fun g => gs.getD g 0) (now + r + 8) (es.getD r {})
    let take := js.filter (fun p => decide (r < fillCount p.2.w layout))
    let v := d.vol c
    d.setVol c { v with reads := v.reads ++ take.map (fun p =>
      ({ at_ := now + r, kind := fillKind arr p.1 off layout stride r, open_ := o } : PRead)) }) d

/-- FILL (R129, R131, R295, R296): the pending job of each target gives the weight format. `es` is what each read meets,
`bad` names halves with a parity error found at the fill. -/
def fillOp (c cyc arr half base : Nat) (inc : Bool) (layout stride : Nat) (es : List Ecc) (bad : Nat) (d : Dev) : Dev :=
  d.bundleOp c cyc (fun now d =>
    let k := d.core c
    let a := k.addr base 0 false
    let ts := k.targets (2 ^ arr) half
    let js := ts.filterMap (fun t => t.2.bind (fun h => (k.tgt (tgtNo arr h)).pend.map (fun j => (h, j))))
    let n := js.foldl (fun m p => max m (fillCount p.2.w layout)) 0
    if js.length < ts.length then d.arrayState c cyc 2
    else
    let d := d.arStep c now base 1 0 inc
    match localOff false a with
    | none => d.planeRange c false a
    | some off =>
      if js.any (fun p => match (k.tgt (tgtNo arr p.1)).swapAt with
          | some s => decide (now < s + 130)
          | none => false) then d.shadowHazard c
      else if fillInRange off layout stride n = false then d.planeRange c false off
      else if (List.range n).any (fun r => (fillGrans off layout stride r).any (fun g => !(d.powered c false g))) then
        d.tpFault c 1 false off 0 0x16
      else
        let d := d.fillSched c now arr off layout stride js es n
        let d := js.foldl (fun (d : Dev) p =>
          d.modTgt c (tgtNo arr p.1) (fun t => { t with fillEnd := now + fillCycles p.2.w })) d
        let d := d.sync c now
        js.foldl (fun (d : Dev) p => if hitsTgt bad 0 p.1 then d.abortOf c arr p.1 none p.2 else d) d)

/-! ### Waves (R294) -/

/-- The active and the shadow set of an array or a half exchanged (R130). -/
def CoreVol.swap (v : CoreVol) (arr half : Nat) : CoreVol :=
  let ex (n b : Nat) (m : SMap (List Nat) × SMap (List Nat)) : SMap (List Nat) × SMap (List Nat) :=
    (List.range n).foldl (fun m r =>
      let a := smGet row0 m.1 (b + r)
      let s := smGet row0 m.2 (b + r)
      (smSet row0 m.1 (b + r) (halfRow half a s), smSet row0 m.2 (b + r) (halfRow half s a))) m
  let (a, s) := ex 128 (128 * arr) (v.wAct, v.wSh)
  let (sa, ss) := ex 4 (4 * arr) (v.sAct, v.sSh)
  { v with wAct := a, wSh := s, sAct := sa, sSh := ss }

/-- SWAP of one target (R130, R131). -/
def Dev.swapOne (d : Dev) (c now arr half : Nat) : Dev :=
  let i := tgtNo arr half
  let t := (d.core c).tgt i
  if now < t.fillEnd then d.shadowHazard c
  else
    let d := d.setVol c ((d.vol c).swap arr half)
    d.modTgt c i (fun t => { t with swapAt := some now })

/-- The activation format that the other half of an array will run with agrees (R140): that of its running job, or of the
job that begins with the same wave. -/
def CoreChk.otherOk (k : CoreChk) (arr half a : Nat) (both : Bool) : Bool :=
  if half = 0 then true
  else
    let t := k.tgt (2 * arr + (2 - half))
    match (if both then t.pend else t.run) with
    | some j => decide (j.a = a)
    | none => true

/-- What a wave finds at a target (R124, R138, R294, R296): a job to begin, or a running one, of formats that its mode
takes: 0; no such job: 1; other formats: 2. -/
def CoreChk.waveCheck (k : CoreChk) (arr : Nat) (half : Option Nat) (trans begin_ both : Bool) : Nat :=
  match half with
  | none => 1
  | some h =>
    let t := k.tgt (tgtNo arr h)
    match (if begin_ then t.pend else t.run) with
    | none => 1
    | some j =>
      let ok := if trans then pairTransOk j.a j.w && decide (h = 0)
        else pairOk j.a j.w && (!begin_ || k.otherOk arr h j.a both)
      if ok then 0 else 2

/-- BEGIN of one target (R294, R296): its pending job runs. -/
def Dev.beginOne (d : Dev) (c arr half : Nat) (trans : Bool) : Dev :=
  d.modTgt c (tgtNo arr half) (fun t => match t.pend with
    | some j => { t with pend := none, run := some { j with trans := trans } }
    | none => t)

/-- The broadcast of a schedule cycle (R299). -/
def CoreVol.feedAt (v : CoreVol) (at_ : Nat) : Feed :=
  match v.bcast.find? (fun f => decide (f.at_ = at_)) with
  | some f => f
  | none => { at_ := at_, lanes := List.replicate 128 0, scales := [0, 0, 0, 0] }

/-- A forward wave issued to one running target (R124 to R126). -/
def Dev.waveOne (d : Dev) (c now arr half entry : Nat) (add : Bool) (j : Job) : Dev :=
  let v := d.vol c
  let f := v.feedAt now
  let vals := (jobCols j.w half).map (fun col => (col, v.waveCol arr j f col))
  let st := vals.foldl (fun s x => FStat.add s x.2.2) {}
  let w : Wave := { due := now + 200, arr := arr, half := half, entry := entry, add := add,
                    vals := vals.map (fun x => (x.1, x.2.1)), jobs := [j] }
  (d.setVol c { v with waves := v.waves ++ [w] }).maStat c (if (d.core c).jobDead j then {} else st)

/-- A sector recorded in a job (R351). -/
def Job.withSec (j : Job) (s : Option SecId) : Job :=
  match s with
  | some x => if j.secs.contains x then j else { j with secs := j.secs ++ [x] }
  | none => j

/-- The running job of a target, with the sectors of broadcasts recorded in it. -/
def Dev.jobFeed (d : Dev) (c arr half : Nat) (trans : Bool) (fs : List Feed) : Dev :=
  d.modTgt c (tgtNo arr half) (fun t => { t with run := t.run.map (fun j =>
    { fs.foldl (fun j f => j.withSec f.sec) j with trans := trans }) })

/-- A forward wave at one target (R294): the broadcast's sector recorded, the wave issued. -/
def Dev.waveTarget (d : Dev) (c now arr half entry : Nat) (add : Bool) : Dev :=
  let d := d.jobFeed c arr half false [(d.vol c).feedAt now]
  match ((d.core c).tgt (tgtNo arr half)).run with
  | none => d
  | some j => d.waveOne c now arr half entry add j

/-- A transposed wave (R138): its second issue cycle is `now`; every array takes part as a whole, and the four arrays' rows
are added. -/
def Dev.waveTrans (d : Dev) (c now entry : Nat) (add : Bool) : Dev :=
  let f1 := (d.vol c).feedAt (now - 1)
  let f2 := (d.vol c).feedAt now
  let d := (List.range 4).foldl (fun (d : Dev) a => d.jobFeed c a 0 true [f1, f2]) d
  let js := (List.range 4).filterMap (fun a => ((d.core c).tgt (2 * a)).run)
  let v := d.vol c
  let w0 := (js.headD {}).w
  let rows := (List.range (if w0 = 8 then 64 else 128)).map (fun i =>
    (i, sumRows (pairFp w0) (js.mapIdx (fun a j => v.transRow a j f1 f2 i))))
  let st := rows.foldl (fun s x => FStat.add s x.2.2) {}
  let w : Wave := { due := now + 208, arr := 4, half := 0, entry := entry, add := add,
                    vals := rows.map (fun x => (x.1, x.2.1)), jobs := js }
  (d.setVol c { v with waves := v.waves ++ [w] }).maStat c (if js.any (d.core c).jobDead then {} else st)

/-- Wave cycles of an operation counted (R142, R150): an array whose jobs are all aborted runs a dummy wave. -/
def Dev.countWaves (d : Dev) (c : Nat) (ts : List (Nat × Nat)) (issue : Bool) : Dev :=
  let k := d.core c
  let live (a : Nat) : Bool := ts.any (fun t => decide (t.1 = a) && (match (k.tgt (tgtNo t.1 t.2)).run with
    | some j => !(k.jobDead j)
    | none => false))
  let arrs := (ts.map (fun t => t.1)).eraseDups
  let n := arrs.countP live
  (d.bump (MA_WAVES c) (if issue then n else 0)).bump (MA_DUMMY c) (arrs.length - n)

/-- The parity faults that a wave finds (R141): of the weights or block scales of its targets, `bad` by halves; of the
broadcast, at whole arrays. -/
def Dev.waveFaults (d : Dev) (c : Nat) (ts : List (Nat × Nat)) (bad feedBad : Nat) : Dev :=
  let d := ts.foldl (fun (d : Dev) t => if hitsTgt bad t.1 t.2 then d.jobAbort c t.1 t.2 none else d) d
  ((ts.map (fun t => t.1)).eraseDups.filter (fun a => bitOf feedBad a)).foldl (fun (d : Dev) a =>
    if (d.core c).isSplit a then (d.jobAbort c a 1 (some (8 + a))).jobAbort c a 2 (some (8 + a))
    else d.jobAbort c a 0 (some (8 + a))) d

/-- WAVE (R294): span cycle r of `span`. SWAP and BEGIN take effect in the span's first cycle, END with its last wave. A
transposed wave takes two span cycles and is issued at the second, with the broadcasts of both. An operation that finds
a target in another state, or of other formats, does not execute (R296). `bad` names halves whose weight or scale parity
fails, `feedBad` arrays that find broadcast parity errors. (DEDUCED, log entry 81.) -/
def waveOp (c cyc r span : Nat) (t : Bool) (arrays half entry : Nat) (estep add swap begin_ end_ : Bool)
    (bad feedBad : Nat) (d : Dev) : Dev :=
  d.bundleOp c cyc (fun now d =>
    let k := d.core c
    let all := if t then (List.range 4).map (fun a => (a, if k.isSplit a then none else some 0)) else k.targets arrays half
    let first := decide (r = 0)
    let issue := !t || decide (r % 2 = 1)
    let chk := all.map (fun x => if t && x.2.isNone then 2 else k.waveCheck x.1 x.2 t (begin_ && first) (decide (half = 0)))
    if chk.contains 1 then (if t && issue then d else d.arrayState c cyc 1)
    else if chk.contains 2 then (if t && issue then d else d.formatIllegal c)
    else
      let ts := all.map (fun x => (x.1, x.2.getD 0))
      let d := d.readyArrs c ((ts.map (fun x => x.1)).eraseDups) now
      if d.runs c cyc = false then d
      else
        let d := if swap && first then ts.foldl (fun (d : Dev) x => d.swapOne c now x.1 x.2) d else d
        let d := if begin_ && first then ts.foldl (fun (d : Dev) x => d.beginOne c x.1 x.2 t) d else d
        let d := (d.waveFaults c ts bad feedBad).countWaves c ts issue
        let d :=
          if issue = false then d
          else if t then d.waveTrans c now (if estep then entry + r / 2 else entry) add
          else ts.foldl (fun (d : Dev) x => d.waveTarget c now x.1 x.2 (if estep then entry + r else entry) add) d
        if end_ && issue && decide (r + 1 = span) then
          ts.foldl (fun (d : Dev) x => d.modTgt c (tgtNo x.1 x.2) (fun t => { t with run := none })) d
        else d)

/-- A wave's results entered in an accumulator entry: SET replaces, ADD adds (R135). -/
def landRow (fp add : Bool) (old : List Nat) (n : Nat) (vals : List (Nat × Nat)) : List Nat × FStat :=
  let at_ (j : Nat) : Nat × FStat :=
    match vals.find? (fun p => decide (p.1 = j)) with
    | some p => if add then accAdd fp (old.getD j 0) p.2 else (p.2, {})
    | none => (old.getD j 0, {})
  let l := (List.range n).map at_
  (l.map (fun x => x.1), l.foldl (fun s x => FStat.add s x.2) {})

/-- One wave lands (R126, R136, R138). A dummy wave of an aborted job leaves the entry's values as they are, and the entry
is that job's (R142). (DEDUCED, log entry 82.) -/
def Dev.landOne (d : Dev) (c : Nat) (w : Wave) : Dev :=
  let k := d.core c
  let dead := w.jobs.any k.jobDead
  let fp := pairFp (w.jobs.headD {}).w
  if w.dummy then d
  else if w.arr = 4 then
    let k := { k with rtag := smSet (fun _ => []) k.rtag w.entry w.jobs }
    if dead then d.setCore c k
    else
      let (row, st) := landRow fp w.add (smGet row0 k.racc w.entry) 128 w.vals
      (d.setCore c { k with racc := smSet row0 k.racc w.entry row }).maStat c st
  else
    let key := 128 * w.arr + w.entry
    let hs := if w.half = 0 then [0, 1] else [w.half - 1]
    let tag := hs.foldl (fun (m : SMap (Option Job)) h =>
      smSet (fun _ => none) m (256 * w.arr + 128 * h + w.entry) w.jobs.head?) k.tag
    let k := { k with tag := tag }
    if dead then d.setCore c k
    else
      let (row, st) := landRow fp w.add (smGet row0 k.acc key) 64 w.vals
      (d.setCore c { k with acc := smSet row0 k.acc key row }).maStat c st

/-- Accumulator errors corrected (R141). -/
def Dev.accCorr (d : Dev) (c n : Nat) : Dev :=
  loopN (fun _ d => d.report { src := 0x04, unit := unitOf 0 c }) n (d.bump (MA_ACC_CORR c) n)

/-- WAVE_LAND (R126): the waves due at a schedule cycle land, in the order of their issue. `corr` accumulator errors are
corrected; `bad` names halves with an uncorrectable accumulator error, `row` one in the transposed path (R141): the jobs
of the landing waves are aborted. -/
def waveLand (c cyc corr bad : Nat) (row : Bool) (d : Dev) : Dev :=
  d.bundleOp c cyc (fun now d =>
    let v := d.vol c
    let due := v.waves.filter (fun w => decide (w.due ≤ now))
    let d := (d.setVol c { v with waves := v.waves.filter (fun w => decide (now < w.due)) }).accCorr c corr
    let d := due.foldl (fun (d : Dev) w =>
      if w.arr = 4 then (if row then d.abortRows c w.jobs else d)
      else if hitsTgt bad w.arr w.half then w.jobs.foldl (fun (d : Dev) j => d.abortOf c w.arr w.half (some (12 + w.arr)) j) d
      else d) d
    due.foldl (fun d w => d.landOne c w) d)

/-! ### Write-back (R137, R139, R297) -/

/-- One value converted (R137): output codes 0 INT32, 1 INT8, 2 FP32, 3 BF16, 4 E4M3, 5 E5M2; `q` the requantisation
word. A FMT of the other kind converts the raw 32 bits, and a shift of 48 to 63 divides by that power too. (DESIGN CHOICE, log
entries 146 and 147.) -/
def wbValue (fmt q x : Nat) : List Byte × FStat :=
  match fmt with
  | 0 => (toLE 4 x, {})
  | 1 =>
    let m := sext 16 q
    let s := bits q 16 6
    let z := sext 8 (bits q 22 8)
    let (v, st) := clampI (-128) 127 (rneDivI (sext 32 x * m) (2 ^ s) + z)
    (toLE 1 (wrapN 8 v), st)
  | 2 => (toLE 4 x, {})
  | 3 => let r := fCvt fmtF32 fmtBF16 x; (toLE 2 r.1, r.2)
  | 4 => let r := fCvt fmtF32 fmtE4M3 x; (toLE 1 r.1, r.2)
  | _ => let r := fCvt fmtF32 fmtE5M2 x; (toLE 1 r.1, r.2)

/-- The requantisation words of n columns from number `first` on (R297): local to the word plane at WQBASE (R286), read at
the issue; none where the access does not execute. (DEDUCED, log entry 124.) -/
def Dev.requant (d : Dev) (c now first n : Nat) (e : Ecc) : Option (List Nat) × Dev :=
  let a := ((d.core c).wqbase + BitVec.ofNat 32 (4 * first)).toNat
  match d.vecAt c true a (4 * n) with
  | (none, d) => (none, d)
  | (some off, d) =>
    let d := d.occupy c true now (spanBanks true off (4 * n))
    let (bs, d) := d.schedRead c true off (4 * n) now e
    (some ((List.range n).map (fun i => leAt bs (4 * i) 4)), d)

/-- Values converted in order (R137), with their requantisation words. -/
def wbBytes (fmt : Nat) (q vals : List Nat) : List Byte × FStat :=
  (vals.mapIdx (fun i x => wbValue fmt (q.getD i 0) x)).foldl (fun a b => (a.1 ++ b.1, a.2.add b.2)) ([], {})

/-- Bytes delivered to the open digest channel (R293). -/
def Dev.digBytes (d : Dev) (c : Nat) (bs : List Byte) : Dev :=
  let k := d.core c
  d.setCore c { k with dig := k.dig.map (fun g => { g with crc := crc64From g.crc bs, len := g.len + bs.length }) }

/-- The open digest lacks the bytes of an aborted job (R142). -/
def Dev.digSpoil (d : Dev) (c : Nat) : Dev :=
  let k := d.core c
  d.setCore c { k with dig := k.dig.map (fun g => { g with invalid := true }) }

/-- A scheduled write issued (R158, R160): its plane by the address's SPACE; its banks are taken at its bank cycle. A write
that is suppressed (not `live`) takes its banks alone, so that timing depends on no work (R142, R216). -/
def Dev.schedWrite (d : Dev) (c at_ addr : Nat) (bytes : List Byte) (aow : Nat) (vec : Bool := false) (live : Bool := true) :
    Dev :=
  match engDec addr with
  | some (2, _, _) => if live then d.planeRange c false addr else d
  | some (sp, _, off) =>
    let word := decide (sp = 1)
    if off + bytes.length > planeSize word then (if live then d.planeRange c word off else d)
    else
      let d := d.occupy c word at_ (writeBanks word off bytes.length aow)
      if live then
        let v := d.vol c
        let w : PWrite := { at_ := at_, word := word, off := off, bytes := bytes, aow := aow, vec := vec }
        d.setVol c { v with writes := v.writes ++ [w] }
      else d
  | none => if live then d.planeRange c false addr else d

/-- COUNT of a turn context (R287). -/
def TurnCtx.count (t : TurnCtx) : Nat := match t.grp with
  | some g => g.count
  | none => 0

/-- A core's turn context. -/
def CoreChk.turn (k : CoreChk) (x : Nat) : TurnCtx := smGet (fun _ => {}) k.ctx x
/-- A core's turn context replaced. -/
def CoreChk.setTurn (k : CoreChk) (x : Nat) (t : TurnCtx) : CoreChk :=
  { k with ctx := smSet (fun _ => ({} : TurnCtx)) k.ctx x t }

/-- Whether a write-back is suppressed by the gating of R293. -/
def CoreChk.wbOver (k : CoreChk) (bound : Bool) (ctx entry : Nat) : Bool := bound && decide (entry ≥ (k.turn ctx).count)

/-- Whether a write-back is suppressed by its context (R293, R352). -/
def CoreChk.wbOff (k : CoreChk) (bound : Bool) (ctx entry : Nat) : Bool := (k.turn ctx).quiet || k.wbOver bound ctx entry

/-- A row of values written back (R137, R297): converted, with the requantisation words from column `first` on; written 4
cycles after the issue, and delivered to the digest channel. Not `live`: the context suppresses it; `dead`: its job is
aborted (R142). -/
def Dev.wbRow (d : Dev) (c now first fmt addr aow : Nat) (vals : List Nat) (dig live dead : Bool) (e : Ecc) : Dev :=
  match (if fmt = 1 then d.requant c now first vals.length e else (some [], d)) with
  | (none, d) => d
  | (some q, d) =>
    let (bs, st) := wbBytes fmt q vals
    if live && !dead then
      let d := (d.maStat c st).schedWrite c (now + 4) addr bs aow
      if dig then d.digBytes c bs else d
    else
      let d := d.schedWrite c (now + 4) addr bs aow false false
      if live && dig then d.digSpoil c else d

/-- The job whose wave last landed in an entry of a target. -/
def CoreChk.tagOf (k : CoreChk) (arr half entry : Nat) : Option Job :=
  smGet (fun _ => none) k.tag (256 * arr + 128 * (if half = 2 then 1 else 0) + entry)

/-- WB of one target (R137, R297). -/
def Dev.wbOne (d : Dev) (c now arr half entry fmt base aow : Nat) (dig live : Bool) (e : Ecc) : Dev :=
  let k := d.core c
  let job := k.tagOf arr half entry
  let bf := match job with | some j => decide (j.w = 8) | none => false
  let dead := match job.or (k.tgt (tgtNo arr half)).run with | some j => k.jobDead j | none => false
  let cols := jobCols (if bf then 8 else 0) half
  let row := smGet row0 k.acc (128 * arr + entry)
  let a := (base + arr * k.wbstep.toNat + (if half = 2 then k.hstep.toNat else 0)) % 2 ^ 32
  let c0 := cols.headD 0
  d.wbRow c now (64 * arr + if bf then c0 / 2 else c0) fmt a aow (cols.map (fun j => row.getD j 0)) dig live dead e

/-- A write-back's context and digest channel judged (R293, R308): with DIG while the channel is closed it does not execute
and raises SEQ_STATE; suppressed by R293, it counts in SUPPRESSED (R310). -/
def Dev.wbGate (d : Dev) (c cyc ctx en : Nat) (bound dig : Bool) (f : Dev → Dev) : Dev :=
  let k := d.core c
  if k.wbOff bound ctx en then f (d.bump (CO_CTR_SUPPRESSED c) (b2n (k.wbOver bound ctx en)))
  else if dig && k.dig.isNone then d.coFault c 4 3 cyc 0x16
  else f d

/-- The errors that a WB meets at its entry (R141): `bad` an uncorrectable accumulator error, `par` a parity error of the
write-back path, by halves. -/
def Dev.wbErrs (d : Dev) (c en bad par : Nat) (ts : List (Nat × Nat)) : Dev :=
  ts.foldl (fun (d : Dev) t =>
    let stop (hit : Nat) (bit : Option Nat) (d : Dev) : Dev :=
      if hitsTgt hit t.1 t.2 then
        match (d.core c).tagOf t.1 t.2 en with
        | some j => d.abortOf c t.1 t.2 bit j
        | none => d.abortIdle c t.1 t.2 bit
      else d
    stop par none (stop bad (some (12 + t.1)) d)) d

/-- WB (R297): span cycle r. `corr` accumulator errors corrected; `bad` names halves with an uncorrectable accumulator
error, `par` halves with a parity error of the write-back path (R141). -/
def wbOp (c cyc r span arrays half entry : Nat) (estep : Bool) (fmt base : Nat) (inc : Bool) (aow : Nat)
    (dig bound : Bool) (ctx corr bad par : Nat) (e : Ecc) (d : Dev) : Dev :=
  d.bundleOp c cyc (fun now d =>
    let en := if estep then entry + r else entry
    let k := d.core c
    let a := k.addr base r inc
    let ts := k.targets arrays half
    if ts.any (fun t => t.2.isNone) then d.arrayState c cyc 3
    else
      d.wbGate c cyc ctx en bound dig (fun d =>
        let ts := ts.map (fun t => (t.1, t.2.getD 0))
        let d := ((d.arStep c now base span r inc).accCorr c corr).wbErrs c en bad par ts
        ts.foldl (fun (d : Dev) t => d.wbOne c now t.1 t.2 en fmt a aow dig (!(k.wbOff bound ctx en)) e) d))

/-- The jobs of a row accumulator entry: of the wave that last landed there; where none has, the transposed jobs that run, by
array. (DEDUCED, log entry 82.) -/
def CoreChk.rowJobs (k : CoreChk) (en : Nat) : List (Nat × Job) :=
  match smGet (fun _ => []) k.rtag en with
  | [] => (List.range 4).filterMap (fun a => ((k.tgt (2 * a)).run.filter (fun j => j.trans)).map (fun j => (a, j)))
  | js => js.mapIdx (fun a j => (a, j))

/-- An error of the transposed path at an entry of the row accumulators (R141): its jobs are aborted. -/
def Dev.rowErr (d : Dev) (c en : Nat) : Dev :=
  ((d.core c).rowJobs en).foldl (fun d p => d.abortOf c p.1 0 (some 16) p.2) (d.hwOr (MA_CORE_FAULT c) (2 ^ 16))

/-- WBR (R139, R297): the 128 values of a row accumulator entry; `bad` an error of the transposed path (R141). -/
def wbrOp (c cyc r span entry : Nat) (estep : Bool) (fmt base : Nat) (inc : Bool) (aow : Nat)
    (dig bound : Bool) (ctx corr : Nat) (bad : Bool) (e : Ecc) (d : Dev) : Dev :=
  d.bundleOp c cyc (fun now d =>
    let en := if estep then entry + r else entry
    let k := d.core c
    let a := k.addr base r inc
    d.wbGate c cyc ctx en bound dig (fun d =>
      let d := (d.arStep c now base span r inc).accCorr c corr
      let js := smGet (fun _ => []) k.rtag en
      let d := if bad then d.rowErr c en else d
      let n := if (js.headD {}).w = 8 then 64 else 128
      let row := smGet row0 k.racc en
      d.wbRow c now 0 fmt a aow ((List.range n).map (fun i => row.getD i 0)) dig (!(k.wbOff bound ctx en))
        ((k.rowJobs en).any (fun p => (d.core c).jobDead p.2)) e))

end Sys2Proof.Machine
end

