-- ==== Sys2Proof/Machine/AddrGen.lean ====
section
/-! DEFINITION. The A slot (11 R298, R299): address, stride and setup registers, windows, and the broadcast feeds (07
R194 to R196). -/

namespace Sys2Proof.Machine

/-- LDA (R298): ARn := IMM from the next schedule cycle on (R288). -/
def ldaOp (c cyc reg : Nat) (imm : Word) (d : Dev) : Dev :=
  d.bundleOp c cyc (fun now d => d.arNext c now reg imm)

/-- LDS (R298): ASn := IMM. -/
def ldsOp (c cyc reg : Nat) (imm : Word) (d : Dev) : Dev :=
  d.bundleOp c cyc (fun now d => d.arNext c now (16 + reg) imm)

/-- ADDA (R298): ARn := ARn + IMM, modulo 2^32. -/
def addaOp (c cyc reg : Nat) (imm : Word) (d : Dev) : Dev :=
  d.bundleOp c cyc (fun now d => d.arNext c now reg ((d.core c).arOf reg + imm))

/-- SETR (R298): WBSTEP, HSTEP or WQBASE. -/
def setrOp (c cyc sel : Nat) (imm : Word) (d : Dev) : Dev :=
  d.bundleOp c cyc (fun now d => d.arNext c now (32 + min sel 2) imm)

/-- WIN (R298): the geometry of a window. -/
def winOp (c cyc w lb n logP cM1 kk : Nat) (d : Dev) : Dev :=
  d.bundleOp c cyc (fun _ d =>
    let k := d.core c
    let win : Win := { lb := lb, n := n, logP := logP, c := cM1 + 1, k := kk }
    d.setCore c { k with wins := smSet (fun _ => ({} : Win)) k.wins w win })

/-- A feed gated by its context (R293): zero elements for an entry at or above COUNT. -/
def CoreChk.feedOff (k : CoreChk) (bound : Bool) (ctx entry : Nat) : Bool := bound && decide (entry ≥ (k.turn ctx).count)

/-- The sector of a context's group. -/
def CoreChk.secOf (k : CoreChk) (ctx : Nat) : Option SecId := (k.turn ctx).grp.map (fun g => g.id)

/-- The bytes before the scale bytes of an MX row of `len` bytes: 32 elements for each scale byte (R184; log entry 28). -/
def mxElems (len : Nat) : Nat := 32 * (len / 33)

/-- The granules of byte offsets, each once, in their order. -/
def granulesOf (l : List Nat) : List Nat := (l.map (fun a => a / 16 * 16)).eraseDups

/-- The tile-plane read of a broadcast (R298): its banks taken and its errors met at its bank cycle, its lanes delivered
at `land`. A feed that its context gates makes the same read and delivers zeros (R216, R293). -/
def Dev.feedRead (d : Dev) (c at_ land : Nat) (lanes scales : List (Option Nat)) (grans banks : List Nat) (gated : Bool)
    (sec : Option SecId) (e : Ecc) : Dev :=
  let d := d.occupy c false at_ banks
  let (o, d) := d.readEcc c false (fun g => grans.getD g 0) land e
  let kind : ReadKind :=
    if gated then .feed land (List.replicate 128 none) (List.replicate 4 none) none else .feed land lanes scales sec
  let v := d.vol c
  d.setVol c { v with reads := v.reads ++ [{ at_ := at_, kind := kind, open_ := o }] }

/-- Where byte b of chunk `ch` of row n of segment s lies in a window (R194): its tile-plane offset. -/
def Win.byteAt (w : Win) (kw s ch n b : Nat) : Nat :=
  let q := 8 / 2 ^ w.logP
  let l := ch * w.n + n
  let line := w.lb + l
  let g := (8 * kw + s * q + b / 16 + 64 * (l / 64 + 1) - l) % 64
  1024 * line + 16 * g + b % 16

/-- Where the scale byte of lane l of chunk `ch` of row n lies in a window of MX rows (R184, R298): after the elements of
the row. -/
def Win.scaleAt (w : Win) (kw row ch n l : Nat) : Nat :=
  let seg := 128 / 2 ^ w.logP
  let pos := mxElems row + (ch * seg + l % seg) / 32
  w.byteAt kw (l / seg) (pos / seg) n (pos % seg)

/-- ROW of the rows that a window holds: that of the map that the last WINDOW fetched into it, else C chunks.
(DEDUCED, log entry 125.) -/
def CoreChk.winRow (k : CoreChk) (w : Win) (kw : Nat) : Nat :=
  let r := smGet (fun _ => 0) k.rowOf (8 * w.lb + kw)
  if r = 0 then w.c * (128 / 2 ^ w.logP) else r

/-- The window row that each segment of a wave takes, from the map words of its offsets (R195, R196). -/
def mapRows (words : List Byte) (pass : Nat) (w : Win) : List (Option Nat) :=
  let p := 2 ^ w.logP
  (List.range p).map (fun s =>
    let word := leAt words (2 * s) 2
    if p * pass + s < w.k ∧ bitOf word 15 then some (word % 4096) else none)

/-- The banks of a window read (R194): those of one row of each segment, the same for every row, whether it is read or
not. (DEDUCED, log entry 126.) -/
def Win.banks (w : Win) (kw row ch : Nat) (mx : Bool) : List Nat :=
  let seg := 128 / 2 ^ w.logP
  let data := (List.range 128).map (fun l => w.byteAt kw (l / seg) ch 0 (l % seg))
  let scales := if mx then [0, 32, 64, 96].map (w.scaleAt kw row ch 0) else []
  (granulesOf (data ++ scales)).map (fun g => tileBank (g / 16))

/-- FEED_MAP (R298, R195, R196): span cycle r; map words at issue, chunk `ch` of each valid row at issue + 6, broadcast at
issue + 14. A window of 8 segments takes no MX rows (R192). (DEDUCED, log entry 127.) -/
def feedMap (c cyc r w base entry pass ch : Nat) (estep mx bound : Bool) (ctx : Nat) (me e : Ecc) (d : Dev) : Dev :=
  d.bundleOp c cyc (fun now d =>
    let k := d.core c
    let win := smGet (fun _ => ({} : Win)) k.wins w
    let i := if estep then entry + r else entry
    let p := 2 ^ win.logP
    let a := (k.addr base 0 false + 2 * (win.k * i + p * pass)) % 2 ^ 32
    if mx ∧ p = 8 then d.agFault c 3 0x16
    else
      match d.vecAt c true a (2 * p) with
      | (none, d) => d
      | (some first, d) =>
        let d := d.occupy c true now (spanBanks true first (2 * p))
        let (ws, d) := d.schedRead c true first (2 * p) (now + 6) me
        let seg := 128 / p
        let row := k.winRow win w
        let gated := k.feedOff bound ctx i
        let rows := if gated then [] else mapRows ws pass win
        let lanes := (List.range 128).map (fun l =>
          (rows.getD (l / seg) none).map (fun n => win.byteAt w (l / seg) ch n (l % seg)))
        let sc (l : Nat) : Option Nat := (rows.getD (l / seg) none).map (fun n => win.scaleAt w row ch n l)
        let scales := if mx then [sc 0, sc 32, sc 64, sc 96] else [none, none, none, none]
        let grans := granulesOf (lanes.filterMap id ++ scales.filterMap id)
        if grans.any (fun g => decide (g + 16 > planeSize false)) then d.planeRange c false (win.lb * 1024)
        else if grans.any (fun g => !(d.powered c false g)) then d.tpFault c 1 false (grans.headD 0) 0 0x16
        else d.feedRead c (now + 6) (now + 14) lanes scales grans (win.banks w row ch mx) gated (k.secOf ctx) e)

/-- A feed of 128 bytes at a tile-plane offset with scale bytes at another, for the broadcast at issue + 8. -/
def Dev.feed128 (d : Dev) (c now off scaleOff : Nat) (mx gated : Bool) (sec : Option SecId) (e : Ecc) : Dev :=
  if off + 128 > planeSize false ∨ (mx = true ∧ scaleOff + 4 > planeSize false) then d.planeRange c false off
  else if d.poweredAll c false off 128 = false ∨ (mx = true ∧ d.poweredAll c false scaleOff 4 = false) then
    d.tpFault c 1 false off 0 0x16
  else
    let sc := (List.range 4).map (fun i => scaleOff + i)
    let grans := granulesOf ((List.range 128).map (fun i => off + i) ++ if mx then sc else [])
    let lanes := (List.range 128).map (fun i => some (off + i))
    let scales := sc.map (fun a => if mx then some a else none)
    (d.feedRead c now (now + 8) lanes scales grans (grans.map (fun g => tileBank (g / 16))) gated sec e).sync c now

/-- FEED_DIR (R298): 128 bytes at BASE + i × STRIDE + 128 c. -/
def feedDir (c cyc r base entry stride ch : Nat) (estep mx bound : Bool) (ctx : Nat) (e : Ecc) (d : Dev) : Dev :=
  d.bundleOp c cyc (fun now d =>
    let k := d.core c
    let i := if estep then entry + r else entry
    match localOff false (k.addr base 0 false) with
    | none => d.planeRange c false (k.addr base 0 false)
    | some o =>
      let row := o + i * (16 * stride)
      d.feed128 c now (row + 128 * ch) (row + mxElems (16 * stride) + 4 * ch) mx (k.feedOff bound ctx i) (k.secOf ctx) e)

/-- FEED_LIN (R298): 128 bytes at BASE; with MX the 4 bytes after them are the scales. A feed of a context without
entries is gated. -/
def feedLin (c cyc r span base : Nat) (inc mx bound : Bool) (ctx : Nat) (e : Ecc) (d : Dev) : Dev :=
  d.bundleOp c cyc (fun now d =>
    let k := d.core c
    let a := k.addr base r inc
    let d := d.arStep c now base span r inc
    match localOff false a with
    | none => d.planeRange c false a
    | some o =>
      d.feed128 c now o (o + 128) mx (k.feedOff bound ctx 0) (k.secOf ctx) e)

/-- FEED_LAND (R299): the feed of this schedule cycle is its broadcast; two in one cycle give zero and FEED_CLASH. -/
def feedLand (c cyc : Nat) (d : Dev) : Dev :=
  d.bundleOp c cyc (fun now d =>
    let v := d.vol c
    let due := v.feeds.filter (fun f => decide (f.at_ = now))
    let d := d.setVol c { v with feeds := v.feeds.filter (fun f => decide (now < f.at_)) }
    let v := d.vol c
    match due with
    | [] => d
    | [f] => d.setVol c { v with bcast := f :: v.bcast }
    | _ =>
      (d.setVol c { v with bcast := { at_ := now, lanes := List.replicate 128 0, scales := [0, 0, 0, 0] } :: v.bcast }).coFault
        c 2 4 cyc 0x16)

end Sys2Proof.Machine
end

