-- ==== Sys2Proof/Machine/Vector.lean ====
section
/-! DEFINITION. The vector unit (05 R146 to R148, 11 R300 to R303): lane operations, conversions, MX block formation,
functions, reductions, loads, stores, gather and scatter. -/

namespace Sys2Proof.Machine

/-- A vector register: 256 lanes of 32 bits. -/
def CoreChk.vreg (k : CoreChk) (n : Nat) : List Nat := smGet row0 k.vr n

/-- Lane i of a register's lanes; what nothing has written reads 0. -/
def lane (l : List Nat) (i : Nat) : Nat := l.getD i 0

/-- Events of the vector unit added to the core's counters (R151). -/
def Dev.coStat (d : Dev) (c : Nat) (st : FStat) : Dev :=
  (((d.bump (CO_CTR_SAT c) st.sat).bump (CO_CTR_NAN c) st.nan).bump (CO_CTR_IN_INF c) st.inf).bump (CO_CTR_WRAP c) st.wrap

/-- A result on its way to a register. -/
def Dev.vput (d : Dev) (c due vd : Nat) (lanes : List Nat) : Dev :=
  let v := d.vol c
  d.setVol c { v with vres := v.vres ++ [{ due := due, vd := vd, lanes := lanes }] }

/-- The results of 256 lanes and their events. -/
def lanes256 (f : Nat → Nat × FStat) : List Nat × FStat :=
  let l := (List.range 256).map f
  (l.map (fun x => x.1), l.foldl (fun s x => FStat.add s x.2) {})

/-- A lane operation of a latency: from three registers to VD (R301). -/
def vecOp (c cyc vd va vb vc lat : Nat) (f : Nat → Nat → Nat → Nat × FStat) (d : Dev) : Dev :=
  d.bundleOp c cyc (fun now d =>
    let k := d.core c
    let a := k.vreg va
    let b := k.vreg vb
    let x := k.vreg vc
    let (l, st) := lanes256 (fun i => f (lane a i) (lane b i) (lane x i))
    (d.coStat c st).vput c (now + lat) vd l)

/-! ### Integer operations -/

/-- An exact integer result in 32 bits: wrapped and counted, or saturated and counted (R151, R301). -/
def intRes (sat : Bool) (i : Int) : Nat × FStat :=
  let out := decide (i < -(2 ^ 31)) || decide (i ≥ 2 ^ 31)
  if sat then
    let r := clampI (-(2 ^ 31)) (2 ^ 31 - 1) i
    (wrapN 32 r.1, r.2)
  else (wrapN 32 i, { wrap := b2n out })

/-- ADD. -/
def iAdd (sat : Bool) (a b : Nat) : Nat × FStat := intRes sat (sext 32 a + sext 32 b)
/-- SUB. -/
def iSub (sat : Bool) (a b : Nat) : Nat × FStat := intRes sat (sext 32 a - sext 32 b)
/-- MUL. -/
def iMul (sat : Bool) (a b : Nat) : Nat × FStat := intRes sat (sext 32 a * sext 32 b)
/-- SHL by bits [4:0]. -/
def iShl (a b : Nat) : Nat := (a * 2 ^ (b % 32)) % 2 ^ 32
/-- SHRL by bits [4:0]. -/
def iShrl (a b : Nat) : Nat := a / 2 ^ (b % 32)
/-- SHRA by bits [4:0]. -/
def iShra (a b : Nat) : Nat := wrapN 32 (fdiv (sext 32 a) (2 ^ (b % 32)))
/-- A truth value as −1 or 0. -/
def maskOf (b : Bool) : Nat := if b then 2 ^ 32 - 1 else 0
/-- CMP: SUB 0 eq, 1 ne, 2 lt, 3 le, signed. -/
def iCmp (sub a b : Nat) : Nat :=
  let x := sext 32 a
  let y := sext 32 b
  maskOf (match sub with
    | 0 => decide (x = y)
    | 1 => decide (x ≠ y)
    | 2 => decide (x < y)
    | _ => decide (x ≤ y))

/-! ### Floating operations (R133, R147) -/

/-- A BF16 operand widened to FP32, an infinity replaced by BF16's largest finite value (R133, R147). -/
def bfWide (x : Nat) : Nat × FStat :=
  let h := x % 65536
  let (_, i) := fUnpack fmtBF16 h
  ((if i then (h / 32768 * 32768 + fmtBF16.maxFin) * 65536 else h * 65536), { inf := b2n i })

/-- An operand of a floating operation as FP32: TYPE 0 FP32, 1 BF16. -/
def fpIn (ty x : Nat) : Nat × FStat := if ty = 1 then bfWide x else (x, {})

/-- A result of a floating operation in its destination type. -/
def fpOut (ty : Nat) (r : Nat × FStat) : Nat × FStat :=
  if ty = 1 then
    match fUnpack fmtF32 r.1 with
    | (.nan, _) => (fmtBF16.nan, r.2)
    | _ => let s := fCvt fmtF32 fmtBF16 r.1; (s.1, r.2.add s.2)
  else r

/-- A floating operation of two operands. -/
def fp2 (ty : Nat) (f : Nat → Nat → Nat × FStat) (a b : Nat) : Nat × FStat :=
  let (x, s) := fpIn ty a
  let (y, t) := fpIn ty b
  let r := f x y
  fpOut ty (r.1, (s.add t).add r.2)

/-- FMA. -/
def fp3 (ty a b x : Nat) : Nat × FStat :=
  let (p, s) := fpIn ty a
  let (q, t) := fpIn ty b
  let (r, u) := fpIn ty x
  let z := fFma fmtF32 p q r
  fpOut ty (z.1, ((s.add t).add u).add z.2)

/-- FCMP: an INT32 result. -/
def fpCmp (ty sub a b : Nat) : Nat × FStat :=
  let (x, s) := fpIn ty a
  let (y, t) := fpIn ty b
  let r := fCmp fmtF32 sub x y
  (maskOf r.1, (s.add t).add r.2)

/-- The floating format of a TYPE. -/
def tyFmt (ty : Nat) : Fmt := if ty = 1 then fmtBF16 else fmtF32

/-- FN (R303): one rounding, to the destination type. -/
def fpFn (ty sub a : Nat) : Nat × FStat := fnApply sub (tyFmt ty) (tyFmt ty) (if ty = 1 then a % 65536 else a)

/-- A lane as a TYPE holds it (R300): of BF16 bits [15:0], the rest read as ignored and written as zero. -/
def tyLane (ty x : Nat) : Nat := if ty = 1 then x % 65536 else x

/-- One lane of SEL (R301): VA where VC is not zero, otherwise VB. -/
def selLane (ty a b x : Nat) : Nat := tyLane ty (if tyLane ty x ≠ 0 then a else b)

/-! ### Conversions (R302) -/

/-- One lane of CVT: TYPE of the source, SUB of the destination: 0 FP32, 1 BF16, 2 INT32, 3 INT8, 4 UINT8, 5 E4M3,
6 E5M2. -/
def cvtLane (ty sub a : Nat) : Nat × FStat :=
  if ty = 2 then
    let i := sext 32 a
    match sub with
    | 0 => fOfInt fmtF32 i
    | 1 => fOfInt fmtBF16 i
    | 2 => (a, {})
    | 3 => let r := clampI (-128) 127 i; (wrapN 8 r.1, r.2)
    | 4 => let r := clampI 0 255 i; (wrapN 8 r.1, r.2)
    | 5 => fOfInt fmtE4M3 i
    | _ => fOfInt fmtE5M2 i
  else
    let f := tyFmt ty
    let x := if ty = 1 then a % 65536 else a
    match sub with
    | 0 => fCvt f fmtF32 x
    | 1 => fCvt f fmtBF16 x
    | 2 => let r := fToInt f (-(2 ^ 31)) (2 ^ 31 - 1) x; (wrapN 32 r.1, r.2)
    | 3 => let r := fToInt f (-128) 127 x; (wrapN 8 r.1, r.2)
    | 4 => let r := fToInt f 0 255 x; (wrapN 8 r.1, r.2)
    | 5 => fCvt f fmtE4M3 x
    | _ => fCvt f fmtE5M2 x

/-- Bits of an element of a CVT destination. -/
def cvtBits (sub : Nat) : Nat := match sub with
  | 0 => 32 | 1 => 16 | 2 => 32 | _ => 8

/-- Elements packed into lanes of 32 bits, in ascending order, the remaining lanes zero. -/
def packLanes (w : Nat) (xs : List Nat) : List Nat :=
  let per := 32 / w
  (List.range 256).map (fun i =>
    (List.range per).foldl (fun acc j => acc + xs.getD (per * i + j) 0 * 2 ^ (w * j)) 0)

/-- Element i of packed lanes. -/
def unpackElem (w : Nat) (l : List Nat) (i : Nat) : Nat :=
  let per := 32 / w
  bits (lane l (i / per)) (w * (i % per)) w

/-- CVT. -/
def cvtOp (c cyc vd va ty sub : Nat) (d : Dev) : Dev :=
  d.bundleOp c cyc (fun now d =>
    let a := (d.core c).vreg va
    let (l, st) := lanes256 (fun i => cvtLane ty sub (lane a i))
    (d.coStat c st).vput c (now + 4) vd (packLanes (cvtBits sub) l))

/-- One element of UNPK: SUB its format, TYPE the destination; exact. -/
def unpkElem (ty sub x : Nat) : Nat × FStat :=
  match sub with
  | 1 => if ty = 1 then (x, {}) else if ty = 2 then
      (let r := fToInt fmtBF16 (-(2 ^ 31)) (2 ^ 31 - 1) x; (wrapN 32 r.1, r.2)) else fCvt fmtBF16 fmtF32 x
  | 3 => if ty = 2 then (wrapN 32 (sext 8 x), {}) else fOfInt (tyFmt ty) (sext 8 x)
  | 4 => if ty = 2 then (x, {}) else fOfInt (tyFmt ty) x
  | _ =>
    let s := if sub = 5 then fmtE4M3 else fmtE5M2
    if ty = 2 then (let r := fToInt s (-(2 ^ 31)) (2 ^ 31 - 1) x; (wrapN 32 r.1, r.2)) else fCvt s (tyFmt ty) x

/-- UNPK. -/
def unpkOp (c cyc vd va ty sub : Nat) (d : Dev) : Dev :=
  d.bundleOp c cyc (fun now d =>
    let a := (d.core c).vreg va
    let (l, st) := lanes256 (fun i => unpkElem ty sub (unpackElem (if sub = 1 then 16 else 8) a i))
    (d.coStat c st).vput c (now + 4) vd l)

/-! ### MX blocks (R148) -/

/-- floor(log2) of a positive magnitude m × 2^e. -/
def dyLog2 (m : Nat) (e : Int) : Int := e + Nat.log2 m

/-- One MX block of 32 FP32 lanes (R148): elements, scale code, events, and whether it holds a NaN. -/
def mxBlock (sub : Nat) (xs : List Nat) : List Nat × Nat × FStat × Bool :=
  let us := xs.map (fun x => fUnpack fmtF32 x)
  let infs := us.countP (fun u => u.2)
  if us.any (fun u => decide (u.1 = .nan)) then (List.replicate 32 0, 255, { inf := infs }, true)
  else
    let mags := us.filterMap (fun u => match u.1 with
      | .fin _ m e => if m = 0 then none else some (dyLog2 m e)
      | .nan => none)
    match mags with
    | [] => (us.map (fun u => match u.1 with
        | .fin n _ _ => if sub = 2 then 0 else if n then 128 else 0
        | .nan => 0), 0, { inf := infs }, false)
    | l0 :: r =>
      let top := r.foldl (fun (m x : Int) => max m x) l0
      let emax : Int := match sub with
        | 0 => 8 | 1 => 15 | _ => 0
      let x := max (-127) (min 127 (top - emax))
      let el := us.map (fun u => match u.1 with
        | .fin n m e =>
          if sub = 2 then
            let v := clampI (-128) 127 (dyToInt n m (e - x + 6))
            (wrapN 8 v.1, v.2)
          else fRoundDy (if sub = 0 then fmtE4M3 else fmtE5M2) n m (e - x)
        | .nan => (0, {}))
      (el.map (fun y => y.1), (x + 127).toNat, el.foldl (fun s y => FStat.add s y.2) { inf := infs }, false)

/-- MXB (R301, R302): 8 blocks; elements in bytes 0 to 255, the scale of block b in byte 256 + b. -/
def mxbOp (c cyc vd va sub : Nat) (d : Dev) : Dev :=
  d.bundleOp c cyc (fun now d =>
    let a := (d.core c).vreg va
    let bs := (List.range 8).map (fun b => mxBlock sub ((List.range 32).map (fun i => lane a (32 * b + i))))
    let st := bs.foldl (fun s b => FStat.add s b.2.2.1) {}
    let d := (d.coStat c st).bump (CO_CTR_MX_NAN c) (bs.countP (fun b => b.2.2.2))
    d.vput c (now + 4) vd (packLanes 8 (bs.flatMap (fun b => b.1) ++ bs.map (fun b => b.2.1))))

/-! ### Reductions (R147) -/

/-- One level of the pairwise tree: lane 2i with lane 2i + 1, lane 2i on the left. -/
def redLevel (f : Nat → Nat → Nat × FStat) : List Nat → List Nat × FStat
  | a :: b :: r => let z := f a b; let q := redLevel f r; (z.1 :: q.1, z.2.add q.2)
  | l => (l, {})

/-- `n` levels. -/
def redLevels (f : Nat → Nat → Nat × FStat) : Nat → List Nat → FStat → List Nat × FStat
  | 0, l, st => (l, st)
  | n + 1, l, st => let r := redLevel f l; redLevels f n r.1 (st.add r.2)

/-- The combining function of RED: SUB [1:0] 0 sum, 1 max, 2 min; TYPE 0 FP32, 2 INT32, whose sum wraps. -/
def redFn (ty sub : Nat) (a b : Nat) : Nat × FStat :=
  if ty = 2 then
    match sub % 4 with
    | 0 => intRes false (sext 32 a + sext 32 b)
    | 1 => (if sext 32 a < sext 32 b then b else a, {})
    | _ => (if sext 32 b < sext 32 a then b else a, {})
  else
    match sub % 4 with
    | 0 => fAdd fmtF32 a b
    | 1 => fMinMax fmtF32 true a b
    | _ => fMinMax fmtF32 false a b

/-- Lanes padded with free values: the manual gives RED's other lanes no value (DESIGN CHOICE, log entry 29). -/
def Dev.padFree (d : Dev) : Nat → List Nat → List Nat × Dev
  | 0, l => (l, d)
  | n + 1, l =>
    let (v, d) := d.fresh
    d.padFree n (l ++ [v.toNat % 2 ^ 32])

/-- RED (R301): the result of all 256 lanes in lane 0, or that of group g in lane g. -/
def redOp (c cyc vd va ty sub : Nat) (d : Dev) : Dev :=
  d.bundleOp c cyc (fun now d =>
    let a := (d.core c).vreg va
    let (l, st) := redLevels (redFn ty sub) (if bitOf sub 2 then 5 else 8) ((List.range 256).map (lane a)) {}
    let (l, d) := (d.coStat c st).padFree (256 - l.length) l
    d.vput c (now + 12) vd l)

/-! ### Memory operations -/

/-- The little-endian words of bytes. -/
def words4 (bs : List Byte) : Nat → List Nat
  | 0 => []
  | n + 1 => leAt bs 0 4 :: words4 (bs.drop 4) n

/-- VLD (R301, R154, R157): span cycle r; 1 KiB to VD after 8 cycles from the tile plane, 6 from the word plane. -/
def vldOp (c cyc r span vd base : Nat) (inc word : Bool) (e : Ecc) (d : Dev) : Dev :=
  d.bundleOp c cyc (fun now d =>
    let a := (d.core c).addr base r inc
    let d := d.arStep c now base span r inc
    match d.vecAt c word a 1024 with
    | (none, d) => d
    | (some off, d) =>
      let lat := if word then 6 else 8
      let d := d.occupy c word now (spanBanks word off 1024)
      let (bs, d) := d.schedRead c word off 1024 (now + lat) e
      d.vput c (now + lat) vd (words4 bs 256))

/-- VST (R301): 1 KiB of VA at bank cycle issue + 2, with AOW. -/
def vstOp (c cyc r span va base : Nat) (inc word : Bool) (aow : Nat) (d : Dev) : Dev :=
  d.bundleOp c cyc (fun now d =>
    let k := d.core c
    let a := k.addr base r inc
    let d := d.arStep c now base span r inc
    match d.vecAt c word a 1024 with
    | (none, d) => d
    | (some _, d) =>
      let l := k.vreg va
      d.schedWrite c (now + 2) a ((List.range 256).flatMap (fun i => toLE 4 (lane l i))) aow true)

/-- The word-plane offsets of a gather or scatter: BASE + 4 × VB[j], j below 64. -/
def gatherOffs (base : Nat) (b : List Nat) : List Nat := (List.range 64).map (fun j => (base + 4 * lane b j) % 2 ^ 32)

/-- The 64 words that a gather or scatter reaches (R157, R301): all in the word plane and powered, or none. -/
def Dev.gatherAt (d : Dev) (c a : Nat) (b : List Nat) : Option (List Nat) × Dev :=
  let offs := (gatherOffs a b).map (localOff true)
  let bad (o : Option Nat) : Bool := match o with
    | some x => decide (x + 4 > planeSize true)
    | none => true
  let os := offs.map (fun o => o.getD 0)
  if offs.any bad then (none, d.planeRange c true a)
  else
    match os.find? (fun o => !(d.poweredAll c true o 4)) with
    | some o => (none, d.tpFault c 1 true o 0 0x16)
    | none => (some os, d)

/-- VGATH (R301): 64 words of the word plane after 6 cycles; lanes 64 to 255 zero. -/
def vgathOp (c cyc r span vd vb base : Nat) (inc : Bool) (e : Ecc) (d : Dev) : Dev :=
  d.bundleOp c cyc (fun now d =>
    let k := d.core c
    let a := k.addr base r inc
    let d := d.arStep c now base span r inc
    match d.gatherAt c a (k.vreg vb) with
    | (none, d) => d
    | (some os, d) =>
      let d := d.occupy c true now (wordBanks os)
      let ws := os.map (fun o => d.planeRead c true o 4)
      let (open_, d) := d.readEcc c true (fun j => os.getD j 0 / 4 * 4) (now + 6) e
      let ws := (ws.zip os).map (fun w => leNat (overlay w.1 w.2 open_))
      d.vput c (now + 6) vd (ws ++ List.replicate 192 0))

/-- VSCAT (R301): 64 words to the word plane at bank cycle issue + 2, duplicates in ascending j. -/
def vscatOp (c cyc r span va vb base : Nat) (inc : Bool) (aow : Nat) (d : Dev) : Dev :=
  d.bundleOp c cyc (fun now d =>
    let k := d.core c
    let a := k.addr base r inc
    let d := d.arStep c now base span r inc
    match d.gatherAt c a (k.vreg vb) with
    | (none, d) => d
    | (some os, d) =>
      let l := k.vreg va
      let bk := wordBanks os
      let d := d.occupy c true (now + 2) (if aow ≠ 0 then bk ++ bk else bk)
      let v := d.vol c
      d.setVol c { v with writes := v.writes ++ os.mapIdx (fun j o =>
        ({ at_ := now + 2, word := true, off := o, bytes := toLE 4 (lane l j), aow := aow, vec := true } : PWrite)) })

/-! ### Constants -/

/-- BCAST, LANE and COREID (R301): every lane from its index, after 2 cycles. -/
def constOp (c cyc vd : Nat) (f : Nat → Nat) (d : Dev) : Dev :=
  d.bundleOp c cyc (fun now d => d.vput c (now + 2) vd ((List.range 256).map f))

end Sys2Proof.Machine
end

