-- ==== Sys2Proof/Machine/Sequencer.lean ====
section
/-! DEFINITION. The crew sequencer (11 R290 to R293, R304, R305): turns, digests, ring operations, descriptors handed to
the engine, slot waits, program end; the balancer (08 R218); the digest unit (R227). -/

namespace Sys2Proof.Machine

/-- SEQ_STATE (R292, R293, R308). -/
def Dev.seqState (d : Dev) (c cyc bslot : Nat) : Dev := d.coFault c 4 bslot cyc 0x16

/-! ### TURN and RELEASE (R216, R291, R292) -/

/-- The next group queued for a core: of a level in its crew's queue of that level, or in the golden queue (R213,
R292). -/
def SeqChk.nextGroup (q : SeqChk) (c level : Nat) (gold : Bool) : Option (Group × SeqChk) :=
  let key := 8 * (c / 8) + if gold then 4 else level
  match takeFirst (fun (g : Group) => decide (g.n % 8 = c % 8) && decide (g.level = level)) (smGet (fun _ => []) q.queues key) with
  | some (g, r) => some (g, { q with queues := smSet (fun _ => []) q.queues key r })
  | none => none

/-- A context's binding that holds from the next schedule cycle on (R291). -/
def Dev.ctxNext (d : Dev) (c now x : Nat) (t : TurnCtx) : Dev :=
  let v := d.vol c
  d.setVol c { v with ctxup := v.ctxup ++ [(now + 1, x, t)] }

/-- Whether a context holds an unreleased group, or is about to. -/
def Dev.ctxHeld (d : Dev) (c x : Nat) : Bool :=
  match (d.vol c).ctxup.find? (fun u => decide (u.2.1 = x)) with
  | some u => u.2.2.bound
  | none => ((d.core c).turn x).bound

/-- TURN (R216, R291): the core's next queued group of LEVEL, or a null group, is bound to a context; in the stroke after a
restoration stroke a null group (R352). -/
def turnOp (c cyc ctx level : Nat) (gold : Bool) (d : Dev) : Dev :=
  d.firstOp c cyc (fun now d =>
    if d.ctxHeld c ctx then d.seqState c cyc 0
    else
      match if d.flt.resumed then none else d.cw.seq.nextGroup c level gold with
      | some (g, q) =>
        let d := { d with cw := { d.cw with seq := q, touched := g.id :: d.cw.touched.filter (fun i => decide (i ≠ g.id)) } }
        (d.bump (CS_GROUPS (c / 8))).ctxNext c now ctx { bound := true, grp := some g, level := level }
      | none =>
        (d.bump (CS_NULL_TURNS (c / 8))).ctxNext c now ctx { bound := true, null := true, level := level })

/-- A group of a sector released: its slot is free; the sector's last group ends its backbone (R214). -/
def Dev.releaseGroup (d : Dev) (c : Nat) (g : Group) : Dev :=
  let q := d.cw.seq
  let slots := smSet (fun _ => 0) q.slots c (smGet (fun _ => 0) q.slots c - 1)
  let same (l : LiveSec) : Bool := decide (l.id = g.id) && decide (l.frame = g.frame) && decide (l.ord = g.ord)
  match q.live.find? same with
  | none => { d with cw := { d.cw with seq := { q with slots := slots } } }
  | some l =>
    if l.left ≤ 1 then
      let d := { d with cw := { d.cw with seq := { q with slots := slots, live := q.live.filter (fun x => !(same x)) } } }
      d.backboneDone l
    else
      { d with cw := { d.cw with seq := { q with
        slots := slots, live := q.live.map (fun x => if same x then { x with left := x.left - 1 } else x) } } }

/-- RELEASE (R214, R291, R292): the context's group slot is released and the context is empty. -/
def releaseOp (c cyc ctx : Nat) (d : Dev) : Dev :=
  d.firstOp c cyc (fun now d =>
    if d.ctxHeld c ctx = false then d.seqState c cyc 0
    else
      let t := (d.core c).turn ctx
      let d := match t.grp with
        | some g => d.releaseGroup c g
        | none => d
      (d.ctxNext c now ctx {}).dispatch)

/-! ### Digests (R226, R227, R291, R293) -/

/-- Whether the digests of a sector go to the host: as set when its first digested layer began (R226). -/
def Dev.digSetting (d : Dev) (g : Group) : Bool × Dev :=
  let same (l : LiveSec) : Bool := decide (l.id = g.id) && decide (l.frame = g.frame) && decide (l.ord = g.ord)
  match d.cw.seq.live.find? same with
  | none => (d.lg.digestEn, d)
  | some l =>
    match l.dig with
    | some b => (b, d)
    | none =>
      let q := d.cw.seq
      let set (x : LiveSec) : LiveSec := if same x then { x with dig := some d.lg.digestEn } else x
      (d.lg.digestEn, { d with cw := { d.cw with seq := { q with live := q.live.map set } } })

/-- DIGOPEN (R291, R293): the digest channel opens for the group of a context; of a null group it does nothing. An empty
context has no group to open it for. -/
def digopenOp (c cyc ctx point : Nat) (d : Dev) : Dev :=
  d.firstOp c cyc (fun _ d =>
    let k := d.core c
    let t := k.turn ctx
    if t.null then d
    else
      match k.dig, t.grp with
      | some _, _ => d.seqState c cyc 0
      | none, none => d
      | none, some g =>
        let (_, d) := d.digSetting g
        d.setCore c { d.core c with dig := some { grp := g, point := point } })

/-- A group's CRC taken by the digest unit (R227). -/
def Dev.digTake (d : Dev) (o : DigOpen) : Dev :=
  let g := o.grp
  let gold := decide (g.id.stream = goldStream)
  let (rep, d) := d.digSetting g
  if ¬ rep ∧ ¬ gold then d
  else
    let same (a : DigAcc) : Bool := decide (a.id = g.id) && decide (a.frame = g.frame) && decide (a.ord = g.ord) &&
      decide (a.point = o.point) && decide (a.level = g.level)
    let acc : DigAcc := (d.lg.digs.find? same).getD
      { id := g.id, point := o.point, level := g.level, frame := g.frame, ord := g.ord, entries := g.total,
        need := (g.total + 127) / 128, golden := gold, report := rep }
    let acc := { acc with
      groups := acc.groups ++ [(g.n, o.crc, o.len)]
      invalid := acc.invalid || o.invalid, migrated := acc.migrated || g.migrated }
    { d with lg := { d.lg with digs := d.lg.digs.filter (fun a => !(same a)) ++ [acc] } }

/-- DIGCLOSE (R291, R293): the channel closes and the group's CRC goes to the digest unit; of a null group it does
nothing. -/
def digcloseOp (c cyc ctx : Nat) (d : Dev) : Dev :=
  d.firstOp c cyc (fun _ d =>
    let k := d.core c
    if (k.turn ctx).null then d
    else
      match k.dig with
      | none => d.seqState c cyc 0
      | some o => (d.setCore c { k with dig := none }).digTake o)

/-- The digest of a sector at a point: the group CRCs combined in ascending group number (R227). -/
def DigAcc.value (a : DigAcc) : Nat :=
  (sortBy (fun (x y : Nat × Nat × Nat) => decide (x.1 < y.1)) a.groups).foldl
    (fun s g => crc64Combine s g.2.1 g.2.2) 0

/-- DIGEST_COMPLETE (R227, R313): the first sector and point whose last group has completed gets its digest; it waits for
the checkpoint commit (R228); a golden one goes to the island. -/
def digestComplete (d : Dev) : Dev :=
  match takeFirst (fun (a : DigAcc) => decide (a.need ≤ a.groups.length)) d.lg.digs with
  | none => d
  | some (a, r) =>
    let v := a.value
    let d := { d with lg := { d.lg with
      digs := r, done := d.lg.done ++ [{ stroke := d.tm.stroke, acc := a, value := v }] } }
    if a.golden then d.mon (.golden (some a.point) v (decide (a.frame = d.tm.frame))) else d

/-! ### MERGE (R252, R291) -/

/-- A wait noted, or one more look at a wait. -/
def CrewVol.addWait (v : CrewVol) (w : Nat × Nat × Nat × Bool) : CrewVol :=
  if v.wait.contains w then v else { v with wait := v.wait ++ [w] }

/-- Whether an operation that a crew waits for, or whose check comes in the same cycle as one that waits, may be tried
(R170). -/
def Dev.runsCheck (d : Dev) (c cyc : Nat) : Bool :=
  let cr := d.crew (c / 8)
  d.crewsRun && decide (c < 32) && !cr.waiting && !cr.halted && decide (cyc + cr.frozen < d.tm.len) &&
    cr.wait.all (fun w => decide (w.2.1 = cyc))

/-- Whether a ring check may be tried (R305): it comes before every other operation of its cycle but the S slot's, so that
one that fails holds them all. (DEDUCED, log entry 128.) -/
def Dev.runsFirst (d : Dev) (c cyc : Nat) : Bool := d.runsCheck c cyc && decide ((d.crew (c / 8)).late ≠ some cyc)

/-- An operation with a check (R170, R201), of a core brought to its cycle: it takes effect at the first clock in which the
check holds, `waited` clocks after its issue, all counted as freeze cycles; otherwise the crew waits.
(DEDUCED, log entry 98.) -/
def checked (c cyc ring : Nat) (isGet : Bool) (waited : Nat) (ctr : Nat) (ok : Dev → Bool)
    (f : Nat → Dev → Dev) (d : Dev) : Dev :=
  let now := d.absCyc c cyc
  let d := d.reach c cyc
  let w := (c, cyc, ring, isGet)
  let k := c / 8
  if ok d then
    let cr := d.crew k
    let n := if cr.wait.contains w then min waited 64 else 0
    let d := d.setCrew k { cr with wait := cr.wait.filter (fun x => decide (x ≠ w)) }
    f now ((d.bump ctr n).freeze c now n)
  else d.setCrew k ((d.crew k).addWait w)

/-- MERGE (R252, R291): an adaptation step of the record count in bits [16:0] of an AR; while a step is live it waits as a
ring slot does. (DEDUCED, log entry 20.) -/
def mergeOp (c cyc ar waited : Nat) (d : Dev) : Dev :=
  if d.runsCheck c cyc = false then d
  else
    checked c cyc 33 false waited (TP_SLOT_WAIT c) (fun d => !d.adaptLive)
      (fun _ d => { d with et := { d.et with
        adapt := some { issued := d.tm.stroke, count := bits ((d.core c).arOf ar).toNat 0 17 }, adStat := 1 } })
      (d.sync c (d.absCyc c cyc))

/-! ### Ring operations (R169, R170, R304) -/

/-- Whether an operation of the G slot is suppressed: BND set and a null group in the context (R216, R304). -/
def Dev.bndOff (d : Dev) (c ctx : Nat) (bnd : Bool) : Bool := bnd && ((d.core c).turn ctx).null

/-- An operation of the G slot that names a ring: unused rings raise RANGE (R168), where their bundle is not illegal at its
fetch (R307 rule 11), null groups suppress it. -/
def Dev.ringUse (d : Dev) (c ring ctx : Nat) (bnd : Bool) : Option Dev :=
  if d.bndOff c ctx bnd then some (d.bump (CO_CTR_SUPPRESSED c))
  else if (d.ringDesc c ring).slots = 0 then some (d.tpFault c 2 false 0 ring 0x16)
  else none

/-- The engine address of a slot. -/
def Dev.slotAddr (d : Dev) (c ring slot : Nat) : Word :=
  let g := d.ringDesc c ring
  BitVec.ofNat 32 (engAddr g.word c (g.base + slot * g.size))

/-- GET (R169, R304, R305): the consumer's check at the tail; the AR receives the slot's address. -/
def getOp (c cyc ring ar ctx : Nat) (bnd : Bool) (waited : Nat) (d : Dev) : Dev :=
  if d.runsFirst c cyc = false then d
  else
    let d := d.sync c (d.absCyc c cyc)
    match d.ringUse c ring ctx bnd with
    | some d => d.reach c cyc
    | none =>
      checked c cyc ring true waited (TP_SLOT_WAIT c) (fun d => d.getOk c ring)
        (fun now d => if ar = 0 then d else d.arNext c now ar (d.slotAddr c ring ((d.core c).ring ring).tail)) d

/-- PUTR (R169, R304): the slot at the head is reserved; the AR receives its address. -/
def putrOp (c cyc ring ar ctx : Nat) (bnd : Bool) (d : Dev) : Dev :=
  d.bundleOp c cyc (fun now d =>
    match d.ringUse c ring ctx bnd with
    | some d => d
    | none =>
      let k := d.core c
      let r := k.ring ring
      let d := if ar = 0 then d else d.arNext c now ar (d.slotAddr c ring r.head)
      d.setCore c ((d.core c).setRing ring (r.reserve (d.ringDesc c ring).slots)))

/-- PUTC (R169, R170, R304, R305): the oldest reserved slot is checked and marked FULL. -/
def putcOp (c cyc ring ctx : Nat) (bnd : Bool) (waited : Nat) (d : Dev) : Dev :=
  if d.runsFirst c cyc = false then d
  else
    let d := d.sync c (d.absCyc c cyc)
    match d.ringUse c ring ctx bnd with
    | some d => d.reach c cyc
    | none =>
      checked c cyc ring false waited (TP_SLOT_WAIT c) (fun d => d.putOk c ring) (fun _ d => d.putComplete c ring) d

/-- DRAIN (R169, R304, R305): the slot at the tail is freed, the tail advances; a held PUT of the device may go on once the
reads of the cycle have been made. -/
def drainOp (c cyc ring ctx : Nat) (bnd : Bool) (d : Dev) : Dev :=
  d.bundleOp c cyc (fun now d =>
    match d.ringUse c ring ctx bnd with
    | some d => d
    | none =>
      let d := d.drain c ring
      let v := d.vol c
      d.setVol c { v with retry := v.retry ++ [(now, ring)] })

/-- Whether the check that a wait stands for holds by now. -/
def Dev.waitOk (d : Dev) (w : Nat × Nat × Nat × Bool) : Bool :=
  let (c, _, ring, isGet) := w
  if ring = 32 then decide ((d.core c).descq.length < 16)
  else if ring = 33 then !d.adaptLive
  else if isGet then d.getOk c ring else d.putOk c ring

/-! ### Descriptors (R200, R201, R204, R304) -/

/-- A descriptor that the engine refuses (R204): OP, KIND, PARENT with K ≠ 8. -/
def descBad (b : List Byte) : Bool :=
  let op := leAt b 0 1
  let p0 := leAt b 16 4
  let k := bits p0 0 7
  let kind := bits p0 7 2
  !(decide (1 ≤ op) && decide (op ≤ 4)) ||
    (decide (op = 1) && (decide (kind = 3) || (decide (kind = 2) && decide (k ≠ 8)))) ||
    decide (leAt b 24 8 ≠ 0)

/-- The operand that replaces A0 (R286): an AR, or a list register of a turn context. -/
def CoreChk.a0src (k : CoreChk) (s : Nat) : Nat :=
  if s < 16 then (k.arOf s).toNat
  else match (k.turn ((s - 16) / 4)).grp with
    | some g => g.lists.getD (s % 4) 0
    | none => 0

/-- DESC (R200, R201, R304): the template at BASE is copied into the engine's queue, with A0 and COUNT replaced as asked,
and the slot of its PUT reserved; a full queue freezes the crew. -/
def descOp (c cyc base : Nat) (inc : Bool) (a0s : Nat) (cnt : Bool) (ctx : Nat) (bnd : Bool) (waited : Nat) (d : Dev) :
    Dev :=
  if d.runsCheck c cyc = false then d
  else
    let d := d.sync c (d.absCyc c cyc)
    if d.bndOff c ctx bnd then (d.bump (CO_CTR_SUPPRESSED c)).reach c cyc
    else
      checked c cyc 32 false waited (AG_QUEUE_FREEZE c) (fun d => decide ((d.core c).descq.length < 16))
        (fun now d =>
          let k := d.core c
          let a := k.addr base 0 false
          let d := d.arStep c now base 1 0 inc
          match d.vecAt c true a 32 with
          | (none, d) => d
          | (some off, d) =>
            let (b, _, d) := d.planeMeet c true off 32 (d.planeRead c true off 32)
            let b := if a0s = 0 then b else patch b 4 (toLE 4 (k.a0src a0s))
            let b := if cnt then patch b 2 (toLE 2 (k.turn ctx).count) else b
            if descBad b then d.agFault c 0 0x16
            else
              let fl := leAt b 1 1
              let ring := fl / 8
              let k := d.core c
              if bitOf fl 2 then
                let g := d.ringDesc c ring
                if g.slots = 0 then d.tpFault c 2 false 0 ring 0x16
                else
                  let r := k.ring ring
                  let r' := r.reserve g.slots
                  d.setCore c { (k.setRing ring { r' with resv := r.resv }) with
                    descq := k.descq ++ [{ bytes := b, put := some (ring, r.head, r.pep) }] }
              else d.setCore c { k with descq := k.descq ++ [{ bytes := b }] }) d

/-- DESC_QUEUE_TIMEOUT (R201): a descriptor that has waited 64 freeze cycles raises DESC_OVERRUN. -/
def descQueueTimeout (c : Nat) (d : Dev) : Dev :=
  let k := c / 8
  let cr := d.crew k
  match cr.wait.find? (fun w => decide (w.1 = c) && decide (w.2.2.1 = 32) && !(d.waitOk w)) with
  | some w =>
    let d := d.setCrew k { cr with wait := cr.wait.filter (fun x => decide (x ≠ w)) }
    ((d.bump (AG_QUEUE_FREEZE c) 64).freeze c (d.absCyc c w.2.1) 64).agFault c 1 0x12
  | none => d

/-! ### Program end (R215, R273, R281) -/

/-- SCHED_COUNT (R273): raised at the program's end by every core of the crew. -/
def Dev.schedCount (d : Dev) (k real golden : Nat) : Dev :=
  let p := d.prog k
  if p ≠ [] ∧ (leAt p 4 2 ≠ real ∨ leAt p 6 2 ≠ golden) then
    (List.range 8).foldl (fun d i => d.coFault (8 * k + i) 5 7 (real + golden - 1) 0x22) d
  else d

/-- PROGRAM_END (R215, R217, R273, R281): where the cycles of the program's bundles and the stroke's freezes fit the stroke,
the crew enters the boundary wait after its last schedule cycle; an illegal bundle stops it before (R308). With no program stored, `real` and `golden` are the cycles
that the commands took. (DEDUCED, log entry 84.) -/
def programEnd (k real golden : Nat) (d : Dev) : Dev :=
  let p := d.prog k
  let real := if p = [] then real else shareOf p false
  let golden := if p = [] then golden else shareOf p true
  let d := d.stopIllegal k (real + golden)
  let cr := d.crew k
  if d.crewsRun = false ∨ 4 ≤ k ∨ cr.waiting ∨ cr.halted ∨ cr.wait.isEmpty = false ∨ real + golden + cr.frozen > d.tm.len then
    d
  else
    let d := d.setCrew k { cr with waiting := true, pos := real + golden }
    let d := d.bump (CS_WAIT k) (d.tm.len - real - golden - cr.frozen)
    let d := (d.countBundles k (bundlesOf p).length).schedCount k real golden
    let d := d.mon (.mark (.crewEnd k))
    if (List.range 4).all (fun i => (d.crew i).waiting) then d.mon (.mark (.heads (d.tm.stroke - 1))) else d

/-- What the cores of a crew met in the fetch of bundles without an operation (R308). -/
def Dev.idleFetch (d : Dev) (e : CrewEnd) : Dev :=
  let at_ (i : Fin 8) : Nat := 8 * e.crew.val + i.val
  let d := e.corr.foldl (fun d x => d.pstoreCorr (at_ x.1) x.2 1) d
  match e.unc with
  | some (i, cyc) => (d.stopIllegal e.crew.val cyc).pstoreUncorr (at_ i) cyc
  | none => d

/-- PROGRAM_END of a crew, with what its fetches met. -/
def crewEnd (e : CrewEnd) (real golden : Nat) (d : Dev) : Dev := programEnd e.crew.val real golden (d.idleFetch e)

/-- The bundles that a crew executes in a stroke whose boundary falls before its program has ended (R217, R310, R352): up to
the schedule cycle at which it stops. -/
def Dev.cutBundles (d : Dev) (k : Nat) : Dev :=
  let cr := d.crew k
  if d.accel = false ∨ d.flt.rolling ∨ cr.waiting ∨ cr.halted then d
  else d.countBundles k (d.begun k (if d.flt.stopped ∨ cr.wait ≠ [] then cr.pos else d.tm.len - cr.frozen - 1))

/-- The freeze cycles of the checks for which a crew still waits at the boundary, up to it (R170, R201, R217).
(DEDUCED, log entry 98.) -/
def Dev.cutWaits (d : Dev) (k : Nat) : Dev :=
  let cr := d.crew k
  if d.crewsRun = false ∨ cr.halted then d
  else
    cr.wait.foldl (fun (d : Dev) w =>
      let n := min 64 (d.tm.len - cr.frozen - w.2.1)
      (d.bump (if w.2.2.1 = 32 then AG_QUEUE_FREEZE w.1 else TP_SLOT_WAIT w.1) n).freeze w.1 (d.absCyc w.1 w.2.1) n) d

/-! ### The balancer (R218 to R220) -/

/-- Groups of a level queued in a crew. -/
def SeqChk.queued (q : SeqChk) (k level : Nat) : Nat := (smGet (fun _ => []) q.queues (8 * k + level)).length

/-- The levels whose stage the programs of this stroke mark as balanceable (R273). -/
def Dev.balanceable (d : Dev) : List Nat :=
  (List.range (d.levels + 1)).filter (fun l =>
    let rs := d.replicas l
    decide (2 ≤ rs.length) && rs.all (fun k =>
      let p := d.prog k
      match progStage p l with
      | some st => bitOf (leAt p 8 4) st
      | none => false))

/-- One group moved from the longest to the shortest queue of a level's replicas, where they differ by THRESH; whether one
moved. Slots are bounded as at a dispatch (R214): a move beyond the bound is source 0x23 (R351). -/
def Dev.balanceOne (d : Dev) (l : Nat) : Dev × Bool :=
  let rs := d.replicas l
  let q := d.cw.seq
  let r0 := rs.headD 0
  let big := rs.foldl (fun m k => if q.queued k l > q.queued m l then k else m) r0
  let small := rs.foldl (fun m k => if q.queued k l < q.queued m l then k else m) r0
  let src := smGet (fun _ => []) q.queues (8 * big + l)
  match src.getLast? with
  | none => (d, false)
  | some g =>
    let c0 := 8 * big + g.n % 8
    let c1 := 8 * small + g.n % 8
    if big = small ∨ q.queued big l - q.queued small l < d.rf CS_BAL_CFG 0 8 then (d, false)
    else if d.slotsUsed c1 ≥ 1024 then (d.report { src := 0x23, unit := unitOf 0 c1 }, false)
    else
      let qs := smSet (fun _ => []) q.queues (8 * big + l) src.dropLast
      let qs := smSet (fun _ => []) qs (8 * small + l)
        (smGet (fun _ => []) qs (8 * small + l) ++ [{ g with migrated := true }])
      let slots := smSet (fun _ => 0) q.slots c0 (d.slotsUsed c0 - 1)
      let slots := smSet (fun _ => 0) slots c1 (d.slotsUsed c1 + 1)
      let d := { d with cw := { d.cw with seq := { q with queues := qs, slots := slots } } }
      ((d.bump (CS_MIGRATE_OUT big)).bump (CS_MIGRATE_IN small), true)

/-- A level's queues balanced within a budget of groups; the budget left. -/
def balanceLevel (l : Nat) : Nat → Dev → Dev × Nat
  | 0, d => (d, 0)
  | n + 1, d => match d.balanceOne l with
    | (d, true) => balanceLevel l n d
    | (d, false) => (d, n + 1)

/-- LOAD_BALANCE (R218): at most MIGRATE_MAX groups move at a boundary, over all stages. -/
def Dev.balance (d : Dev) : Dev :=
  if d.lg.balanceEn then
    (d.balanceable.foldl (fun (q : Dev × Nat) l => balanceLevel l q.2 q.1) (d, d.rf CS_BAL_CFG 8 4)).1
  else d

end Sys2Proof.Machine
end

