-- ==== Sys2Proof/Machine/Staging.lean ====
section
/-! DEFINITION. The regions of staging that blocks of the device keep (06_scratchpads R177): what the hash stash (R71, R73),
the golden table and stash (R93), the key lists (R78), the site-set and level runs (R95, R189) and the golden level table
(R188, R191) show at their places. Where the manual leaves a place within a region open, log entry 104 names it. -/

namespace Sys2Proof.Machine

/-- Byte i of a number. -/
def byteOf (v i : Nat) : Byte := BitVec.ofNat 8 (v >>> (8 * i))

/-- A byte of a table of 8-byte hash entries, or of a stash of 16-byte entries (R73). -/
def entByte (c : HashCfg) (t : SMap (Option HEnt)) (stash : Bool) (o : Nat) : Byte :=
  if stash then byteOf (stashBits (entAt t (4 * 2 ^ c.b + o / 16))) (o % 16)
  else byteOf (entBits c (entAt t (o / 8))) (o % 8)

/-- A byte of a site set's runs, oldest run first: 12-byte items of key and handle (R95). -/
def runByte (rs : List SiteRun) (o : Nat) : Byte :=
  match (rs.reverse.flatMap (fun r => r.items))[o / 12]? with
  | some q => byteOf (q.1 + 2 ^ 64 * q.2) (o % 12)
  | none => 0

/-- The site set that a part of a level's run region holds: the frames by their number modulo 2, then the golden
sector's. -/
def Dev.runPart (d : Dev) (l p : Nat) : List SiteRun :=
  let cur := decide (d.tm.frame.toNat % 2 = p)
  if l = 0 then d.siteSet (decide (p = 2)) (cur || decide (p = 2))
  else smGet (fun _ => []) (if p = 2 then d.ag.lvGold else if cur then d.ag.lvCur else d.ag.lvPrev) l

/-- A byte of the golden level table: 2,048 coarse site entries a level (R188, R191). -/
def Dev.goldLevelByte (d : Dev) (o : Nat) : Byte :=
  let l := o / (2048 * 40) + 1
  let i := o / 40 % 2048
  match ((smGet (fun _ => ([] : List SiteRun)) d.ag.lvGold l).flatMap (fun r => r.items)).find? (fun q => decide (q.2 = i)) with
  | none => 0
  | some q =>
    if o % 40 < 8 then byteOf (q.1 + 2 ^ 63) (o % 40)
    else byteOf ((d.goldChildren l i).getD ((o % 40 - 8) / 4) 0) (o % 4)

/-- A byte of the key lists (R78): the half of a stream's lists that the sector's number modulo 2 names, a third of its
sector buffers. -/
def Dev.keyByte (d : Dev) (o : Nat) : Option Byte :=
  d.gb.secs.findSome? (fun s =>
    let b := d.bufAt s.id.stream s.id.sector / 3
    if s.id.stream < 48 ∧ b ≤ o ∧ o < b + 8 * s.keys.length then
      some (byteOf (s.keys.getD ((o - b) / 8) 0) ((o - b) % 8))
    else none)

/-- What a region shows at an offset of staging, where the offset lies in it. -/
def inRegion (base len o : Nat) (f : Nat → Byte) : Option Byte :=
  if base ≤ o ∧ o < base + len then some (f (o - base)) else none

/-- The byte that a block of the device keeps at an offset of staging, where one does. -/
def Dev.stagingKept (d : Dev) (o : Nat) : Option Byte :=
  if d.laid then
    let tabs := [inRegion (d.region rgStash) 0x10000 o (entByte d.hashCfg d.gb.tab true),
      inRegion (d.region rgGoldTab) 0x80000 o (entByte d.goldCfg d.gb.gtab false),
      inRegion (d.region rgGoldStash) 0x1000 o (entByte d.goldCfg d.gb.gtab true),
      inRegion (d.region rgGoldLevels) (3 * 2048 * 40) o d.goldLevelByte,
      (if d.region rgKeys ≤ o then d.keyByte (o - d.region rgKeys) else none)]
    let runs := (List.range (d.levels + 1)).flatMap (fun l => (List.range 3).map (fun p =>
      inRegion (d.runBase l + p * d.runBytes l) (d.runBytes l) o (runByte (d.runPart l p))))
    (tabs ++ runs).findSome? id
  else none

end Sys2Proof.Machine
end

