-- ==== Sys2Proof/Machine/Engine.lean ====
section
/-! DEFINITION. The gather/scatter engine (07_sparse_convolution R192 to R208, 06_scratchpads R172 to R175): descriptors
started, their operations issued, served and completed, remote accesses and credits, adds to cell memory. -/

namespace Sys2Proof.Machine

/-! ### Engine memory -/

/-- Sixteen bytes of a commons offset below staging, from the hash or the cell memory (R71, R106). -/
def Dev.commonsLow (d : Dev) (off : Nat) : List Byte :=
  if off < 0x2000000 then
    (List.range 2).flatMap (fun i =>
      let h := off / 16 * 2 + i
      toLE 8 (if h < 4 * 2 ^ d.hashCfg.b then entBits d.hashCfg (entAt d.gb.tab h) else 0))
  else
    let o := off - 0x2000000
    ((d.cm.ctx (o / 64)).bytes.drop (o % 64 / 16 * 16)).take 16

/-- `n` bytes of the commons from an offset (R176); the golden cell region shows its contexts (R119), and the regions that
the grid builder and the level merger keep show what they hold (R177). -/
def Dev.commonsRead (d : Dev) (off n : Nat) : List Byte :=
  if off ≥ 0x6000000 then
    let g := 0x6000000 + 64 * d.rf CM_GOLD_CFG 0 20
    (memRead d.mem (commonsAt off) n).mapIdx (fun i b =>
      if g ≤ off + i ∧ off + i < g + 65536 then
        (smGet gold0 d.cm.gold ((off + i - g) / 64)).bytes.getD ((off + i - g) % 64) 0
      else (d.stagingKept (off + i - 0x6000000)).getD b)
  else
    let blocks := (List.range ((off + n + 15) / 16 - off / 16)).flatMap (fun i => d.commonsLow (16 * (off / 16 + i)))
    (blocks.drop (off % 16)).take n

/-- Whether a commons offset lies in a powered segment: staging and the hash by segments of 1 MiB
(R178). -/
def Dev.commonsOn (d : Dev) (off : Nat) : Bool :=
  if off ≥ 0x6000000 then bitOf (d.rd WP_CMN_POWER_STAGING).toNat ((off - 0x6000000) / 0x100000)
  else if off < 0x2000000 then bitOf (d.rd WP_CMN_POWER_HASH).toNat (off / 0x100000)
  else true

/-- Whether every segment of a range of the commons is powered (R178). -/
def Dev.commonsOnAll (d : Dev) (off n : Nat) : Bool :=
  (List.range ((off + n - 1) / 0x100000 + 1 - off / 0x100000)).all (fun i => d.commonsOn (0x100000 * (off / 0x100000 + i)))

/-- Bytes of the commons read by an engine, with the errors that stand in them (R164, R167): whether they can be trusted. -/
def Dev.commonsMeet (d : Dev) (off n : Nat) : List Byte × Bool × Dev :=
  let (es, d) := d.errsAt 2 0 off n
  let (bs, d) := d.errData (d.commonsRead off n) off 8 es
  (bs, es.all (fun e => !e.unc), es.foldl (fun d e => if e.unc then d.cmnLost e.off else d.cmnFixed e.off 1) d)

/-- What the engine of core c reads at an engine address for itself, lists and headers (R159, R164, R179, R203): none where
the access does not execute, which RANGE or POWERED_DOWN says; whether the bytes can be trusted. -/
def Dev.engGet (d : Dev) (c a n : Nat) : Option (List Byte × Bool) × Dev :=
  match engDec a with
  | none => (none, d.agFault c 3 0x16)
  | some (2, _, off) =>
    if d.commonsOnAll off n = false then (none, d.tpFault c 1 true 0 0 0x16)
    else
      let (bs, ok, d) := d.commonsMeet off n
      (some (bs, ok), d)
  | some (sp, k, off) =>
    let word := decide (sp = 1)
    if off + n > planeSize word then (none, d.agFault c 3 0x16)
    else if d.poweredAll k word off n = false then (none, d.tpFault k 1 word off 0 0x16)
    else
      let (bs, ok, d) := d.planeGet k word off n
      (some (bs, ok), d)

/-- Whether `n` bytes from an engine address lie in one plane or in the commons (R203). -/
def engSpan (a n : Nat) : Bool :=
  match engDec a with
  | some (2, _, off) => decide (off + n ≤ 0x7000000)
  | some (sp, _, off) => decide (off + n ≤ planeSize (decide (sp = 1)))
  | none => false

/-- A move of `len` bytes between two addresses cut at the aligned 64-byte blocks of both (R174, R202): source, destination
and length of each part. -/
def cut64 : Nat → Nat → Nat → Nat → List (Nat × Nat × Nat)
  | 0, _, _, _ => []
  | n + 1, src, dst, len =>
    if len = 0 then []
    else
      let m := min len (min (64 - src % 64) (64 - dst % 64))
      (src, dst, m) :: cut64 n (src + m) (dst + m) (len - m)

/-! ### Feature maps (R184) -/

/-- ROW of a feature map. -/
def Dev.fmapRow (d : Dev) (f : Nat) : Nat := 16 * (d.rf (AG_FMAP_CFG f) 18 6 + 1)

/-- The place of the row of a site index in its core's tile plane (R184). -/
def Dev.fmapOff (d : Dev) (f h : Nat) : Nat := 32 * d.rf (AG_FMAP_CFG f) 0 18 + h / 32 * d.fmapRow f

/-- Whether the row of a site index lies in the tile plane. -/
def Dev.fmapFits (d : Dev) (f h : Nat) : Bool := decide (d.fmapOff f h + d.fmapRow f ≤ planeSize false)

/-- The engine address of the row of a site index (R184). -/
def Dev.fmapAt (d : Dev) (f h : Nat) : Nat := engAddr false (h % 32) (d.fmapOff f h)

/-! ### WINDOW (R186, R192 to R194) -/

/-- The kernel mask of a level's neighbour lists (R96, R190): of GB_NBR_MASK at level 0, by the 27 offsets of radius 1 with
the centre at bit 13; of the level's kernel entry above, with the centre at bit 62. The mask and the centre's bit. -/
def Dev.nbrMask (d : Dev) (l : Nat) : Nat × Nat :=
  if l = 0 then (d.rf GB_NBR_MASK 0 27, 13) else (d.kernelMask l, 62)

/-- Bits set among the first `n` of a mask. -/
def bitsBelow (mask n : Nat) : Nat := (List.range n).countP (fun i => bitOf mask i)

/-- The words of an entry of a source list, and the place of the first that a walk of K offsets reads (R186): K and 0; a
NEIGHBOUR list read with K = 1 is restricted to the centre word of its level's kernel (R198). (DEDUCED, log entry 129.) -/
def Dev.listShape (d : Dev) (kind l k : Nat) : Nat × Nat :=
  if kind = 0 ∧ k = 1 then (bitsBelow (d.nbrMask l).1 125, bitsBelow (d.nbrMask l).1 (d.nbrMask l).2)
  else if kind = 0 then (k, 0) else if kind = 1 then (8, 0) else (1, 0)

/-- The site index that list word (i, j) of a source list names, if it names one (R186). -/
def srcWord (ws : List Nat) (kind : Nat) (sh : Nat × Nat) (i j : Nat) : Option Nat :=
  let w :=
    if kind = 2 then
      let w := ws.getD i 0
      if bits w 23 3 = j then w else 0
    else ws.getD (sh.1 * i + sh.2 + j) 0
  if bitOf w 31 then some (bits w 0 23) else none

/-- What the walk of R193 has found: tag table (site, segment, row number), map words, hits. -/
structure Walk where
  tags : List (Nat × Nat × Nat) := []
  map : List Nat := []
  hits : Nat := 0
  deriving DecidableEq, Repr

/-- Walk, allocate and map for one (entry, offset) pair (R193). -/
def Walk.put (w : Walk) (p : Nat) (site : Option Nat) (j : Nat) : Walk :=
  match site with
  | none => { w with map := w.map ++ [0] }
  | some h =>
    let s := j % p
    match w.tags.find? (fun t => decide (t.1 = h) && decide (t.2.1 = s)) with
    | some t => { w with map := w.map ++ [t.2.2 + 2 ^ 15], hits := w.hits + 1 }
    | none =>
      let n := w.tags.countP (fun t => decide (t.2.1 = s))
      { w with tags := w.tags ++ [(h, s, n)], map := w.map ++ [n + 2 ^ 15] }

/-- The walk of R193 over `count` entries of `k` offsets of a source list. -/
def winWalk (ws : List Nat) (kind : Nat) (sh : Nat × Nat) (k p count : Nat) : Walk :=
  (List.range (count * k)).foldl (fun w q => w.put p (srcWord ws kind sh (q / k) (q % k)) (q % k)) {}

/-- The tile-plane offset of granule a of chunk c of row n in segment s (R194). -/
def winGranule (lb nrows kk q s c n a : Nat) : Nat :=
  let l := c * nrows + n
  let g := (8 * kk + s * q + a + 64 * (l / 64 + 1) - l) % 64
  1024 * (lb + l) + 16 * g

/-- The operations that fetch one row into the window: one for each aligned 64-byte block of the row (R202). -/
def Dev.rowOps (d : Dev) (f p lb nrows kk : Nat) (t : Nat × Nat × Nat) : List GsOp :=
  let row := d.fmapRow f
  let w := 128 / p
  let q := w / 16
  let src := d.fmapAt f t.1
  (cut64 40 src 0 row).map (fun b =>
    let first := (b.1 - src) / 16
    { src := b.1, len := b.2.2,
      gran := (List.range (b.2.2 / 16)).map (fun i =>
        let g := first + i
        winGranule lb nrows kk q t.2.1 (g / q) t.2.2 (g % q)) })

/-- Whether a WINDOW stays within its limits (R192 to R194, R203): rows, window lines, list and map. -/
def windowFits (lb nr row p k count a0 mo words : Nat) : Bool :=
  let w := 128 / p
  (decide (row ≤ w) || decide (row % w = 0)) && decide (1 ≤ nr ∧ nr ≤ 4096) && decide (count * ((k + p - 1) / p) ≤ nr) &&
    decide (lb + max 1 (row / w) * nr ≤ 8192) && decide (1 ≤ k ∧ k ≤ 125) && decide (1 ≤ count ∧ count ≤ 128) &&
    engSpan a0 (4 * words * count) && decide (mo + 2 * k * count ≤ planeSize true)

/-- WINDOW started (R192 to R194): its operations, with the map written and the row size noted beside its granule group;
RANGE where it does not execute, DESC_ILLEGAL for P = 8 with an MX map (R204). -/
def Dev.startWindow (mx : Bool) (d : Dev) (c : Nat) (b : List Byte) : Option (List GsOp) × Dev :=
  let count := leAt b 2 2
  let p0 := leAt b 16 4
  let k := bits p0 0 7
  let kind := bits p0 7 2
  let p := 2 ^ bits p0 9 2
  let f := bits p0 11 4
  let nr := bits (leAt b 20 4) 0 13
  let row := d.fmapRow f
  let sh := d.listShape kind (leAt b 1 1 % 4) k
  if mx ∧ p = 8 then (none, d.agFault c 0 0x16)
  else
    match localOff false (leAt b 12 4), localOff true (leAt b 8 4) with
    | some wo, some mo =>
      let lb := wo / 1024
      let kk := wo % 1024 / 128
      let words := sh.1 * count
      if windowFits lb nr row p k count (leAt b 4 4) mo sh.1 = false then (none, d.agFault c 3 0x16)
      else
        match d.engGet c (leAt b 4 4) (4 * words) with
        | (none, d) => (none, d)
        | (some (bs, _), d) =>
          let wk := winWalk (wordsOf bs words) kind sh k p count
          if wk.tags.any (fun t => !(d.fmapFits f t.1)) then (none, d.agFault c 3 0x16)
          else
            let d := (d.bump (AG_WIN_ROWS c) wk.tags.length).bump (AG_WIN_HITS c) wk.hits
            let x := d.core c
            let d := d.setCore c { x with rowOf := smSet (fun _ => 0) x.rowOf (8 * lb + kk) row }
            let d := d.unschedWrite c true mo (wk.map.flatMap (toLE 2))
            (some (wk.tags.flatMap (fun t => d.rowOps f p lb nr kk t)), d)
    | _, _ => (none, d.agFault c 3 0x16)

/-! ### SPREAD and COPY (R204) -/

/-- A credit entry's region of an owner (R173): base and end in bytes, plane; grant. -/
def Dev.creditRegion (d : Dev) (own e : Nat) : Bool × Nat × Nat × Nat :=
  (decide (d.rf (WP_CORE_CREDIT_BASE own e) 17 1 = 1), 64 * d.rf (WP_CORE_CREDIT_BASE own e) 0 17,
   64 * (d.rf (WP_CORE_CREDIT_LIMIT own e) 0 17 + 1), d.rf (WP_CORE_CREDIT_GRANT own e) 0 6)

/-- A commons credit entry (R173, R182). -/
def Dev.commonsRegion (d : Dev) (e : Nat) : Nat × Nat × Nat :=
  (64 * d.rf (WP_CMN_CREDIT_BASE e) 0 21, 64 * (d.rf (WP_CMN_CREDIT_LIMIT e) 0 21 + 1), d.rf (WP_CMN_CREDIT_GRANT e) 0 7)

/-- Whether an entry of an owner admits a write of `n` bytes (R174). -/
def Dev.creditAdmits (d : Dev) (own e : Nat) (word : Bool) (off n : Nat) : Bool :=
  let (pl, lo, hi, g) := d.creditRegion own e
  decide (g ≠ 0) && decide (pl = word) && decide (lo ≤ off) && decide (off + n ≤ hi)

/-- The credit entry of a SPREAD's remote row: the owner's first entry that admits its block, else entry 0 (R174 names an
entry and the descriptor has no field for it: DESIGN CHOICE, log entry 33). -/
def Dev.spreadEntry (d : Dev) (own : Nat) (word : Bool) (off n : Nat) : Nat :=
  ((List.range 16).find? (fun e => d.creditAdmits own e word off n)).getD 0

/-- The credit entry that a write of `n` bytes from core c needs: none for its own planes. -/
def Dev.creditFor (d : Dev) (c dst n : Nat) : Option (Nat × Bool) :=
  match engDec dst with
  | some (2, _, _) => some (0, true)
  | some (sp, k, off) => if k = c then none else some (d.spreadEntry k (decide (sp = 1)) off n, false)
  | none => none

/-- The engine address, in core c's own planes, of a local address (R204); none where it names the commons. -/
def localAddr (c a : Nat) : Option Nat :=
  match engDec a with
  | some (2, _, _) => none
  | some (sp, _, off) => some (engAddr (decide (sp = 1)) c off)
  | none => none

/-- SPREAD started (R204): ROW bytes from each row of the local buffer to the map row of a work-list entry. -/
def Dev.startSpread (d : Dev) (c : Nat) (b : List Byte) : Option (List GsOp) × Dev :=
  let count := leAt b 2 2
  let a0 := leAt b 4 4
  let p0 := leAt b 16 4
  let f := bits p0 0 4
  let stride := 16 * bits p0 16 12
  let row := d.fmapRow f
  match localAddr c (leAt b 8 4) with
  | none => (none, d.agFault c 3 0x16)
  | some a1 =>
    if count = 0 ∨ count > 128 ∨ engSpan a0 (4 * count) = false ∨ engSpan a1 (stride * (count - 1) + row) = false then
      (none, d.agFault c 3 0x16)
    else
      match d.engGet c a0 (4 * count) with
      | (none, d) => (none, d)
      | (some (bs, _), d) =>
        let hs := (wordsOf bs count).map (fun w => bits w 0 23)
        if hs.any (fun h => !(d.fmapFits f h)) then (none, d.agFault c 3 0x16)
        else
          let ops := (hs.mapIdx (fun i h => (cut64 40 (a1 + stride * i) (d.fmapAt f h) row).map (fun x =>
            ({ src := x.1, dst := x.2.1, len := x.2.2, credit := d.creditFor c x.2.1 x.2.2 } : GsOp)))).flatten
          (some ops, d.bump (AG_SPREAD_ROWS c) count)

/-- COPY started (R204): 64-byte blocks, each cut at the aligned blocks of its source and its destination (R174, R202). -/
def Dev.startCopy (d : Dev) (c : Nat) (b : List Byte) : Option (List GsOp) × Dev :=
  let count := leAt b 2 2
  let a0 := leAt b 4 4
  let a1 := leAt b 8 4
  let p0 := leAt b 16 4
  if count = 0 ∨ engSpan a0 (64 * count) = false ∨ engSpan a1 (64 * count) = false then (none, d.agFault c 3 0x16)
  else
    let credit := if engLocal c a1 then none else some (bits p0 0 4, bitOf p0 4)
    let ops := (List.range count).flatMap (fun i => (cut64 4 (a0 + 64 * i) (a1 + 64 * i) 64).map (fun x =>
      ({ src := x.1, dst := x.2.1, len := x.2.2, credit := credit } : GsOp)))
    (some ops, d)

/-! ### SCATTER_BEV (R205 to R208, R395) -/

/-- One axis of `project`: the site centre in 1/65,536 m. -/
def Dev.projAxis (d : Dev) (vox l u : Nat) : Int :=
  let i : Int := (u : Int) - 2 ^ (20 - l)
  fdiv ((2 * i + 1) * 2 ^ (d.rf vox 8 4 + 7 + l)) (d.rf vox 0 8)

/-- `project` of R206 on a level-ℓ key. -/
def Dev.project (d : Dev) (key l : Nat) (p : Pose) : Int × Int :=
  let px := d.projAxis GB_VOX_X l (gather3 21 key)
  let py := d.projAxis GB_VOX_Y l (gather3 21 (key / 2))
  let rx := fdiv (p.cos * px - p.sin * py) (2 ^ 30)
  let ry := fdiv (p.sin * px + p.cos * py) (2 ^ 30)
  (fdiv (5 * (p.x * 256 + rx)) 65536, fdiv (5 * (p.y * 256 + ry)) 65536)

/-- The key of the site that a work-list word names at a level: of its voxel record, of its coarse entry, or of the golden
level table (R85, R188, R191); whether it can be trusted. -/
def Dev.siteKey (d : Dev) (gold : Bool) (l h : Nat) : Nat × Bool × Dev :=
  let at_ (c off : Nat) : Nat × Bool × Dev :=
    let (bs, ok, d) := d.planeGet c false off 8
    (leNat bs % 2 ^ 63, ok, d)
  if l = 0 then at_ (h % 32) (d.recAddr gold h % 0x800000)
  else if gold then
    (match ((smGet (fun _ => ([] : List SiteRun)) d.ag.lvGold l).flatMap (fun r => r.items)).find?
        (fun (p : Nat × Nat) => decide (p.2 = h)) with
    | some p => p.1
    | none => 0, true, d)
  else at_ (d.entryAt l h).1 (d.entryAt l h).2

/-- The chip that owns a world cell (R394): by the quadrant of its window tile; this chip for a cell outside the window, or
where there is one chip. -/
def Dev.cellOwner (d : Dev) (gx gy : Int) : Nat :=
  if d.rl.countM1 = 0 ∨ inWindow d.cm.ox d.cm.oy gx gy = false then d.rl.chip
  else
    let tx := ((gx - d.cm.ox).toNat) / 32
    let ty := ((gy - d.cm.oy).toNat) / 32
    fld (d.rdLive RL_TILE_OWN) (2 * (2 * (ty / 16) + tx / 16)) 2

/-- The header's identity with the sweep that the sequencer keeps beside it (DESIGN CHOICE, log entry 32). -/
def Dev.headerId (d : Dev) (h : List Byte) : SecId × BitVec 32 × Nat :=
  let gold := bitOf (leAt h 12 1) 6
  let fr : BitVec 32 := BitVec.ofNat 32 (leAt h 8 4)
  let ord := leAt h 28 4
  let id : SecId := ⟨if gold then goldStream else leAt h 12 1 % 64, 0, leAt h 6 2 % 2 ^ 14⟩
  ((d.sectorOf { id := id, frame := fr, ord := ord, v := 0, left := 0 }).1, fr, ord)

/-- The keys of the sites of a work list and the four words of each row from `a` on, `stride` bytes apart; none where a read
does not execute, or meets an uncorrectable error: none of it may go into the cell memory (R167). -/
def Dev.bevRows (c l : Nat) (gold : Bool) (stride : Nat) : List Nat → Nat → Dev → Option (List (Nat × List Nat)) × Dev
  | [], _, d => (some [], d)
  | h :: r, a, d =>
    let (key, ok, d) := d.siteKey gold l h
    match d.engGet c a 16 with
    | (none, d) => (none, d)
    | (some (bs, ok'), d) =>
      if ok && ok' then
        match Dev.bevRows c l gold stride r (a + stride) d with
        | (some rest, d) => (some ((key, wordsOf bs 4) :: rest), d)
        | (none, d) => (none, d)
      else (none, d)

/-- The header and the work list of a SCATTER_BEV read by its engine; none where one cannot be used (R167, R179). -/
def Dev.bevLists (d : Dev) (c ah aw count : Nat) : Option (List Byte × List Nat) × Dev :=
  match d.engGet c ah 32 with
  | (some (h, true), d) =>
    match d.engGet c aw (4 * count) with
    | (some (bs, true), d) => (some (h, (wordsOf bs count).map (fun w => bits w 0 23)), d)
    | (_, d) => (none, d)
  | (_, d) => (none, d)

/-- Bytes at an engine address as they stand (R203). -/
def Dev.engPeek (d : Dev) (a n : Nat) : List Byte :=
  match engDec a with
  | some (2, _, off) => d.commonsRead off n
  | some (sp, k, off) => d.planeRead k (decide (sp = 1)) off n
  | none => []

/-- The parts of this chip that SCATTER_BEV descriptors still in a queue owe to the stroke s (R354): none of their adds is
present. -/
def Dev.unstarted (d : Dev) (s : Stroke) : List AddExp :=
  (List.range 32).flatMap (fun c => (d.core c).descq.filterMap (fun q =>
    let h := d.engPeek (leAt q.bytes 4 4) 32
    let (id, fr, _) := d.headerId h
    let gone := d.ag.sent.any (fun x => decide (x.id = id) && decide (x.frame = fr) && x.cancelled)
    if leAt q.bytes 0 1 % 16 = 3 ∧ sAdd (BitVec.ofNat 48 (leAt h 0 6)) (d.rf AG_BEV_CFG 0 9) = s ∧ gone = false then
      some { id := id, at_ := s, count := leAt q.bytes 2 2, issued := d.tm.stroke }
    else none))

/-- SCATTER_BEV started (R206 to R208, R354, R395): one add per entry; the parts of the sector are announced to the owners
of their cells. (DESIGN CHOICE, log entry 75.) (DEDUCED, log entry 83.) -/
def Dev.startBev (d : Dev) (c : Nat) (b : List Byte) : Option (List GsOp) × Dev :=
  let count := leAt b 2 2
  let a1 := leAt b 8 4
  let l := leAt b 1 1 % 4
  let stride := 16 * bits (leAt b 16 4) 0 12
  match localAddr c (leAt b 12 4) with
  | none => (none, d.agFault c 3 0x16)
  | some a2 =>
    if count = 0 ∨ count > 16384 ∨ engSpan (leAt b 4 4) 32 = false ∨ engSpan a1 (4 * count) = false ∨
        engSpan a2 (stride * (count - 1) + 16) = false then (none, d.agFault c 3 0x16)
    else
      match d.bevLists c (leAt b 4 4) a1 count with
      | (none, d) => (none, d)
      | (some (h, hs), d) =>
        let gold := bitOf (leAt h 12 1) 6
        match Dev.bevRows c l gold stride hs a2 d with
        | (none, d) => (none, d)
        | (some rows, d) =>
          let v : Stroke := BitVec.ofNat 48 (leAt h 0 6)
          let (id, fr, _) := d.headerId h
          let pose : Pose := if gold then {} else d.poseAt (sAdd v 1)
          let at_ := sAdd v (d.rf AG_BEV_CFG 0 9)
          let adds := rows.map (fun x =>
            let (gx, gy) := d.project x.1 l pose
            let w (n : Nat) : Word := BitVec.ofNat 32 (x.2.getD n 0)
            ({ id := id, gx := gx, gy := gy, v0 := w 0, v1 := w 1, v2 := w 2, v3 := w 3, at_ := at_, core := c,
               issued := d.tm.stroke, frame := fr } : CellAdd))
          let inside (a : CellAdd) : Bool :=
            !gold || (decide (0 ≤ a.gx) && decide (a.gx ≤ 31) && decide (0 ≤ a.gy) && decide (a.gy ≤ 31))
          let keep := adds.filter inside
          let d := d.bump AG_BEV_GOLD_OUTSIDE (adds.length - keep.length)
          let own (a : CellAdd) : Nat := if gold then d.rl.chip else d.cellOwner a.gx a.gy
          let mine := keep.countP (fun a => decide (own a = d.rl.chip))
          let e : AddExp := { id := id, at_ := at_, count := mine, issued := d.tm.stroke }
          let gone := d.ag.sent.any (fun h => decide (h.id = id) && decide (h.frame = fr) && h.cancelled)
          let d := if gone then d else { d with cm := { d.cm with exps := d.cm.exps ++ [e] } }
          let d := (List.range 4).foldl (fun (d : Dev) k =>
            let n := keep.countP (fun a => decide (own a = k))
            if k = d.rl.chip ∨ n = 0 then d
            else d.linkSend k 1 (.partHeader k { e with count := n, from_ := d.rl.chip })) d
          (some (keep.map (fun a => { add := some a })), d)

/-! ### Descriptors started (R200) -/

/-- The head of the descriptor queue started, where it is the descriptor that the command names (R200, R204). One without an
operation completes at once, unless the slot that it PUTs is still FULL (R169, R170). -/
def startDesc (c op : Nat) (start : Dev → Nat → List Byte → Option (List GsOp) × Dev) (d : Dev) : Dev :=
  if d.accel = false ∨ d.flt.rolling ∨ c ≥ 32 then d
  else
    let k := d.core c
    match k.descq with
    | [] => d
    | q :: rest =>
      if leAt q.bytes 0 1 % 16 ≠ op then d
      else
        let d := d.syncNow c
        let k := d.core c
        let d := d.setCore c { k with descq := rest }
        match start d c q.bytes with
        | (none, d) => d
        | (some ops, d) =>
          let held := match q.put with
            | some (r, s, _) => d.slotFull c r s
            | none => false
          if ops.isEmpty && !held then
            let d := d.bump (AG_DESC_DONE c)
            match q.put with
            | some (r, s, e) => d.markFull c r s e
            | none => d
          else
            let k := d.core c
            let ops := if ops.isEmpty then [{ stage := .done }] else ops
            d.setCore c { k with acts := k.acts ++ [{ op := op, ops := ops, put := q.put }] }

/-- WINDOW (R193); `mx` says that the rows of its feature map are of an MX format. (DESIGN CHOICE, log entry 132.) -/
def windowOp (c : Nat) (mx : Bool) (d : Dev) : Dev := startDesc c 1 (Dev.startWindow mx) d
/-- SPREAD (R204). -/
def spreadOp (c : Nat) (d : Dev) : Dev := startDesc c 2 Dev.startSpread d
/-- SCATTER_BEV (R206). -/
def scatterBev (c : Nat) (d : Dev) : Dev := startDesc c 3 Dev.startBev d
/-- COPY (R204). -/
def copyOp (c : Nat) (d : Dev) : Dev := startDesc c 4 Dev.startCopy d

/-! ### Operations (R172, R174, R202) -/

/-- Operations outstanding of a core (R202). -/
def CoreChk.outstanding (k : CoreChk) : Nat := k.opList.countP (fun o => decide (o.stage ≠ .idle))

/-- The grant of a credit counter. -/
def Dev.grantOf (d : Dev) (key : Nat) : Nat :=
  if key / 16 = 32 then (d.commonsRegion (key % 16)).2.2 else (d.creditRegion (key / 16) (key % 16)).2.2.2

/-- Credits left of a counter (R173). -/
def Dev.credLeft (d : Dev) (c key : Nat) : Nat := d.grantOf key - smGet (fun _ => 0) (d.vol c).cred key

/-- Whether the engines work: the accelerator is operational and no rollback drains the network (R175, R352). -/
def Dev.engineUp (d : Dev) (c : Nat) : Bool := d.accel && !d.flt.rolling && decide (c < 32)

/-- Whether a write that waits for a credit may be sent (R174): a credit is left, or the entry is disabled, which the owner
finds. -/
def Dev.mayPay (d : Dev) (c : Nat) (o : GsOp) : Bool :=
  decide (o.stage = .creditWait) && (match o.credit with
    | some e => decide (d.credLeft c (credKey o.dst e) ≠ 0) || decide (d.grantOf (credKey o.dst e) = 0)
    | none => true)

/-- A write sent: it takes its credit (R174). -/
def Dev.sendWrite (d : Dev) (c i : Nat) (o : GsOp) : Dev :=
  let d := match o.credit with
    | some e =>
      let v := d.vol c
      let key := credKey o.dst e
      if d.grantOf key = 0 then d
      else d.setVol c { v with cred := smSet (fun _ => 0) v.cred key (smGet (fun _ => 0) v.cred key + 1) }
    | none => d
  (d.bump (WP_REMOTE_WR c)).setOpAt c i (fun o => { o with stage := .writeNet })

/-- The engine's next operation, in entry order, issued (R202, R395). -/
def Dev.issueOp (d : Dev) (c i : Nat) (o : GsOp) : Dev :=
  let d := d.bump (AG_OPS c)
  match o.add with
  | some a =>
    let own := if a.id.stream = goldStream then d.rl.chip else d.cellOwner a.gx a.gy
    let d := d.bump (AG_BEV_ADDS c)
    let a := { a with issued := d.tm.stroke }
    if own = d.rl.chip then d.setOpAt c i (fun o => { o with add := some a, stage := .writeNet })
    else (d.linkSend own 1 (.remoteAdd own a)).setOpAt c i (fun o => { o with stage := .done })
  | none =>
    if engLocal c o.src then d.toPlane c i (fun o => { o with stage := .readPlane })
    else (d.bump (WP_REMOTE_RD c)).setOpAt c i (fun o => { o with stage := .readNet })

/-- The array clocks that the engine has waited, counted (R183, R211): for a credit, and with 512 operations
outstanding. -/
def Dev.engineWaits (d : Dev) (c clocks : Nat) : Dev :=
  let k := d.core c
  let d := if k.opList.any (fun o => decide (o.stage = .creditWait)) then d.bump (WP_CREDIT_WAIT c) clocks else d
  if k.outstanding ≥ 512 then d.bump (AG_OPS_FULL c) clocks else d

/-- GS_OP_ISSUE (R174, R202): a remote write whose credit has come is sent; otherwise the engine's next operation is issued
while fewer than 512 are outstanding. An increment beyond them, which only a fault of the hardware makes, raises OPS_BOUND. -/
def gsOpIssue (c : Nat) (q : OpIssue) (d : Dev) : Dev :=
  if d.engineUp c = false then d
  else
    let k := d.core c
    let l := k.opList
    let d := d.engineWaits c q.clocks
    if q.forced ∧ k.outstanding ≥ 512 then d.agFault c 2 0x23
    else
      let w := l.findIdx (fun o => d.mayPay c o)
      match l[w]? with
      | some o => d.sendWrite c w o
      | none =>
        let i := l.findIdx (fun o => decide (o.stage = .idle))
        match l[i]? with
        | none => d
        | some o => if k.outstanding ≥ 512 then d else d.issueOp c i o

/-- A commons access by a core: unpowered segments raise POWERED_DOWN; the hash and the cell memory take no write of a
core (R107, R163, R176, R179). -/
def Dev.commonsWrite (d : Dev) (c off : Nat) (bs : List Byte) : Dev :=
  if d.commonsOn off = false then d.tpFault c 1 true 0 0 0x16
  else if off < 0x6000000 then d.tpFault c 5 true 0 0 0x16
  else { d with mem := memWrite d.mem (commonsAt off) bs }

/-- What error correction does to a commons access (R164, R167). -/
def Dev.commonsEcc (d : Dev) (off : Nat) (e : Ecc) : Dev :=
  let d := d.cmnFixed off e.corr
  match e.unc with
  | none => d
  | some g => d.cmnLost (eccAt 8 off g)

/-- Whether a remote write may be applied at its owner (R174). -/
def Dev.regionOk (d : Dev) (o : GsOp) : Bool :=
  match engDec o.dst, o.credit with
  | some (2, _, off), some (e, true) =>
    let (lo, hi, g) := d.commonsRegion e
    decide (g ≠ 0) && decide (lo ≤ off) && decide (off + o.len ≤ hi)
  | some (2, _, _), _ => false
  | some (sp, k, off), some (e, false) => d.creditAdmits k e (decide (sp = 1)) off o.len
  | some _, some (_, true) => false
  | some _, none => true
  | none, _ => false

/-- CREDIT_REGION at the owner of a remote write (R174, R181), with the plane address that the write names. -/
def Dev.creditBad (d : Dev) (c dst : Nat) : Dev :=
  match planeOf c dst with
  | some (k, word, off) => d.tpFault k 7 word off 0 0x23
  | none => d.tpFault c 7 false 0 0 0x23

/-- A transfer of crew work that fails its CRC at the destination (R347). -/
def Dev.nocCrc (d : Dev) : Dev := (d.bump FLT_NOC_CRC).report { src := 0x15, unit := unitOf 4 0 }

/-- Flits of a transfer that a router replayed after a parity error (R347): each a corrected fault. -/
def Dev.netMet (d : Dev) (net : NetErr) : Dev :=
  loopN (fun _ d => d.report { src := 0x07, unit := unitOf 4 0 }) net.flits (d.bump FLT_FLIT_REPLAY net.flits)

/-- REMOTE_ACCESS_ARRIVE (R172, R174, R347): operation i of core c arrives over the network at its target: at a plane it
waits there as an unscheduled access; the commons serve it. A transfer whose CRC fails does not execute. -/
def remoteArrive (c i : Nat) (net : NetErr) (e : Ecc) (d : Dev) : Dev :=
  let ended (d : Dev) : Dev := d.setOpAt c i (fun o => { o with stage := .done })
  if d.engineUp c = false then d
  else
    match (d.core c).opList[i]? with
    | none => d
    | some o =>
      if o.stage ≠ .readNet ∧ (o.stage ≠ .writeNet ∨ o.add.isSome) then d
      else
        let d := d.netMet net
        if net.bad then ended d.nocCrc
        else if o.stage = .readNet then
          match engDec o.src with
          | some (2, _, off) =>
            if d.commonsOn off then
              let (bs, d) := d.eccData (d.commonsRead off o.len) off 8 e
              let d := d.commonsEcc off e
              let go (o : GsOp) : GsOp := { o with data := bs, stage := writeStage c o }
              if writeStage c o = .writePlane then d.toPlane c i go else d.setOpAt c i go
            else ended (d.tpFault c 1 true 0 0 0x16)
          | some _ => d.toPlane c i (fun o => { o with stage := .readPlane })
          | none => ended (d.agFault c 3 0x16)
        else if d.regionOk o = false then ended (d.creditBad c o.dst)
        else
          match engDec o.dst with
          | some (2, _, off) =>
            if d.putHeld c i then d
            else
              let ok := d.commonsOn off && decide (off ≥ 0x6000000)
              let d := (d.commonsEcc off e).commonsWrite c off o.data
              ended (if ok then d.owe c o else d)
          | _ => d.toPlane c i (fun o => { o with stage := .writePlane })

/-- UNSCHEDULED_ACCESS (R159, R161, R162, R164, R179, R222): operation i of core c is served at its plane, where no other
comes before it: a read takes the bytes, a write is journalled and applied. `e` is what error correction met. -/
def unscheduledAccess (c i : Nat) (e : Ecc) (d : Dev) : Dev :=
  if d.engineUp c = false then d
  else
    match (d.core c).opList[i]? with
    | none => d
    | some o =>
      if d.servedNow c i o = false then d
      else
        match o.stage with
        | .readPlane => d.serveRead c i o e
        | .writePlane => if d.putHeld c i then d else d.serveWrite c i o e
        | _ => d

/-- The freeze of a promoted access (R160): a cycle for each bank that it takes from the scheduled accesses of the cycle that
its core has reached. -/
def Dev.promoteFreeze (d : Dev) (k : Nat) (word : Bool) (off len : Nat) : Dev :=
  let now := d.absCyc k (d.crew (k / 8)).pos
  let taken := (d.vol k).occAt now word
  let n := ((spanBanks word off len).filter (fun b => taken.contains b)).eraseDups.length
  (d.bump (if word then WP_PROMOTE_FREEZE k else TP_PROMOTE_FREEZE k) n).freeze k now n

/-- ACCESS_PROMOTE (R159, R160): an access that has waited 16 array clocks at a plane goes before scheduled accesses: an
operation of core c's engine, or another block's access at core c's plane. -/
def accessPromote (c : Nat) (q : PlaneReq) (d : Dev) : Dev :=
  if d.engineUp c = false then d
  else
    match q with
    | .other word off len => if off + len > planeSize word then d else d.promoteFreeze c word off len
    | .op i =>
      match (d.core c).opList[i]? with
      | none => d
      | some o =>
        let spans := opSpans c o
        if o.promoted ∨ spans.isEmpty then d
        else
          (spans.foldl (fun (d : Dev) s => d.promoteFreeze s.1 s.2.1 s.2.2.1 s.2.2.2) d).setOpAt c i
            (fun o => { o with promoted := true })

/-- BEV_ADD_ARRIVE (R207): add i of core c reaches the scatter buffer: it waits there for its stroke, or is discarded as
late. -/
def bevAddArrive (c i : Nat) (net : NetErr) (d : Dev) : Dev :=
  if d.engineUp c = false then d
  else
    match (d.core c).opList[i]? with
    | none => d
    | some o =>
      match o.add with
      | none => d
      | some a =>
        if o.stage ≠ .writeNet then d
        else
          let d := (d.netMet net).setOpAt c i (fun o => { o with stage := .done })
          if net.bad then d.nocCrc
          else if sOlder a.at_ d.tm.stroke then
            let d := (d.bump AG_BEV_LATE).hwOr (AG_CORE_FAULT c) 16
            d.report { src := 0x18, unit := unitOf 0 c, cancel := [a.id] }
          else { d with cm := { d.cm with adds := d.cm.adds ++ [a] } }

/-- One completed operation taken out of its descriptor; the answer also gives the slot that its descriptor PUTs when it
was the last. -/
def opsDone : List GsAct → Nat → List GsAct × Bool × Option (Nat × Nat × Nat)
  | [], _ => ([], false, none)
  | a :: r, i =>
    if i < a.ops.length then
      let ops := a.ops.eraseIdx i
      if ops.isEmpty then (r, true, a.put) else ({ a with ops := ops } :: r, false, none)
    else
      let (r', b, p) := opsDone r (i - a.ops.length)
      (a :: r', b, p)

/-- GS_OP_COMPLETE (R169, R200): an operation that has taken effect completes; the last of a descriptor with PUT marks its
ring slot FULL. A slot that is still FULL holds the completion (R170). -/
def gsOpComplete (c i : Nat) (d : Dev) : Dev :=
  if d.engineUp c = false then d
  else
    let k := d.core c
    match k.opList[i]? with
    | none => d
    | some o =>
      if o.stage ≠ .done then d
      else
        match opsDone k.acts i with
        | (acts, last, put) =>
          match put with
          | some (r, s, e) =>
            if d.slotFull c r s then d
            else ((d.setCore c { k with acts := acts }).markFull c r s e).bump (AG_DESC_DONE c)
          | none => (d.setCore c { k with acts := acts }).bump (AG_DESC_DONE c) (b2n last)

/-- A slot fault (R170, R181): the plane address of the slot, and the ring. -/
def Dev.slotFault (d : Dev) (c bit ring slot : Nat) : Dev :=
  let g := d.ringDesc c ring
  (d.bump (if bit = 3 then TP_SLOT_UNDERRUN c else TP_SLOT_OVERRUN c)).tpFault c bit g.word (g.base + slot * g.size) ring
    0x11

/-- A descriptor whose PUT waits for a slot that is still FULL: every operation but the one that completes it is done, and
that one waits at its target (R170). -/
def Dev.actHeld (d : Dev) (c : Nat) (a : GsAct) : Bool :=
  match a.put with
  | none => false
  | some (r, s, _) =>
    let at_ (o : GsOp) : Bool := decide (o.stage = .writePlane) || decide (o.stage = .writeNet)
    d.slotFull c r s && decide (a.ops.countP (fun o => !(decide (o.stage = .done))) ≤ 1) &&
      a.ops.all (fun o => decide (o.stage = .done) || at_ o)

/-- SLOT_WAIT_EXPIRE (R170): a check of the core that still fails after 64 freeze cycles raises SLOT_UNDERRUN for a GET,
SLOT_OVERRUN for a PUT; so does, after 64 array clocks, a PUT that a block of the device or the core's engine holds. -/
def slotWaitExpire (c : Nat) (d : Dev) : Dev :=
  let k := c / 8
  let cr := d.crew k
  let x := d.core c
  match cr.wait.find? (fun w => decide (w.1 = c) && decide (w.2.2.1 < 32) && !(d.waitOk w)) with
  | some w =>
    let d := d.setCrew k { cr with wait := cr.wait.filter (fun x => decide (x ≠ w)) }
    let d := (d.bump (TP_SLOT_WAIT c) 64).freeze c (d.absCyc c w.2.1) 64
    let p := x.ring w.2.2.1
    if w.2.2.2 then d.slotFault c 3 w.2.2.1 p.tail
    else d.slotFault c 4 w.2.2.1 (match p.resv with
      | (s, _) :: _ => s
      | [] => p.head)
  | none =>
    match takeFirst (fun (h : Nat × Nat × List Byte) => decide (h.1 = c) && d.slotFull c h.2.1 (x.ring h.2.1).head) d.cw.held with
    | some (h, r) => ({ d with cw := { d.cw with held := r } } : Dev).slotFault c 4 h.2.1 (x.ring h.2.1).head
    | none =>
      match takeFirst (d.actHeld c) x.acts with
      | some (a, r) =>
        match a.put with
        | some (ring, s, _) => (d.setCore c { x with acts := r }).slotFault c 4 ring s
        | none => d
      | none => d

/-- CREDIT_RETURN (R174): a credit of a destination (32: the commons) and entry comes back to its sender once the owner has
applied a write; one that would raise the counter above the grant raises CREDIT_OVERFLOW. (DESIGN CHOICE, log entry 79.) -/
def creditReturn (c dst entry : Nat) (d : Dev) : Dev :=
  if d.engineUp c = false ∨ dst > 32 ∨ entry ≥ 16 then d
  else
    let v := d.vol c
    let key := 16 * dst + entry
    let n := smGet (fun _ => 0) v.cred key
    let m := smGet (fun _ => 0) v.owed key
    if n = 0 then d.tpFault c 6 false 0 0 0x23
    else if m = 0 then d
    else d.setVol c { v with cred := smSet (fun _ => 0) v.cred key (n - 1), owed := smSet (fun _ => 0) v.owed key (m - 1) }

/-! ### The patrol scrub (R166, R167, R179) -/

/-- Entries of a bank in one segment of a plane (R178): lines of the tile plane, entries of the word plane. -/
def segEntries (word : Bool) : Nat := if word then 256 else 1024

/-- The entry that the scrub reads next from a position on, passing over unpowered segments (R166, R179). -/
def Dev.scrubAt (d : Dev) (c : Nat) (word : Bool) (pos : Nat) : Option Nat :=
  let n := segEntries word
  (List.range 9).findSome? (fun i =>
    let s := (pos / n + i) % 8
    if bitOf (d.rd (if word then WP_CORE_POWER c else TP_CORE_POWER c)).toNat s then some (if i = 0 then pos else n * s)
    else none)

/-- The plane offset of piece `p` of an entry of every bank: bank `p` of the tile plane, word `p` mod 4 of bank `p` div 4 of
the word plane (R153, R156). -/
def scrubOff (word : Bool) (e p : Nat) : Nat :=
  if word then 1024 * e + 4 * (p % 256) else 1024 * e + 16 * ((p % 64 + 8192 - e) % 64)

/-- PLANE_SCRUB (R166, R167): the patrol scrub of a core's plane reads one entry of every powered bank, in ascending entry
order. Single-bit errors are rewritten and counted, double ones raise UNCORR. (DEDUCED, log entry 99.) -/
def planeScrub (c : Nat) (word : Bool) (corr unc : List Nat) (d : Dev) : Dev :=
  if d.live = false ∨ c ≥ 32 then d
  else
    let v := d.vol c
    match d.scrubAt c word (if word then v.scrubW else v.scrubT) with
    | none => d
    | some e =>
      let next := (e + 1) % (8 * segEntries word)
      let d := d.setVol c (if word then { v with scrubW := next } else { v with scrubT := next })
      let d := d.planeTurn c word (1024 * e) 1024
      let d := corr.foldl (fun (d : Dev) p => d.report
        { src := if word then 0x02 else 0x01, unit := unitOf 0 c, addr := engAddr word c (scrubOff word e p) }) d
      let d := d.bump (if word then WP_CORR c else TP_SCRUB_CORR c) corr.length
      unc.foldl (fun (d : Dev) p => d.uncorr c word (scrubOff word e p)) d

end Sys2Proof.Machine
end

