-- ==== Sys2Proof/Machine/Time.lean ====
section
/-! DEFINITION. The time base (14_time_base): changes of OFFSET, RATE and ANCHOR (R366), the servo (R367, R368), the
adjustment registers (R369), the protocol engine (R370 to R372), stroke lengths (R373 to R375), triggers (R376 to R378)
and captures (R379). -/

namespace Sys2Proof.Machine

/-! ### OFFSET, RATE, ANCHOR (R365, R366) -/

/-- The limit of RATE (R365). -/
def rateMax : Int := 219902325

/-- A number held within limits. -/
def clampTo (lo hi i : Int) : Int := max lo (min hi i)

/-- A change of LOCKED, HOLDOVER or ALIGNED signals vector 11 (R416). -/
def Dev.tbFlags (d : Dev) (l h a : Bool) : Dev :=
  if l = d.tm.locked ∧ h = d.tm.holdover ∧ a = d.tm.aligned then d
  else
    let d := { d with tm := { d.tm with locked := l, holdover := h, aligned := a } }
    d.irq 11

/-- New values take effect at raw time r (R366): corrected time is continuous, then a step is added; a forward step can
carry it past the edges of trigger outputs (R377). -/
def Dev.retime (d : Dev) (r : Nat) (rate step : Int) : Dev :=
  let now := d.corrected r
  { d with tm := { d.tm with offset := now + step, rate := rate, anchor := r
                             jump := if step > 0 then some (now, now + step) else none } }

/-- The TIME entry of a change (R229, R366). -/
def Dev.logTime (d : Dev) (s : Stroke) (isStep : Bool) : Dev :=
  if d.tm.op then
    d.logIn { stroke := s, type := 6,
              payload := toLE 12 (wrapN 96 d.tm.offset) ++ toLE 8 (wrapN 64 d.tm.rate) ++ toLE 4 (b2n isStep) }
  else d

/-- One change carried out, logged and counted (R366, R381). -/
def Dev.change (d : Dev) (r : Nat) (s : Stroke) (rate step : Int) : Dev :=
  let d := (d.retime r rate step).logTime s (decide (step ≠ 0))
  d.bump TB_STEPS (b2n (decide (step ≠ 0)))

/-! ### The servo (R367, R368) -/

/-- `servo(m)` of R367 with the rules of LOCKED (R368): m in units of 2^-16 ns. -/
def Dev.servo (d : Dev) (r : Nat) (s : Stroke) (m : Int) : Dev :=
  let d := d.bump TB_MEAS
  let th : Int := ((d.rd TB_STEP_THRESH).toNat : Int) * 65536
  if d.rf TB_CFG 1 1 = 1 ∧ (m.natAbs : Int) ≥ th then
    let d := { d with tm := { d.tm with lockCnt := 0 } }
    (d.change r s d.tm.rate (-m * 65536)).tbFlags false false d.tm.aligned
  else
    let integ := clampTo (-rateMax) rateMax (d.tm.integ + fdiv ((d.rd TB_KI).toNat * m) (2 ^ 32))
    let rate := clampTo (-rateMax) rateMax (-(integ + fdiv ((d.rd TB_KP).toNat * m) (2 ^ 32)))
    let near := decide (m.natAbs < d.rf TB_LOCK 0 16 * 65536)
    let cnt := if near then d.tm.lockCnt + 1 else 0
    let d := { d with tm := { d.tm with integ := integ, lockCnt := cnt } }
    (d.change r s rate 0).tbFlags (near && (d.tm.locked || decide (8 ≤ cnt))) false d.tm.aligned

/-- SERVO_UPDATE (R366, R367, R369): at the boundary of raw time r that opens stroke s the newest measurement of the
stroke just ended, or the adjustment that a GO or the entry to holdover holds, takes effect. In a replay TIME entries
alone drive the values (R233). -/
def Dev.timeBoundary (d : Dev) (r : Nat) (s : Stroke) : Dev :=
  let ms := d.tm.meas
  let adj := d.tm.adj
  let d := { d with tm := { d.tm with meas := [], adj := none } }
  if d.lg.replaying then d
  else if d.rf TB_CFG 0 1 = 1 then
    match ms.getLast? with
    | some m => (d.bump TB_MEAS_SKIP (ms.length - 1)).servo r s m
    | none =>
      match adj with
      | some (rate, _) => d.change r s rate 0
      | none => d
  else
    match adj with
    | some (rate, step) => d.change r s rate step
    | none => d

/-- A measurement formed (R367, R368), whether or not the servo takes it (R380). -/
def Dev.measure (d : Dev) (raw : Nat) (m : Int) : Dev :=
  { d with tm := { d.tm with meas := d.tm.meas ++ [m], lastM := m, measAt := raw } }

/-- Holdover entered (R368): RATE := −integ at the next boundary, and LOCKED clears. -/
def Dev.toHoldover (d : Dev) : Dev :=
  let d := d.bump TB_HOLDOVER
  let d := { d with tm := { d.tm with lockCnt := 0, adj := some (clampTo (-rateMax) rateMax (-d.tm.integ), 0) } }
  d.tbFlags false true d.tm.aligned

/-- HOLDOVER_ENTER (R368): no measurement has been formed for HOLD_MS ms by raw time `raw`. -/
def holdoverEnter (raw : Nat) (d : Dev) : Dev :=
  if d.rf TB_CFG 0 1 = 1 ∧ ¬ d.tm.holdover ∧ raw - d.tm.measAt ≥ d.rf TB_LOCK 16 16 * 1200000 then d.toHoldover else d

/-- TIME_ADJUST (R369): a write of GO to TB_ADJ_CTRL holds ADJ_RATE and ADJ_OFFSET for the next boundary. -/
def timeAdjust (d : Dev) : Dev :=
  if d.rf TB_CFG 0 1 = 1 then d.bump TB_ADJ_IGNORED
  else
    let off := sext 96 ((d.rd TB_ADJ_OFFSET_FRAC).toNat + 2 ^ 32 * (d.rd TB_ADJ_OFFSET_LO).toNat +
      2 ^ 64 * (d.rd TB_ADJ_OFFSET_HI).toNat)
    let rate := clampTo (-rateMax) rateMax (d.rdInt64 TB_ADJ_RATE_LO TB_ADJ_RATE_HI)
    { d with tm := { d.tm with adj := some (rate, off) } }

/-- RAW_MICROSECOND_TICK (R366, R19): before the operational state the values change at the next 1 µs tick of raw
time. (DEDUCED, log entry 48.) -/
def rawTick (d : Dev) : Dev :=
  if d.tm.op then d
  else
    let r := (d.tm.raw / 1200 + 1) * 1200
    let d := { d with tm := { d.tm with raw := r } }
    d.timeBoundary r 0

/-! ### Strokes (R373 to R375, R19) -/

/-- Distance of a corrected time, in units of 2^-32 ns, from the nearest whole microsecond (R373). -/
def fromMicro (t : Int) : Int := (t + 500 * 2 ^ 32) % (1000 * 2 ^ 32) - 500 * 2 ^ 32

/-- `stroke_length` of R373 at a boundary of raw time r. -/
def Dev.strokeLength (d : Dev) (r : Nat) : Nat :=
  let x := fromMicro (d.corrected (r + 1200))
  if 12 * x ≥ 5 * 2 ^ 32 then 1199 else if 12 * x ≤ -(5 * 2 ^ 32) then 1201 else 1200

/-- ALIGNED and STROKE_OFFSET at the boundary of raw time r that opens stroke s (R374, R375). -/
def Dev.alignment (d : Dev) (r : Nat) (s : Stroke) : Dev :=
  let t := d.corrected r
  let al := decide (6 * (fromMicro t).natAbs ≤ 5 * 2 ^ 32)
  let d := d.tbFlags d.tm.locked d.tm.holdover al
  if al then
    let us := fdiv (t + 500 * 2 ^ 32) (1000 * 2 ^ 32)
    { d with tm := { d.tm with strokeOff := s - BitVec.ofInt 48 us } }
  else d

/-- The first array clock at or after raw time r0 whose corrected time is at least t (R19): `n` clocks are tried. -/
def Dev.clockAt (d : Dev) (t : Int) : Nat → Nat → Nat
  | 0, r => r
  | n + 1, r => if d.corrected r ≥ t then r else d.clockAt t n (r + 1)

/-- The entry boundary (R19): raw time and whole microsecond. -/
def Dev.entryClock (d : Dev) : Nat × Int :=
  let t := d.corrected d.tm.raw
  let us := -(fdiv (-t) (1000 * 2 ^ 32))
  let gap := us * 1000 * 2 ^ 32 - t
  let est := (fdiv (gap * 1536) (5 * (2 ^ 40 + d.tm.rate))).toNat
  (d.clockAt (us * 1000 * 2 ^ 32) 6 (d.tm.raw + (est - 2)), us)

/-! ### Trigger outputs (R376 to R378) -/

/-- A trigger that nothing has enabled. -/
def trig0 : Nat → Trig := fun _ => {}

/-- A trigger output. -/
def Dev.trg (d : Dev) (n : Nat) : Trig := smGet trig0 d.tm.trig n

/-- A trigger output replaced. -/
def Dev.setTrg (d : Dev) (n : Nat) (t : Trig) : Dev := { d with tm := { d.tm with trig := smSet trig0 d.tm.trig n t } }

/-- Whether WIDTH has a value that R380 gives: 5 to 16,777,215 ns, a multiple of 2.5 ns. -/
def widthOk (w : Nat) : Bool := decide (5 ≤ w) && decide (w % 5 = 0)

/-- The first k whose PERIODIC edge lies at or after a time in whole and fractional ns (units of 2^-32 ns). -/
def nextEdge (start period : Nat) (t : Int) : Nat :=
  let gap := t - (start : Int) * 2 ^ 32
  if gap ≤ 0 ∨ period = 0 then 0 else (-(fdiv (-gap) ((period : Int) * 2 ^ 32))).toNat

/-- A trigger's registers taken at the boundary that opens stroke s (R378); STROKE and FRAME outputs are armed where
this boundary is their event (R376). -/
def Dev.trigBoundary (d : Dev) (r : Nat) (s : Stroke) (frameFirst : Bool) (n : Nat) : Dev :=
  let t := d.trg n
  let mode := d.rf (TB_TRIG_CFG n) 0 3
  let start := (d.rd (TB_TRIG_START_LO n)).toNat + 2 ^ 32 * (d.rd (TB_TRIG_START_HI n)).toNat
  let period := (d.rd (TB_TRIG_PERIOD n)).toNat
  let width := d.rf (TB_TRIG_WIDTH n) 0 24
  let t :=
    if t.mode = mode ∧ t.start = start ∧ t.period = period then { t with width := width }
    else { t with mode := mode, start := start, period := period, width := width, armed := decide (mode = 1),
                  nextK := nextEdge start period (d.corrected r) }
  let t :=
    if mode = 3 then { t with armed := decide (0 < period) && decide (s.toNat % period = start % period) }
    else if mode = 4 then { t with armed := frameFirst } else t
  d.setTrg n { t with driven := t.driven || decide (mode ≠ 0), wrote := false }

/-- Every trigger at a boundary. -/
def Dev.trigBoundaries (d : Dev) (r : Nat) (s : Stroke) (frameFirst : Bool) : Dev :=
  (List.range 24).foldl (fun d n => d.trigBoundary r s frameFirst n) d

/-- A rising edge at raw time `raw`: a pulse that is not over is extended to this edge's end and counted in LATE; one
that ends with this tick falls first (R377). (DEDUCED, log entry 85.) -/
def Dev.fire (d : Dev) (n raw : Nat) (late : Bool) (t : Trig) : Dev :=
  let ended := t.high && decide (t.endAt ≤ 10 * raw)
  let on := t.high && !ended
  let d := (d.bump (TB_FIRED n)).bump (TB_LATE n) (b2n (late || on))
  let d := if ended then d.emit (.trigFall n) else d
  let d := d.setTrg n { t with high := true, endAt := 10 * raw + 12 * t.width }
  if on then d else d.emit (.trigRise n)

/-- Whether raw time `raw` is the first 400 MHz tick of the stroke in progress. -/
def Dev.firstTick (d : Dev) (raw : Nat) : Bool :=
  decide (raw % 3 = 0) && decide (d.tm.openRaw ≤ raw) && decide (raw < d.tm.openRaw + 3)

/-- Whether raw time `raw` is the tick of the edge at a corrected time (R376, R377): the first tick at or after it; of an
edge that had passed as the values in force began, the first tick of the stroke. -/
def Dev.edgeTick (d : Dev) (raw : Nat) (at_ : Int) : Bool :=
  decide (raw % 3 = 0) && decide (d.tm.openRaw ≤ raw) && decide (d.corrected raw ≥ at_) &&
    (d.firstTick raw || decide (d.corrected (raw - 3) < at_))

/-- Whether the forward step with which the values in force began carried corrected time past an edge (R377). -/
def Dev.jumped (d : Dev) (at_ : Int) : Bool :=
  match d.tm.jump with
  | some (old, new) => decide (old < at_) && decide (at_ ≤ new)
  | none => false

/-- The ONESHOT output has fired (R376): MODE reads OFF, unless it has been written since it was taken (R378). -/
def Dev.shotDone (d : Dev) (n : Nat) (t : Trig) : Dev := if t.wrote then d else d.hwN (TB_TRIG_CFG n) 0

/-- TRIGGER_EDGE (R376, R377): on the 400 MHz tick of raw time `raw`, output n drives its rising edge where its mode has
an event due; at any other raw time nothing happens. -/
def triggerEdge (n raw : Nat) (d : Dev) : Dev :=
  let t := d.trg n
  if ¬ d.live then d
  else
    match t.mode with
    | 1 =>
      let at_ : Int := (t.start : Int) * 2 ^ 32
      if t.armed ∧ d.edgeTick raw at_ then
        (d.fire n raw (d.jumped at_) { t with mode := 0, armed := false }).shotDone n t
      else d
    | 2 =>
      let at_ : Int := ((t.start + t.nextK * t.period : Nat) : Int) * 2 ^ 32
      if 0 < t.period ∧ d.edgeTick raw at_ then
        d.fire n raw (d.jumped at_)
          { t with nextK := max (t.nextK + 1) (nextEdge t.start t.period (d.corrected raw + 1)) }
      else d
    | 3 => if t.armed ∧ d.firstTick raw then d.fire n raw false { t with armed := false } else d
    | 4 => if t.armed ∧ d.firstTick raw then d.fire n raw false { t with armed := false } else d
    | _ => d

/-- TRIGGER_PULSE_END (R376): a pulse ends WIDTH ns of raw time after its edge. -/
def triggerPulseEnd (n raw : Nat) (d : Dev) : Dev :=
  let t := d.trg n
  if t.high ∧ t.endAt ≤ 10 * raw then (d.setTrg n { t with high := false }).emit (.trigFall n) else d


/-! ### Capture inputs (R379, R380) -/

/-- A capture input. -/
def Dev.capt (d : Dev) (n : Nat) : Capt := smGet (fun _ => {}) d.tm.capt n

/-- A capture input replaced. -/
def Dev.setCapt (d : Dev) (n : Nat) (c : Capt) : Dev :=
  { d with tm := { d.tm with capt := smSet (fun _ => {}) d.tm.capt n c } }

/-- CAPTURE_EDGE (R379): a filtered edge taken on the tick of raw time `raw`, stored with its corrected time less FILT
ticks, where EDGE selects its polarity; a full store loses it. -/
def captureEdge (n : Nat) (rise : Bool) (raw : Nat) (d : Dev) : Dev :=
  let e := d.rf (TB_CAP_CFG n) 0 2
  if bitOf e (if rise then 0 else 1) then
    let c := d.capt n
    if c.fifo.length ≥ 16 then d.bump (TB_CAP_OVF n)
    else
      let t := fdiv (d.corrected raw - (d.rf (TB_CAP_CFG n) 2 6 : Int) * 5 * 2 ^ 31) (2 ^ 32)
      (d.bump (TB_CAPTURED n)).setCapt n { c with fifo := c.fifo ++ [(wrapN 64 t, rise)], used := true }
  else d

/-- VAL of a capture input as it stands (R380): the oldest entry; 0, the reset value, of a store that has held none; of
one that has been emptied the manual gives no value. -/
def Dev.captVal (d : Dev) (n : Nat) : Nat × Dev :=
  match (d.capt n).fifo, (d.capt n).used with
  | (t, _) :: _, _ => (t, d)
  | [], false => (0, d)
  | [], true => (d.fresh.1.toNat, d.fresh.2)

/-- The oldest entry of a capture input removed by the read of VAL_LO (R380): RISE and VALID are those of that entry. -/
def Dev.captPop (d : Dev) (n : Nat) : Dev :=
  let c := d.capt n
  match c.fifo with
  | (_, rise) :: r => d.setCapt n { c with fifo := r, rise := rise, valid := true }
  | [] => d.setCapt n { c with valid := false }

/-- CAPTURE_READ (R7, R379, R380): a requester's read of VAL_LO answers and removes the oldest entry, and captures the
upper word for that requester. -/
def captureRead (req n : Nat) (d : Dev) : Dev :=
  let (v, d) := d.captVal n
  let d := (d.captPop n).setCapt4 req (TB_CAP_VAL_HI n) (some (BitVec.ofNat 32 (v / 2 ^ 32)))
  d.emit (.readData (toLE 4 v))

/-- TB_CAPnn_STAT (R380). -/
def Dev.captStat (d : Dev) (n : Nat) : Word :=
  let c := d.capt n
  BitVec.ofNat 32 (c.fifo.length + 32 * b2n c.rise + 64 * b2n c.valid)

/-! ### The protocol engine (R370 to R372) -/

/-- ROLE of a MAC: 0 off, 1 slave, 2 master. -/
def Dev.ptpRole (d : Dev) (mac : Nat) : Nat := d.rf (TB_MAC_PTP mac) 0 2

/-- A message's header fields (IEEE 1588-2019, named by R370): type, domain, two-step flag, correction in units of
2^-16 ns, sequence, log interval, source port identity. -/
structure PtpMsg where
  type : Nat
  domain : Nat
  twoStep : Bool
  corr : Int
  seq : Nat
  logInt : Int
  port : List Byte
  bytes : List Byte
  deriving DecidableEq, Repr

/-- A message parsed; none where it is too short for its type or of another version. (PRESUMED, log entry 21.) -/
def parsePtp (bs : List Byte) : Option PtpMsg :=
  let ty := beAt bs 0 1 % 16
  let need := if ty = 11 then 64 else if ty = 2 ∨ ty = 3 ∨ ty = 9 ∨ ty = 10 then 54 else 44
  let known := [0, 1, 2, 3, 8, 9, 10, 11].contains ty
  if known ∧ bs.length ≥ need ∧ beAt bs 1 1 % 16 = 2 ∧ beAt bs 2 2 ≤ bs.length ∧ need ≤ beAt bs 2 2 then
    some { type := ty, domain := beAt bs 4 1, twoStep := bitOf (beAt bs 6 1) 1, corr := sext 64 (beAt bs 8 8),
           seq := beAt bs 30 2, logInt := sext 8 (beAt bs 33 1), port := (bs.drop 20).take 10, bytes := bs }
  else none

/-- The 10-byte timestamp at byte 34 (seconds, then ns), in units of 2^-16 ns. -/
def PtpMsg.stamp (m : PtpMsg) : Int :=
  ((beAt m.bytes 34 6 * 1000000000 + beAt m.bytes 40 4 : Nat) : Int) * 65536

/-- Big-endian bytes. -/
def toBE (n x : Nat) : List Byte := (toLE n x).reverse

/-- A timestamp as 10 bytes, and its fraction of a ns in units of 2^-16. -/
def stampBytes (t : Int) : List Byte × Int :=
  let ns := (fdiv t 65536).toNat
  (toBE 6 (ns / 1000000000) ++ toBE 4 (ns % 1000000000), t % 65536)

/-- The port identity of a MAC: clock identity and port number mac + 1. -/
def portId (mac : Nat) : List Byte := (List.range 8).map Config.clockIdentity ++ toBE 2 (mac + 1)

/-- A message built: type, two-step flag, correction, sequence, log interval, body after the header. -/
def Dev.ptpMsg (d : Dev) (mac ty : Nat) (twoStep : Bool) (corr : Int) (seq : Nat) (logInt : Int) (body : List Byte) :
    List Byte :=
  let gptp := decide (d.rf TB_CFG 2 2 = 0)
  toBE 1 (ty + if gptp then 16 else 0) ++ toBE 1 2 ++ toBE 2 (34 + body.length) ++ toBE 1 (d.rf TB_CFG 6 8) ++ zeros 1 ++
    toBE 2 (if twoStep then 512 else 0) ++ toBE 8 (wrapN 64 corr) ++ zeros 4 ++ portId mac ++ toBE 2 seq ++
    toBE 1 (match ty with | 0 => 0 | 1 => 1 | 8 => 2 | 9 => 3 | _ => 5) ++ toBE 1 (wrapN 8 logInt) ++ body

/-- Where a message goes (R370): layer 2 by its EtherType; over UDP to port 319 an event message, types 0 to 3 of
IEEE 1588, and to port 320 any other. (PRESUMED, log entry 21.) -/
def ptpDest (via : Nat) (m : List Byte) : Nat :=
  if via = 0 then 0x88F7 else if beAt m 0 1 % 16 < 4 then 319 else 320

/-- A message sent on a MAC, by TRANSPORT of TB_CFG (R370). -/
def Dev.ptpSend (d : Dev) (mac : Nat) (m : List Byte) : Dev :=
  d.emit (.ptp mac (d.rf TB_CFG 4 2) (ptpDest (d.rf TB_CFG 4 2) m) m)

/-- Corrected time in units of 2^-16 ns at a raw time. -/
def Dev.now16 (d : Dev) (r : Nat) : Int := fdiv (d.corrected r) 65536

/-- A capture on transmit, corrected for the PHY, as raw time (R372). -/
def Dev.txRaw (d : Dev) (mac raw : Nat) : Nat := ((raw : Int) + d.latency mac 16).toNat

/-- The mean of the last 8 delay measurements (R371), rounded towards minus infinity. (DEDUCED, log entry 47.) -/
def meanOf (l : List Int) : Option Int := if l.isEmpty then none else some (fdiv l.sum l.length)

/-- A complete Sync exchange (R371): a measurement is formed once a path delay has been measured. -/
def Dev.syncDone (d : Dev) (raw : Nat) (t2 t1 corr : Int) : Dev :=
  let diff := t2 - t1 - corr
  let d := { d with tm := { d.tm with ptp := { d.tm.ptp with sync := none, lastDiff := some diff } } }
  match meanOf d.tm.ptp.delays with
  | some p => d.measure raw (diff - p)
  | none => d

/-- A path-delay measurement (R371). -/
def Dev.addDelay (d : Dev) (x : Int) : Dev :=
  { d with tm := { d.tm with ptp := { d.tm.ptp with delays := (x :: d.tm.ptp.delays).take 8, req := none, resp := none } } }

/-- A message at the SLAVE port (R370, R371). -/
def Dev.slaveMsg (d : Dev) (m : PtpMsg) (raw : Nat) (rx : Int) : Dev :=
  let p := d.tm.ptp
  let e2e := decide (d.rf TB_CFG 2 2 = 1)
  match m.type with
  | 0 =>
    if m.twoStep then
      let wait : Nat := if m.logInt ≥ 0 then 1200000000 * 2 ^ m.logInt.toNat else 1200000000 / 2 ^ (-m.logInt).toNat
      { d with tm := { d.tm with ptp := { p with sync := some (m.seq, rx, m.corr, raw + wait) } } }
    else d.syncDone raw rx m.stamp m.corr
  | 8 =>
    match p.sync with
    | some (seq, t2, corr, till) =>
      if seq = m.seq ∧ raw ≤ till then d.syncDone raw t2 m.stamp (corr + m.corr) else d
    | none => d
  | 3 =>
    match p.req with
    | some (seq, t1) =>
      if e2e ∨ seq ≠ m.seq then d
      else if m.twoStep then
        { d with tm := { d.tm with ptp := { p with resp := some (m.seq, rx, m.stamp, m.corr) } } }
      else d.addDelay (fdiv (rx - t1 - m.corr) 2)
    | none => d
  | 10 =>
    match p.req, p.resp with
    | some (seq, t1), some (seq', t4, t2, corr) =>
      if e2e ∨ seq ≠ m.seq ∨ seq' ≠ m.seq then d else d.addDelay (fdiv ((t4 - t1) - (m.stamp - t2) - corr - m.corr) 2)
    | _, _ => d
  | 9 =>
    match p.req, p.lastDiff with
    | some (seq, t3), some diff =>
      if ¬ e2e ∨ seq ≠ m.seq then d else d.addDelay (fdiv (diff + (m.stamp - t3 - m.corr)) 2)
    | _, _ => d
  | 11 => { d with tm := { d.tm with ptp := { p with announce := m.bytes } } }
  | _ => d

/-- A message at a MASTER port (R370): delay requests are answered; `raw` is the raw time of the answer. -/
def Dev.masterMsg (d : Dev) (mac : Nat) (m : PtpMsg) (rx : Int) (raw : Nat) : Dev :=
  let e2e := decide (d.rf TB_CFG 2 2 = 1)
  match m.type with
  | 1 =>
    if e2e then
      let (b, f) := stampBytes rx
      d.ptpSend mac (d.ptpMsg mac 9 false (m.corr - f) m.seq 0 (b ++ m.port))
    else d
  | 2 =>
    if e2e then d
    else
      let (b, f) := stampBytes rx
      let (b', f') := stampBytes (d.now16 (d.txRaw mac raw))
      let d := d.ptpSend mac (d.ptpMsg mac 3 true (-f) m.seq 127 (b ++ m.port))
      d.ptpSend mac (d.ptpMsg mac 10 false (m.corr + f') m.seq 127 (b' ++ m.port))
  | _ => d

/-- PTP_MESSAGE_RX (R370, R371): the engine takes the oldest message received; `raw` is the raw time at which an answer
leaves. -/
def ptpMessageRx (raw : Nat) (d : Dev) : Dev :=
  match d.tm.rxq with
  | [] => d
  | (mac, bs, rraw, rx) :: rest =>
    let d := { d with tm := { d.tm with rxq := rest } }
    let role := d.ptpRole mac
    match parsePtp bs with
    | none => d.bump TB_PTP_DROP
    | some m =>
      if role = 0 ∨ m.domain ≠ d.rf TB_CFG 6 8 then d.bump TB_PTP_DROP
      else if role = 1 then d.slaveMsg m rraw rx
      else d.masterMsg mac m rx raw

/-- Whether a master port's Sync is due at raw time `raw` (R370): one every 2^LOG_SYNC s, the first at any time. -/
def Dev.syncDue (d : Dev) (mac raw : Nat) : Bool :=
  match smGet (fun _ => (none : Option Nat)) d.tm.ptp.syncAt mac with
  | some at_ => decide (at_ + 1200000000 / 2 ^ d.rf TB_CFG 14 3 ≤ raw)
  | none => true

/-- PTP_SYNC_TX (R370, R372): a master port whose interval has passed sends Announce, Sync at raw time `raw`, and its
Follow_Up. -/
def ptpSyncTx (mac raw : Nat) (d : Dev) : Dev :=
  if d.ptpRole mac ≠ 2 ∨ d.syncDue mac raw = false then d
  else
    let seq := d.tm.ptp.seqTx
    let li : Int := -(d.rf TB_CFG 14 3 : Int)
    let (b, f) := stampBytes (d.now16 (d.txRaw mac raw))
    let c := d.rd TB_MASTER_CFG
    let ann := zeros 10 ++ zeros 3 ++ toBE 1 (fld c 0 8) ++ toBE 1 (fld c 8 8) ++ toBE 1 (fld c 16 8) ++ zeros 2 ++
      toBE 1 255 ++ (portId mac).take 8 ++ zeros 2 ++ toBE 1 0xA0
    let d := d.ptpSend mac (d.ptpMsg mac 11 false 0 seq 0 ann)
    let d := d.ptpSend mac (d.ptpMsg mac 0 true 0 seq li (zeros 10))
    let d := d.ptpSend mac (d.ptpMsg mac 8 false f seq li b)
    { d with tm := { d.tm with
      ptp := { d.tm.ptp with seqTx := (seq + 1) % 65536
                             syncAt := smSet (fun _ => none) d.tm.ptp.syncAt mac (some raw) } } }

/-- PTP_DELAY_REQ_TX (R370, R371): the SLAVE port sends Delay_Req, or Pdelay_Req in a peer profile, at raw time
`raw`. -/
def ptpDelayReqTx (raw : Nat) (d : Dev) : Dev :=
  match (List.range 16).find? (fun m => decide (d.ptpRole m = 1)) with
  | none => d
  | some mac =>
    let seq := d.tm.ptp.seqReq
    let e2e := decide (d.rf TB_CFG 2 2 = 1)
    let t := d.now16 (d.txRaw mac raw)
    let m := if e2e then d.ptpMsg mac 1 false 0 seq 127 (zeros 10) else d.ptpMsg mac 2 false 0 seq 127 (zeros 20)
    let d := d.ptpSend mac m
    { d with tm := { d.tm with
      ptp := { d.tm.ptp with req := some (seq, t), resp := none, seqReq := (seq + 1) % 65536 } } }

end Sys2Proof.Machine
end

