-- ==== Sys2Proof/Machine/Island.lean ====
section
/-! DEFINITION. The safety island (12_safety): the groundsheet (R318 to R321), Bivouac (R322, R323), the rules of Cox
(R317), doubts and periods (R331, R332), restart requests (R334), the window watchdogs (R326), SAFE_OK (R337). -/

namespace Sys2Proof.Machine

/-! ### Parameters -/

/-- A word of THRESHOLDS as the island holds it (R342). -/
def IslandSt.word (s : IslandSt) (n : Nat) : Word := smGet (fun _ => 0) s.thr n

/-- The complement with which that word is held (R315). -/
def IslandSt.compl (s : IslandSt) (n : Nat) : Word := smGet (fun _ => 0xFFFFFFFF) s.thrC n

/-- Whether words of THRESHOLDS agree with their complements (R315). -/
def IslandSt.held (s : IslandSt) (ns : List Nat) : Bool := ns.all (fun n => decide (s.compl n = ~~~(s.word n)))

/-- An unsigned parameter. -/
def IslandSt.par (s : IslandSt) (n lo len : Nat) : Nat := fld (s.word n) lo len

/-- A signed 16-bit parameter. -/
def IslandSt.parI (s : IslandSt) (n lo : Nat) : Int := sext 16 (s.par n lo 16)

/-- OPEN and CLOSE of window n (R342). -/
def IslandSt.winOpen (s : IslandSt) (n : Nat) : Nat := s.par (16 + n) 0 16
def IslandSt.winClose (s : IslandSt) (n : Nat) : Nat := s.par (16 + n) 16 16

/-- The stroke of the latest BOUNDARY message. -/
def IslandSt.now (s : IslandSt) : Stroke := match s.bnds with
  | b :: _ => b.s
  | [] => 0

/-! ### The groundsheet (R318 to R321) -/

/-- A cleared groundsheet cell. -/
def gs0 : Nat → GsCell := fun _ => {}

/-- The slot of a groundsheet cell (R319). -/
def gsSlot (gx gy : Int) : Nat := (gx % 512).toNat + 512 * (gy % 512).toNat

/-- Whether a groundsheet cell lies in the window (R320). -/
def IslandSt.gsIn (s : IslandSt) (gx gy : Int) : Bool :=
  decide (s.wx ≤ gx) && decide (gx ≤ s.wx + 511) && decide (s.wy ≤ gy) && decide (gy ≤ s.wy + 511)

/-- Whether a row or column of the list holds a slot. -/
def gsOn (l : List (Bool × Nat)) (k : Nat) : Bool :=
  l.any (fun r => if r.1 then decide (k % 512 = r.2) else decide (k / 512 = r.2))

/-- Whether a cell's slot awaits clearing (R320): its row or column does, and no point has cleared it since. -/
def IslandSt.gsAwaits (s : IslandSt) (gx gy : Int) : Bool :=
  gsOn s.await (gsSlot gx gy) && !(s.fresh.contains (gsSlot gx gy))

/-- The next 8 rows or columns that await clearing are cleared (R320). (DEDUCED, log entry 89.) -/
def IslandSt.clearRows (i : IslandSt) : IslandSt :=
  let now := i.await.take 8
  let left := i.await.drop 8
  if now.isEmpty then i
  else { i with
    gs := i.gs.filter (fun p => !(gsOn now p.1) || i.fresh.contains p.1)
    await := left
    fresh := i.fresh.filter (gsOn left) }

/-- The starts of strokes up to s, at each of which rows and columns are cleared (R320). -/
def IslandSt.clearTo (i : IslandSt) (s : Stroke) : IslandSt :=
  if sLe s i.gsAt then i
  else
    let n := min (sDiff s i.gsAt) ((i.await.length + 7) / 8)
    { loopN (fun _ (i : IslandSt) => i.clearRows) n i with gsAt := s }

/-- Serial distance of 32-bit stroke numbers. -/
def dist32 (a b : BitVec 32) : Nat := (a - b).toNat

/-- The update of a cell by a point of height zc in stroke s (R318). -/
def IslandSt.gsHit (s : IslandSt) (c : GsCell) (now : BitVec 32) (zc : Int) : GsCell :=
  let c := if dist32 now c.tSeen > s.par 12 8 24 then { c with nObst := 0, nGnd := 0, zmax := -32768 } else c
  let c := { c with tSeen := now }
  let gz := s.parI 10 0
  let oh : Int := s.par 11 0 16
  let ch : Int := s.par 10 16 16
  if zc ≥ gz + oh ∧ zc ≤ gz + ch then
    { c with nObst := min 255 (c.nObst + 1), zmax := max c.zmax (max (-32767) (min 32767 zc)), tObst := now }
  else if (zc - gz).natAbs < oh.toNat then { c with nGnd := min 255 (c.nGnd + 1) }
  else c

/-- The groundsheet cell and height of a point under a pose (R318). -/
def gsCellOf (p : Pose) (q : Int × Int × Int) : Int × Int × Int :=
  let rx := fdiv (p.cos * q.1 - p.sin * q.2.1) (2 ^ 30)
  let ry := fdiv (p.sin * q.1 + p.cos * q.2.1) (2 ^ 30)
  (fdiv (5 * (p.x + rx)) 512, fdiv (5 * (p.y + ry)) 512, fdiv (q.2.2 * 100) 256)

/-- The pose in force at the boundary that opened stroke s, from the POSE messages (R318). -/
def IslandSt.poseFor (i : IslandSt) (s : Stroke) : Pose :=
  match i.poses.find? (fun p => sLe p.1 s) with
  | some p => p.2
  | none => {}

/-- The class of a groundsheet cell at stroke s (R321): 2 obstacle, 1 free, 0 unobserved. -/
def IslandSt.gsClass (i : IslandSt) (c : GsCell) (now : BitVec 32) : Nat :=
  let pts := i.par 12 0 8
  let hold := i.par 12 8 24
  if c.nObst ≥ pts ∧ dist32 now c.tObst ≤ hold then 2
  else if c.nGnd ≥ pts ∧ dist32 now c.tSeen ≤ hold then 1 else 0

/-- A native Bivouac word (R322). -/
def IslandSt.bivWord (i : IslandSt) (c : GsCell) (cls : Nat) (now : BitVec 32) : Word64 :=
  let h (z : Int) := wrapN 12 (max (-2048) (min 2047 z))
  let age (t : BitVec 32) := min 254 (dist32 now t / 1024)
  match cls with
  | 2 => BitVec.ofNat 64 (2 + 2 ^ 4 * 255 + 2 ^ 12 * min 255 (32 * c.nObst) + 2 ^ 20 * h c.zmax + 2 ^ 56 * age c.tObst)
  | 1 => BitVec.ofNat 64 (1 + 2 ^ 12 * min 255 (32 * c.nGnd) + 2 ^ 20 * h (i.parI 10 0) + 2 ^ 56 * age c.tSeen)
  | _ => BitVec.ofNat 64 (2 ^ 56 * 255)

/-- Bivouac's word of a world cell at stroke s (R321, R322). -/
def IslandSt.bivCell (i : IslandSt) (now : BitVec 32) (gx gy : Int) : Word64 :=
  let x := fdiv gx 2
  let y := fdiv gy 2
  if i.gsIn x y ∧ ¬ i.gsAwaits x y then
    let c := smGet gs0 i.gs (gsSlot x y)
    i.bivWord c (i.gsClass c now) now
  else i.bivWord {} 0 now

/-- BIVOUAC_WORDS (R322): the 1,024 words of the tile of a stroke under the origin of its BOUNDARY message. -/
def IslandSt.bivTile (i : IslandSt) (b : Bnd) : List Word64 :=
  (List.range 1024).map (fun n =>
    let (gx, gy) := tileCell b.s b.ox b.oy n
    i.bivCell (BitVec.ofNat 32 b.s.toNat) gx gy)

/-- The 64 test points of GOLDEN_REF (R330). -/
def IslandSt.testPoints (i : IslandSt) : List (Int × Int × Int) :=
  (List.range 64).map (fun n =>
    let o := 2112 + 24 * n
    (sext 32 (leAt i.gref o 4), sext 32 (leAt i.gref (o + 4) 4), sext 32 (leAt i.gref (o + 8) 4)))

/-- The words that the self-test forms on the private sheet of 4 × 2 cells (R323). -/
def IslandSt.testWords (i : IslandSt) : List Word64 :=
  let sheet := i.testPoints.foldl (fun (m : SMap GsCell) q =>
    let (gx, gy, zc) := gsCellOf {} q
    if 0 ≤ gx ∧ gx ≤ 3 ∧ 0 ≤ gy ∧ gy ≤ 1 then
      let k := gx.toNat + 4 * gy.toNat
      smSet gs0 m k (i.gsHit (smGet gs0 m k) 0 zc)
    else m) []
  (List.range 8).map (fun k => let c := smGet gs0 sheet k; i.bivWord c (i.gsClass c 0) 0)

/-- Whether the self-test passes (R323). -/
def IslandSt.testPasses (i : IslandSt) : Bool :=
  decide (i.testWords.map BitVec.toNat = (List.range 8).map (fun k => leAt i.gref (3648 + 8 * k) 8))

/-! ### The mirror (R475, R344, R345) -/

/-- MODE of SI_STATUS: 0 not started, 1 accelerator, 2 partial Bivouac, 3 latched. -/
def IslandSt.modeCode (i : IslandSt) : Nat :=
  if i.entry.isNone then 0 else if i.latched ∨ i.permanent then 3 else if i.serveAll ∨ i.serve ≠ 0 then 2 else 1

/-- Ones of a number. -/
def popcount : Nat → Nat → Nat
  | 0, _ => 0
  | n + 1, x => x % 2 + popcount n (x / 2)

/-- Restart requests in the window of R334 that ends now. -/
def IslandSt.inWindow (i : IslandSt) : Nat :=
  (i.requests.filter (fun t => decide (i.time - t < 1000000 * i.par 3 16 16))).length

/-- SI_STATUS as the island's state gives it. -/
def IslandSt.status (i : IslandSt) : Nat :=
  i.modeCode + 4 * b2n i.serveAll + 8 * b2n i.restarting + 16 * b2n i.permanent + 32 * b2n i.bivFail +
    64 * b2n (i.running && !i.fatal) + 128 * b2n i.fatal + 2 ^ 8 * i.clean + 2 ^ 16 * min 63 (popcount 32 i.hist) +
    2 ^ 22 * min 15 i.inWindow

/-- A watchdog's report state. -/
def IslandSt.wwOf (i : IslandSt) (n : Nat) : Ww := smGet (fun _ => {}) i.ww n

/-- The island's counters (R345, R346), by their addresses. -/
def siCtrs : List Nat :=
  (List.range 11).map SI_DOUBT ++ [SI_PERIODS_DOUBT, SI_LATCHES, SI_RESTARTS, SI_BIV_RECORDS, SI_MP_CRC, SI_GS_POINTS,
    SI_GS_DROP, SI_GS_OUTSIDE, SI_SELFTEST_FAIL] ++ (List.range 12).map WW_VIOL

/-- A counter of the island. -/
def IslandSt.ctr (i : IslandSt) (a : Nat) : Ctr := smGet ctr0 i.cnt a

/-- An event of the island counted n times; the mirror shows it when it is next posted (R475). -/
def Dev.bumpSi (d : Dev) (a : Nat) (n : Nat := 1) : Dev :=
  { d with si := { d.si with cnt := smSet ctr0 d.si.cnt a (ctrAdd (d.si.ctr a) n) } }

/-- MIRROR_POST (R475): the SI and WW registers and counters take the island's state. -/
def Dev.mirror (d : Dev) : Dev :=
  let i := d.si
  let st := i.status
  let d := { d with reg := { d.reg with ctrs := siCtrs.foldl (fun m a => smSet ctr0 m a (i.ctr a)) d.reg.ctrs } }
  let d := (d.hwN SI_STATUS st).hwN SI_STATUS_C (63 - st % 64)
  let d := d.hwN SI_LAST_DOUBT (i.lastRule + 2 ^ 4 * i.lastTile + 2 ^ 14 * b2n i.lastAll)
  let d := d.hwN SI_LAST_DOUBT_STROKE_LO (i.lastStroke.toNat % 2 ^ 32)
  let d := d.hwN SI_LAST_DOUBT_STROKE_HI (i.lastStroke.toNat / 2 ^ 32)
  let d := d.hwN SI_FATAL i.cause
  let d := (List.range 32).foldl (fun d y => d.hwN (SI_SERVE y) (bits i.serve.toNat (32 * y) 32)) d
  (List.range 12).foldl (fun d n =>
    let w := i.wwOf n
    let d := d.hwN (WW_STATE n) (w.state + 4 * b2n w.early + 8 * b2n w.late + 16 * b2n w.noTrack)
    let d := d.hwN (WW_LAST_LO n) (w.last.toNat % 2 ^ 32)
    d.hwN (WW_LAST_HI n) (w.last.toNat / 2 ^ 32)) d

/-- The mirror posted again where SI_STATUS has changed (R475); vector 1 at a change of MODE, PERMANENT or RESTARTING
(R416). -/
def Dev.posted (d : Dev) (old : IslandSt) : Dev :=
  let d := if d.si.status = old.status then d else d.mirror
  if d.si.modeCode ≠ old.modeCode ∨ d.si.permanent ≠ old.permanent ∨ d.si.restarting ≠ old.restarting then d.irq 1
  else d

/-! ### Doubts (R314, R317, R332) -/

/-- A doubt found: counted; the period is not clean; it comes into force at the next boundary. -/
def Dev.doubt (d : Dev) (rule : Nat) (tile : Option Nat) : Dev :=
  let d := d.bumpSi (SI_DOUBT (rule - 1))
  { d with si := { d.si with doubts := d.si.doubts ++ [{ rule := rule, tile := tile }], perClean := false } }

/-- A monitor message whose CRC fails, counted as such, or that an overflow of the event queue loses: a doubt of rule 11,
which DOUBT_11 counts (R314). -/
def Dev.badMessage (d : Dev) (rx : MonRx) : Dev := (d.bumpSi SI_MP_CRC (b2n (decide (rx = .badCrc)))).doubt 11 none

/-- Whether a message does not reach the island as it was sent (R314). -/
def monLost (rx : MonRx) : Bool := decide (rx = .badCrc) || decide (rx = .overflow)

/-- An island fault that is device-fatal (R340): no further edge, CAUSE, and the fault controller told (R338).
(DESIGN CHOICE, log entry 86.) -/
def Dev.islandFatal (d : Dev) (cause : Nat) : Dev :=
  let old := d.si
  let d := if d.si.fatal then d else { d with si := { d.si with fatal := true, cause := cause } }
  (d.report { src := 0x31, unit := unitOf 5 0, detail := cause }).posted old

/-- The first message of a kind taken from the monitor port's queue; an uncorrectable error of Cox's memory met on the way is
device-fatal (R340). -/
def Dev.takeMsg (d : Dev) (rx : MonRx) (p : MonMsg → Bool) : Option (MonMsg × Dev) :=
  match takeFirst p d.si.mq with
  | some (m, r) =>
    let d : Dev := { d with si := { d.si with mq := r } }
    some (m, if rx = .badMem then d.islandFatal 2 else d)
  | none => none

/-- Words of THRESHOLDS used (R315): a mismatch with a complement is device-fatal. -/
def Dev.useThr (d : Dev) (ns : List Nat) : Dev := if d.si.held ns then d else d.islandFatal 3

/-- An access of Bivouac's memory to the slots for which `hit` holds: an error that cannot be corrected makes Bivouac fail
(R323, R340), and what the access reads is taken as it is held. (DESIGN CHOICE, log entry 133.) -/
def Dev.gsMeet (d : Dev) (hit : Nat → Bool) : Dev :=
  let old := d.si
  if old.gsUpset.any hit then
    ({ d with si := { old with gsUpset := old.gsUpset.filter (fun k => !(hit k)), bivFail := true } } : Dev).posted old
  else d

/-- The slot of a point placed into the groundsheet's window (R318, R320). -/
def IslandSt.place (i : IslandSt) (gx gy zc : Int) (s : Stroke) : IslandSt :=
  let k := gsSlot gx gy
  let wiped := i.gsAwaits gx gy
  let c := if wiped then gs0 0 else smGet gs0 i.gs k
  { i with gs := smSet gs0 i.gs k (i.gsHit c (BitVec.ofNat 32 s.toNat) zc)
           fresh := if wiped then i.fresh ++ [k] else i.fresh }

/-- GS_PLACE (R318): the next point of the raw point tap is placed, or discarded beyond 128 of its stroke of receipt. -/
def gsPlace (d : Dev) : Dev :=
  match d.si.tap with
  | [] => d
  | (s, q) :: rest =>
    let i := { d.si with tap := rest }.clearTo s
    let i := if s = i.tapAt then i else { i with tapAt := s, taps := 0 }
    if i.taps ≥ 128 then ({ d with si := i } : Dev).bumpSi SI_GS_DROP
    else
      let i := { i with taps := i.taps + 1 }
      let d := ({ d with si := i } : Dev).useThr [10, 11, 12]
      let (gx, gy, zc) := gsCellOf (i.poseFor s) q
      if i.gsIn gx gy = false then d.bumpSi SI_GS_OUTSIDE
      else
        let d := d.gsMeet (fun k => decide (k = gsSlot gx gy))
        ({ d with si := d.si.place gx gy zc s } : Dev).bumpSi SI_GS_POINTS

/-- One slot visited by the sweep at stroke number `now` (R319). -/
def IslandSt.sweepSlot (i : IslandSt) (now : BitVec 32) : IslandSt :=
  let k := i.sweep
  let c := smGet gs0 i.gs k
  let c := if dist32 now c.tSeen > i.par 12 8 24 then { c with nObst := 0, nGnd := 0, zmax := -32768 } else c
  { i with gs := smSet gs0 i.gs k c, sweep := (k + 1) % 262144 }

/-- GS_SWEEP (R319): the sweep visits `n` more slots, at least 4 in a stroke. -/
def gsSweep (n : Nat) (d : Dev) : Dev :=
  let d := (d.useThr [12]).gsMeet (fun k => decide ((k + 262144 - d.si.sweep) % 262144 < max n 4))
  let now := BitVec.ofNat 32 d.si.now.toNat
  { d with si := loopN (fun _ (i : IslandSt) => i.sweepSlot now) (max n 4) d.si }

/-- Delivery latched (R332, R339). -/
def IslandSt.latch (i : IslandSt) : IslandSt := { i with latched := true, serveAll := true }

/-- One doubt put in force (R332); the flag asks for a restart. -/
def IslandSt.applyDoubt (i : IslandSt) (b : Stroke) (q : Doubt) : IslandSt × Bool :=
  let i := { i with lastRule := q.rule, lastTile := q.tile.getD 0, lastAll := q.tile.isNone, lastStroke := b }
  let i := match q.tile with
    | none => { i with serveAll := true }
    | some t => { i with serve := i.serve ||| BitVec.ofNat 1024 (2 ^ t) }
  if i.perDoubt then (i, false)
  else
    let i := { i with perDoubt := true }
    if popcount 32 i.hist + 1 ≥ i.par 2 8 8 ∧ ¬ i.latched then (i.latch, true) else (i, false)

/-- A verdict boundary closes the period (R331, R332). -/
def IslandSt.closePeriod (i : IslandSt) : IslandSt :=
  let clean := if i.perClean then min 255 (i.clean + 1) else 0
  let i := { i with clean := clean }
  let i := if clean ≥ i.par 2 0 8 ∧ ¬ i.permanent then { i with latched := false, serveAll := false, serve := 0 } else i
  { i with hist := (i.hist * 2 + b2n i.perDoubt) % 2 ^ (i.par 2 16 8 - 1), perDoubt := false,
           perClean := !i.restarting, recov := 0 }

/-- The doubts found in the stroke before boundary b put in force (R332). The flag asks for a restart. -/
def IslandSt.putDoubts (i : IslandSt) (b : Stroke) : IslandSt × Bool :=
  i.doubts.foldl (fun (q : IslandSt × Bool) x =>
    let a := q.1.applyDoubt b x
    (a.1, q.2 || a.2)) ({ i with doubts := [] }, false)

/-- A verdict boundary closes its period (R331, R332). -/
def IslandSt.verdict (i : IslandSt) (b : Stroke) : IslandSt :=
  if i.verdictAt.contains b then { i.closePeriod with verdictAt := i.verdictAt.filter (· != b) } else i

/-- The latch that an accelerator-fatal fault asks for (R339), permanent where its source says so (R351). -/
def IslandSt.fatalLatch (i : IslandSt) : IslandSt :=
  let i := if i.latchReq then i.latch else i
  let i := if i.permReq then { i.latch with permanent := true } else i
  { i with latchReq := false, permReq := false }

/-- DOUBT_APPLY (R332, R339) at the boundary that opens stroke b: the doubts, the closing of a period, and the latch that an
accelerator-fatal fault asks for, which no period that closes at b takes back. The flag asks for a restart.
(DEDUCED, log entry 155.) -/
def IslandSt.atBoundary (i : IslandSt) (b : Stroke) : IslandSt × Bool :=
  let r := i.putDoubts b
  ((r.1.verdict b).fatalLatch, r.2 || i.latchReq)

/-- A restart request (R333, R334): counted in the sliding window; one too many makes the latch permanent. The flag says
that a restart is to begin. The mirror follows where SI_STATUS has changed. (DEDUCED, log entry 27.) -/
def Dev.requestRestart (d : Dev) : Dev × Bool :=
  if d.si.permanent then (d, false)
  else
    let old := d.si
    let d := d.useThr [3]
    let i : IslandSt := { d.si with requests := d.si.requests ++ [d.si.time] }
    let d := ({ d with si := i }).bumpSi SI_RESTARTS
    if i.inWindow > i.par 3 0 4 then
      let d := d.bumpSi SI_LATCHES (b2n (!d.si.latched))
      (({ d with si := { d.si.latch with permanent := true }, flt := { d.flt with permanent := true } } : Dev).posted old,
        false)
    else (d.posted old, true)

/-- The island counters of R346 that follow from what the boundary b changes of the state `old`: the period's first doubt,
and each latch. -/
def Dev.countLatch (d : Dev) (old : IslandSt) (b : Stroke) : Dev :=
  let r := (old.putDoubts b).1
  let q := r.verdict b
  let forced := (old.latchReq || old.permReq) && !q.latched
  let d := d.bumpSi SI_LATCHES (b2n (r.latched && !old.latched) + b2n forced)
  d.bumpSi SI_PERIODS_DOUBT (b2n (r.perDoubt && !old.perDoubt))

/-! ### The window watchdogs (R326, R345) -/

/-- A window violated: reported and a doubt of rule 9. -/
def Dev.violate (d : Dev) (n : Nat) (early noTrack : Bool) : Dev :=
  let w : Ww := { state := 3, early := early && !noTrack, late := !early && !noTrack, noTrack := noTrack,
                  last := d.si.now }
  let d := (d.bumpSi (WW_VIOL n)).doubt 9 none
  { d with si := { d.si with ww := smSet (fun _ => {}) d.si.ww n w } }

/-- A watchdog's STATE set: 0 off, 1 armed, 2 in window. -/
def IslandSt.setWw (i : IslandSt) (n st : Nat) : IslandSt :=
  { i with ww := smSet (fun _ => {}) i.ww n { i.wwOf n with state := st } }

/-- A window opens: armed before OPEN, in window from it on. -/
def IslandSt.armWw (i : IslandSt) (n : Nat) : IslandSt := i.setWw n (if i.winOpen n = 0 then 2 else 1)

/-- Whether a tracked sector's window n is open. -/
def Track.awaits (t : Track) (n : Nat) : Bool :=
  match n with
  | 2 => t.gb
  | 3 => t.bb
  | 8 => t.scat
  | _ => false

/-- A watchdog with no window left open goes off; STATE 3 stays until it next arms (R345). -/
def IslandSt.settleWw (i : IslandSt) (n : Nat) : IslandSt :=
  if (i.wwOf n).state = 3 ∨ i.wins.any (fun w => decide (w.1 = n)) ∨ i.tracks.any (fun t => t.awaits n) then i
  else i.setWw n 0

/-- STATE of per-stroke windows armed whose OPEN has passed, `cyc` island cycles after their BOUNDARY (R345). -/
def IslandSt.passOpen (i : IslandSt) (cyc : Nat) : IslandSt :=
  [0, 4, 5, 6, 7, 9, 10, 11].foldl (fun i n =>
    if (i.wwOf n).state = 1 ∧ i.winOpen n ≤ cyc then i.setWw n 2 else i) i

/-- The same of the per-sector windows, as stroke s opens. -/
def IslandSt.passStrokes (i : IslandSt) (s : Stroke) : IslandSt :=
  [2, 3, 8].foldl (fun i n =>
    if (i.wwOf n).state = 1 ∧ i.tracks.any (fun t => t.awaits n && decide (i.winOpen n ≤ sDiff s t.v)) then i.setWw n 2
    else i) i

/-- A per-stroke window opened for a stroke's record or program. TH, OUT and the crews' open for none whose windows close
without violation (R333, R355). -/
def IslandSt.openWin (i : IslandSt) (n : Nat) (s : Stroke) : IslandSt :=
  if (4 ≤ n ∧ n ≠ 9) ∧ (i.muted.contains s ∨ i.restarting) then i
  else { i.armWw n with wins := i.wins ++ [(n, s)] }

/-- An event of a per-stroke window, `cyc` island cycles after its BOUNDARY (R326). (DESIGN CHOICE, log entry 88.) -/
def Dev.winEvent (d : Dev) (n : Nat) (s : Stroke) (cyc : Nat) : Dev :=
  if d.si.wins.contains (n, s) then
    let i := ({ d.si with wins := d.si.wins.filter (· != (n, s)) }).settleWw n
    let d := { d with si := i }
    if cyc < i.winOpen n then d.violate n true false
    else if (n < 4 ∨ 7 < n) ∧ cyc > i.winClose n then d.violate n false false
    else d
  else d

/-- Windows TH, OUT and CREW of records and strokes close without violation (R355, R333). -/
def IslandSt.mute (i : IslandSt) (ss : List Stroke) : IslandSt :=
  let crewish (n : Nat) : Bool := decide (4 ≤ n) && decide (n ≤ 7) || decide (10 ≤ n)
  [4, 5, 6, 7, 10, 11].foldl (fun i n => i.settleWw n)
    { i with muted := (ss ++ i.muted).take 16,
             wins := i.wins.filter (fun w => !(crewish w.1 && ss.contains w.2)) }

/-! ### MON_BOUNDARY (R316, R317, R320, R322, R323, R332) -/

/-- Rule 2 (R317): whether a change of origin is allowed. -/
def IslandSt.originOk (i : IslandSt) (ox oy nx ny : Int) : Bool :=
  let dx := (nx - ox).natAbs
  let dy := (ny - oy).natAbs
  let p : Pose := match i.poses with
    | p :: _ => p.2
    | [] => {}
  let t := targetOf p
  decide (dx + dy ≤ 1) || (decide (nx = t.1) && decide (ny = t.2))

/-- BIVOUAC_SELFTEST (R323, R337) at the entry stroke and at the first stroke of a frame. -/
def Dev.selfTest (d : Dev) (first : Bool) : Dev :=
  if d.si.testPasses then
    if first ∧ ¬ d.si.bivFail then { d with si := { d.si with tested := true } } else d
  else
    let d := d.bumpSi SI_SELFTEST_FAIL
    { d with si := { d.si with bivFail := true, firstFailed := d.si.firstFailed || first } }

/-- The island's per-stroke windows of the stroke that b opens (R326); TH and OUT only for the strokes whose tiles this chip
owns (R394). -/
def IslandSt.openWindows (i : IslandSt) (owns : Stroke → Bool) (b : Stroke) : IslandSt :=
  let i := (i.passStrokes b).openWin 0 b
  let i := [4, 5, 6, 7].foldl (fun i n => i.openWin n b) i
  let i := i.openWin 9 b
  let mine (s : Stroke) : Bool := i.bnds.any (fun x => decide (x.s = s)) && owns s
  let i := if mine (b - 1) then i.openWin 10 (b - 1) else i
  if mine (b - 2) then i.openWin 11 (b - 2) else i

/-- Crew windows still open when the next BOUNDARY arrives are violated (R326). -/
def Dev.closeCrews (d : Dev) : Dev :=
  let left := d.si.wins.filter (fun w => decide (4 ≤ w.1) && decide (w.1 ≤ 7))
  let d := { d with si := { d.si with wins := d.si.wins.filter (fun w => !(decide (4 ≤ w.1) && decide (w.1 ≤ 7))) } }
  left.foldl (fun d w => d.violate w.1 false false) d

/-- Every live table operation and adaptation step made ABORTED (R333, R415), as R250 and R254 do. -/
def Dev.abortLive (d : Dev) : Dev :=
  let lastAb := d.et.lastAb
  let d := (List.range 64).foldl (fun d t =>
    if d.et.ops.any (fun o => decide (o.table = t) && !o.complete && !o.aborted) ∨
        d.et.commits.any (fun c => decide (c.1 = t)) then d.abortTable t else d) d
  let d := { d with et := { d.et with lastAb := lastAb } }
  match d.et.adapt with
  | some _ => d.abortAdapt
  | none => d

/-- The Stop phase begins (R333) with the stroke t in progress: the crews stop, the records of t − 1 and t are ABSENT,
live table operations end ABORTED, and a RESTART entry is logged. -/
def Dev.beginStop (d : Dev) : Dev :=
  let t := d.tm.stroke
  let gone (r : RecSlot) : RecSlot := { r with absent := true }
  let old := d.si
  let i := d.si.mute [t - 1, t]
  let d := { d with
    flt := { d.flt with phase := .stop, restartAt := none, stopped := true, rolling := false }
    cm := { d.cm with path := d.cm.path.map gone }
    si := { i with restarting := true, perClean := false } }
  ((d.abortLive).logIn { stroke := t, type := 7, payload := zeros 8 }).posted old

/-- The restart that a request starts at the boundary that opened this stroke (R333), or, in a configuration, four
strokes ahead (R397). A request that arrives while one is in progress only counts (R334). -/
def Dev.startRestart (d : Dev) : Dev :=
  if d.flt.phase ≠ .idle then d
  else if d.rl.countM1 = 0 then d.beginStop
  else
    let at_ := sAdd d.tm.stroke 4
    let d := { d with flt := { d.flt with phase := .requested, restartAt := some at_ } }
    ((List.range d.chips).filter (fun j => j != d.rl.chip)).foldl (fun d j => d.linkSend j 0 (.rg j 3 [at_.toNat])) d

/-- What Cox does at the boundary that opens stroke s, `cyc` island cycles after the BOUNDARY before, whether the message of
this one reaches it or not (R326, R332): the doubts of the stroke just ended, the periods, the crew windows. (DEDUCED, log
entry 155.) -/
def Dev.coxBoundary (d : Dev) (s : Stroke) (cyc : Nat) : Dev :=
  let old := d.si
  let i := ((old.passOpen cyc).atBoundary s).1
  (({ d with si := i } : Dev).countLatch old s).closeCrews

/-- The mirror posted at a boundary (R475), and the restart that the boundary has asked for. -/
def Dev.coxPost (d : Dev) (old : IslandSt) (ask : Bool) : Dev :=
  let d := (d.mirror).posted old
  if ask then
    let (d, go) := d.requestRestart
    if go then d.startRestart else d
  else d

/-- The CLOCK window judged by a BOUNDARY (R326): once, if it has not been violated by then. -/
def Dev.clockWin (d : Dev) (cyc : Nat) : Dev :=
  let i := d.si
  if i.wins.any (fun w => decide (w.1 = 0)) then
    let d := { d with si := { i with wins := i.wins.filter (fun w => decide (w.1 ≠ 0)) } }
    if cyc < i.winOpen 0 then d.violate 0 true false
    else if cyc > i.winClose 0 then d.violate 0 false false else d
  else d

/-- MON_BOUNDARY (R316): the island takes a BOUNDARY message, `cyc` island cycles after the one before. It applies the
doubts of the stroke just ended, judges the message, computes the words of the tile of the stroke before, clears
groundsheet rows, opens the windows of the stroke and posts its mirror. -/
def monBoundaryCore (rx : MonRx) (cyc : Nat) (d : Dev) : Dev :=
  let kind (m : MonMsg) : Bool := match m with
    | .boundary .. => true
    | _ => false
  match d.takeMsg rx kind with
  | some (.boundary s frame first retire ox oy covLast, d) =>
    let old := d.si
    let ask := (old.atBoundary s).2
    if monLost rx then (((d.useThr [2, 3]).coxBoundary s cyc).badMessage rx).coxPost old ask
    else
      let d := d.useThr ([2, 3, 5, 10, 11, 12] ++ [0, 2, 3, 4, 5, 6, 7, 8, 9, 10, 11].map (fun n => 16 + n))
      let prev := d.si.bnds.head?
      let entry := d.si.entry.isNone
      let d := (d.coxBoundary s cyc).clockWin cyc
      let i := d.si
      let i := if retire then { i with verdictAt := i.verdictAt ++ [sAdd s 3] } else i
      let words := match prev with
        | some b => [(b.s, i.bivTile b)]
        | none => []
      let bn : Bnd := { s := s, frame := frame, ox := ox, oy := oy }
      let i := { i with
        entry := some (i.entry.getD s), bnds := (bn :: i.bnds).take 8, biv := (words ++ i.biv).take 4 }
      let d := { d with si := i.clearTo s }
      let d := if entry ∨ first then d.selfTest entry else d
      let d := match prev with
        | some b => if d.si.originOk b.ox b.oy ox oy then d else d.doubt 2 none
        | none => d
      let d := if retire ∧ covLast < d.si.par 5 0 16 then d.doubt 3 none else d
      let d := { d with si := d.si.openWindows (fun t => decide (d.ownerOf t = d.rl.chip)) s }
      d.coxPost old ask
  | _ => d

/-! ### MON_RECORD, MON_DELIVERED, MON_MARK (R317, R325, R326) -/

/-- A signed 12-bit field of a cell word. -/
def cell12 (w lo : Nat) : Int := sext 12 (bits w lo 12)

/-- Whether a cell is bad (rule 4). -/
def IslandSt.badCell (i : IslandSt) (compat : Bool) (w : Nat) : Bool :=
  let cls := bits w 0 4
  let occ := bits w 4 8
  let h := cell12 w 20
  let v := i.par 8 0 11
  decide (cls = 15) || decide (h < i.parI 7 0) || decide (h > i.parI 7 16) ||
    (!compat && (decide ((cell12 w 32).natAbs > v) || decide ((cell12 w 44).natAbs > v))) ||
    (decide (cls = 1) && decide (occ > i.par 9 0 8)) ||
    (decide (2 ≤ cls) && decide (cls ≤ 14) && decide (occ < i.par 9 8 8))

/-- The cell words of a record. -/
def recordWords (compat : Bool) (bs : List Byte) : List Nat :=
  (List.range 1024).map (fun n => if compat then leAt bs (64 + 4 * n) 4 else leAt bs (64 + 8 * n) 8)

/-- Rule 1 (R317) on a record expected to be that of stroke s. -/
def IslandSt.recordOk (i : IslandSt) (s : Stroke) (bs : List Byte) : Bool :=
  let compat := decide (i.par 1 0 1 = 1)
  let (tx, ty) := tileOf s
  let b := i.bnds.find? (fun x => decide (x.s = s))
  decide (leAt bs 0 2 = 0x4C54) && decide (leAt bs 2 1 = if compat then 1 else 2) &&
    decide (crc32c (patch bs 60 (zeros 4)) = leAt bs 60 4) && decide (leAt bs 3 1 = 0x3C) &&
    decide (leAt bs 8 8 = s.toNat) && decide (leAt bs 4 2 % 1024 = tx + 32 * ty) &&
    (match b with
     | some x => decide (leAt bs 24 4 = x.frame.toNat) && decide (sext 32 (leAt bs 28 4) = x.ox) &&
         decide (sext 32 (leAt bs 32 4) = x.oy)
     | none => false)

/-- Rules 5 and 6 count cells by Bivouac's words of the tile and the record's. -/
def IslandSt.missed (i : IslandSt) (biv : List Word64) (ws : List Nat) : Nat × Nat :=
  let ps := List.zip (biv.map BitVec.toNat) ws
  ((ps.filter (fun p => decide (bits p.1 0 4 = 2) && decide (bits p.2 0 4 ≤ 1) &&
      decide (bits p.2 4 8 < i.par 9 16 8))).length,
   (ps.filter (fun p => decide (bits p.1 0 4 = 1) && decide (2 ≤ bits p.2 0 4) && decide (bits p.2 0 4 ≤ 14) &&
      decide (i.par 9 8 8 ≤ bits p.2 4 8))).length)

/-- MON_RECORD (R316, R317): the island takes a RECORD message and applies rules 1, 4, 5 and 6; an ABSENT record makes
the period not clean (R331); records of tiles that the chip does not own are not judged (R394). -/
def monRecordCore (rx : MonRx) (d : Dev) : Dev :=
  let kind (m : MonMsg) : Bool := match m with
    | .record .. => true
    | _ => false
  match d.takeMsg rx kind with
  | some (.record s bytes notOwned, d) =>
    if monLost rx then d.badMessage rx
    else if notOwned then d
    else
      match bytes with
      | none => { d with si := { d.si with perClean := false } }
      | some bs =>
        let d := d.useThr [1, 6, 7, 8, 9, 13]
        let i := d.si
        let compat := decide (i.par 1 0 1 = 1)
        let (tx, ty) := tileOf s
        let tile := some (32 * ty + tx)
        let ws := recordWords compat bs
        let biv := match i.biv.find? (fun x => decide (x.1 = s)) with
          | some x => x.2
          | none => []
        let bad := (ws.filter (fun w => i.badCell compat w)).length
        let (miss, ghost) := i.missed biv ws
        let d := if i.recordOk s bs then d else d.doubt 1 none
        let d := if bad > i.par 6 0 11 then d.doubt 4 tile else d
        let d := if miss > i.par 13 0 11 then d.doubt 5 tile else d
        if i.par 13 31 1 = 1 ∧ ghost > i.par 13 16 11 then d.doubt 6 tile else d
  | _ => d

/-- MON_DELIVERED (R325): the SOURCE of a record handed over must be what the switch selected; `got` is a SOURCE that a
failed hand-over gave instead. -/
def monDeliveredCore (rx : MonRx) (got : Option Nat) (d : Dev) : Dev :=
  let kind (m : MonMsg) : Bool := match m with
    | .delivered .. => true
    | _ => false
  match d.takeMsg rx kind with
  | some (.delivered s source, d) =>
    if monLost rx then d.badMessage rx
    else
      let src := got.getD source
      let want := d.si.sel.find? (fun x => decide (x.1 = s))
      let d := { d with si := { d.si with sel := d.si.sel.filter (fun x => decide (x.1 ≠ s)) } }
      let d := d.bumpSi SI_BIV_RECORDS (b2n (decide (src = 0xC3)))
      match want with
      | some x => if x.2 = src then d else d.islandFatal 5
      | none => d
  | _ => d

/-- MON_MARK (R326): a MARK closes its window, `cyc` island cycles after the BOUNDARY from which the window runs. -/
def monMarkCore (rx : MonRx) (cyc : Nat) (d : Dev) : Dev :=
  let kind (m : MonMsg) : Bool := match m with
    | .mark _ => true
    | _ => false
  match d.takeMsg rx kind with
  | some (.mark k, d) =>
    if monLost rx then d.badMessage rx
    else
      let d := { d with si := d.si.passOpen cyc }
      match k with
      | .crewEnd c => (d.useThr [20 + c]).winEvent (4 + c) d.si.now cyc
      | .subSteps => (d.useThr [25]).winEvent 9 d.si.now cyc
      | .heads s =>
        let d := d.useThr [26]
        let ok := !(d.si.wins.contains (10, s)) || decide (cyc ≤ d.si.winClose 10)
        let d := d.winEvent 10 s cyc
        if ok then { d with si := { d.si with thOk := (s :: d.si.thOk).take 8 } } else d
      | .handOver s => (d.useThr [27]).winEvent 11 s cyc
  | _ => d

/-! ### MON_SECTOR (R326, R327) -/

/-- A tracked sector whose windows are all closed is no longer tracked. -/
def IslandSt.setTrack (i : IslandSt) (t : Track) : IslandSt :=
  let rest := i.tracks.filter (fun x => decide (x.id ≠ t.id))
  { i with tracks := if t.gb ∨ t.bb ∨ t.scat then rest ++ [t] else rest }

/-- A per-sector window judged: `at_` strokes from its origin. That of watchdog 1 opens and closes with its VERDICT. -/
def Dev.sectorWin (d : Dev) (n at_ : Nat) : Dev :=
  let d := d.useThr [16 + n]
  if at_ < d.si.winOpen n then d.violate n true false
  else if at_ > d.si.winClose n then d.violate n false false
  else { d with si := if n = 1 then d.si.setWw 1 0 else d.si.settleWw n }

/-- A sector's remaining windows closed without violation (R326). -/
def IslandSt.dropTrack (i : IslandSt) (id : SecId) : IslandSt :=
  [2, 3, 8].foldl (fun i n => i.settleWw n) { i with tracks := i.tracks.filter (fun x => decide (x.id ≠ id)) }

/-- MON_SECTOR (R326, R327): a sector's event opens, tracks or closes its windows. -/
def monSectorCore (rx : MonRx) (d : Dev) : Dev :=
  let kind (m : MonMsg) : Bool := match m with
    | .sector .. => true
    | _ => false
  match d.takeMsg rx kind with
  | some (.sector ev id _ _ last v at_, d) =>
    if monLost rx then d.badMessage rx
    else
      let tr := d.si.tracks.find? (fun x => decide (x.id = id))
      match ev with
      | .accept =>
        if d.si.tracks.length ≥ 1024 then d.violate 1 false true
        else
          let d := (d.sectorWin 1 (sDiff v last)).useThr [18, 19, 24]
          let i := d.si.setTrack { id := id, v := v }
          { d with si := ((i.armWw 2).armWw 3).armWw 8 }
      | .shed => d.sectorWin 1 (sDiff v last)
      | .fail => d.sectorWin 1 (sDiff v last)
      | .drop => { d with si := d.si.dropTrack id }
      | .cancel => { d with si := d.si.dropTrack id }
      | .commit =>
        match tr with
        | some t => ({ d with si := d.si.setTrack { t with gb := false } }).sectorWin 2 (sDiff at_ t.v)
        | none => d
      | .backboneDone =>
        match tr with
        | some t => ({ d with si := d.si.setTrack { t with bb := false } }).sectorWin 3 (sDiff at_ t.v)
        | none => d
      | .scatterCommit =>
        match tr with
        | some t => ({ d with si := d.si.setTrack { t with scat := false } }).sectorWin 8 (sDiff at_ t.v)
        | none => d
  | _ => d

/-! ### MON_GOLDEN, MON_POSE, MON_FAULT (R317, R320, R339) -/

/-- MON_GOLDEN (R317 rule 7, R330): a golden digest or the golden tile CRC compared with GOLDEN_REF. One that its golden sector
sent after its frame had closed (R33), or that waited beyond it, does not stand for the frame in progress. (DEDUCED, log
entry 90.) -/
def monGoldenCore (rx : MonRx) (d : Dev) : Dev :=
  let kind (m : MonMsg) : Bool := match m with
    | .golden .. => true
    | _ => false
  match d.takeMsg rx kind with
  | some (.golden point crc own, d) =>
    if monLost rx then ({ d with si := { d.si with gprev := d.si.gprev - 1 } } : Dev).badMessage rx
    else
      let ref := d.si.gref
      let late := decide (0 < d.si.gprev) || !own
      let d := { d with si := { d.si with gprev := d.si.gprev - 1 } }
      match point with
      | none =>
        let d := { d with si := { d.si with gcrc := d.si.gcrc || !late } }
        if crc = leAt ref 8 8 then d else d.doubt 7 none
      | some n =>
        if bitOf (leAt ref 16 32) n then
          let d := if late then d else { d with si := { d.si with gpts := n :: d.si.gpts.filter (· != n) } }
          if crc = leAt ref (64 + 8 * n) 8 then d else d.doubt 7 none
        else d
  | _ => d

/-- The GOLDEN messages on the monitor port that the island has not taken: their digest points, none for the tile CRC, and
whether each came before its frame had closed. -/
def IslandSt.goldWaiting (i : IslandSt) : List (Option Nat × Bool) :=
  i.mq.filterMap (fun m => match m with
    | .golden p _ own => some (p, own)
    | _ => none)

/-- Rule 8 (R317, R33) in the last stroke of a frame: a point of the mask, or the tile CRC, has not arrived; messages on
the port have. The next frame's points are then awaited. -/
def Dev.goldenClose (d : Dev) : Dev :=
  let mask := leAt d.si.gref 16 32
  let w := d.si.goldWaiting
  let new := w.drop d.si.gprev
  let all := (List.range 256).all (fun n => !(bitOf mask n) || d.si.gpts.contains n || new.contains (some n, true))
  let d := if all && (d.si.gcrc || new.contains (none, true)) then d else d.doubt 8 none
  { d with si := { d.si with gpts := [], gcrc := false, gprev := w.length } }

/-- The rows or columns that leave when a window origin moves from a to b, in the order in which they leave (R320). -/
def leaving (a b : Int) : List Nat :=
  let n := min 512 (b - a).natAbs
  (List.range n).map (fun (k : Nat) => ((if b > a then a + (k : Int) else a + 511 - (k : Int)) % 512).toNat)

/-- MON_POSE (R313, R320): the pose is kept for the points that follow, and the groundsheet window moves at once. -/
def monPoseCore (rx : MonRx) (d : Dev) : Dev :=
  let kind (m : MonMsg) : Bool := match m with
    | .pose _ => true
    | _ => false
  match d.takeMsg rx kind with
  | some (.pose p, d) =>
    if monLost rx then d.badMessage rx
    else
      let i := d.si
      let t := targetOf p
      let nx := fdiv t.1 2
      let ny := fdiv t.2 2
      let new := ((leaving i.wx nx).map (fun k => (true, k))) ++ ((leaving i.wy ny).map (fun k => (false, k)))
      { d with si := { i with
        poses := ((d.tm.stroke, p) :: i.poses).take 64, wx := nx, wy := ny,
        await := i.await ++ new.filter (fun r => !(i.await.contains r)),
        fresh := i.fresh.filter (fun k => !(gsOn new k)) } }
  | _ => d

/-- The records and strokes whose windows a rollback in stroke s closes (R355). -/
def rolledRecords (s : Stroke) : List Stroke := [s - 1, s, s + 1, s + 2]

/-- MON_FAULT (R339): the island's reaction to a fault's class; a FAULT that names a rollback closes windows (R355). -/
def monFaultCore (rx : MonRx) (d : Dev) : Dev :=
  let kind (m : MonMsg) : Bool := match m with
    | .fault .. => true
    | _ => false
  match d.takeMsg rx kind with
  | some (.fault cls src, d) =>
    if monLost rx then d.badMessage rx
    else
      match cls with
      | 2 =>
        let d := d.useThr [4]
        let n := d.si.recov + 1
        let d := { d with si := { d.si with recov := n } }
        let d := if n = d.si.par 4 0 8 + 1 then d.doubt 10 none else d
        if fltAction src = 1 then { d with si := d.si.mute (rolledRecords d.si.now) } else d
      | 3 =>
        if src = 0x25 ∨ src = 0x26 then { d with si := { d.si with permReq := true } }
        else { d with si := { d.si with latchReq := true } }
      | 4 =>
        if d.si.fatal then d
        else
          let old := d.si
          ({ d with si := { d.si with fatal := true, cause := 15 } }).posted old
      | _ => d
  | _ => d

/-! ### WATCHDOG_CLOSE, SAFE_OK_EDGE, ISLAND_PLL_LOSS -/

/-- WATCHDOG_CLOSE (R326, R29): window n reaches CLOSE without its event: of windows 2, 3 and 8 that of the sector
named, whose CLOSE must have passed. -/
def watchdogCloseCore (n : Nat) (sec : SecId) (d : Dev) : Dev :=
  let d := d.useThr [16 + n]
  let i := d.si
  let late (t : Track) : Bool := decide (sDiff i.now t.v > i.winClose n)
  match n with
  | 2 =>
    match i.tracks.find? (fun x => decide (x.id = sec) && x.gb && late x) with
    | some t => ({ d with si := i.setTrack { t with gb := false } }).violate 2 false false
    | none => d
  | 3 =>
    match i.tracks.find? (fun x => decide (x.id = sec) && x.bb && late x) with
    | some t => ({ d with si := i.setTrack { t with bb := false } }).violate 3 false false
    | none => d
  | 8 =>
    match i.tracks.find? (fun x => decide (x.id = sec) && x.scat && late x) with
    | some t => ({ d with si := i.setTrack { t with scat := false } }).violate 8 false false
    | none => d
  | _ =>
    match i.wins.find? (fun w => decide (w.1 = n)) with
    | some w => ({ d with si := { i with wins := i.wins.filter (· != w) } }).violate n false false
    | none => d

/-- Whether Cox may make the next edge (R337). -/
def IslandSt.mayEdge (i : IslandSt) (now : Stroke) : Bool :=
  i.tested && !i.firstFailed && !i.fatal && !i.maint && !i.pllLost &&
    !(i.mq.any (fun m => match m with
      | .boundary s .. => decide (s ≠ now)
      | _ => false))

/-- SAFE_OK_EDGE (R337): 500 µs of island time have passed; Cox makes the next edge if its conditions hold. `match_` says
that the comparators of R315 and R316 reported no mismatch since the edge before; a mismatch is device-fatal. -/
def safeOkEdgeCore (match_ : Bool) (d : Dev) : Dev :=
  let d := { d with si := { d.si with time := d.si.time + 500 } }
  let d := if match_ then d else d.islandFatal 1
  let old := d.si
  if d.si.mayEdge d.tm.stroke ∧ ¬ d.flt.fatal ∧ ¬ d.pm.held then
    let p := !d.si.pin
    (({ d with si := { d.si with pin := p, running := true } }).emit (.safeOk p)).posted old
  else if d.si.fatal ∨ d.flt.fatal ∨ d.pm.held ∨ d.si.maint ∨ d.si.pllLost then
    ({ d with si := { d.si with running := false, pin := false } }).posted old
  else d

/-- ISLAND_PLL_LOSS (R340, R338): device-fatal, and no edge can be made. -/
def islandPllLossCore (d : Dev) : Dev :=
  let d := { d with si := { d.si with pllLost := true, running := false, pin := false } }
  d.islandFatal 4

/-! ### The switch (R324) -/

/-- Whether the switch state that SI_STATUS holds agrees with its complement (R344, R348). -/
def Dev.switchHeld (d : Dev) : Bool := decide (d.rf SI_STATUS 0 6 + d.rf SI_STATUS_C 0 6 = 63)

/-- SOURCE_SELECT (R324) at the boundary that opens stroke b, for the record of stroke s: 0xC3 Bivouac or 0x3C. It looks
at the island's state with the doubts of the stroke just ended in force. -/
def Dev.selectSource (d : Dev) (b : Stroke) (r : RecSlot) : Nat :=
  let (i, ask) := d.si.atBoundary b
  let (tx, ty) := tileOf r.stroke
  if i.latched ∨ i.permanent ∨ i.serveAll ∨ i.serve.getLsbD (32 * ty + tx) ∨ ask ∨ d.flt.restarting ∨ r.absent ∨
      r.heads.isNone ∨ ¬ i.thOk.contains r.stroke then 0xC3
  else 0x3C

end Sys2Proof.Machine
end

