-- ==== Sys2Proof/Machine/Lookup.lean ====
section
/-! DEFINITION. Lookups of the table engine (09_embedding_tables R241 to R243): a request taken up, a row returned. -/

namespace Sys2Proof.Machine

/-- Indices of 4 bytes. -/
def indices4 : Nat → List Byte → List Nat
  | 0, _ => []
  | n + 1, bs => leAt bs 0 4 :: indices4 n (bs.drop 4)

/-- Store reads of lookups that are outstanding (R241): issued, and their rows not returned. -/
def Dev.readsOut (d : Dev) : Nat :=
  (d.et.lookups.map (fun l => ((l.idx.take l.sent).drop l.next).countP (fun i => decide (i < d.tRows l.table)))).sum

/-- The reads of lookup i issued in their order while fewer than 2,048 are outstanding (R241); an index without a row
needs none. -/
def Dev.issueLookup (d : Dev) (i : Nat) : Nat → Dev
  | 0 => d
  | n + 1 =>
    match d.et.lookups[i]? with
    | none => d
    | some l =>
      let k := l.idx.getD l.sent 0
      let real := decide (k < d.tRows l.table)
      if l.count ≤ l.sent ∨ (real ∧ 2048 ≤ d.readsOut) then d
      else
        let d := if real then d.rowReq 2 false l.table l.ver k 0 (d.tSize l.table) else d
        let l := { l with sent := l.sent + 1, reqs := l.reqs ++ [if real then d.xs.next else 0] }
        Dev.issueLookup { d with et := { d.et with lookups := setAt d.et.lookups i l } } i n

/-- The reads that can be issued now, lookup by lookup in the order in which they were taken up. -/
def Dev.issueReads (d : Dev) : Dev := (List.range d.et.lookups.length).foldl (fun d i => d.issueLookup i 256) d

/-- LOOKUP (R241, R242): the request at the tail of request ring p is taken up. A request older than 63 strokes is not
served and raises LOOKUP_STALE; one of an undefined table raises DESC_ILLEGAL (R257). A ring's requests are served one
after the other. (DEDUCED, log entry 76.) -/
def lookupOp (p : Nat) (d : Dev) : Dev :=
  let c := d.rf (ET_REQ p) 0 5
  let r := d.rf (ET_REQ p) 5 5
  let g := d.ringDesc c r
  if d.accel = false ∨ d.flt.rolling ∨ p ≥ 32 ∨ d.rf (ET_REQ p) 10 1 = 0 ∨ g.slots = 0 ∨ d.getOk c r = false ∨
      d.et.lookups.any (fun l => decide (l.core = c) && decide (l.ring = r) && !l.withdrawn) then d
  else
    let slot := ((d.core c).ring r).tail
    let issue := ((d.core c).tagAt (g.tagBase + slot)).at_
    let (h, d) := d.slotGet c r slot 1040
    let t := leAt h 0 1 % 64
    let fl := leAt h 1 1
    let count := leAt h 2 2
    if d.tEn t = false ∨ count = 0 ∨ count > 256 then d.agFault c 0 0x16
    else
      let ver? := if d.tByRow t then some (d.tVer t) else if issue = d.tm.stroke then some (d.tVer t) else d.latched issue t
      if sDiff d.tm.stroke issue > 63 then (d.hwOr ET_FAULT 1).report { src := 0x16, unit := unitOf 2 t }
      else
        match ver? with
        | none => (d.hwOr ET_FAULT 1).report { src := 0x16, unit := unitOf 2 t }
        | some ver =>
          let l : Lookup := { table := t, putTo := if bitOf fl 0 then some (bits fl 1 5) else none, count := count,
                              dest := leAt h 4 4, tag := leAt h 12 4, core := c, ring := r, slot := slot, issue := issue,
                              ver := ver, idx := indices4 count (h.drop 16) }
          ({ d with et := { d.et with lookups := d.et.lookups ++ [l] } } : Dev).issueReads

/-- A row written to its destination as an unscheduled access (R241). -/
def Dev.rowDest (d : Dev) (c a : Nat) (row : List Byte) : Dev :=
  match engDec a with
  | none => d.agFault c 3 0x16
  | some (2, _, off) => d.commonsWrite c off row
  | some (sp, k, off) => d.unschedWrite k (decide (sp = 1)) off row

/-- The next row of lookup i whose read has been issued (R241) returns and is written to DEST; after the last one the
result slot is PUT and the request slot DRAINed. A row returns once every part of its access has been served (R431). `bad`
marks an uncorrectable error of the store. A withdrawn lookup's
rows are discarded (R352). -/
def Dev.rowReturn (i : Nat) (bad : Bool) (d : Dev) : Dev :=
    match d.et.lookups[i]? with
    | none => d
    | some l =>
      let n := l.next
      let id := l.reqs.getD n 0
      if l.sent ≤ n ∨ d.xs.served (id - 1) id = false then d else
      let last := decide (n + 1 ≥ l.count)
      let keep (x : Lookup) : List Lookup := if last then d.et.lookups.eraseIdx i else setAt d.et.lookups i x
      if l.withdrawn then { d with et := { d.et with lookups := keep { l with next := n + 1 } } }
      else
        let i := l.idx.getD n 0
        let bad := bad || d.rowBad l.table l.ver i
        let (row, dflt, _) := d.rowFor l.table l.ver l.issue i bad
        let d := d.rowDest l.core (l.dest + n * d.tSize l.table) row
        let torn := d.rowTorn l.table l.ver i bad
        let d := if bad then d.rowUnc l.table l.ver i else d
        let d := d.countRead l.table dflt torn
        let l := { l with next := n + 1, defaults := l.defaults + b2n dflt, subst := if bad then some d.tm.stroke else l.subst }
        let d := { d with et := { d.et with lookups := keep l } }
        if last then
          let d := match l.putTo with
            | some r => d.pushSlot l.core r (toLE 4 l.tag ++ toLE 4 l.count ++ toLE 4 l.defaults ++ zeros 4)
            | none => d
          (d.drain l.core l.ring).retryHeld l.core l.ring
        else d

/-- LOOKUP_ROW_RETURN (R239, R241, R243) of lookup i. -/
def lookupRowReturn (i : Nat) (bad : Bool) (d : Dev) : Dev :=
  if d.accel = false ∨ d.flt.rolling then d else (d.issueReads.rowReturn i bad).issueReads

end Sys2Proof.Machine
end

