-- ==== Sys2Proof/Machine/Recover.lean ====
section
/-! DEFINITION. Recovery (13_integrity_recovery): cancellation (R353), the fault controller at a boundary (R350, R361),
rollback (R352, R355), the phases of an accelerator restart (12_safety R333, 18_boot_security R445). -/

namespace Sys2Proof.Machine

/-! ### Cancellation (R353) -/

/-- A context whose group belongs to a cancelled sector becomes a null group. -/
def TurnCtx.cancel (id : SecId) (t : TurnCtx) : TurnCtx :=
  match t.grp with
  | some g => if g.id = id then { t with null := true, grp := none, quiet := true } else t
  | none => t

/-- Groups of a sector that a core holds in its slots: queued for it, and bound, with the TURNs and RELEASEs that hold from
the next schedule cycle on (R291). -/
def Dev.heldBy (d : Dev) (id : SecId) (c : Nat) : Nat :=
  let q := d.cw.seq
  let queued := (List.range 5).foldl (fun n l =>
    n + (smGet (fun _ => []) q.queues (8 * (c / 8) + l)).countP (fun (g : Group) => decide (g.id = id) && decide (g.n % 8 = c % 8))) 0
  let grp (x : Nat) : Option Group := match (d.vol c).ctxup.reverse.find? (fun u => decide (u.2.1 = x)) with
    | some u => u.2.2.grp
    | none => ((d.core c).turn x).grp
  let bound := (List.range 4).countP (fun x => match grp x with
    | some g => decide (g.id = id)
    | none => false)
  queued + bound

/-- A sector's groups taken from the queues and the contexts, their slots freed (R214, R353). -/
def Dev.cancelGroups (d : Dev) (id : SecId) : Dev :=
  let q := d.cw.seq
  let slots := (List.range 32).foldl (fun m c => smSet (fun _ => 0) m c (smGet (fun _ => 0) m c - d.heldBy id c)) q.slots
  let queues := smMap (fun _ => ([] : List Group)) (fun _ l => l.filter (fun g => decide (g.id ≠ id))) q.queues
  let live := q.live.filter (fun l => decide (l.id ≠ id))
  let cores := smMap core0 (fun _ (k : CoreChk) =>
    { k with
      ctx := smMap (fun _ => ({} : TurnCtx)) (fun _ t => t.cancel id) k.ctx
      dig := match k.dig with
        | some o => if o.grp.id = id then none else some o
        | none => none }) d.cw.cores
  let vol := smMap vol0 (fun _ (v : CoreVol) =>
    { v with ctxup := v.ctxup.map (fun u => (u.1, u.2.1, u.2.2.cancel id)) }) d.cw.vol
  let seq : SeqChk := { queues := queues, slots := slots, live := live }
  { d with cw := { d.cw with seq := seq, cores := cores, vol := vol } }

/-- MERGED of a frame decreased and SHED_SECT increased, while the frame is counted (R353). -/
def Dev.uncount (d : Dev) (h : SentHdr) : Dev :=
  let f (c : FrameCnt) : FrameCnt := { c with merged := c.merged - h.merged, shed := c.shed + 1 }
  if h.frame = d.tm.frame then { d with gb := { d.gb with cur := f d.gb.cur } }
  else if h.frame = d.tm.frame - 1 ∧ d.gb.prevLive then { d with gb := { d.gb with prev := f d.gb.prev } }
  else d

/-- A committed sector cancelled (R353). -/
def Dev.cancelSector (d : Dev) (id : SecId) : Dev :=
  let d := d.cancelGroups id
  let d := { d with
    cm := { d.cm with adds := d.cm.adds.filter (fun a => decide (a.id ≠ id) || decide (a.from_ ≠ 4))
                      exps := d.cm.exps.filter (fun e => decide (e.id ≠ id) || decide (e.from_ ≠ 4)) }
    lg := { d.lg with digs := d.lg.digs.filter (fun a => decide (a.id ≠ id))
                      done := d.lg.done.filter (fun r => decide (r.acc.id ≠ id)) }
    cw := { d.cw with touched := d.cw.touched.filter (fun i => decide (i ≠ id)) } }
  match d.ag.sent.find? (fun h => decide (h.id = id)) with
  | none => d
  | some h =>
    if h.cancelled then d
    else
      let sent := d.ag.sent.map (fun x =>
        if x.id = h.id ∧ x.frame = h.frame ∧ x.ord = h.ord then { x with cancelled := true } else x)
      let d := { d with ag := { d.ag with sent := sent } }
      let d := d.bump FLT_CANCELLED
      if id.stream = goldStream then d
      else (d.uncount h).sectEv .cancel id h.frame h.ord h.last h.v

/-- Several sectors cancelled, each once. -/
def Dev.cancelAll (d : Dev) (ids : List SecId) : Dev := ids.eraseDups.foldl (fun d i => d.cancelSector i) d

/-! ### The fault controller at a boundary (R350, R361) -/

/-- Whether a report asks for a rollback (R351). -/
def FltRep.rolls (r : FltRep) : Bool := decide (fltClass r.src = 2) && decide (fltAction r.src = 1)

/-- Whether a report is answered by a restart: accelerator-fatal, but not a permanent latch. -/
def FltRep.restarts (r : FltRep) : Bool :=
  decide (fltClass r.src = 3) && decide (r.src ≠ 0x25) && decide (r.src ≠ 0x26)

/-- The ACTION that a report's log entry names (R350): a rollback takes CANCEL and SUBSTITUTE with it, a restart supersedes
what a rollback would have done, and the stop of a device-fatal condition what both would have done. (DEDUCED, log entry 152.) -/
def actionOf (stop rollback restart : Bool) (r : FltRep) : Nat :=
  let a := fltAction r.src
  if stop ∧ 2 ≤ fltClass r.src then 6
  else if fltClass r.src ≠ 2 then a
  else if restart ∧ 1 ≤ a ∧ a ≤ 3 then 5
  else if rollback ∧ (a = 2 ∨ a = 3) then 1
  else a

/-- The corrected faults of a window of 1,024 strokes written when it closes with stroke s (R361). -/
def Dev.flushCoal (d : Dev) (s : Stroke) : Dev :=
  if (s.toNat + 1) % 1024 = 0 then
    let es := sortBy (fun (a b : CoalEnt) => decide (a.rep.src < b.rep.src)) d.flt.coal
    let d := { d with flt := { d.flt with coal := [] } }
    es.foldl (fun d e => d.fltLog e.rep 0 e.stroke e.frame e.time e.count true) d
  else d

/-- Sectors of adds that stroke s issued and a rollback discards (R221, R353). -/
def Dev.lostAdds (d : Dev) (s : Stroke) : List SecId :=
  let buf := (d.cm.adds.filter (fun a => decide (a.issued = s) && decide (a.from_ = 4))).map (fun a => a.id)
  let fly := d.cw.cores.flatMap (fun p => p.2.opList.filterMap (fun o => match o.add with
    | some a => if o.stage ≠ .idle ∧ a.issued = s then some a.id else none
    | none => none))
  (buf ++ fly).eraseDups

/-- A rollback begins at the boundary that closes stroke s (R352 step 2, R355): the next stroke is the restoration stroke;
the records of s − 1 and s are ABSENT and carry ROLLBACK. Of a sector that loses an add the others go with it (DEDUCED, log
entry 34). -/
def Dev.beginRollback (d : Dev) (s : Stroke) (named : List SecId) : Dev :=
  let roll (r : RecSlot) : RecSlot :=
    if r.stroke = s ∨ r.stroke = s - 1 then { r with rolled := true, absent := true } else r
  let d := (List.range 4).foldl (fun d k => d.bump (CS_ROLLBACK k)) (d.bump FLT_ROLLBACKS)
  let lost := d.lostAdds s
  let keep (id : SecId) (src : Nat) : Bool := decide (src ≠ 4) || !lost.contains id
  { d with
    flt := { d.flt with rolling := true, restored := false, rbStroke := s }
    cm := { d.cm with
      path := d.cm.path.map roll
      adds := d.cm.adds.filter (fun (a : CellAdd) => keep a.id a.from_)
      exps := d.cm.exps.filter (fun (e : AddExp) => keep e.id e.from_) }
    cw := { d.cw with touched := (d.cw.touched ++ lost ++ named).eraseDups } }

/-- FAULT_CONTROL (R350, R361) at the boundary that closes stroke s, with the device still in s: every report is logged, in
ascending source code, and the containments are carried out. (DEDUCED, log entry 9.) -/
def Dev.faultControl (d : Dev) : Dev :=
  let s := d.tm.stroke
  let reps := sortBy (fun (a b : FltRep) => decide (a.src < b.src)) d.flt.reps
  let busy := d.flt.restarting
  let restart := busy || reps.any FltRep.restarts
  let rollback := !restart && reps.any FltRep.rolls
  let time := d.nsAt d.tm.openRaw
  let d := { d with flt := { d.flt with reps := [] } }
  let d := reps.foldl (fun d r => d.fltLog r (actionOf d.flt.fatal rollback restart r) s d.tm.frame time 1 false) d
  let d := d.flushCoal s
  let named := (reps.flatMap (fun r => r.cancel)).eraseDups
  let d := if reps.any (fun r => decide (r.src = 0x19)) && !busy && !d.flt.fatal then d.shedUndecided else d
  if busy || d.flt.fatal then d
  else if restart then { d with flt := { d.flt with stopped := true, rolling := false } }
  else if rollback then d.beginRollback s named
  else d.cancelAll named

/-! ### The restoration stroke (R352 step 3, R222, R175) -/

/-- A journal restored in reverse order (R222). -/
def Dev.journalBack (d : Dev) (c : Nat) : Nat → Dev
  | 0 => d
  | n + 1 =>
    let e := memRead d.mem (planeAt true c (16 * d.rf (CS_CORE_JRNL_BASE c) 0 17) + 80 * n) 80
    let d := match engDec (leAt e 0 4) with
      | some (sp, k, off) => { d with mem := memWrite d.mem (planeAt (decide (sp = 1)) k off) (e.drop 16) }
      | none => d
    d.journalBack c n

/-- A context after a rollback (R352): every one holds a null group until its next TURN, its write-backs suppressed. -/
def TurnCtx.rolled (t : TurnCtx) : TurnCtx := { t with null := true, grp := none, quiet := true }

/-- An operation after a rollback: issued again, except an add, which the drain has delivered (DEDUCED, log entry 34). -/
def GsOp.rolled (o : GsOp) : GsOp :=
  if o.stage = .idle then o
  else if o.add.isSome then { o with stage := .done }
  else { o with stage := .idle, data := [], promoted := false }

/-- A core as its checkpoint holds it, for the stroke that follows the restoration stroke. -/
def CoreChk.rolled (k : CoreChk) : CoreChk :=
  { k with
    ctx := (List.range 4).foldl (fun m x => smSet (fun _ => ({} : TurnCtx)) m x (k.turn x).rolled) k.ctx
    acts := k.acts.map (fun a => { a with ops := a.ops.map GsOp.rolled }) }

/-- A broadcast that a rollback has overtaken: zero (R352). -/
def Feed.zero (f : Feed) : Feed :=
  { f with lanes := f.lanes.map (fun _ => 0), scales := f.scales.map (fun _ => 0), sec := none }

/-- The zero broadcast of a feed whose read a rollback has overtaken; none for another read. -/
def PRead.zeroFeed (q : PRead) : Option Feed :=
  match q.kind with
  | .feed land lanes scales _ => some { at_ := land, lanes := lanes.map (fun _ => 0), scales := scales.map (fun _ => 0) }
  | _ => none

/-- A core's volatile part after a rollback (R175, R352): waves in flight land as dummy waves, feeds as zero broadcasts, no
result and no write is on its way, journals are empty, credits at their grants. Fills in flight land. (DEDUCED, log entry
153.) -/
def CoreVol.rolled (v : CoreVol) : CoreVol :=
  { v with waves := v.waves.map (fun w => { w with vals := [], jobs := [], dummy := true })
           feeds := v.feeds.map Feed.zero ++ v.reads.filterMap PRead.zeroFeed
           bcast := v.bcast.map Feed.zero, vres := [], arup := [], ctxup := [], writes := []
           reads := v.reads.filter (fun q => q.zeroFeed.isNone), occ := [], jfill := 0, cred := [], owed := [], corr := [],
           retry := [] }

/-- Adds issued before stroke s that travel when the network is drained: they reach the scatter buffer (R175). -/
def Dev.drainedAdds (d : Dev) (s : Stroke) : List CellAdd :=
  d.cw.cores.flatMap (fun p => p.2.opList.filterMap (fun o => match o.add with
    | some a => if o.stage = .writeNet ∧ a.issued ≠ s then some a else none
    | none => none))

/-- Slots that the device filled put again, those of the work-set ring alone (a lookup is carried out anew). -/
def Dev.pushAgain (d : Dev) (ps : List (Nat × Nat × List Byte)) : Dev :=
  ps.foldl (fun d p => d.putSlot p.1 p.2.1 p.2.2) d

/-- A write of the engine that is under way when the network is drained: applied at its target (R175). -/
def Dev.drainWrite (d : Dev) (c : Nat) (o : GsOp) : Dev :=
  if o.add.isSome ∨ (o.stage ≠ .writeNet ∧ o.stage ≠ .writePlane) ∨ (engLocal c o.dst = false ∧ d.regionOk o = false) then d
  else
    match engDec o.dst with
    | some (2, _, off) => if d.commonsOn off ∧ off ≥ 0x6000000 then d.commonsWrite c off o.data else d
    | _ => (opWrites c o).foldl (fun (d : Dev) w =>
        if d.takesWrite w.1 w.2.1 w.2.2.1 w.2.2.2.length then d.planeWrite w.1 w.2.1 w.2.2.1 w.2.2.2 else d) d

/-- The network drained of remote accesses (R175): its writes land before anything is restored. -/
def Dev.drainNet (d : Dev) : Dev :=
  (List.range 32).foldl (fun (d : Dev) c => (d.core c).opList.foldl (fun d o => d.drainWrite c o) d) d

/-- The restore of R352 steps 3 and 4. -/
def Dev.restoreAll (d : Dev) : Dev :=
  let d := d.drainNet
  let s := d.flt.rbStroke
  let again := d.cw.pushed ++ d.cw.held.filter (fun h => d.isWset h.1 h.2.1)
  let drained := d.drainedAdds s
  let d := (List.range 32).foldl (fun d c => d.journalBack c (d.vol c).jfill) d
  let adds := d.cm.adds.filter (fun (a : CellAdd) => decide (a.issued ≠ s) || decide (a.from_ ≠ 4)) ++ drained
  let exps := d.cm.exps.filter (fun (e : AddExp) => decide (e.issued ≠ s) || decide (e.from_ ≠ 4))
  let back (l : Lookup) : Lookup := if l.issue = s ∨ l.subst = some s then { l with withdrawn := true } else { l with sent := 0, next := 0, defaults := 0 }
  let cw := { d.cw with
    seq := d.cw.ckSeq
    cores := d.cw.ckCores
    vol := smMap vol0 (fun _ (v : CoreVol) => v.rolled) d.cw.vol
    held := [], pushed := [] }
  let d := { d with
    cm := { d.cm with adds := adds, exps := exps }
    et := { d.et with lookups := d.et.lookups.map back }
    cw := cw }
  let d := match d.et.adapt with
    | some a => if a.issued = s then d.abortAdapt else d
    | none => d
  let d := (d.pushAgain again).cancelAll d.cw.touched
  { d with
    flt := { d.flt with restored := true }
    cw := { d.cw with cores := (List.range 32).foldl (fun m c => smSet core0 m c (smGet core0 m c).rolled) d.cw.cores } }

/-- ROLLBACK_RESTORE (R352): the drain, the checkpoint restore and the journal restore complete. `bad` names
the core in whose journal an uncorrectable error is met, which is accelerator-fatal (R351, R360). -/
def rollbackRestore (bad : Option (Fin 32)) (d : Dev) : Dev :=
  if d.flt.rolling ∧ ¬ d.flt.restored ∧ d.accel then
    let d := match bad with
      | some c => d.report { src := 0x24, unit := unitOf 0 c.val }
      | none => d
    d.restoreAll
  else d

/-! ### The phases of a restart (R333, R397) -/

/-- RESTART_STOP_DONE (R333, R431, R464): the Stop phase ends once the accelerator's accesses of the store have drained and
the arrays have ramped down. -/
def restartStopDone (d : Dev) : Dev :=
  if d.flt.phase = .stop ∧ d.xs.drained ∧ d.cw.rampedDown then { d with flt := { d.flt with phase := .reset } } else d

/-- RESTART_RESET_DONE (R333): crews, arrays, ring and credit state, grid builder, level merger, address generators, engines,
table engine and cell memory are reset, the generation to that of R114; the pose and yaw history, tables and versions are
kept. -/
def restartResetDone (d : Dev) : Dev :=
  if d.flt.phase = .reset then
    let cur : FrameCnt := { shed := d.gb.cur.shed, drop := d.gb.cur.drop, fail := d.gb.cur.fail }
    { d with
      flt := { d.flt with phase := .restore, stopped := false, rolling := false }
      cw := { progs := d.cw.progs, table := d.cw.table }
      gb := { tab := d.gb.tab, gtab := d.gb.gtab, cur := cur }
      ag := {}
      et := { d.et with lookups := [], latch := [] }
      lg := { d.lg with digs := [] }
      cm := { d.cm with gen := false, gold := [], roll := none, reload := none, expired := [], adds := [], exps := [] } }
  else d

/-- Cores that a mask names. -/
def coresOf (mask : Nat) : List Nat := (List.range 32).filter (fun c => bitOf mask c)

/-- A plane or staging section placed (R272): bytes to DEST of every core of the mask, or to staging. -/
def Dev.placeData (d : Dev) (type mask dest : Nat) (bs : List Byte) : Dev :=
  if type = 0x12 then { d with mem := memWrite d.mem (stagingAt dest) bs }
  else (coresOf mask).foldl (fun (d : Dev) c =>
    { d with mem := memWrite d.mem (planeAt (decide (type = 0x11)) c dest) bs }) d

/-- The entries of the restart copy from a store address (R445): type, mask, destination, bytes; none where a CRC fails, as
it does where `bad` says that the bytes of a section cannot be corrected (R427). -/
def copyEntries (m : Mem) (bad : Nat → Nat → Bool) : Nat → Nat → Option (List (Nat × Nat × Nat × List Byte))
  | 0, _ => some []
  | n + 1, a =>
    let h := memRead m a 64
    let len := leAt h 16 8
    if leAt h 0 2 = 0 then some []
    else
      let bs := memRead m (a + 64) len
      if bad a (64 + len) ∨ crc64 bs ≠ leAt h 24 8 then none
      else
        match copyEntries m bad n (a + 64 + (len + 63) / 64 * 64) with
        | none => none
        | some r => some ((leAt h 0 2, leAt h 4 4, leAt h 8 8, bs) :: r)

/-- RESTART_RESTORE_DONE (R333, R334, R445): planes and staging take their load-time content from the restart copy, zero
where no entry writes; a section that fails its CRC-64 makes the latch permanent. `ok` false: a section did not read
back. -/
def restartRestoreDone (ok : Bool) (d : Dev) : Dev :=
  if d.flt.phase = .restore then
    match (if ok then copyEntries d.xs.mem d.xs.badIn 2048 (65536 * (d.rdLive BT_RESTART_BASE).toNat) else none) with
    | none =>
      if d.flt.permanent then d else ({ d with flt := { d.flt with permanent := true } }).report { src := 0x25, unit := unitOf 3 0 }
    | some es =>
      let a := 65536 * (d.rdLive BT_RESTART_BASE).toNat
      let d := d.storeReq 3 false a (d.xs.logBase - a) false
      let d := es.foldl (fun d e => d.placeData e.1 e.2.1 e.2.2.1 e.2.2.2) { d with mem := [] }
      { d with flt := { d.flt with phase := .reseat } }
  else d

/-- Chip 0 of a configuration, once every chip has completed Re-seat (R397): the next frame boundary at least two strokes
ahead is named, to every chip and for itself. -/
def Dev.nameResume (d : Dev) : Dev :=
  if d.rl.chip ≠ 0 ∨ d.frameLen = 0 ∨ ¬ (List.range d.chips).all (fun j => d.rl.reseated.contains j) then d
  else
    let k := (sDiff (sAdd d.tm.stroke 2) d.tm.frameAt + d.frameLen - 1) / d.frameLen
    let b := sAdd d.tm.frameAt (d.frameLen * k)
    let d := { d with flt := { d.flt with resumeAt := some b }, rl := { d.rl with reseated := [] } }
    ((List.range d.chips).filter (fun j => j != 0)).foldl (fun d j => d.linkSend j 0 (.rg j 5 [b.toNat])) d

/-- RESTART_RESEAT_DONE (R110, R114, R333, R397): the spatial hash is zero, cell memory is re-seated under the current
target with a reload begun; work waits for a frame boundary. In a configuration chip 0 learns of it. -/
def restartReseatDone (d : Dev) : Dev :=
  if d.flt.phase = .reseat then
    let d := { d with gb := { d.gb with tab := [], gtab := [] } }
    let d := d.reseatCells
    let d := { d with flt := { d.flt with phase := .waiting, reseatAt := d.tm.stroke } }
    if d.rl.countM1 = 0 then d
    else if d.rl.chip = 0 then
      ({ d with rl := { d.rl with reseated := (0 :: d.rl.reseated).eraseDups } } : Dev).nameResume
    else d.linkSend 0 0 (.rg 0 4 [d.rl.chip])
  else d

end Sys2Proof.Machine
end

