-- ==== Sys2Proof/Machine/Image.lean ====
section
/-! DEFINITION. The program image (10_program_image): its header, directory and sections as read from flash, and the
placement of each kind of section (R259 to R276). -/

namespace Sys2Proof.Machine

/-! ### Layout (R259 to R261) -/

/-- A directory entry (R261) with its number. -/
structure Sect where
  idx : Nat
  type : Nat
  chips : Nat
  rsv : Nat
  cores : Nat
  off : Nat
  len : Nat
  dest : Nat
  digest : List Byte
  deriving DecidableEq, Repr

/-- Directory entry n from its 96 bytes. -/
def sectOf (n : Nat) (b : List Byte) : Sect :=
  { idx := n, type := leAt b 0 2, chips := leAt b 2 1, rsv := leAt b 3 1, cores := leAt b 4 4, off := leAt b 8 8,
    len := leAt b 16 8, dest := leAt b 24 8, digest := (b.drop 32).take 64 }

/-! ### The configuration flash (R435, R436) -/

/-- The port of a flash offset, and the port byte (R435). -/
def BootSt.flashPort (b : BootSt) (f : Nat) : Nat × Nat :=
  if b.flashBoth then (f / 65536 % 2, f / 131072 * 65536 + f % 65536) else (0, f)

/-- Where a flash offset lies among the devices' bytes: within a port the devices follow one another in chip-select
order (R435). -/
def BootSt.flashKey (b : BootSt) (f : Nat) : Nat :=
  let (p, x) := b.flashPort f
  let k := if b.flashDev = 0 then 0 else x / b.flashDev
  2 ^ 28 * (16 * p + k) + (x - k * b.flashDev)

/-- `n` bytes from a flash offset on, cut where a 64 KiB block ends: each block lies wholly in one device (R435). -/
def flashPieces (f n : Nat) : List (Nat × Nat) :=
  (List.range ((f % 65536 + n + 65535) / 65536)).map (fun i =>
    let lo := max f (65536 * (f / 65536 + i))
    (lo, min (f + n) (65536 * (f / 65536 + i + 1)) - lo))

/-- Bytes read from the flash. -/
def BootSt.flashRead (b : BootSt) (f n : Nat) : List Byte :=
  (flashPieces f n).flatMap (fun p => memRead b.flash (b.flashKey p.1) p.2)

/-- Bytes stored into the flash. -/
def BootSt.flashWrite (b : BootSt) (f : Nat) (bs : List Byte) : BootSt :=
  { b with flash := (flashPieces f bs.length).foldl (fun m p =>
      memWrite m (b.flashKey p.1) ((bs.drop (p.1 - f)).take p.2)) b.flash }

/-- The image's header in flash. -/
def BootSt.imgHeader (b : BootSt) : List Byte := b.flashRead 0 256

/-- SECTIONS, LEVEL, CHIPS, IMAGE_SIZE and SIG_OFFSET of a header (R260). -/
def hdrSections (h : List Byte) : Nat := leAt h 12 2
/-- LEVEL. -/
def hdrLevel (h : List Byte) : Nat := leAt h 14 1
/-- CHIPS. -/
def hdrChips (h : List Byte) : Nat := leAt h 15 1
/-- IMAGE_SIZE. -/
def hdrSize (h : List Byte) : Nat := leAt h 16 8
/-- SIG_OFFSET. -/
def hdrSig (h : List Byte) : Nat := leAt h 24 8
/-- SECURITY_VERSION. -/
def hdrSv (h : List Byte) : Nat := leAt h 36 4

/-- The directory. -/
def BootSt.dir (b : BootSt) : List Sect :=
  (List.range (hdrSections b.imgHeader)).map (fun n => sectOf n (b.flashRead (256 + 96 * n) 96))

/-- A section's bytes. -/
def BootSt.bytes (b : BootSt) (s : Sect) : List Byte := b.flashRead s.off s.len

/-- Whether a section is loaded on a chip (R265). -/
def Sect.on (s : Sect) (chip : Nat) : Bool := bitOf s.chips chip

/-- The types of R264. -/
def sectTypes : List Nat := [1, 2, 3, 4, 5, 0x10, 0x11, 0x12, 0x20, 0x21, 0x30, 0x40, 0x41, 0x42, 0xF0]

/-- Whether a section's type and masks are valid (R264, R265, R272). -/
def Sect.valid (s : Sect) (count : Nat) : Bool :=
  sectTypes.contains s.type && decide (s.chips ≠ 0) && decide (s.chips < 2 ^ count) &&
    (if s.type = 0x10 ∨ s.type = 0x11 then decide (s.cores ≠ 0) else decide (s.cores = 0))

/-- The order of placement (R266): POWER_MAP, then REGISTERS, SALTS and BINDINGS, then the others. -/
def Sect.group (s : Sect) : Nat := if s.type = 1 then 0 else if s.type ≤ 4 then 1 else 2

/-- Sections in the order of placement: by group, within it by ascending IMAGE_OFFSET (R442 step 11). -/
def placeOrder (l : List Sect) : List Sect :=
  sortBy (fun a b => decide (a.group < b.group) || (decide (a.group = b.group) && decide (a.off < b.off))) l

/-- M (R262): SHA-512 of header and directory. -/
def BootSt.measure (b : BootSt) : List Byte := sha512 (b.flashRead 0 (256 + 96 * hdrSections b.imgHeader))

/-! ### Registers, salts, bindings (R268 to R270) -/

/-- The 8-byte pairs of a REGISTERS section: offset and value. -/
def regPairs : Nat → List Byte → List (Nat × Nat)
  | 0, _ => []
  | n + 1, bs => (leAt bs 0 4, leAt bs 4 4) :: regPairs n (bs.drop 8)

/-- The writable fields of a register: those of access RW or BL (R268). -/
def RegRow.fields (r : RegRow) : Nat := r.rw ||| r.bl

/-- The row of the _C register that follows a complement-checked value register. -/
def pairRow (a : Nat) : Option RegRow :=
  match regRow a, regRow (a + 4) with
  | some v, some c => if c.cMask ≠ 0 ∧ v.cMask = 0 then some c else none
  | _, _ => none

/-- The pages of BAR0 whose registers a REGISTERS section may name: IG, GB, CM, MA, TP, WP, CO, AG, CS, ET, TB, RL, XS,
PM (R268, R472). -/
def regBlocks : List Nat := [1, 2, 3, 4, 5, 6, 7, 8, 9, 10, 13, 14, 16, 18]

/-- Registers that SALTS and BINDINGS write (R268). -/
def otherRegs : List Nat :=
  [GB_SALT0_LO, GB_SALT0_HI, GB_SALT1_LO, GB_SALT1_HI] ++
    (List.range 48).flatMap (fun n => [IG_STREAM_BIND n, IG_STREAM_BIND_C n, IG_STREAM_SRCMAC_LO n, IG_STREAM_SRCMAC_HI n,
      IG_STREAM_GEOM n, IG_STREAM_SECTOR n, IG_STREAM_RANGE n])

/-- Whether one pair of a REGISTERS section, taken by itself, keeps R268: its register, and the bits that it writes. -/
def pairFits (a v : Nat) : Bool :=
  decide (a % 4 = 0) && regBlocks.contains (a / 65536) && !(otherRegs.contains a) &&
    (match regRow a with
     | none => false
     | some r => decide (r.cMask ≠ 0) || (decide (r.fields ≠ 0) && decide (v &&& r.fields = v)))

/-- The table base pointers, whose complements the embedding-table engine holds (R348). -/
def isBasePtr (a : Nat) : Bool :=
  decide (ET_TABLE_COPY0 0 ≤ a) && decide (a ≤ ET_TABLE_COPY1 63) &&
    (decide (a % 64 = ET_TABLE_COPY0 0 % 64) || decide (a % 64 = ET_TABLE_COPY1 0 % 64))

/-- A register written by the boot code (R268): its writable bits (R11); a pair is accepted and applied together with its
_C register; a _C register by itself adds nothing. -/
def Dev.bootReg (d : Dev) (a v : Nat) : Dev :=
  match regRow a with
  | none => d
  | some r =>
    let w : Word := BitVec.ofNat 32 (v &&& r.fields) &&& d.digestMask a
    if r.cMask ≠ 0 then d
    else if a = CS_REC_CTRL then { d with lg := { d.lg with mode := fld w 0 2 } }
    else if a = CS_REC_HEAD then { d with lg := { d.lg with head := v } }
    else if a = CS_REC_TAIL then { d with lg := { d.lg with tail := v } }
    else if (pairRow a).isSome then d.hwPair a w
    else if isBasePtr a then (d.hw a w).setComp a w
    else if d.xs.ready ∧ ((List.range 4).map XS_MRW).contains a then
      (List.range 32).foldl (fun d ch => d.modeWrites ch [a]) (d.hw a w)
    else d.hw a w

/-- The registers of a BINDINGS entry (R270). -/
def bindRegs (n : Nat) : List Nat :=
  [IG_STREAM_BIND n, IG_STREAM_SRCMAC_LO n, IG_STREAM_SRCMAC_HI n, IG_STREAM_GEOM n, IG_STREAM_SECTOR n, IG_STREAM_RANGE n]

/-- A BINDINGS section placed. -/
def Dev.placeBindings (d : Dev) (bs : List Byte) : Dev :=
  (List.range 48).foldl (fun d n =>
    ((bindRegs n).zip (List.range 6)).foldl (fun d p => d.bootReg p.1 (leAt bs (32 * n + 4 * p.2) 4)) d) d

/-! ### Calibration (R271) -/

/-- `n` fields of `w` bytes, `step` bytes apart, from offset `o`. -/
def fieldsAt (bs : List Byte) (o step w : Nat) (n : Nat) : List Nat := (List.range n).map (fun i => leAt bs (o + step * i) w)

/-- The tables of a CALIBRATION section or of the golden input. -/
def calOf (bs : List Byte) : Calib :=
  let na := leAt bs 2 2
  let nb := leAt bs 4 2
  let ext := fieldsAt bs 16 4 4 12
  match leAt bs 1 1 with
  | 1 => { ext := ext, ce := fieldsAt bs 64 12 4 na, se := fieldsAt bs 68 12 4 na, az := fieldsAt bs 72 12 2 na }
  | 2 => { ext := ext, ce := fieldsAt bs 64 8 4 na, se := fieldsAt bs 68 8 4 na, az := fieldsAt bs (64 + 8 * na) 2 2 nb }
  | _ => { ext := ext, rfx := leAt bs 64 4, rfy := leAt bs 68 4, cx := leAt bs 72 4, cy := leAt bs 76 4 }

/-- The length that a CALIBRATION section of its header has (R271). -/
def calLen (bs : List Byte) : Nat :=
  let na := leAt bs 2 2
  let nb := leAt bs 4 2
  match leAt bs 1 1 with
  | 1 => 64 + 12 * na
  | 2 => 64 + 8 * na + (2 * nb + 3) / 4 * 4
  | _ => 80

/-! ### Power map (R267) -/

/-- A POWER_MAP section placed. -/
def Dev.placePower (d : Dev) (bs : List Byte) : Dev :=
  let d := (List.range 32).foldl (fun d c =>
    (d.bootReg (TP_CORE_POWER c) (leAt bs (2 * c) 1)).bootReg (WP_CORE_POWER c) (leAt bs (2 * c + 1) 1)) d
  (d.bootReg WP_CMN_POWER_STAGING (leAt bs 64 2)).bootReg WP_CMN_POWER_HASH (leAt bs 68 4)

/-! ### Tables (R238, R275) -/

/-- Bytes written to the store. -/
def Dev.storeWrite (d : Dev) (a : Nat) (bs : List Byte) : Dev :=
  { d with xs := d.xs.put a bs }

/-- A row of a table as the boot code writes it to a copy (R238): a row-by-row slot has SEQ and EFFECT 0, SETTLED 1 and
SHADOW equal to DATA. -/
def Dev.placeRow (d : Dev) (t copy i : Nat) (row : List Byte) : Dev :=
  let n := d.tSize t
  if d.tByRow t then
    let h : List Byte := zeros 10 ++ [1] ++ zeros 5
    d.storeWrite (d.rowAt t 0 i) (h ++ h ++ row.take n ++ row.take n)
  else d.storeWrite (d.rowAt t (BitVec.ofNat 32 copy) i) (row.take n)

/-- Every row of every copy of every defined table takes its default row (R275). -/
def Dev.fillTables (d : Dev) : Dev :=
  (List.range 64).foldl (fun d t =>
    if d.tEn t then
      let row := d.defaultRow t
      (List.range (if d.tByRow t then 1 else 2)).foldl (fun d c =>
        (List.range (d.tRows t)).foldl (fun d i => d.placeRow t c i row) d) d
    else d) d

/-- A TABLE section placed (R275). -/
def Dev.placeTable (d : Dev) (bs : List Byte) : Dev :=
  let t := leAt bs 0 1 % 64
  let n := d.tSize t
  (List.range (leAt bs 8 4)).foldl (fun d k =>
    d.placeRow t (leAt bs 1 1) (leAt bs 4 4 + k) ((bs.drop (16 + n * k)).take n)) d

/-! ### Every section (R264 to R276) -/

/-- Plane segments that a plane section loads (R178, R351). -/
def Dev.markSegs (d : Dev) (word : Bool) (cores dest len : Nat) : Dev :=
  let lo := segOf word dest
  let hi := segOf word (dest + len - 1)
  let m := ((List.range 8).map (fun k => if lo ≤ k ∧ k ≤ hi then 2 ^ k else 0)).sum
  (coresOf cores).foldl (fun (d : Dev) c =>
    let k := 2 * c + b2n word
    { d with bt := { d.bt with segs := smSet (fun _ => 0) d.bt.segs k (smGet (fun _ => 0) d.bt.segs k ||| m) } }) d

/-- One section placed. -/
def Dev.placeSect (d : Dev) (s : Sect) : Dev :=
  let bs := d.bt.bytes s
  match s.type with
  | 1 => d.placePower bs
  | 2 => (regPairs (bs.length / 8) bs).foldl (fun d p => if pairFits p.1 p.2 then d.bootReg p.1 p.2 else d) d
  | 3 => ((((d.bootReg (GB_SALT0_LO) (leAt bs 0 4)).bootReg (GB_SALT0_HI) (leAt bs 4 4)).bootReg (GB_SALT1_LO)
      (leAt bs 8 4)).bootReg (GB_SALT1_HI) (leAt bs 12 4))
  | 4 => d.placeBindings bs
  | 5 => { d with ig := { d.ig with calib := smSet (fun _ => {}) d.ig.calib (leAt bs 0 1) (calOf bs) } }
  | 0x10 => (d.placeData 0x10 s.cores s.dest bs).markSegs false s.cores s.dest s.len
  | 0x11 => (d.placeData 0x11 s.cores s.dest bs).markSegs true s.cores s.dest s.len
  | 0x12 => d.placeData 0x12 0 s.dest bs
  | 0x20 =>
    let k := 16 * (leAt bs 0 1 % 4) + leAt bs 1 1 % 16
    { d with cw := { d.cw with progs := smSet (fun _ => []) d.cw.progs k bs } }
  | 0x21 => { d with cw := { d.cw with table := bs } }
  | 0x30 => d.placeTable bs
  | 0x40 =>
    let word (o n : Nat) : Word := BitVec.ofNat 32 (leAt bs (8 * n + o) 4)
    let thr := (List.range 1024).foldl (fun m n => smSet (fun _ => (0 : Word)) m n (word 0 n)) []
    let thrC := (List.range 1024).foldl (fun m n => smSet (fun _ => (0xFFFFFFFF : Word)) m n (word 4 n)) []
    { d with si := { d.si with thr := thr, thrC := thrC } }
  | 0x41 =>
    let d := d.storeWrite s.dest bs
    { d with bt := { d.bt with gold := s.dest, goldLen := s.len } }
  | 0x42 => { d with si := { d.si with gref := bs } }
  | _ => d

end Sys2Proof.Machine
end

