-- ==== Sys2Proof/Machine/Rings.lean ====
section
/-! DEFINITION. The rings of the host interface (16_host_pcie R407 to R412): their indices, entries and status blocks. -/

namespace Sys2Proof.Machine

/-! ### Addresses and indices (R407, R418) -/

/-- SIZE of a ring in slots. -/
def Dev.ringSize (d : Dev) (rr : Nat) : Nat := 2 ^ d.rf (HI_RING_CFG rr) 1 5

/-- A host address held in two registers. -/
def Dev.rdAddr (d : Dev) (lo hi : Nat) : Nat := (d.rd lo).toNat + 2 ^ 32 * (d.rd hi).toNat

/-- BASE of a ring. -/
def Dev.ringBase (d : Dev) (rr : Nat) : Nat := d.rdAddr (HI_RING_BASE_LO rr) (HI_RING_BASE_HI rr)

/-- Bytes written to host memory. (DESIGN CHOICE, log entry 101.) -/
def Dev.hostWrite (d : Dev) (a : Nat) (bs : List Byte) : Dev :=
  { d with hi := { d.hi with mem := memWrite d.hi.mem a bs } }

/-- Slots of a ring in use: PROD − CONS. -/
def RingSt.used (r : RingSt) : Nat := (r.prod - r.cons).toNat

/-- The status block of a ring (R408). -/
def RingSt.block (r : RingSt) (index : BitVec 32) : List Byte :=
  toLE 4 index.toNat ++ toLE 4 (min r.lost (2 ^ 32 - 1)) ++ toLE 8 r.last.toNat ++ zeros 16

/-- The status block written (R408). -/
def Dev.ringStatus (d : Dev) (rr : Nat) : Dev :=
  let r := d.ring rr
  d.hostWrite (d.rdAddr (HI_RING_STAT_LO rr) (HI_RING_STAT_HI rr)) (r.block (if rr = 5 then r.fetched else r.prod))

/-- Entries lost by a ring (R407, R409). -/
def Dev.ringLose (d : Dev) (rr n : Nat) : Dev :=
  let r := d.ring rr
  (d.setRing rr { r with lost := r.lost + n }).bump (HI_RING_LOST rr) n

/-- An entry written to a ring of the device's (R409 to R411): slot PROD mod SIZE, then PROD, the status block and the
message; a full ring loses it. -/
def Dev.ringPut (d : Dev) (rr slot : Nat) (s : Stroke) (bs : List Byte) : Dev :=
  let r := d.ring rr
  let size := d.ringSize rr
  if r.used ≥ size then d.ringLose rr 1
  else
    let d := d.hostWrite (d.ringBase rr + slot * (r.prod.toNat % size)) bs
    let d := d.setRing rr { r with prod := r.prod + 1, last := s }
    (d.ringStatus rr).irqRing rr

/-! ### Register writes (R407) -/

/-- HI_RINGrr_CFG written: EN is judged as it stood; LOG2_SIZE is locked from enable until the boundary at which a disable
takes effect; a LOG2_SIZE outside 4 to 16 leaves EN clear. Rings 04 to 06 have no QMASK (R418). -/
def ringCfgWrite (rr : Nat) (v : Word) (d : Dev) : Dev :=
  if rr ≥ 7 then d
  else
    let a := HI_RING_CFG rr
    let r := d.ring rr
    let keep := if r.locked then d.rf a 1 5 else fld v 1 5
    let want := decide (fld v 0 1 = 1)
    let ok := decide (4 ≤ keep) && decide (keep ≤ 16)
    let en := if r.en then want else want && ok
    let d := d.hwN a (b2n en + 2 * keep + 64 * (if rr < 4 then fld v 6 4 else 0) + 65536 * fld v 16 16)
    if en = r.en then d
    else if en then
      d.setRing rr { r with en := true, locked := true, prod := 0, cons := 0, fetched := 0, lost := 0, last := 0 }
    else d.setRing rr { r with en := false, clr := true }

/-- RING_ENABLE (R407): a write of HI_RINGrr_CFG with EN set. -/
def ringEnable (rr : Nat) (v : Word) (d : Dev) : Dev := ringCfgWrite rr (v ||| 1) d

/-- RING_DISABLE (R407): a write of HI_RINGrr_CFG with EN clear. -/
def ringDisable (rr : Nat) (v : Word) (d : Dev) : Dev := ringCfgWrite rr (v &&& 0xFFFFFFFE) d

/-- RING_CONS_WRITE (R407): CONS of a ring that the device produces; a CONS past PROD is ignored. -/
def ringConsWrite (rr : Nat) (v : BitVec 32) (d : Dev) : Dev :=
  if rr ≥ 7 ∨ rr = 5 then d
  else
    let r := d.ring rr
    if (v - r.cons).toNat > r.used then d.bump (HI_RING_ERR rr) else d.setRing rr { r with cons := v }

/-- RING_PROD_WRITE (R407): PROD of ring 05; one that moves back, or more than SIZE ahead of the count fetched, is
ignored. -/
def ringProdWrite (v : BitVec 32) (d : Dev) : Dev :=
  let r := d.ring 5
  let size := d.ringSize 5
  if (v - r.prod).toNat > size ∨ (v - r.fetched).toNat > size then d.bump (HI_RING_ERR 5)
  else d.setRing 5 { r with prod := v }

/-! ### Records (R409) -/

/-- Record rings that take a record of a quadrant, as a mask. -/
def Dev.takers (d : Dev) (q : Nat) : Nat :=
  ((List.range 4).map (fun rr => b2n ((d.ring rr).active && bitOf (d.rf (HI_RING_CFG rr) 6 4) q) * 2 ^ rr)).sum

/-- A record handed out at a boundary (R409): queued for the rings that take it. -/
def Dev.queueRecord (d : Dev) (s : Stroke) (bs : List Byte) : Dev :=
  let m := d.takers (quadOf s)
  if m = 0 then d.bump HI_NO_RING
  else if d.hi.outq.length ≥ 64 then d.bump HI_QUEUE_DROP
  else { d with hi := { d.hi with outq := d.hi.outq ++ [(s, m, bs)] } }

/-- RECORD_DELIVER (R409, R410): the oldest record of the output queue is written to each of its rings. -/
def recordDeliver (d : Dev) : Dev :=
  match d.hi.outq with
  | [] => d
  | (s, m, bs) :: rest =>
    let d := { d with hi := { d.hi with outq := rest } }
    (List.range 4).foldl (fun d rr =>
      if bitOf m rr ∧ (d.ring rr).active then d.ringPut rr bs.length s bs else d) d

/-- Rings at a boundary (R407): a disable takes effect and discards what is queued; an enable takes effect. -/
def Dev.ringBoundary (d : Dev) : Dev :=
  (List.range 7).foldl (fun d rr =>
    let r := d.ring rr
    let d :=
      if r.clr ∧ rr < 4 then
        let n := (d.hi.outq.filter (fun q => bitOf q.2.1 rr)).length
        let outq := d.hi.outq.map (fun q => (q.1, if bitOf q.2.1 rr then q.2.1 - 2 ^ rr else q.2.1, q.2.2))
        ({ d with hi := { d.hi with outq := outq.filter (fun q => decide (q.2.1 ≠ 0)) } } : Dev).ringLose rr n
      else d
    let r := d.ring rr
    d.setRing rr { r with active := r.en, clr := false, locked := r.en }) d

/-! ### Updates (R251, R412) -/

/-- Whether ring 06 has room for another completion beside those owed. -/
def Dev.complRoom (d : Dev) : Bool :=
  (d.ring 6).active && decide ((d.ring 6).used + d.hi.fetchq.length < d.ringSize 6)

/-- UPDATE_RECORD_FETCH (R412): the device fetches the next record of ring 05 while ring 06 has room. -/
def updateFetch (d : Dev) : Dev :=
  let r := d.ring 5
  if r.active = false ∨ r.prod = r.fetched ∨ d.complRoom = false then d
  else
    let a := d.ringBase 5 + 272 * (r.fetched.toNat % d.ringSize 5)
    let d := { d with hi := { d.hi with fetchq := d.hi.fetchq ++ [memRead d.hi.mem a 272] } }
    (d.setRing 5 { r with fetched := r.fetched + 1, cons := r.fetched + 1 }).ringStatus 5

/-- UPDATE_RECORD (R251, R412): the oldest record fetched is decided, at most four in a stroke, and its completion written
to ring 06; an accepted row is taken into its table and logged. -/
def updateRecord (d : Dev) : Dev :=
  match d.hi.fetchq with
  | [] => d
  | bs :: rest =>
    let r6 := d.ring 6
    if r6.active = false ∨ r6.used ≥ d.ringSize 6 ∨ (d.tm.op ∧ 4 ≤ d.hi.decided) then d
    else
      let st := d.updStatus bs
      let t := leAt bs 0 1 % 64
      let i := leAt bs 4 4
      let row := (bs.drop 16).take (d.tSize t)
      let d := { d with hi := { d.hi with fetchq := rest, decided := d.hi.decided + 1 } }
      let d :=
        if st = 0 then
          let e : LogEnt := { stroke := d.tm.stroke, type := 4, payload := toLE 1 t ++ zeros 3 ++ toLE 4 i ++ row }
          ((d.bump HI_UPD_ACCEPTED).takeRow t i row).logIn e
        else (d.bump HI_UPD_REFUSED).bump ET_UPD_CRC (b2n (decide (st = 1)))
      d.ringPut 6 16 d.tm.stroke
        (toLE 4 (leAt bs 8 4) ++ toLE 1 st ++ toLE 1 (leAt bs 0 1) ++ toLE 6 d.tm.stroke.toNat ++ zeros 4)

end Sys2Proof.Machine
end

