-- ==== Sys2Proof/Machine/Rec.lean ====
section
/-! DEFINITION. Recording (08_crews_determinism R228 to R233): digest records released, the log ring and its entries, a
session's start, stop and abort. -/

namespace Sys2Proof.Machine

/-! ### Digest records (R228) -/

/-- The 32 bytes of a digest record. -/
def DigRec.bytes (r : DigRec) : List Byte :=
  let a := r.acc
  toLE 6 r.stroke.toNat ++ toLE 1 (a.point % 256) ++ toLE 1 (b2n a.invalid + 2 * b2n a.golden + 4 * b2n a.migrated) ++
    toLE 4 a.frame.toNat ++ toLE 4 a.ord ++ toLE 2 a.entries ++ toLE 1 (a.id.stream % 64 + 64 * a.level) ++ zeros 5 ++
    toLE 8 r.value

/-- The order of the records released at one boundary: FRAME by serial comparison (R15), ORDINAL, POINT. -/
def digBefore (a b : DigRec) : Bool :=
  let x := a.acc
  let y := b.acc
  older x.frame.toNat y.frame.toNat 32 || (decide (x.frame = y.frame) &&
    (decide (x.ord < y.ord) || (decide (x.ord = y.ord) && decide (x.point < y.point))))

/-- DIGEST_RELEASE (R228): at the checkpoint commit, the records completed are written to ring 04, where it takes part. -/
def Dev.digestRelease (d : Dev) : Dev :=
  let rs := sortBy digBefore (d.lg.done.filter (fun r => r.acc.report))
  let d := { d with lg := { d.lg with done := [] } }
  let d := d.bump CS_DIGEST_OUT rs.length
  if (d.ring 4).active then rs.foldl (fun d r => d.ringPut 4 32 r.stroke r.bytes) d else d

/-! ### Log entries (R230) -/

/-- The bytes of a log entry. -/
def LogEnt.bytes (e : LogEnt) (chip : Nat) : List Byte :=
  let body := padTo 16 e.payload
  let head := toLE 6 e.stroke.toNat ++ toLE 1 e.type ++ toLE 1 (chip % 4) ++ toLE 2 e.payload.length ++ toLE 2 e.source
  head ++ toLE 4 (crc32c (head ++ zeros 4 ++ body)) ++ body

/-- The order of R230: STROKE, TYPE, arrival. -/
def LogEnt.before (a b : LogEnt) : Bool :=
  sOlder a.stroke b.stroke || (decide (a.stroke = b.stroke) && decide (a.type < b.type))

/-- Base and size of the log ring in bytes (R231). -/
def Dev.logRing (d : Dev) : Nat × Nat := (65536 * d.rf CS_REC_BASE 0 16, 65536 * d.rf CS_REC_SIZE 0 16)

/-- Bytes of the ring that the consumer has not taken. -/
def Dev.logUsed (d : Dev) : Nat :=
  let (_, size) := d.logRing
  if size = 0 then 0 else (d.lg.head + size - d.lg.tail % size) % size

/-- Bytes read from a ring of the store. -/
def ringRead (m : Mem) (base size off n : Nat) : List Byte :=
  let k := min n (size - off % size)
  memRead m (base + off % size) k ++ memRead m base (n - k)

/-- Entry bytes put into the log ring: HEAD advances, the counters count. At or above the capacity the access does not
execute and raises RANGE (R423). (DESIGN CHOICE of its report, log entry 158.) -/
def Dev.logPut (d : Dev) (bs : List Byte) : Dev :=
  let (base, size) := d.logRing
  if size = 0 then d
  else
    let o := d.lg.head % size
    let n := size - o
    let out (a len : Nat) : Bool := decide (0 < len) && decide (d.xs.cap < a + len)
    if d.xs.ready ∧ (out (base + o) (min bs.length n) ∨ out base (bs.length - n)) then
      d.report { src := 0x16, unit := unitOf 3 (xsChannel (base + o)), addr := base + o }
    else
      let d := (d.storeReq 3 true (base + o) (min bs.length n) false).storeReq 3 true base (bs.length - n) false
      let d := { d with
        xs := (d.xs.put (base + o) (bs.take n)).put base (bs.drop n)
        lg := { d.lg with head := (d.lg.head + bs.length) % size, count := d.lg.count + 1 } }
      (d.bump CS_REC_ENTRIES).bump CS_REC_BYTES bs.length

/-- Whether an entry of n bytes fits beside the END entry for which room is kept (R231). (DEDUCED, log entry 24.) -/
def Dev.logFits (d : Dev) (n : Nat) : Bool := decide (d.logUsed + n + 32 < d.logRing.2)

/-- END written: the session's linearisation point (R231, R232); the state it leaves. -/
def Dev.logEnd (d : Dev) (s : Stroke) (st : Nat) : Dev :=
  let e : LogEnt := { stroke := s, type := 8, payload := toLE 8 d.lg.count ++ zeros 8 }
  let d := d.logPut (e.bytes d.rl.chip)
  { d with lg := { d.lg with state := st, buf := [], stopReq := false } }

/-- Entries written in order until one does not fit: then logging stops with END, and the state is OVERFLOW (R231). -/
def Dev.logAll (d : Dev) (s : Stroke) : List LogEnt → Dev
  | [] => d
  | e :: r =>
    if d.lg.recording = false then d
    else
      let bs := e.bytes d.rl.chip
      if d.logFits bs.length then (d.logPut bs).logAll s r else d.logEnd s 5

/-- Log entries of strokes before s written at the boundary that opens s. -/
def Dev.logFlush (d : Dev) (s : Stroke) : Dev :=
  if d.lg.recording then
    let (now, later) := d.lg.buf.partition (fun e => sOlder e.stroke s)
    let d := { d with lg := { d.lg with buf := later } }
    d.logAll s (sortBy LogEnt.before now)
  else d

/-! ### Protection windows (R446, R447) -/

/-- WINDOWS in force. -/
def Dev.protWindows (d : Dev) : Nat := fld (d.rdLive BT_PROT_CFG) 0 5

/-- Whether the store bytes from lo to hi − 1 lie wholly within one window of the protection set-up. -/
def Dev.inProt (d : Dev) (lo hi : Nat) : Bool :=
  (List.range d.protWindows).any (fun n =>
    decide (65536 * (d.rdLive (BT_PROT_WIN_BASE n)).toNat ≤ lo) &&
      decide (hi ≤ 65536 * ((d.rdLive (BT_PROT_WIN_LIMIT n)).toNat + 1)))

/-- Whether the protection set-up agrees with its complements (R348). -/
def Dev.protHeld (d : Dev) : Bool :=
  d.pairHeld BT_PROT_CFG &&
    (List.range 16).all (fun n => d.pairHeld (BT_PROT_WIN_BASE n) && d.pairHeld (BT_PROT_WIN_LIMIT n))

/-! ### Sessions (R229 to R234) -/

/-- REC_ARM (R229, R234): MODE is taken, and the session is armed; a MODE of 3, or 0, or a ring below 16 units, is
rejected. A write while a session is active sets the bit and changes nothing else. (DEDUCED, log entry 78.) -/
def recArm (mode : Nat) (d : Dev) : Dev :=
  if d.lg.state = 2 then { d with lg := { d.lg with armSet := true } }
  else if mode = 0 ∨ mode ≥ 3 ∨ d.rf CS_REC_SIZE 0 16 < 16 then { d with lg := { d.lg with state := 7 } }
  else { d with lg := { d.lg with mode := mode, state := 1, ended := false, stopReq := false, armSet := false, abortSet := false } }

/-- REC_STOP (R9, R232): the bit is set, and the session, if one is active then, ends at the next frame boundary.
(DESIGN CHOICE, log entry 102.) -/
def recStop (d : Dev) : Dev := { d with lg := { d.lg with stopReq := true } }

/-- Whether an armed replay holds the chip before the entry to the operational state (R233). -/
def Dev.replayHolds (d : Dev) : Bool :=
  decide (d.lg.state = 1) && decide (d.lg.mode = 2) && d.bt.placed && !d.tm.op && !d.hi.maint

/-- REC_ABORT (R232, R233): before END the ring is left without an entry of the session, and the state is ABORTED; a replay
ends injection and the device goes to maintenance mode, at the next boundary, or in place of the entry where it holds before
it. After END there is nothing to abort. (DEDUCED, log entry 77.) -/
def recAbort (d : Dev) : Dev :=
  let hold := d.replayHolds
  let d := { d with lg := { d.lg with abortSet := true, stopReq := false } }
  if d.lg.state = 2 then
    if d.lg.mode = 2 then
      { d with lg := { d.lg with state := 4, lastAbort := 1, ended := true }, hi := { d.hi with maintReq := true } }
    else { d with lg := { d.lg with state := 4, lastAbort := 1, head := d.lg.head0, buf := [] } }
  else if d.lg.state = 1 then
    let d := { d with lg := { d.lg with state := 4, lastAbort := 1 } }
    if hold then { d with hi := { d.hi with maintReq := true } } else d
  else { d with lg := { d.lg with lastAbort := 2 } }

/-- The payload of START (R229): session identifier, measurement, chip count, chip number.
(DESIGN CHOICE, log entry 25.) -/
def Dev.startPayload (d : Dev) : List Byte :=
  toLE 8 d.lg.session ++ ((List.range 8).flatMap (fun n => toLE 4 (d.rd (BT_MEAS n)).toNat)) ++
    toLE 1 (d.rl.countM1 + 1) ++ toLE 1 d.rl.chip ++ zeros 6

/-- The START entry at TAIL of an armed replay, where one whole entry is in the ring (R233). -/
def Dev.replayStart (d : Dev) : Option (List Byte) :=
  let (base, size) := d.logRing
  if size = 0 ∨ d.logUsed < 64 then none else some (ringRead d.xs.mem base size d.lg.tail 64)

/-- REC_SESSION_START (R229, R233, R447) at the entry to the operational state, for an armed session: a recording logs
START; a replay checks START against the image, the chip count and the chip number. A ring outside one protection
window is not started: state 7. A mismatch bars the chip from the operational state. The answer says whether the chip
enters. `s` is the first stroke number; a replay answers the one that START gives. -/
def Dev.sessionStart (d : Dev) (s : Stroke) : Bool × Stroke × Dev :=
  let (base, size) := d.logRing
  let d := d.useCritical (decide (d.lg.state ≠ 1) || d.protHeld)
  if d.lg.state ≠ 1 then (true, s, d)
  else if d.inProt base (base + size) = false then (true, s, { d with lg := { d.lg with state := 7 } })
  else if d.lg.mode = 1 then
    let (id, d) := d.fresh
    let d := { d with lg := { d.lg with state := 2, session := id.toNat, head0 := d.lg.head, count := 0, buf := [] } }
    let d := (d.hwN CS_REC_SESSION_LO (id.toNat % 2 ^ 32)).hwN CS_REC_SESSION_HI (id.toNat / 2 ^ 32)
    let e : LogEnt := { stroke := s, type := 1, payload := d.startPayload }
    (true, s, d.logPut (e.bytes d.rl.chip))
  else
    match d.replayStart with
    | none => (false, s, d)
    | some bs =>
      let ok := decide (leAt bs 6 1 = 1) && decide (leAt bs 8 2 = 48) &&
        decide (crc32c (bs.take 12 ++ zeros 4 ++ bs.drop 16) = leAt bs 12 4) &&
        decide ((bs.drop 24).take 40 = (d.startPayload).drop 8)
      if ok then
        let id := leAt bs 16 8
        let d := { d with lg := { d.lg with state := 2, session := id, tail := (d.lg.tail + 64) % size, count := 1 } }
        let d := (d.hwN CS_REC_SESSION_LO (id % 2 ^ 32)).hwN CS_REC_SESSION_HI (id / 2 ^ 32)
        (true, BitVec.ofNat 48 (leAt bs 0 6), (d.bump CS_REC_ENTRIES).bump CS_REC_BYTES 64)
      else (false, s, { d with lg := { d.lg with state := 7, barred := true } })

/-- The end that STOP asked for, at a frame boundary (R232); with no session active the bit clears. -/
def Dev.sessionStop (d : Dev) (s : Stroke) : Dev :=
  if d.lg.stopReq = false then d
  else if d.lg.recording then (d.logFlush s).logEnd s 3
  else if d.lg.state ≠ 2 then { d with lg := { d.lg with stopReq := false } }
  else { d with lg := { d.lg with state := 3, stopReq := false, ended := true } }

/-- The end of a session with the operational state (R232): a recording that has not written END reads ABORTED. -/
def Dev.sessionLost (d : Dev) : Dev :=
  if d.lg.state = 2 then { d with lg := { d.lg with state := 4, buf := [], stopReq := false } } else d

end Sys2Proof.Machine
end

