-- ==== Sys2Proof/Machine/BootCheck.lean ====
section
/-! DEFINITION. The checks that the boot code makes once every section is placed (R266, R279, step 12 of R442): for each
rule that the image breaks, a reason code and the directory entry concerned. -/

namespace Sys2Proof.Machine

/-! ### Violations -/

/-- A violation: its reason code, and its directory entry (0x7FF none). -/
abbrev Viol := Nat × Nat

/-- What the checks see: the device with everything placed, the directory, and the registers that its REGISTERS
sections name, each with its entry. -/
structure Chk where
  d : Dev
  dir : List Sect
  named : List (Nat × Nat)

/-- The sections loaded on this chip. -/
def Chk.on (c : Chk) : List Sect := c.dir.filter (fun s => s.on c.d.rl.chip && s.valid (c.d.rl.countM1 + 1))

/-- The sections of a type whose CHIP_MASK includes this chip, whatever their masks are (R264). -/
def Chk.counted (c : Chk) (t : Nat) : List Sect := c.dir.filter (fun s => s.type == t && s.on c.d.rl.chip)

/-- The sections of a type on this chip. -/
def Chk.typed (c : Chk) (t : Nat) : List Sect := c.on.filter (fun s => s.type == t)

/-- The lowest entry of a list; none is 0x7FF. -/
def lowest (l : List Nat) : Nat := l.foldl min 0x7FF

/-- A section's bytes. -/
def Chk.bytes (c : Chk) (s : Sect) : List Byte := c.d.bt.bytes s

/-- A rule that, where broken, gives a code and an entry. -/
def viol (ok : Bool) (code entry : Nat) : List Viol := if ok then [] else [(code, entry)]

/-- A rule over registers: the entry concerned is the lowest REGISTERS section that names one of them.
(DEDUCED, log entry 56.) -/
def Chk.reg (c : Chk) (ok : Bool) (code : Nat) (as : List Nat) : List Viol :=
  if ok then [] else [(code, lowest ((c.named.filter (fun p => as.contains p.1)).map (fun p => p.2)))]

/-- The registers that the REGISTERS sections of a chip name. -/
def namedRegs (b : BootSt) (chip : Nat) (dir : List Sect) : List (Nat × Nat) :=
  (dir.filter (fun s => s.type == 2 && s.on chip)).flatMap (fun s =>
    (regPairs (s.len / 8) (b.bytes s)).map (fun p => (p.1, s.idx)))

/-! ### Types, counts, masks (R264, R265, R272) -/

/-- The types of which every chip loads exactly one. -/
def onceTypes : List Nat := [1, 3, 4, 0x21, 0x40, 0x41, 0x42]

/-- Whether plane and staging content lies within its plane (R272). -/
def Sect.fits (s : Sect) : Bool :=
  match s.type with
  | 0x10 => decide (s.dest + s.len ≤ 0x800000)
  | 0x11 => decide (s.dest + s.len ≤ 0x200000)
  | 0x12 => decide (s.dest + s.len ≤ 0x1000000)
  | _ => true

/-- The program slots that the stroke table names: 16 × crew + slot (R274). -/
def Chk.slotsInUse (c : Chk) : List Nat :=
  (List.range 4).flatMap (fun crew =>
    (((List.range 1024).map (fun k => 16 * crew + leAt c.d.cw.table (4 * k + crew) 1 % 16)).eraseDups))

/-- The slot that a SCHEDULE section loads. -/
def Chk.schedSlot (c : Chk) (s : Sect) : Nat :=
  let h := c.d.bt.flashRead s.off 2
  16 * (leAt h 0 1 % 4) + leAt h 1 1 % 16

/-- The streams whose binding is enabled. -/
def Chk.bound (c : Chk) : List Nat := (List.range 48).filter (fun n => decide (fld (c.d.rdLive (IG_STREAM_BIND n)) 0 1 = 1))

/-- Reason 0x05. -/
def Chk.types (c : Chk) : List Viol :=
  let one (l : List Sect) : List Viol := viol (decide (l.length = 1)) 5 (lowest (l.map (fun s => s.idx)))
  c.dir.flatMap (fun s =>
      viol (sectTypes.contains s.type && decide (s.rsv = 0) &&
        (decide (s.dest = 0) || [0x10, 0x11, 0x12, 0x41].contains s.type)) 5 s.idx) ++
    onceTypes.flatMap (fun t => one (c.counted t)) ++
    (c.counted 1).flatMap (fun s => viol (decide (s.idx = 0)) 5 s.idx) ++
    viol (decide ((c.counted 0xF0).length ≤ 1)) 5 (lowest ((c.counted 0xF0).map (fun s => s.idx))) ++
    c.bound.flatMap (fun n => one ((c.counted 5).filter (fun s => decide (leAt (c.d.bt.flashRead s.off 1) 0 1 = n)))) ++
    c.slotsInUse.flatMap (fun k => one ((c.counted 0x20).filter (fun s => decide (c.schedSlot s = k))))

/-- Reason 0x06. -/
def Chk.masks (c : Chk) : List Viol :=
  c.dir.flatMap (fun s =>
    viol (decide (s.chips ≠ 0) && decide (s.chips < 2 ^ (c.d.rl.countM1 + 1)) &&
      (if s.type = 0x10 ∨ s.type = 0x11 then decide (s.cores ≠ 0) else decide (s.cores = 0)) && s.fits) 6 s.idx)

/-! ### Regions -/

/-- Whether the segments of numbers lo to hi are powered, of the `count` that a memory has: past them none lies unpowered. -/
def segsLit (mask count lo hi : Nat) : Bool := (List.range count).all (fun k => !(decide (lo ≤ k ∧ k ≤ hi)) || bitOf mask k)

/-- Whether no part of a range of the same plane offsets lies in an unpowered segment of a core (R178, R267). -/
def Chk.lit (c : Chk) (core : Nat) (word : Bool) (off n : Nat) : Bool :=
  decide (n = 0) ||
    segsLit (c.d.rd (if word then WP_CORE_POWER core else TP_CORE_POWER core)).toNat 8 (segOf word off) (segOf word (off + n - 1))

/-- Whether no part of a range of staging lies in an unpowered segment. -/
def Chk.litStaging (c : Chk) (off n : Nat) : Bool :=
  decide (n = 0) || segsLit (c.d.rd WP_CMN_POWER_STAGING).toNat 16 (off / 0x100000) ((off + n - 1) / 0x100000)

/-- The handles of the scene (R71): buckets of 4 ways, and the stash. -/
def Chk.handles (c : Chk) : Nat := 4 * 2 ^ c.d.rf GB_HASH_CFG 0 5 + 4096

/-- Site indices of a level: handles, or both frames' coarse indices (R188). -/
def Chk.sites (c : Chk) (l : Nat) : Nat := if l = 0 then c.handles else 2 * c.d.rf (AG_LVL_CAP (l - 1)) 0 21

/-- Bytes in each tile plane of n records of a size, spread over the cores (R85, R184, R188). -/
def perCore (n size : Nat) : Nat := (n + 31) / 32 * size

/-- The feature maps that the image names. (DEDUCED, log entry 55.) -/
def Chk.fmaps (c : Chk) : List Nat := (List.range 16).filter (fun f => c.named.any (fun p => p.1 == AG_FMAP_CFG f))

/-- The regions of every tile plane that registers place: offset, bytes, registers: voxel store, golden voxel store,
coarse site entries, feature maps. -/
def Chk.tileRegions (c : Chk) : List (Nat × Nat × List Nat) :=
  let rec8 := 32 + 8 * c.d.slotsN
  [(32 * c.d.rf GB_STORE_CFG 0 18, perCore c.handles rec8, [GB_STORE_CFG, GB_HASH_CFG]),
   (32 * c.d.rf GB_GOLD_CFG 0 18, perCore (4 * 2 ^ 14 + 256) rec8, [GB_GOLD_CFG, GB_HASH_CFG])] ++
  (List.range c.d.levels).map (fun i =>
    (32 * c.d.rf (AG_LVL_ENTRY i) 0 18, perCore (c.sites (i + 1)) 40, [AG_LVL_ENTRY i, AG_LVL_CAP i])) ++
  c.fmaps.map (fun f =>
    (32 * c.d.rf (AG_FMAP_CFG f) 0 18, perCore (c.sites (c.d.rf (AG_FMAP_CFG f) 24 2)) (c.d.fmapRow f), [AG_FMAP_CFG f]))

/-- The regions of staging (R177): the golden cell region, the list area and the level runs, which registers place, and
the regions whose bases the manual leaves to the image (log entry 104). -/
def Chk.stagingRegions (c : Chk) : List (Nat × Nat × List Nat) :=
  let at_ (n size : Nat) : Nat × Nat × List Nat := (c.d.region n, size, [])
  let buf := (c.bound.map (fun n => 2 * (c.d.streamCfg n).bufBytes)).sum
  [(64 * c.d.rf CM_GOLD_CFG 0 20, 0x10000, [CM_GOLD_CFG]),
   (16 * c.d.rf AG_WSET_AREA 0 20, 16 * c.d.rf AG_WSET_SIZE 0 20, [AG_WSET_AREA, AG_WSET_SIZE]),
   at_ rgBuffers buf, at_ rgKeys (buf / 3), at_ rgStash 0x10000, at_ rgGoldTab 0x80000, at_ rgGoldStash 0x1000,
   at_ rgSites (3 * c.d.runBytes 0), at_ rgGoldLevels (3 * 2048 * 40)] ++
  (List.range c.d.levels).map (fun i => (c.d.runBase (i + 1), 3 * c.d.runBytes (i + 1), [AG_LVL_RUNS i]))

/-- The rings of a core that have slots. -/
def Chk.rings (c : Chk) (core : Nat) : List Nat := (List.range 32).filter (fun k => decide ((c.d.ringDesc core k).slots ≠ 0))

/-- A core's journal in its word plane: offset and bytes (R222). -/
def Chk.journal (c : Chk) (core : Nat) : Nat × Nat :=
  (16 * c.d.rf (CS_CORE_JRNL_BASE core) 0 17, 80 * c.d.rf (CS_CORE_JRNL_SIZE core) 0 15)

/-- Whether a POWER_MAP section has the layout of R267: 80 bytes, with bytes 66 to 67 and 72 to 79 zero. A breach is
reported as 0x07, the code whose rule gives the layout. (DEDUCED, log entry 105.) -/
def Chk.powerMapOk (c : Chk) (s : Sect) : Bool :=
  decide (s.len = 80) && decide (leAt (c.bytes s) 66 2 = 0) && decide (leAt (c.bytes s) 72 8 = 0)

/-- Reason 0x07 (R178, R267). -/
def Chk.power (c : Chk) : List Viol :=
  let b := c.d.rf GB_HASH_CFG 0 5
  let hash := max 0 ((2 ^ (b + 5 - 20) : Nat) - 1)
  c.on.flatMap (fun s =>
      match s.type with
      | 0x10 => viol ((coresOf s.cores).all (fun k => c.lit k false s.dest s.len)) 7 s.idx
      | 0x11 => viol ((coresOf s.cores).all (fun k => c.lit k true s.dest s.len)) 7 s.idx
      | 0x12 => viol (c.litStaging s.dest s.len) 7 s.idx
      | 1 => viol (c.powerMapOk s) 7 s.idx
      | _ => []) ++
    c.reg ((List.range (hash + 1)).all (fun k => bitOf (c.d.rd WP_CMN_POWER_HASH).toNat k)) 7 [GB_HASH_CFG] ++
    c.tileRegions.flatMap (fun r => c.reg ((List.range 32).all (fun k => c.lit k false r.1 r.2.1)) 7 r.2.2) ++
    c.stagingRegions.flatMap (fun r => c.reg (c.litStaging r.1 r.2.1) 7 r.2.2) ++
    (List.range 32).flatMap (fun k =>
      c.reg (c.lit k true (c.journal k).1 (c.journal k).2) 7 [CS_CORE_JRNL_BASE k, CS_CORE_JRNL_SIZE k] ++
      (c.rings k).flatMap (fun r =>
        let q := c.d.ringDesc k r
        c.reg (c.lit k q.word q.base (q.size * q.slots)) 7 [TP_CORE_RING_BASE k r, TP_CORE_RING_SIZE k r]))

/-- Whether two ranges share a byte. -/
def meets (a m b n : Nat) : Bool := decide (max a b < min (a + m) (b + n))

/-- The byte ranges of the store that the table copies take: table, base, end, registers (R238). -/
def Chk.copies (c : Chk) : List (Nat × Nat × Nat × List Nat) :=
  (List.range 64).flatMap (fun t =>
    if c.d.tEn t then
      let n := c.d.tRows t
      if c.d.tByRow t then [(t, c.d.rowAt t 0 0, c.d.rowAt t 0 n, [ET_TABLE_CFG t, ET_TABLE_COPY0 t])]
      else [(t, c.d.rowAt t 0 0, c.d.rowAt t 0 n, [ET_TABLE_CFG t, ET_TABLE_COPY0 t]),
        (t, c.d.rowAt t 1 0, c.d.rowAt t 1 n, [ET_TABLE_CFG t, ET_TABLE_COPY1 t])]
    else [])

/-- The registers that a section writes (R266 to R270). -/
def Chk.writesRegs (c : Chk) (s : Sect) : List Nat :=
  match s.type with
  | 1 => (List.range 32).flatMap (fun n => [TP_CORE_POWER n, WP_CORE_POWER n]) ++ [WP_CMN_POWER_STAGING, WP_CMN_POWER_HASH]
  | 2 => (c.named.filter (fun p => p.2 == s.idx)).map (fun p => p.1)
  | 3 => [GB_SALT0_LO, GB_SALT0_HI, GB_SALT1_LO, GB_SALT1_HI]
  | 4 => (List.range 48).flatMap (fun n => IG_STREAM_BIND_C n :: bindRegs n)
  | _ => []

/-- The table of a TABLE section, and the first byte of the store that it writes and the one past the last (R275). -/
def Chk.tableSpan (c : Chk) (s : Sect) : Nat × Nat × Nat :=
  let h := c.d.bt.flashRead s.off 16
  let t := leAt h 0 1 % 64
  let copy := BitVec.ofNat 32 (leAt h 1 1)
  (t, c.d.rowAt t copy (leAt h 4 4), c.d.rowAt t copy (leAt h 4 4 + leAt h 8 4))

/-- Whether two sections write the same byte of a destination (R266). -/
def Chk.clash (c : Chk) (s t : Sect) : Bool :=
  if s.type ≤ 4 ∧ t.type ≤ 4 then (c.writesRegs s).any (fun a => (c.writesRegs t).contains a)
  else if s.type ≠ t.type then false
  else match s.type with
  | 0x10 => decide (s.cores &&& t.cores ≠ 0) && meets s.dest s.len t.dest t.len
  | 0x11 => decide (s.cores &&& t.cores ≠ 0) && meets s.dest s.len t.dest t.len
  | 0x12 => meets s.dest s.len t.dest t.len
  | 0x30 =>
    let a := (c.tableSpan s).2
    let b := (c.tableSpan t).2
    meets a.1 (a.2 - a.1) b.1 (b.2 - b.1)
  | 5 => decide (leAt (c.d.bt.flashRead s.off 1) 0 1 = leAt (c.d.bt.flashRead t.off 1) 0 1)
  | 0x20 => decide (c.schedSlot s = c.schedSlot t)
  | 0x21 => true
  | 0x40 => true
  | 0x41 => meets s.dest s.len t.dest t.len
  | 0x42 => true
  | _ => false

/-- Reason 0x08 (R266). -/
def Chk.overlaps (c : Chk) : List Viol :=
  c.on.flatMap (fun s =>
    viol (c.on.all (fun t => decide (s.idx = t.idx) || !(c.clash s t))) 8 s.idx ++
      (if s.type = 0x41 then
        viol (c.copies.all (fun r => !(meets s.dest s.len r.2.1 (r.2.2.1 - r.2.1)))) 8 s.idx
      else if s.type = 0x30 then
        let p := c.tableSpan s
        viol (c.copies.all (fun r => decide (r.1 = p.1) || !(meets p.2.1 (p.2.2 - p.2.1) r.2.1 (r.2.2.1 - r.2.1)))) 8 s.idx
      else []))

/-! ### Registers (R268) -/

/-- Whether the complement-checked pairs of a section come as value and complement, one after the other. -/
def pairsOk : List (Nat × Nat) → Bool
  | [] => true
  | [p] => (pairRow p.1).isNone && (match regRow p.1 with | some r => decide (r.cMask = 0) | none => true)
  | p :: q :: r =>
    match pairRow p.1 with
    | some cr => decide (q.1 = p.1 + 4) && decide (p.2 ^^^ q.2 = cr.cMask) && decide (q.2 &&& cr.cMask = q.2) && pairsOk r
    | none => (match regRow p.1 with | some x => decide (x.cMask = 0) | none => true) && pairsOk (q :: r)

/-- Reason 0x09. -/
def Chk.registers (c : Chk) : List Viol :=
  (c.typed 2).flatMap (fun s =>
    let ps := regPairs (s.len / 8) (c.bytes s)
    viol (decide (s.len % 8 = 0) && ps.all (fun p => pairFits p.1 p.2) && pairsOk ps &&
      ps.all (fun p => decide ((c.named.filter (fun q => q.1 == p.1)).length = 1))) 9 s.idx)

/-! ### Field values (reason 0x0A) -/

/-- Whether a list of numbers does not decrease. -/
def rising : List Nat → Bool
  | a :: b :: r => decide (a ≤ b) && rising (b :: r)
  | _ => true

/-- Intake and the grid builder: R62, R64 to R66, R68, R89, R94, R100. -/
def Chk.fieldsGrid (c : Chk) : List Viol :=
  let d := c.d
  let shed := (List.range 16).map IG_SHED_LIMIT
  let fill := (List.range 16).map GB_FILL_LIMIT
  let binds := (c.typed 4).map (fun s => s.idx)
  let nbr := d.rf GB_NBR_MASK 0 27
  viol (c.bound.all (fun n =>
      decide (fld (d.rdLive (IG_STREAM_BIND n)) 16 2 ≠ 0) && decide (d.rf (IG_STREAM_SECTOR n) 24 8 ≠ 0))) 10
      (lowest binds) ++
    c.reg (rising (shed.map (fun a => (d.rd a).toNat))) 10 shed ++
    (List.range 8).flatMap (fun n => c.reg (decide (d.rf (IG_CSI_CFG n) 0 2 ≠ 2)) 10 [IG_CSI_CFG n]) ++
    [GB_VOX_X, GB_VOX_Y, GB_VOX_Z].flatMap (fun a =>
      let m := d.rf a 0 8
      let s := d.rf a 8 4
      c.reg (decide (1 ≤ m) && decide (4 * m ≤ 2 ^ s) && decide (2 ^ s ≤ 512 * m)) 10 [a]) ++
    [GB_ROI_X_LO, GB_ROI_Y_LO, GB_ROI_Z_LO].flatMap (fun a =>
      c.reg (decide (sext 21 (d.rf a 0 21) ≤ sext 21 (d.rf (a + 4) 0 21))) 10 [a, a + 4]) ++
    c.reg (decide (14 ≤ d.rf GB_HASH_CFG 0 5) && decide (d.rf GB_HASH_CFG 0 5 ≤ 20) &&
      decide (d.rf GB_HASH_CFG 5 3 ≤ 4)) 10 [GB_HASH_CFG] ++
    c.reg (bitOf nbr 13 && (List.range 13).all (fun n => bitOf nbr n == bitOf nbr (26 - n))) 10 [GB_NBR_MASK] ++
    c.reg (rising (fill.map (fun a => d.rf a 0 23)) && fill.all (fun a => decide (d.rf a 0 23 ≤ c.handles))) 10
      (GB_HASH_CFG :: fill)

/-- Cell memory and the tables: R109, R110, R112, R249, R254. -/
def Chk.fieldsCells (c : Chk) : List Viol :=
  let d := c.d
  let t := d.rf CM_PRIOR_CFG 0 6
  let w := d.rf CM_PRIOR_SIZE 0 13
  let h := d.rf CM_PRIOR_SIZE 16 13
  c.reg (decide (1 ≤ d.rf CM_CFG 0 16) && decide (1 ≤ d.rf CM_CFG 16 10) && decide (d.rf CM_CFG 16 10 ≤ 512)) 10 [CM_CFG] ++
    c.reg (decide (1 ≤ w) && decide (w ≤ 4096) && decide (1 ≤ h) && decide (h ≤ 4096)) 10 [CM_PRIOR_SIZE] ++
    c.reg (d.tEn t && decide (d.tSize t = 32) && decide (w * h ≤ d.tRows t)) 10
      [CM_PRIOR_CFG, CM_PRIOR_SIZE, ET_TABLE_CFG t] ++
    c.reg (decide (2 ≤ d.rf ET_CFG 0 8) && decide (2 ≤ d.rf ET_CFG 8 8)) 10 [ET_CFG]

/-- The rings and credits of the cores and the commons: R168, R173, R182. -/
def Chk.fieldsRings (c : Chk) : List Viol :=
  let d := c.d
  (List.range 32).flatMap (fun k =>
      (c.rings k).flatMap (fun r =>
        let q := d.ringDesc k r
        c.reg (decide (16 ≤ q.size) && decide (q.size ≤ 16384) && decide (q.slots ≤ 4096) &&
          decide (q.base + q.size * q.slots ≤ planeSize q.word) && decide (q.tagBase + q.slots ≤ 8192) &&
          (c.rings k).all (fun j => decide (j = r) || !(meets q.tagBase q.slots (d.ringDesc k j).tagBase
            (d.ringDesc k j).slots))) 10 [TP_CORE_RING_BASE k r, TP_CORE_RING_SIZE k r, TP_CORE_RING_TAG k r]) ++
      (List.range 16).flatMap (fun e =>
        c.reg (decide (d.rf (WP_CORE_CREDIT_BASE k e) 0 17 ≤ d.rf (WP_CORE_CREDIT_LIMIT k e) 0 17) &&
          decide (d.rf (WP_CORE_CREDIT_GRANT k e) 0 6 ≤ 32)) 10
          [WP_CORE_CREDIT_BASE k e, WP_CORE_CREDIT_LIMIT k e, WP_CORE_CREDIT_GRANT k e])) ++
    (List.range 16).flatMap (fun e =>
      c.reg (decide (d.rf (WP_CMN_CREDIT_BASE e) 0 21 ≤ d.rf (WP_CMN_CREDIT_LIMIT e) 0 21) &&
        decide (d.rf (WP_CMN_CREDIT_LIMIT e) 0 21 ≤ 1835007) && decide (d.rf (WP_CMN_CREDIT_GRANT e) 0 7 ≤ 64)) 10
        [WP_CMN_CREDIT_BASE e, WP_CMN_CREDIT_LIMIT e, WP_CMN_CREDIT_GRANT e])

/-- A kernel entry as one number (R190). -/
def Chk.kernel (c : Chk) (k : Nat) : Nat :=
  ((List.range 4).map (fun w => (c.d.rd (AG_KERNEL_MASK k w)).toNat * 2 ^ (32 * w))).sum

/-- The address generators and the crews: R188, R190, R207, R209, R222, R234, R352. -/
def Chk.fieldsCrews (c : Chk) : List Viol :=
  let d := c.d
  let used (k : Nat) : Bool :=
    (List.range 4).any (fun w => c.named.any (fun p => p.1 == AG_KERNEL_MASK k w)) ||
      (List.range d.levels).any (fun i => decide (d.rf (AG_LVL_KERNEL i) 0 4 = k))
  (List.range d.levels).flatMap (fun i =>
      c.reg (decide (1 ≤ d.rf (AG_LVL_CAP i) 0 21) && decide (d.rf (AG_LVL_CAP i) 0 21 ≤ 1048576)) 10 [AG_LVL_CAP i]) ++
    c.reg (decide (d.levels = 0) || decide (d.rf AG_WSET_SIZE 0 20 ≠ 0)) 10 [AG_LVL_CFG, AG_WSET_SIZE] ++
    (List.range 16).flatMap (fun k =>
      c.reg (!(used k) || (bitOf (c.kernel k) 62 && decide (c.kernel k < 2 ^ 125))) 10
        ((List.range 4).map (AG_KERNEL_MASK k))) ++
    c.reg (decide (1 ≤ d.rf AG_BEV_CFG 0 9) && decide (d.rf AG_BEV_CFG 0 9 ≤ 311)) 10 [AG_BEV_CFG] ++
    c.reg (decide (1 ≤ d.rf CS_BAL_CFG 0 8) && decide (1 ≤ d.rf CS_BAL_CFG 8 4) && decide (d.rf CS_BAL_CFG 8 4 ≤ 8)) 10
      [CS_BAL_CFG] ++
    c.reg (decide (d.lg.mode ≠ 3)) 10 [CS_REC_CTRL] ++
    (List.range 32).flatMap (fun k =>
      let (a, n) := c.journal k
      c.reg (decide (n ≤ 80 * 1024) && decide (a + n ≤ 0x200000) &&
        (decide (n = 0) || (List.range (segOf true (a + n - 1) + 1 - segOf true a)).all (fun i =>
          !(bitOf (d.rd (CS_CORE_JRNL_SEG k)).toNat (8 + segOf true a + i))))) 10
        [CS_CORE_JRNL_BASE k, CS_CORE_JRNL_SIZE k, CS_CORE_JRNL_SEG k])

/-- Time, Regatta, the store's timing and the power manager: R370, R380, R389, R391, R392, R394, R432, R470. -/
def Chk.fieldsRest (c : Chk) : List Viol :=
  let d := c.d
  let n := d.rl.countM1 + 1
  let ptp := (List.range 16).map TB_MAC_PTP
  let slaves := (ptp.filter (fun a => decide (d.rf a 0 2 = 1))).length
  let dirs := (List.range n).flatMap (fun k => [RL_SHARD_DIR_X k, RL_SHARD_DIR_Y k])
  let x (k : Nat) := sext 32 (d.rd (RL_SHARD_DIR_X k)).toNat
  let y (k : Nat) := sext 32 (d.rd (RL_SHARD_DIR_Y k)).toNat
  let own := (d.rdLive RL_TILE_OWN).toNat
  c.reg (decide (d.rf TB_CFG 2 2 ≠ 3) && decide (d.rf TB_CFG 4 2 ≠ 3)) 10 [TB_CFG] ++
    c.reg (ptp.all (fun a => decide (d.rf a 0 2 ≠ 3)) && decide (slaves ≤ 1)) 10 ptp ++
    (List.range 24).flatMap (fun i =>
      let m := d.rf (TB_TRIG_CFG i) 0 3
      let w := d.rf (TB_TRIG_WIDTH i) 0 24
      c.reg (decide (m < 5) && (decide (m ≠ 2 ∧ m ≠ 3) || decide (d.rd (TB_TRIG_PERIOD i) ≠ 0))) 10
        [TB_TRIG_CFG i, TB_TRIG_PERIOD i] ++
      c.reg (widthOk w || (decide (m = 0) && decide (w = 0))) 10 [TB_TRIG_CFG i, TB_TRIG_WIDTH i]) ++
    c.reg (decide (d.rl.chip = 0) || (decide (d.rf TB_CFG 0 1 = 1) && decide (slaves = 0))) 10 (TB_CFG :: ptp) ++
    c.reg (decide (n = 1) || decide (2 ≤ d.rf RL_CFG 4 4)) 10 [RL_CFG] ++
    c.reg ((List.range 4).all (fun q => decide (bits own (2 * q) 2 < n))) 10 [RL_TILE_OWN] ++
    c.reg (if n = 1 then true
      else if n = 2 then decide (x 1 = - x 0) && decide (y 1 = - y 0)
      else (List.range n).all (fun k =>
        decide (x k * y ((k + 1) % n) - y k * x ((k + 1) % n) > 0))) 10 dirs ++
    c.reg (decide (3 ≤ d.rf XS_TIMING 0 4) && decide (1 ≤ d.rf XS_TIMING 4 2) && decide (100 ≤ d.rf XS_TIMING 6 10) &&
      decide (d.rf XS_TIMING 6 10 ≤ 800)) 10 [XS_TIMING] ++
    c.reg (decide (800 ≤ d.rf PM_THERM_CFG 1 11) && decide (d.rf PM_THERM_CFG 1 11 ≤ 1000) &&
      decide (8 ≤ d.rf PM_THERM_CFG 12 6) && decide (1000 ≤ d.rf PM_THERM_CFG 18 11) &&
      decide (d.rf PM_THERM_CFG 18 11 ≤ 1080)) 10 [PM_THERM_CFG]

/-! ### Salts, bindings, calibration (reasons 0x0B and 0x0C) -/

/-- Reason 0x0B (R72, R269). -/
def Chk.salts (c : Chk) : List Viol :=
  (c.typed 3).flatMap (fun s =>
    let b := c.bytes s
    viol (decide (s.len = 16) && decide (leAt b 0 8 < 2 ^ 63) && decide (leAt b 8 8 < 2 ^ 63) &&
      decide (leAt b 0 8 ≠ leAt b 8 8)) 0x0B s.idx)

/-- Whether two bindings match a common packet (R42, R43). -/
def bindClash (a b : List Byte) : Bool :=
  let w (x : List Byte) := leAt x 0 4
  let same (lo len : Nat) := decide (bits (w a) lo len = bits (w b) lo len)
  same 1 1 && same 2 4 && same 8 8 &&
    (if bitOf (w a) 1 then same 6 2 && same 19 3
     else !(bitOf (w a) 18 && bitOf (w b) 18) || decide ((a.drop 4).take 8 = (b.drop 4).take 8))

/-- Entry n of a BINDINGS section. -/
def bindEntry (bs : List Byte) (n : Nat) : List Byte := (bs.drop (32 * n)).take 32

/-- Whether the entries of a BINDINGS section keep R42, R43, R45, R50, R59, R65 and R270. -/
def bindingsOk (bs : List Byte) : Bool :=
  let es := (List.range 48).map (bindEntry bs)
  let on := es.filter (fun e => bitOf (leAt e 0 4) 0)
  let port (e : List Byte) := bits (leAt e 0 4) 1 5
  let words (e : List Byte) := cfgOf (bits (leAt e 0 4) 16 2) (leAt e 12 4) (leAt e 16 4) (leAt e 20 4) {}
  let vol (e : List Byte) := (words e).secLen * (words e).elems * (words e).rets
  decide (bs.length = 1536) &&
    es.all (fun e => decide (leAt e 24 8 = 0) && decide (leAt e 0 4 < 2 ^ 22) && decide (leAt e 8 4 < 2 ^ 16) &&
      decide (bits (leAt e 16 4) 18 6 = 0) && (bitOf (leAt e 0 4) 0 || decide (leNat e = 0))) &&
    on.all (fun e =>
      (!(bitOf (leAt e 0 4) 1) || decide (bits (leAt e 0 4) 2 4 < 8)) && decide (1 ≤ (words e).indices) &&
        decide (1 ≤ (words e).elems) && decide ((words e).elems ≤ 2048) &&
        (decide ((words e).cls ≠ 3) || decide ((words e).rets = 1)) && decide (vol e ≤ 16384) &&
        decide ((on.filter (fun f => decide (port f = port e))).length ≤ (if bitOf (leAt e 0 4) 1 then 4 else 3))) &&
    (List.range 48).all (fun i => (List.range i).all (fun j =>
      !(bitOf (leAt (bindEntry bs i) 0 4) 0) || !(bitOf (leAt (bindEntry bs j) 0 4) 0) ||
        !(bindClash (bindEntry bs i) (bindEntry bs j)))) &&
    decide ((on.map (fun e => 48 * vol e)).sum ≤ 0x800000)

/-- The streams that a BINDINGS section enables, once for each chip that loads it. -/
def Chk.boundOn (c : Chk) (s : Sect) : List Nat :=
  let bs := c.bytes s
  let l := (List.range 48).filter (fun n => bitOf (leAt (bindEntry bs n) 0 4) 0)
  (List.range 4).flatMap (fun k => if s.on k then l else [])

/-- An FP32 code that is finite. -/
def finite32 (x : Nat) : Bool := decide (bits x 23 8 ≠ 255)

/-- Whether the tables of a CALIBRATION section keep R271 for a geometry. -/
def calOk (bs : List Byte) (cls indices elems : Nat) : Bool :=
  let na := leAt bs 2 2
  let nb := leAt bs 4 2
  let k := calOf bs
  decide (leAt bs 1 1 = cls) && decide (bs.length = calLen bs) && decide (leAt bs 6 10 = 0) &&
    (match cls with
     | 1 => decide (na = elems) && decide (nb = 0) && (fieldsAt bs 74 12 2 na).all (fun x => decide (x = 0))
     | 2 => decide (na = indices) && decide (nb = elems)
     | _ => decide (cls = 3) && decide (na = 0) && decide (nb = 0)) &&
    (k.ext ++ k.ce ++ k.se ++ [k.rfx, k.rfy, k.cx, k.cy]).all finite32

/-- Reason 0x0C. -/
def Chk.bindings (c : Chk) : List Viol :=
  let all4 := c.dir.filter (fun s => s.type == 4)
  let l := all4.flatMap c.boundOn
  (c.typed 4).flatMap (fun s => viol (bindingsOk (c.bytes s)) 0x0C s.idx) ++
    viol (distinct l) 0x0C (lowest (all4.map (fun s => s.idx))) ++
    (c.typed 5).flatMap (fun s =>
      let b := c.bytes s
      let g := c.d.streamCfg (leAt b 0 1)
      viol (c.bound.contains (leAt b 0 1) && calOk b g.cls g.indices g.elems) 0x0C s.idx)

/-! ### Staging, levels, schedules (reasons 0x0D and 0x0E) -/

/-- Reason 0x0D (R177, R188). -/
def Chk.layout (c : Chk) : List Viol :=
  let st := c.stagingRegions
  let pairs := (List.range st.length).flatMap (fun j => (List.range j).map (fun i => (st.getD i (0, 0, []), st.getD j (0, 0, []))))
  c.tileRegions.flatMap (fun r => c.reg (decide (r.1 + r.2.1 ≤ 0x800000)) 0x0D r.2.2) ++
    st.flatMap (fun r => c.reg (decide (r.1 + r.2.1 ≤ 0x1000000)) 0x0D r.2.2) ++
    pairs.flatMap (fun p => c.reg (!(meets p.1.1 p.1.2.1 p.2.1 p.2.2.1)) 0x0D (p.1.2.2 ++ p.2.2.2))

/-- Reason 0x0E (R273, R274, R307). -/
def Chk.schedules (c : Chk) : List Viol :=
  (c.typed 0x20).flatMap (fun s =>
      let b := c.bytes s
      let crew := leAt b 0 1 % 4
      viol (programOk c.d.levels b &&
        (bundlesOf b).all (fun x => match bunRing x with
          | none => true
          | some k => (List.range 8).all (fun i => decide ((c.d.ringDesc (8 * crew + i) k).slots ≠ 0))) &&
        (c.typed 0x20).all (fun t => decide (t.idx = s.idx) || decide (c.schedSlot t ≠ c.schedSlot s))) 0x0E s.idx) ++
    (c.typed 0x21).flatMap (fun s =>
      viol (decide (s.len = 4096) && (c.bytes s).all (fun x => decide (x.toNat < 16))) 0x0E s.idx)

/-! ### Tables (reason 0x0F) -/

/-- The merge area (R254): base and bytes. -/
def Chk.merge (c : Chk) : Nat × Nat := (65536 * c.d.rf ET_MERGE_BASE 0 16, 65536 * c.d.rf ET_MERGE_SIZE 0 16)

/-- Reason 0x0F (R237, R238, R240, R275, R359). -/
def Chk.tables (c : Chk) : List Viol :=
  let d := c.d
  let top := d.xs.logBase
  let (ma, mn) := c.merge
  let (ra, rn) := d.logRing
  c.copies.flatMap (fun r => c.reg (!(meets r.2.1 (r.2.2.1 - r.2.1) ra rn)) 0x0F
      (r.2.2.2 ++ [CS_REC_BASE, CS_REC_SIZE])) ++
    c.reg (decide (ma + mn ≤ top)) 0x0F [ET_MERGE_BASE, ET_MERGE_SIZE] ++
    c.copies.flatMap (fun r => c.reg (decide (r.2.2.1 ≤ top) && !(meets r.2.1 (r.2.2.1 - r.2.1) ma mn)) 0x0F
      (r.2.2.2 ++ [ET_MERGE_BASE, ET_MERGE_SIZE])) ++
    (List.range c.copies.length).flatMap (fun i => (List.range i).flatMap (fun j =>
      match c.copies[i]?, c.copies[j]? with
      | some a, some b => c.reg (!(meets a.2.1 (a.2.2.1 - a.2.1) b.2.1 (b.2.2.1 - b.2.1))) 0x0F (a.2.2.2 ++ b.2.2.2)
      | _, _ => [])) ++
    (List.range 64).flatMap (fun t =>
      let f := d.rf (ET_TABLE_FMT t) 0 4
      c.reg (!(d.tEn t) || (decide (f < 10) && (!(d.tAdapt t) || (d.tByRow t && decide (8 ≤ f))))) 0x0F
        [ET_TABLE_CFG t, ET_TABLE_FMT t]) ++
    (c.typed 0x30).flatMap (fun s =>
      let b := d.bt.flashRead s.off 16
      let t := leAt b 0 1
      viol (decide (t < 64) && d.tEn t && decide (leAt b 1 1 ≤ (if d.tByRow t then 0 else 1)) && decide (leAt b 2 2 = 0) &&
        decide (leAt b 12 4 = 0) && decide (1 ≤ leAt b 8 4) && decide (leAt b 4 4 + leAt b 8 4 ≤ d.tRows t) &&
        decide (s.len = 16 + leAt b 8 4 * d.tSize t)) 0x0F s.idx)

/-! ### Safety sections (reason 0x10) -/

/-- The bits of THRESHOLDS words 0 to 14 that R342 names. -/
def thrMasks : List Nat :=
  [0xFFFFFFFF, 1, 0xFFFFFF, 0xFFFF000F, 0xFF, 0xFFFF, 0x7FF, 0xFFFFFFFF, 0x7FF, 0xFFFFFF, 0xFFFFFFFF, 0xFFFF, 0xFFFFFFFF,
    0x87FF07FF, 0x1FF]

/-- The range of CLOSE of each watchdog (R326). -/
def closeRange : List (Nat × Nat) :=
  [(600, 630), (0, 8), (1, 56), (2, 264), (0xFFFF, 0xFFFF), (0xFFFF, 0xFFFF), (0xFFFF, 0xFFFF), (0xFFFF, 0xFFFF), (0, 0xFFFF),
    (1, 300), (1, 599), (1, 120)]

/-- The smallest REAL of a crew's programs that the stroke table names (R326). -/
def Chk.realMin (c : Chk) (crew : Nat) : Nat :=
  (c.slotsInUse.filter (fun k => decide (k / 16 = crew))).foldl (fun m k =>
    min m (leAt (smGet (fun _ => []) c.d.cw.progs k) 4 2)) 1128

/-- Whether the THRESHOLDS words keep their ranges (R327, R341, R342). -/
def Chk.thrOk (c : Chk) : Bool :=
  let s := c.d.si
  let r (n lo len a b : Nat) := decide (a ≤ s.par n lo len) && decide (s.par n lo len ≤ b)
  decide (s.word 0 = 0x5448534C) &&
    (List.range 15).all (fun n => decide ((s.word n).toNat &&& thrMasks.getD n 0 = (s.word n).toNat)) &&
    (List.range 1024).all (fun n => decide (n < 15 ∨ (16 ≤ n ∧ n ≤ 27)) || decide (s.word n = 0)) &&
    decide (s.par 1 0 1 = c.d.rf CM_CFG 26 1) && r 2 0 8 1 255 && r 2 16 8 1 32 && r 2 8 8 1 (s.par 2 16 8) &&
    r 3 0 4 1 15 && r 3 16 16 1 65535 && r 6 0 11 0 1024 && r 10 16 16 1 32767 && r 11 0 16 1 1000 && r 12 0 8 1 255 &&
    r 12 8 24 1024 16777215 && r 13 0 11 0 1024 && r 13 16 11 0 1024 && r 14 0 9 1 311 &&
    decide (s.par 14 0 9 = c.d.rf AG_BEV_CFG 0 9) &&
    (List.range 12).all (fun n =>
      let lim := closeRange.getD n (0, 0)
      decide (s.winOpen n ≤ s.winClose n) && decide (lim.1 ≤ s.winClose n) && decide (s.winClose n ≤ lim.2) &&
        (decide (n ≠ 8) || decide (s.winOpen n = s.winClose n)) &&
        (decide (n < 4 ∨ 7 < n) || decide (s.winOpen n + 2 ≤ (c.realMin (n - 4) + 36) / 2)))

/-- The packets of GOLDEN_INPUT (R329): each behind its 4-byte length, with it padded to 16 bytes.
(DEDUCED, log entry 57.) -/
def goldPackets : Nat → List Byte → List (List Byte)
  | 0, _ => []
  | n + 1, bs =>
    let k := leAt bs 0 4
    (bs.drop 4).take k :: goldPackets n (bs.drop ((k + 19) / 16 * 16))

/-- Where the packets of GOLDEN_INPUT begin (R329). -/
def goldStart (bs : List Byte) : Nat := 64 + (leAt bs 16 4 + 15) / 16 * 16

/-- The golden sector's configuration (R329, R271). -/
def goldCfgOf (bs : List Byte) : StreamCfg :=
  let cal := (bs.drop 64).take (leAt bs 16 4)
  cfgOf (leAt cal 1 1) (leAt bs 4 4) (leAt bs 8 4) (leAt bs 12 4) (calOf cal)

/-- Whether packets follow one another from an index to the end of the sweep. -/
def fills (indices : Nat) : Nat → List Pkt → Bool
  | i, [] => decide (i = indices)
  | i, p :: r => decide (p.first = i) && decide (p.count ≠ 0) && fills indices (i + p.count) r

/-- Whether GOLDEN_INPUT keeps R329. -/
def goldOk (bs : List Byte) : Bool :=
  let c := goldCfgOf bs
  let cal := (bs.drop 64).take (leAt bs 16 4)
  let n := leAt bs 20 4
  let ps := goldPackets (min n 16384) (bs.drop (goldStart bs))
  decide (leAt bs 0 4 = 0x4447534C) && decide (leAt bs 24 40 = 0) && c.fromArrival && decide (1 ≤ n) && decide (n ≤ 16383) &&
    decide (1 ≤ c.indices) && decide (1 ≤ c.elems) && decide (c.elems ≤ 2048) && (decide (c.cls ≠ 3) || decide (c.rets = 1)) &&
    calOk cal c.cls c.indices c.elems && decide (c.secLen = c.indices) &&
    decide (c.secLen * c.elems * c.rets ≤ 16384) && ps.all (fun p => decide (verifyPkt c p = none)) &&
    fills c.indices 0 (ps.map parsePkt)

/-- Whether GOLDEN_REF has the layout of R330. -/
def goldRefOk (bs : List Byte) : Bool :=
  decide (bs.length = 4096) && decide (leAt bs 0 4 = 0x4652534C) && decide (leAt bs 4 4 = 0) && decide (leAt bs 48 16 = 0) &&
    decide (leAt bs 3712 384 = 0)

/-- Reason 0x10 (R276, R327, R329, R330, R341). -/
def Chk.safety (c : Chk) : List Viol :=
  let (ma, mn) := c.merge
  (c.typed 0x40).flatMap (fun s =>
      let b := c.bytes s
      viol (decide (s.len = 8192) &&
        (List.range 1024).all (fun n => decide (leAt b (8 * n) 4 + leAt b (8 * n + 4) 4 = 0xFFFFFFFF)) && c.thrOk) 0x10 s.idx) ++
    (c.typed 0x41).flatMap (fun s =>
      viol (goldOk (c.bytes s) && decide (s.dest + s.len ≤ c.d.xs.logBase) && !(meets s.dest s.len ma mn)) 0x10 s.idx) ++
    (c.typed 0x42).flatMap (fun s => viol (goldRefOk (c.bytes s)) 0x10 s.idx)

/-! ### All checks -/

/-- Every violation of step 12. (DESIGN CHOICE, log entry 54.) -/
def Chk.all (c : Chk) : List Viol :=
  c.types ++ c.masks ++ c.power ++ c.overlaps ++ c.registers ++ c.fieldsGrid ++ c.fieldsCells ++ c.fieldsRings ++
    c.fieldsCrews ++ c.fieldsRest ++ c.salts ++ c.bindings ++ c.layout ++ c.schedules ++ c.tables ++ c.safety

/-- The violation that is reported (R279): the lowest code, and for it the lowest entry. -/
def worst (l : List Viol) : Option Viol :=
  l.foldl (fun acc v => match acc with
    | none => some v
    | some w => if v.1 < w.1 ∨ (v.1 = w.1 ∧ v.2 < w.2) then some v else some w) none

/-- Step 12 of R442. -/
def Dev.imageFault (d : Dev) : Option Viol :=
  let dir := d.bt.dir
  worst (Chk.all { d := d, dir := dir, named := namedRegs d.bt d.rl.chip dir })

end Sys2Proof.Machine
end

