-- ==== Sys2Proof/Machine/Regatta.lean ====
section
/-! DEFINITION. Regatta (15_regatta): links, their training and their flits (R382 to R388), common time and start (R389,
R390), what arrives from other chips (R392 to R397), and the loss of a chip (R398, R399). -/

namespace Sys2Proof.Machine

/-! ### Links (R386 to R388) -/

/-- The receive buffer of a virtual channel, in flits (R387). -/
def vcSize (vc : Nat) : Nat := if vc = 0 then 16 else if vc = 1 then 256 else 512

/-- The flits held for a virtual channel. -/
def LinkSt.buf (l : LinkSt) (vc : Nat) : List (List Byte) := if vc = 0 then l.buf0 else if vc = 1 then l.buf1 else l.buf2

/-- The flits held for a virtual channel replaced. -/
def LinkSt.setBuf (l : LinkSt) (vc : Nat) (b : List (List Byte)) : LinkSt :=
  if vc = 0 then { l with buf0 := b } else if vc = 1 then { l with buf1 := b } else { l with buf2 := b }

/-- RL_LINKk_STATUS (R400). -/
def LinkSt.status (l : LinkSt) : Nat :=
  l.state + 8 * l.peer + 32 * b2n l.reversed + 64 * (l.inverted % 256) + 2 ^ 14 * b2n l.error + 2 ^ 15 * l.cause

/-- A link's state replaced, with its status register. -/
def Dev.putLink (d : Dev) (k : Nat) (l : LinkSt) : Dev := (d.setLink k l).hwN (RL_LINK_STATUS k) l.status

/-- A link that retrains (R388). -/
def Dev.retrain (d : Dev) (k : Nat) : Dev :=
  if (d.link k).state ≠ 5 then d else (d.putLink k { d.link k with state := 6 }).bump (RL_RETRAIN k)

/-- RL_VIEW as it stands; a change signals vector 12 (R416). -/
def Dev.postView (d : Dev) : Dev :=
  let v := BitVec.ofNat 32 (d.rl.reach % 16 + 16 * (d.rl.group % 16) + 256 * b2n d.rl.majority + 512 * b2n d.rl.takeover)
  if d.rd RL_VIEW = v then d else (d.hw RL_VIEW v).irq 12

/-- The reachable set changes (R398); its first change starts the four strokes of its evaluation. (DEDUCED, log
entry 44.) -/
def Dev.setReach (d : Dev) (reach : Nat) : Dev :=
  ({ d with rl := { d.rl with reach := reach, changedAt := d.rl.changedAt.or (some d.tm.stroke) } } : Dev).postView

/-- A peer leaves the reachable set (R398). -/
def Dev.unreach (d : Dev) (chip : Nat) : Dev :=
  if bitOf d.rl.reach chip then d.setReach (d.rl.reach - 2 ^ chip) else d

/-- A NAK (R386): one flit that carries the last accepted SEQ. -/
def Dev.sendNak (d : Dev) (k : Nat) : Dev :=
  let l := d.link k
  if l.nakSent then d
  else (d.setLink k { l with nakSent := true }).flitPut k (flitBytes 4 0 0 (l.rxSeq + 4095) 0 0 [])

/-- Whether a flit of the replay buffer lies after an acknowledged SEQ. -/
def afterAck (ack seq : Nat) : Bool := decide (0 < (seq + 4096 - ack % 4096) % 4096) &&
  decide ((seq + 4096 - ack % 4096) % 4096 ≤ 2048)

/-- Kept flits resent in order (R386): each with the credits that it returned, counted in REPLAY and reported as source
0x07; the sixteenth resend of one retrains. -/
def Dev.resend (d : Dev) (k : Nat) : Dev :=
  let l := d.link k
  let d := l.replay.foldl (fun d f =>
    let d := (d.bump (RL_REPLAY k)).report { src := 0x07, unit := unitOf 4 0 }
    d.flitPut k (flitBytes f.type f.vc f.seq (l.rxSeq + 4095) f.cvc f.cr f.payload)) d
  let again := l.replay.map (fun (f : Kept) => { f with again := f.again + 1 })
  let d := d.setLink k { d.link k with replay := again }
  if again.any (fun f => decide (16 ≤ f.again)) then d.retrain k else d

/-- Flits that waited, sent in the order of their virtual channels while credits last (R387), copies of points after
forwarded parts (R393). -/
def Dev.drainQueue (d : Dev) (k : Nat) : Nat → Dev
  | 0 => d
  | n + 1 =>
    let l := d.link k
    let able (cls : Nat) (q : Nat × Nat × List Byte) : Bool := decide (q.2.1 = cls) && decide (0 < l.cred (cls % 4))
    let next := [0, 1, 2, copyClass].findSome? (fun cls => takeFirst (able cls) l.txq)
    match next with
    | some (q, rest) =>
      ((d.setLink k { l with txq := rest, waited := min 1 l.waited }).flitOut k q.1 q.2.1 q.2.2).drainQueue k n
    | none => d

/-- CREDIT_WAIT of a stroke that closes (R401): a flit that lacked a credit throughout it did so in 125 flit times of
8 ns; in how many of them one did that lacked it in a part of the stroke is a free value, from 1 to 125.
(DESIGN CHOICE, log entry 51.) -/
def Dev.creditWaits (d : Dev) (k : Nat) : Dev :=
  let l := d.link k
  let lacking := l.txq.any (fun q => decide (l.cred (q.2.1 % 4) = 0))
  if l.waited = 0 then d
  else
    let (n, d) := if l.waited = 2 ∧ lacking then (125, d) else (d.fresh.1.toNat % 125 + 1, d.fresh.2)
    (d.bump (RL_CREDIT_WAIT k) n).setLink k { l with waited := if lacking then 2 else 0 }

/-- The acknowledgement and the credits of a good flit (R386, R387). -/
def Dev.flitReturns (d : Dev) (k ack cvc cr : Nat) : Dev :=
  let l := d.link k
  let l := { l with replay := l.replay.filter (fun f => afterAck ack f.seq) }
  if cvc < 3 ∧ l.cred cvc + cr > vcSize cvc then (d.setLink k l).retrain k
  else
    let l := if cvc < 3 then l.setCred cvc (l.cred cvc + cr) else l
    if l.state = 5 then (d.setLink k l).drainQueue k l.txq.length else d.setLink k l

/-- A DATA or HEARTBEAT flit with a good CRC (R386, R387): accepted in SEQ order into its buffer, or discarded. -/
def Dev.flitData (d : Dev) (k vc seq : Nat) (payload : List Byte) : Dev :=
  let l := d.link k
  if seq = l.rxSeq then
    if vc > 2 ∨ (l.buf vc).length ≥ vcSize vc then d.retrain k
    else
      let l := l.setBuf vc (l.buf vc ++ [payload])
      (d.setLink k { l with rxSeq := (l.rxSeq + 1) % 4096, nakSent := false }).bump (RL_FLITS_RX k)
  else if (seq + 4096 - l.rxSeq) % 4096 < 2048 then d.sendNak k
  else d

/-- FLIT_RX (R385 to R387): a flit of 256 bytes received on link k; one of no valid TYPE is discarded.
(DEDUCED, log entry 41.) -/
def flitRx (k : Nat) (bytes : List Byte) (d : Dev) : Dev :=
  if (d.link k).state ≠ 5 ∨ bytes.length ≠ 256 then d
  else
    let type := leAt bytes 0 1
    if type = 3 then d
    else if crc64 (bytes.take 248) ≠ leAt bytes 248 8 then d.sendNak k
    else if type > 4 then d
    else if (type = 1 ∨ type = 2) ∧ leAt bytes 2 2 % 4096 ≠ (d.link k).rxSeq then
      d.flitData k (leAt bytes 1 1 % 4) (leAt bytes 2 2 % 4096) ((bytes.drop 8).take 240)
    else
      let d := d.flitReturns k (leAt bytes 4 2 % 4096) (leAt bytes 6 1 % 4) (leAt bytes 7 1)
      if type = 4 then d.resend k
      else if type = 0 then d
      else d.flitData k (leAt bytes 1 1 % 4) (leAt bytes 2 2 % 4096) ((bytes.drop 8).take 240)

/-- One flit of a sender's buffer read, its credit to be returned (R387). -/
def Dev.takeFlit (d : Dev) (chip vc : Nat) : Dev :=
  let k := linkOf d.rl.chip chip
  let l := d.link k
  match l.buf vc with
  | [] => d
  | _ :: r => d.setLink k ((l.setBuf vc r).setRet vc (l.ret vc + 1))

/-! ### Readiness and the common start (R388, R390) -/

/-- Every link that R382 gives this chip is ACTIVE. -/
def Dev.linksUp (d : Dev) : Bool :=
  ((List.range d.chips).filter (fun j => j != d.rl.chip)).all (fun j => decide ((d.link (linkOf d.rl.chip j)).state = 5))

/-- Whether this chip is ready (R390). -/
def Dev.isReady (d : Dev) : Bool := d.bt.placed && d.linksUp && (decide (d.rl.chip = 0) || d.tm.locked)

/-- S of R390: the first multiple of 1,000 that lies at least 2,000 µs after corrected time. -/
def Dev.startStroke (d : Dev) : Stroke :=
  let t := d.corrected d.tm.raw + 2000000 * 2 ^ 32
  BitVec.ofNat 48 (1000 * (-(fdiv (-t) (1000000 * 2 ^ 32))).toNat)

/-- Chip 0 with every chip ready sends START (R390). -/
def Dev.maybeStart (d : Dev) : Dev :=
  if d.rl.chip = 0 ∧ d.rl.startAt.isNone ∧ d.isReady ∧
      (List.range d.chips).all (fun j => decide (j = 0) || d.rl.ready.contains j) then
    let s := d.startStroke
    let d := { d with rl := { d.rl with startAt := some s } }
    ((List.range d.chips).filter (fun j => j != 0)).foldl (fun d j => d.linkSend j 0 (.rg j 2 [s.toNat])) d
  else d

/-- A chip that has become ready sends READY to chip 0 (R390). -/
def Dev.maybeReady (d : Dev) : Dev :=
  if d.rl.countM1 = 0 ∨ d.tm.op ∨ ¬ d.isReady then d
  else if d.rl.chip = 0 then d.maybeStart
  else if d.rl.readySent then d
  else ({ d with rl := { d.rl with readySent := true } } : Dev).linkSend 0 0 (.rg 0 1 [d.rl.chip])

/-- RG_READY (R390): chip 0 takes a chip's READY. -/
def rgReady (chip : Nat) (d : Dev) : Dev :=
  let d := d.takeFlit chip 0
  if d.rl.countM1 = 0 ∨ d.rl.chip ≠ 0 then d
  else ({ d with rl := { d.rl with ready := (d.rl.ready ++ [chip]).eraseDups } } : Dev).maybeStart

/-- RG_START (R390): the stroke at whose opening boundary the chip enters. -/
def rgStart (s : Stroke) (d : Dev) : Dev :=
  let d := d.takeFlit 0 0
  if d.rl.countM1 = 0 ∨ d.rl.chip = 0 ∨ d.tm.op then d else { d with rl := { d.rl with startAt := some s } }

/-! ### Training (R388) -/

/-- The first item of IDENTIFY that does not match (R388, R400): CAUSE; none where every item matches. -/
def Dev.identBad (d : Dev) (k : Nat) (i : Ident) : Option Nat :=
  if i.chip ≠ linkPeer d.rl.chip k then some 0
  else if i.count ≠ d.chips then some 1
  else if i.link ≠ 2 - k then some 2
  else if i.meas ≠ d.bt.meas.take 16 then some 3
  else none

/-- A link that becomes ACTIVE from IDENTIFY: sequence numbers from 0, a credit for every flit of the peer's buffers.
(DEDUCED, log entry 42.) -/
def LinkSt.fresh (l : LinkSt) : LinkSt :=
  { state := 5, peer := l.peer, reversed := l.reversed, inverted := l.inverted, cred0 := vcSize 0, cred1 := vcSize 1,
    cred2 := vcSize 2 }

/-- LINK_TRAIN_STATE (R388): the state of a link in training completes: `ok` that its action succeeded, what IDENTIFY
exchanged, the lane order and the polarities found. (DEDUCED, log entry 43.) -/
def linkTrain (k : Nat) (ok : Bool) (i : Ident) (reversed : Bool) (inverted : Nat) (d : Dev) : Dev :=
  let l := d.link k
  match l.state with
  | 1 => if ok then d.putLink k { l with state := 2 } else d
  | 2 => if ok then d.putLink k { l with state := 3, inverted := inverted } else d
  | 3 => if ok then d.putLink k { l with state := 4, reversed := reversed } else d
  | 4 =>
    if ok = false ∨ d.bt.meas = [] then d
    else
      let l := { l with peer := i.chip % 4 }
      match d.identBad k i with
      | some c => d.putLink k { l with error := true, cause := c }
      | none => (d.putLink k l.fresh).maybeReady
  | 6 =>
    if ok then
      let kept := l.replay.map (fun (f : Kept) => { f with again := 0 })
      ((d.putLink k { l with state := 5, replay := kept }).resend k).drainQueue k l.txq.length
    else
      let d := d.putLink k { state := 1 }
      let p := linkPeer d.rl.chip k
      let d := d.unreach p
      if p = 0 ∧ d.rf TB_CFG 0 1 = 1 ∧ ¬ d.tm.holdover then d.toHoldover else d
  | _ => d

/-! ### Common time (R389) -/

/-- The corrected time of chip 0 sent with a flit of VC 0, once per stroke. -/
def Dev.timeSend (d : Dev) : Dev :=
  if d.rl.countM1 = 0 ∨ d.rl.chip ≠ 0 then d
  else
    ((List.range d.chips).filter (fun j => j != 0)).foldl
      (fun d j => d.linkSend j 0 (.rg j 6 [wrapN 80 (d.now16 d.tm.raw)])) d

/-- RG_TIME_EXCHANGE (R389). At chips 1 to 3: t1 and t4 of chip 0, the arrival t2 and the echo's transmission t3 at this
chip, in units of 2^-16 ns: the flit that brought t1 is echoed with t2, and with the one that brings t4 the exchange forms
a measurement. At chip 0: an echo of a chip, whose arrival t4 is returned. (DESIGN CHOICE, log entry 160.) -/
def rgTime (chip : Nat) (t1 t2 t3 t4 : Int) (d : Dev) : Dev :=
  let d := d.takeFlit chip 0
  if d.rl.countM1 = 0 then d
  else if d.rl.chip = 0 then d.linkSend chip 0 (.rg chip 7 [wrapN 80 t4])
  else if chip ≠ 0 then d
  else
    let d := (d.linkSend 0 0 (.rg 0 8 [wrapN 80 t2])).takeFlit chip 0
    let ds := (fdiv (t4 - t1 - (t3 - t2)) 2 :: d.rl.delays).take 8
    let d := { d with rl := { d.rl with delays := ds } }
    match meanOf ds with
    | some p => d.measure d.tm.raw (t2 - t1 - p)
    | none => d

/-- The 1 µs tick of raw time before the operational state (R366, R389, R390): chip 0 sends its time, and a chip whose
servo has come to LOCKED may be ready. -/
def rawTickReady (d : Dev) : Dev :=
  if d.tm.op then d
  else (rawTick ((List.range 3).foldl (fun d k => d.creditWaits k) d).timeSend).maybeReady

/-! ### What other chips send (R392 to R397) -/

/-- FWD_DELAY (R392). -/
def Dev.fwdDelay (d : Dev) : Nat := d.rf RL_CFG 4 4

/-- A part noted when its first point or its verdict arrives (R401). (DEDUCED, log entry 46.) -/
def Dev.notePart (d : Dev) (id : SecId) : Dev :=
  if d.rl.parts.any (fun p => decide (p.id = id)) then d
  else ({ d with rl := { d.rl with parts := d.rl.parts ++ [{ id := id }] } } : Dev).bump RL_FWD_PARTS

/-- A part that has become late (R392): it holds nothing further. -/
def Dev.partLate (d : Dev) (id : SecId) : Dev :=
  let d := d.setGsec { d.gsec id with late := true }
  { d with rl := { d.rl with parts := d.rl.parts.map (fun (p : FwdPart) => if p.id = id then { p with late := true } else p) } }

/-- RG_FWD_POINT (R392): a point received at its home chip in stroke r counts here in stroke r + FWD_DELAY. -/
def rgFwdPoint (chip : Nat) (r : Stroke) (pt : Point) (d : Dev) : Dev :=
  let d := d.takeFlit chip 2
  if d.rl.countM1 = 0 ∨ ¬ d.tm.op then d
  else
    let id : SecId := ⟨pt.stream, BitVec.ofNat 16 pt.sweep, pt.sector⟩
    let d := d.notePart id
    let at_ := sAdd r d.fwdDelay
    if sLe at_ d.tm.stroke then d.partLate id else d.queuePoint { r := at_, pt := pt }

/-- RG_FWD_VERDICT (R392): a verdict reached at the home chip in stroke v counts here in stroke v + FWD_DELAY; one that
comes after that stroke has begun makes the part late, and it is rolled back at once. -/
def rgFwdVerdict (chip : Nat) (g : GVerd) (d : Dev) : Dev :=
  let d := d.takeFlit chip 2
  if d.rl.countM1 = 0 ∨ ¬ d.tm.op then d
  else
    let d := d.notePart g.id
    let at_ := sAdd g.v d.fwdDelay
    if sLe at_ d.tm.stroke then
      (d.partLate g.id).applyForward { g with v := d.tm.stroke, what := 0 }
    else { d with rl := { d.rl with verds := d.rl.verds ++ [{ g with v := at_ }] } }

/-- RG_TAP_COPY (R393): a point for the raw point tap of this chip's island. -/
def rgTapCopy (chip : Nat) (r : Stroke) (x y z : Int) (d : Dev) : Dev :=
  let d := d.takeFlit chip 2
  if d.rl.countM1 = 0 ∨ ¬ d.tm.op then d
  else
    let d := d.bump RL_TAP_COPIES
    { d with si := { d.si with tap := d.si.tap ++ [(r, x, y, z)] } }

/-- RG_REMOTE_ADD (R395), the header of a part: its count of adds; one that comes after its commit stroke has ended is
discarded. -/
def rgAddHeader (chip : Nat) (e : AddExp) (d : Dev) : Dev :=
  let d := d.takeFlit chip 1
  if d.rl.countM1 = 0 ∨ ¬ d.accel then d
  else if sOlder e.at_ d.tm.stroke then d
  else { d with cm := { d.cm with exps := d.cm.exps ++ [{ e with from_ := chip }] } }

/-- RG_REMOTE_ADD (R395, R401), an add for a tile that this chip owns; one that comes after its commit stroke has ended is
discarded (R207). -/
def rgRemoteAdd (chip : Nat) (a : CellAdd) (d : Dev) : Dev :=
  let d := d.takeFlit chip 1
  if d.rl.countM1 = 0 ∨ ¬ d.accel then d
  else
    let d := d.bump RL_REMOTE_ADDS
    if sOlder a.at_ d.tm.stroke then d.bump AG_BEV_LATE
    else { d with cm := { d.cm with adds := d.cm.adds ++ [{ a with from_ := chip }] } }

/-- RG_PARTIAL_SUM (R255). -/
def rgPartialSum (chip kind t i : Nat) (vals : List Nat) (d : Dev) : Dev :=
  let d := d.takeFlit chip 1
  if d.rl.countM1 = 0 ∨ ¬ d.accel then d else partialSum chip kind t i vals d

/-- RG_RESTART (R397): every chip enters the Stop phase at the named boundary; each counts the restart (R334).
Of two boundaries named the earlier holds, so that all stop at one. (DEDUCED, log entry 156.) -/
def rgRestart (chip : Nat) (at_ : Stroke) (d : Dev) : Dev :=
  let d := d.takeFlit chip 0
  if d.rl.countM1 = 0 ∨ ¬ d.live then d
  else
    let (d, go) := d.requestRestart
    let first := match d.flt.phase, d.flt.restartAt with
      | .requested, some t => if sLe t at_ then t else at_
      | _, _ => at_
    if go ∧ (d.flt.phase = .idle ∨ d.flt.phase = .requested) then
      { d with flt := { d.flt with phase := .requested, restartAt := some first } }
    else d

/-- RG_RESUME (R397): chip 0 learns that a chip has completed Re-seat; the others take the frame boundary that chip 0
names. -/
def rgResume (chip : Nat) (at_ : Stroke) (d : Dev) : Dev :=
  let d := d.takeFlit chip 0
  if d.rl.countM1 = 0 ∨ ¬ d.flt.restarting then d
  else if d.rl.chip = 0 then
    ({ d with rl := { d.rl with reseated := (chip :: d.rl.reseated).eraseDups } } : Dev).nameResume
  else { d with flt := { d.flt with resumeAt := some at_ } }

/-! ### Losing a chip (R398, R399) -/

/-- RG_HEARTBEAT (R398): a peer's heartbeat: its reachable set. A chip that has left never rejoins. -/
def rgHeartbeat (chip reach : Nat) (d : Dev) : Dev :=
  let d := d.takeFlit chip 0
  if d.rl.countM1 = 0 ∨ chip ≥ d.chips ∨ chip = d.rl.chip then d
  else
    let silent := smSet (fun _ => 0) d.rl.silent chip 0
    let views := smSet (fun _ => 0) d.rl.views chip (reach % 16)
    let d := { d with rl := { d.rl with views := views, silent := silent } }
    if bitOf d.rl.lost chip ∨ bitOf d.rl.reach chip ∨ (d.link (linkOf d.rl.chip chip)).state ≠ 5 then d
    else d.setReach (d.rl.reach + 2 ^ chip)

/-- PEER_LOSS (R398): a peer from which eight consecutive strokes have brought no heartbeat leaves the reachable set. -/
def peerLoss (chip : Nat) (d : Dev) : Dev :=
  if d.rl.countM1 = 0 ∨ ¬ d.tm.op then d
  else if 8 ≤ smGet (fun _ => 0) d.rl.silent chip then d.unreach chip
  else d

/-- What a heartbeat says of the chip's state (R398): 0 working, 1 in a restart, 2 device-fatal. -/
def Dev.beatState (d : Dev) : Nat := if d.flt.fatal then 2 else b2n d.flt.restarting

/-- What the links do in every stroke: a heartbeat to every ACTIVE one, a stroke more of silence from each peer (R398), the
waits of the stroke before (R401). -/
def Dev.heartbeats (d : Dev) : Dev :=
  if d.rl.countM1 = 0 then d
  else
    let js := (List.range d.chips).filter (fun j => j != d.rl.chip)
    let silent := js.foldl (fun m j => smSet (fun _ => 0) m j (smGet (fun _ => 0) m j + 1)) d.rl.silent
    let d := { d with rl := { d.rl with silent := silent } }
    let d := (List.range 3).foldl (fun d k => d.creditWaits k) d
    let body := numBytes [d.tm.stroke.toNat, d.beatState, d.rl.reach]
    js.foldl (fun d j =>
      let k := linkOf d.rl.chip j
      if (d.link k).state = 5 then
        (d.emit (.rg j 0 [d.tm.stroke.toNat, d.beatState, d.rl.reach])).flitSend k 2 0 body
      else d) d

/-- What a chip's latest heartbeat shows as reachable; this chip's own set. -/
def Dev.viewOf (d : Dev) (j : Nat) : Nat := if j = d.rl.chip then d.rl.reach else smGet (fun _ => 0) d.rl.views j

/-- Chips of a set. -/
def membersOf (m : Nat) : List Nat := (List.range 4).filter (fun j => bitOf m j)

/-- Whether a set of chips contains this one and every member shows every other member as reachable (R398). -/
def Dev.mutual (d : Dev) (m : Nat) : Bool :=
  bitOf m d.rl.chip && (membersOf m).all (fun i => (membersOf m).all (fun j => decide (i = j) || bitOf (d.viewOf i) j))

/-- The group (R398): the largest such set; of several, the lowest as a mask (DESIGN CHOICE, log entry 45). -/
def Dev.groupOf (d : Dev) : Nat :=
  (List.range (2 ^ d.chips)).foldl (fun best m =>
    if d.mutual m ∧ (best = 0 ∨ (membersOf best).length < (membersOf m).length) then m else best) 0

/-- GROUP_EVALUATE (R398, R399): four strokes after the first change of the reachable set the chip evaluates its group
and reacts. -/
def groupEvaluate (d : Dev) : Dev :=
  match d.rl.changedAt with
  | none => d
  | some s =>
    if ¬ d.live ∨ sDiff d.tm.stroke s < 4 then d
    else
      let g := d.groupOf
      let n := d.chips
      let gone := (2 ^ n - 1) - g
      let maj := decide (n < 2 * (membersOf g).length)
      let lead := decide ((membersOf g).head? = some d.rl.chip)
      let new := decide ((membersOf gone).any (fun j => !bitOf d.rl.lost j))
      let rl := { d.rl with changedAt := none, group := g, majority := maj, lost := d.rl.lost ||| gone,
                            takeover := decide (3 ≤ n) && maj && lead && decide (gone ≠ 0) }
      let d := ({ d with rl := rl } : Dev).postView
      if new = false then d
      else if n = 2 ∨ maj then d.report { src := 0x26, unit := unitOf 4 0, detail := gone }
      else d.report { src := 0x34, unit := unitOf 4 0, detail := gone }

end Sys2Proof.Machine
end

