-- ==== Sys2Proof/Machine/Sign.lean ====
section
/-! DEFINITION. The signature algorithms that 00_scope R16 names: Ed25519 (RFC 8032), of the image (10_program_image R263)
and of the device identity (18_boot_security R441, R448), and ML-DSA-65 (FIPS 204) with the SHAKE functions (FIPS 202) on
which it rests. Their arithmetic is those standards'. (PRESUMED, log entry 96.) -/

namespace Sys2Proof.Machine

/-! ### Ed25519 (RFC 8032 section 5.1) -/

/-- The field's prime. -/
def edP : Nat := 2 ^ 255 - 19

/-- The order of the base point. -/
def edL : Nat := 2 ^ 252 + 27742317777372353535851937790883648493

/-- A power modulo the prime; the exponent has at most n bits. -/
def edPow : Nat → Nat → Nat → Nat
  | 0, _, _ => 1
  | n + 1, b, e =>
    let h := edPow n (b * b % edP) (e / 2)
    if e % 2 = 1 then h * b % edP else h

/-- An inverse in the field. -/
def edInv (a : Nat) : Nat := edPow 255 (a % edP) (edP - 2)

/-- A difference in the field. -/
def edSub (a b : Nat) : Nat := (a + (edP - b % edP)) % edP

/-- The curve's constant d. -/
def edD : Nat := edSub 0 (121665 * edInv 121666)

/-- A point in extended homogeneous coordinates. -/
structure EdPoint where
  x : Nat
  y : Nat
  z : Nat
  t : Nat
  deriving DecidableEq, Repr

/-- The neutral element. -/
def edZero : EdPoint := { x := 0, y := 1, z := 1, t := 0 }

/-- The sum of two points, the same one included. -/
def EdPoint.add (d : Nat) (p q : EdPoint) : EdPoint :=
  let a := edSub p.y p.x * edSub q.y q.x % edP
  let b := (p.y + p.x) * (q.y + q.x) % edP
  let c := p.t * q.t % edP * (2 * d) % edP
  let e := p.z * q.z * 2 % edP
  let u := edSub b a
  let f := edSub e c
  let g := e + c
  let h := b + a
  { x := u * f % edP, y := g * h % edP, t := u * h % edP, z := f * g % edP }

/-- A multiple of a point; the factor has at most n bits. -/
def EdPoint.mul (d : Nat) : Nat → Nat → EdPoint → EdPoint
  | 0, _, _ => edZero
  | n + 1, k, p =>
    let h := EdPoint.mul d n (k / 2) (p.add d p)
    if k % 2 = 1 then h.add d p else h

/-- Whether two points are the same. -/
def EdPoint.same (p q : EdPoint) : Bool :=
  decide (p.x * q.z % edP = q.x * p.z % edP) && decide (p.y * q.z % edP = q.y * p.z % edP)

/-- The x coordinate of a y coordinate with a sign bit, where the curve has one. -/
def edX (d y sign : Nat) : Option Nat :=
  let u := edSub (y * y) 1
  let v := (d * (y * y % edP) + 1) % edP
  let v3 := v * v % edP * v % edP
  let x := u * v3 % edP * edPow 253 (u * (v3 * v3 % edP) % edP * v % edP) ((edP - 5) / 8) % edP
  let root : Option Nat :=
    if v * (x * x % edP) % edP = u then some x
    else if v * (x * x % edP) % edP = edSub 0 u then some (x * edPow 253 2 ((edP - 1) / 4) % edP) else none
  match root with
  | none => none
  | some x => if x = 0 ∧ sign = 1 then none else some (if x % 2 = sign then x else edP - x)

/-- A point from its 32 bytes. -/
def edDecode (d : Nat) (bs : List Byte) : Option EdPoint :=
  let n := leNat (bs.take 32)
  let y := n % 2 ^ 255
  if edP ≤ y then none
  else (edX d y (n / 2 ^ 255 % 2)).map (fun x => { x := x, y := y, z := 1, t := x * y % edP })

/-- A point's 32 bytes. -/
def EdPoint.encode (p : EdPoint) : List Byte :=
  let i := edInv p.z
  toLE 32 (p.y * i % edP + 2 ^ 255 * (p.x * i % edP % 2))

/-- The base point: y is 4/5, x even. -/
def edBase (d : Nat) : EdPoint := (edDecode d (toLE 32 (4 * edInv 5 % edP))).getD edZero

/-- Whether a signature of a message verifies under a public key. -/
def ed25519Verify (pk msg sig : List Byte) : Bool :=
  let d := edD
  let s := leNat ((sig.drop 32).take 32)
  match edDecode d pk, edDecode d sig with
  | some a, some r =>
    let k := leNat (sha512 (sig.take 32 ++ pk ++ msg)) % edL
    decide (s < edL) && EdPoint.same ((edBase d).mul d 256 (8 * s)) ((r.mul d 4 8).add d (a.mul d 256 (8 * k)))
  | _, _ => false

/-- The secret scalar of a seed. -/
def edScalar (seed : List Byte) : Nat :=
  let n := leNat ((sha512 seed).take 32)
  n % 2 ^ 254 / 8 * 8 + 2 ^ 254

/-- The public key of a seed. -/
def ed25519Public (seed : List Byte) : List Byte := ((edBase edD).mul edD 255 (edScalar seed)).encode

/-- The signature of a message under a seed. -/
def ed25519Sign (seed msg : List Byte) : List Byte :=
  let d := edD
  let s := edScalar seed
  let r := leNat (sha512 ((sha512 seed).drop 32 ++ msg)) % edL
  let rb := ((edBase d).mul d 253 r).encode
  let k := leNat (sha512 (rb ++ ed25519Public seed ++ msg)) % edL
  rb ++ toLE 32 ((r + k * s) % edL)

/-! ### SHAKE (FIPS 202) -/

/-- One step of the register rc(t) of FIPS 202 (algorithm 5): a shift, with x⁸ = x⁶ + x⁵ + x⁴ + 1. -/
def keccakTick (r : BitVec 9) : BitVec 9 :=
  let s := r <<< 1
  if s.getLsbD 8 then s ^^^ 0x171 else s

/-- The constant of a round, built from seven successive values of the register, and the register after it. -/
def keccakIota (r : BitVec 9) : Word64 × BitVec 9 :=
  (List.range 7).foldl (fun p j =>
    (if p.2.getLsbD 0 then p.1 ^^^ BitVec.twoPow 64 (2 ^ j - 1) else p.1, keccakTick p.2)) (0, r)

/-- The walk (x, y) → (y, 2x + 3y) of FIPS 202 from (1, 0): the lane at each of its first n places. ρ turns the lane at
place t by (t + 1)(t + 2) / 2, and π takes it to place t + 1. -/
def keccakWalk : Nat → Nat → Nat → List Nat
  | 0, _, _ => []
  | n + 1, x, y => (x + 5 * y) :: keccakWalk n y ((2 * x + 3 * y) % 5)

/-- θ: each lane with the parity of the column before it and, turned by one, of the column after it. -/
def keccakTheta (a : List Word64) : List Word64 :=
  let par := (List.range 5).map (fun x => (List.range 5).foldl (fun w y => w ^^^ a.getD (x + 5 * y) 0) 0)
  let mix := (List.range 5).map (fun x => par.getD ((x + 4) % 5) 0 ^^^ (par.getD ((x + 1) % 5) 0).rotateLeft 1)
  a.mapIdx (fun i w => w ^^^ mix.getD (i % 5) 0)

/-- ρ and π together, along the walk; lane 0 stays. -/
def keccakMove (a : List Word64) : List Word64 :=
  let walk := keccakWalk 25 1 0
  (List.zip walk walk.tail).zipIdx.foldl (fun b m =>
    b.set m.1.2 ((a.getD m.1.1 0).rotateLeft ((m.2 + 1) * (m.2 + 2) / 2 % 64))) a

/-- χ on one plane of five lanes. -/
def keccakChi (p : List Word64) : List Word64 :=
  p.mapIdx (fun x w => w ^^^ ((p.getD ((x + 2) % 5) 0) &&& ~~~ (p.getD ((x + 1) % 5) 0)))

/-- One round on the 25 lanes, lane x + 5y, beside the register of its constant. -/
def keccakRound (s : List Word64 × BitVec 9) : List Word64 × BitVec 9 :=
  let m := keccakMove (keccakTheta s.1)
  let rows := (List.range 5).flatMap (fun y => keccakChi ((m.drop (5 * y)).take 5))
  let k := keccakIota s.2
  (rows.modify 0 (· ^^^ k.1), k.2)

/-- The permutation: 24 rounds. -/
def keccakF (a : List Word64) : List Word64 := (Nat.repeat keccakRound 24 (a, 1)).1

/-- The lanes of a block of bytes. -/
def keccakLanes : Nat → List Byte → List Word64
  | 0, _ => []
  | n + 1, bs => BitVec.ofNat 64 (leNat (bs.take 8)) :: keccakLanes n (bs.drop 8)

/-- The blocks of a padded message absorbed. -/
def keccakAbsorb (rate : Nat) : Nat → List Byte → List Word64 → List Word64
  | 0, _, a => a
  | n + 1, bs, a =>
    keccakAbsorb rate n (bs.drop rate) (keccakF (List.zipWith (· ^^^ ·) a (keccakLanes 25 ((bs.take rate) ++ zeros (200 - rate)))))

/-- Blocks of output. -/
def keccakSqueeze (rate : Nat) : Nat → List Word64 → List Byte
  | 0, _ => []
  | n + 1, a => (a.flatMap (fun w => toLE 8 w.toNat)).take rate ++ keccakSqueeze rate n (keccakF a)

/-- The padding of SHAKE for a message of n bytes. -/
def shakePad (rate n : Nat) : List Byte :=
  let k := rate - n % rate
  if k = 1 then [0x9F] else [0x1F] ++ zeros (k - 2) ++ [0x80]

/-- `n` bytes of SHAKE with a rate in bytes: 168 for SHAKE128, 136 for SHAKE256. -/
def shake (rate : Nat) (msg : List Byte) (n : Nat) : List Byte :=
  let m := msg ++ shakePad rate msg.length
  (keccakSqueeze rate ((n + rate - 1) / rate) (keccakAbsorb rate (m.length / rate) m (List.replicate 25 0))).take n

/-- `H` of FIPS 204. -/
def shake256 (msg : List Byte) (n : Nat) : List Byte := shake 136 msg n

/-! ### ML-DSA-65 (FIPS 204): k = 6, l = 5, γ1 = 2^19, γ2 = (q − 1) / 32, τ = 49, β = 196, ω = 55 -/

/-- The modulus q. -/
def dsaQ : Nat := 8380417

/-- A power of ζ = 1753 modulo q; the exponent has at most n bits. -/
def dsaPow : Nat → Nat → Nat → Nat
  | 0, _, _ => 1
  | n + 1, b, e =>
    let h := dsaPow n (b * b % dsaQ) (e / 2)
    if e % 2 = 1 then h * b % dsaQ else h

/-- The 8 bits of a number in reverse. -/
def bitRev8 (m : Nat) : Nat := (List.range 8).foldl (fun a i => 2 * a + m / 2 ^ i % 2) 0

/-- ζ to the power BitRev8(m). -/
def dsaZeta (m : Nat) : Nat := dsaPow 9 1753 (bitRev8 m)

/-- Its inverse: ζ has order 512. -/
def dsaZetaInv (m : Nat) : Nat := dsaPow 9 1753 (512 - bitRev8 m)

/-- A difference modulo q. -/
def dsaSub (a b : Nat) : Nat := (a + dsaQ - b % dsaQ) % dsaQ

/-- NTT: n levels of butterflies from node m on; the halves are nodes 2m and 2m + 1. -/
def dsaNtt : Nat → Nat → List Nat → List Nat
  | 0, _, w => w
  | n + 1, m, w =>
    let lo := w.take (2 ^ n)
    let t := (w.drop (2 ^ n)).map (fun x => dsaZeta m * x % dsaQ)
    dsaNtt n (2 * m) (List.zipWith (fun a b => (a + b) % dsaQ) lo t) ++
      dsaNtt n (2 * m + 1) (List.zipWith dsaSub lo t)

/-- The inverse, without the factor 1/256. -/
def dsaUnntt : Nat → Nat → List Nat → List Nat
  | 0, _, w => w
  | n + 1, m, w =>
    let a := dsaUnntt n (2 * m) (w.take (2 ^ n))
    let b := dsaUnntt n (2 * m + 1) (w.drop (2 ^ n))
    List.zipWith (fun x y => (x + y) % dsaQ) a b ++ List.zipWith (fun x y => dsaZetaInv m * dsaSub x y % dsaQ) a b

/-- The inverse NTT: 8,347,681 is 1/256. -/
def dsaInv (w : List Nat) : List Nat := (dsaUnntt 8 1 w).map (fun x => 8347681 * x % dsaQ)

/-- Products in the NTT domain. -/
def dsaMul (a b : List Nat) : List Nat := List.zipWith (fun x y => x * y % dsaQ) a b

/-- Numbers of `w` bits from bytes, the least significant bit first. -/
def dsaUnpack (w n : Nat) (bs : List Byte) : List Nat :=
  let v := leNat bs
  (List.range n).map (fun i => v / 2 ^ (w * i) % 2 ^ w)

/-- RejNTTPoly: the coefficients below q among the 3-byte groups, bit 23 dropped. -/
def dsaReject : List Byte → List Nat
  | a :: b :: c :: r =>
    let z := a.toNat + 256 * b.toNat + 65536 * (c.toNat % 128)
    if z < dsaQ then z :: dsaReject r else dsaReject r
  | _ => []

/-- Entry (r, s) of the matrix from ρ (ExpandA): the first 256 numbers of the stream. -/
def dsaEntry (rho : List Byte) (r s : Nat) : List Nat :=
  (dsaReject (shake 168 (rho ++ toLE 1 s ++ toLE 1 r) 1344)).take 256

/-- SampleInBall's loop: position i takes the place j of the next byte that does not exceed it. -/
def dsaBall : List Byte → Nat → Nat → Nat → List Nat → List Nat
  | [], _, _, _, c => c
  | b :: r, signs, i, n, c =>
    if n = 0 then c
    else if i < b.toNat then dsaBall r signs i n c
    else
      let c := c.set i (c.getD b.toNat 0)
      let c := c.set b.toNat (if signs % 2 = 1 then dsaQ - 1 else 1)
      dsaBall r (signs / 2) (i + 1) (n - 1) c

/-- The challenge polynomial of a seed. -/
def dsaChallenge (seed : List Byte) : List Nat :=
  let bs := shake256 seed 1088
  dsaBall (bs.drop 8) (leNat (bs.take 8)) 207 49 (List.replicate 256 0)

/-- One row of the hint: the places from `first` to `last` − 1 must rise. -/
def dsaHintRow (y : List Nat) (first last : Nat) : Option (List Nat) :=
  let p := (y.take last).drop first
  if (List.zip p (p.drop 1)).all (fun q => decide (q.1 < q.2)) then some p else none

/-- HintBitUnpack: the places of ones of the six rows; none where the packing is not the one of FIPS 204. -/
def dsaHint (bs : List Byte) : Option (List (List Nat)) :=
  let y := bs.map BitVec.toNat
  let ends := (y.drop 55).take 6
  let ok := (List.zip (0 :: ends) ends).all (fun q => decide (q.1 ≤ q.2) && decide (q.2 ≤ 55)) &&
    ((y.take 55).drop (ends.getD 5 0)).all (fun x => decide (x = 0))
  if ok then (List.zip (0 :: ends) ends).mapM (fun q => dsaHintRow y q.1 q.2) else none

/-- UseHint on one coefficient. -/
def dsaUseHint (h : Bool) (r : Nat) : Nat :=
  let g := 523776
  let lowPos := r % g
  let low : Int := if 2 * lowPos ≤ g then (lowPos : Int) else (lowPos : Int) - g
  let wrap := decide ((r : Int) - low = dsaQ - 1)
  let high := if wrap then 0 else (((r : Int) - low) / g).toNat
  let low := if wrap then low - 1 else low
  if h then (if 0 < low then (high + 1) % 16 else (high + 15) % 16) else high

/-- Whether a signature of a message verifies under a public key, with an empty context string. -/
def mldsaVerify (pk msg sig : List Byte) : Bool :=
  let rho := pk.take 32
  let seed := sig.take 48
  let zs := (List.range 5).map (fun i =>
    (dsaUnpack 20 256 ((sig.drop (48 + 640 * i)).take 640)).map (fun v => dsaSub 524288 v))
  let small := zs.all (fun z => z.all (fun v => decide (v < 524288 - 196) || decide (dsaQ - (524288 - 196) < v)))
  match dsaHint (sig.drop 3248) with
  | none => false
  | some hs =>
    let mu := shake256 (shake256 pk 64 ++ [0, 0] ++ msg) 64
    let c := dsaNtt 8 1 (dsaChallenge seed)
    let zn := zs.map (dsaNtt 8 1)
    let row (r : Nat) : List Byte :=
      let t := (dsaUnpack 10 256 ((pk.drop (32 + 320 * r)).take 320)).map (fun v => v * 8192 % dsaQ)
      let az := (List.zip (List.range 5) zn).foldl (fun acc p =>
        List.zipWith (fun x y => (x + y) % dsaQ) acc (dsaMul (dsaEntry rho r p.1) p.2)) (List.replicate 256 0)
      let w := dsaInv (List.zipWith dsaSub az (dsaMul c (dsaNtt 8 1 t)))
      let h := hs.getD r []
      let w1 := (List.zip (List.range 256) w).map (fun p => dsaUseHint (h.contains p.1) p.2)
      toLE 128 (w1.foldr (fun x n => x + 16 * n) 0)
    small && decide (shake256 (mu ++ (List.range 6).flatMap row) 48 = seed)

end Sys2Proof.Machine
end

