-- ==== Sys2Proof/Machine/Boot.lean ====
section
/-! DEFINITION. The boot code (18_boot_security): fuses and signer (R438 to R441), the steps from reset to the operational
state (R442), the stop (R444), the restart copy (R445), the protection set-up (R446, R447), enrolment (R439, R440). -/

namespace Sys2Proof.Machine

/-! ### Fuses (R438) -/

/-- The model's offsets of the fuse fields: DIE_SERIAL and its complement, HELPER, ID_WRAP, ID_CERT and its complement,
KEY_HASH and its complement, CLOSED and its complement. -/
def fuseSerial : Nat := 0
/-- HELPER. -/
def fuseHelper : Nat := 0x100
/-- ID_WRAP. -/
def fuseWrap : Nat := 0x600
/-- ID_CERT. -/
def fuseCert : Nat := 0x700
/-- KEY_HASH. -/
def fuseKey : Nat := 0x800
/-- CLOSED. -/
def fuseClosed : Nat := 0x900

/-- A field's bytes. -/
def BootSt.fuseAt (b : BootSt) (o n : Nat) : List Byte := memRead b.fuse o n

/-- Whether a field of n bytes with its complement behind it holds valid word pairs (R438). -/
def BootSt.pairsValid (b : BootSt) (o n : Nat) : Bool :=
  (List.range (n / 4)).all (fun i =>
    let v := memNat b.fuse (o + 4 * i) 4
    let c := memNat b.fuse (o + n + 4 * i) 4
    decide (v + c = 0xFFFFFFFF) || (decide (v = 0) && decide (c = 0)))

/-- KEY_HASH and the complement of KEY_HASH, as numbers. -/
def BootSt.keyHash (b : BootSt) : Nat := memNat b.fuse fuseKey 64
/-- The complement of KEY_HASH. -/
def BootSt.keyCompl (b : BootSt) : Nat := memNat b.fuse (fuseKey + 64) 64

/-- A closed device (R439): CLOSED is programmed, so that its words are not both zero (R438), and valid. -/
def BootSt.closed (b : BootSt) : Bool := b.pairsValid fuseClosed 4 && decide (memNat b.fuse fuseClosed 8 ≠ 0)

/-- An open device (R439): CLOSED is not programmed. -/
def BootSt.isOpen (b : BootSt) : Bool := decide (memNat b.fuse fuseClosed 8 = 0)

/-- Whether the Cx fields pass step 2 (R438, R442); KEY_HASH is not judged in an incomplete enrolment (R439). -/
def BootSt.fusesOk (b : BootSt) : Bool :=
  b.pairsValid fuseSerial 8 && b.pairsValid fuseCert 64 && b.pairsValid fuseClosed 4 &&
    ((b.isOpen && decide (b.keyHash ≠ 0)) || b.pairsValid fuseKey 64)

/-- MIN_SV (R440): pairs with both bits set. -/
def BootSt.minSv (b : BootSt) : Nat := ((List.range 64).filter (fun i => b.svA.getLsbD i && b.svB.getLsbD i)).length

/-- LIFECYCLE of BT_STATUS (R450): 1 open, 2 closed; 0 until the boot code has read the fuses, and where CLOSED is
programmed and not valid, which is neither. -/
def BootSt.lifecycle (b : BootSt) : Nat :=
  if b.begun = false then 0 else if b.closed then 2 else if b.isOpen then 1 else 0

/-- The seed from which the key store derives the identity (R441). -/
def BootSt.idSeed (b : BootSt) : Option (List Byte) := Config.identitySeed (b.fuseAt fuseHelper 1024) (b.fuseAt fuseWrap 64)

/-! ### Flash (R434, R437) -/

/-- Whether the devices found are supported and equal (R434, R437). -/
def flashOk (l : List FlashDev) : Bool :=
  let n0 := (l.filter (fun x => decide (x.port = 0))).length
  let n1 := (l.filter (fun x => decide (x.port = 1))).length
  match l with
  | [] => false
  | h :: _ =>
    l.all (fun x => decide (x.port < 2) && decide (x.mib = h.mib) && decide (x.sfdp = h.sfdp) && Config.sfdpValid x.sfdp) &&
      [32, 64, 128, 256].contains h.mib && (decide (n0 = n1) || (decide (n1 = 0) && decide (n0 ≤ 2))) &&
      decide ((l.map (fun x => x.mib)).sum ≤ 1024)

/-! ### Header, layout, signatures (R259, R260, R263) -/

/-- Whether a header keeps R260, and CHIPS the straps (R383). -/
def hdrOk (h : List Byte) (chip countM1 : Nat) : Bool :=
  decide (leAt h 0 4 = 0x4950534C) && decide (leAt h 4 2 = 1) && decide (leAt h 6 2 = 0x8640) && decide (leAt h 8 2 = 256) &&
    decide (leAt h 10 2 = 96) && decide (1 ≤ hdrSections h) && decide (hdrSections h ≤ 1024) && decide (hdrLevel h ≤ 1) &&
    decide (hdrChips h = countM1 + 1) && decide (chip ≤ countM1) && decide (20 ≤ leAt h 32 2) && decide (leAt h 32 2 ≤ 200) &&
    decide (leAt h 34 2 = 0) && decide (leAt h 64 192 = 0)

/-- Whether sections lie in ascending, disjoint, aligned ranges from an offset on. -/
def laidOut (sig : Nat) : Nat → List Sect → Bool
  | _, [] => true
  | lo, s :: r => decide (lo ≤ s.off) && decide (s.off % 4096 = 0) && decide (1 ≤ s.len) && decide (s.off + s.len ≤ sig) &&
      laidOut sig (s.off + s.len) r

/-- Whether the layout keeps R259 and fits in the image location. -/
def BootSt.layoutOk (b : BootSt) : Bool :=
  let h := b.imgHeader
  decide (hdrSig h % 4096 = 0) && decide (hdrSize h = hdrSig h + 5376) && decide (hdrSize h ≤ 2 ^ 30) &&
    decide (hdrSize h ≤ b.flashCap) &&
    laidOut (hdrSig h) ((256 + 96 * hdrSections h + 4095) / 4096 * 4096) b.dir

/-- The signature block (R263). -/
def BootSt.sigBlock (b : BootSt) : List Byte := b.flashRead (hdrSig b.imgHeader) 5376

/-- SHA-512 of both public keys of a signature block (R438). -/
def signerOf (g : List Byte) : List Byte := sha512 ((g.drop 8).take 32 ++ (g.drop 104).take 1952)

/-- Whether a signer is accepted (R439). -/
def BootSt.signerOk (b : BootSt) (h : Nat) : Bool :=
  if b.closed then decide (h = b.keyHash)
  else if b.keyHash = 0 then true
  else decide (b.keyHash &&& h = b.keyHash) && decide (b.keyCompl &&& h = 0)

/-- Whether both signatures verify over the message of R263. -/
def sigsOk (g m : List Byte) : Bool :=
  let msg := ascii "LS8640-IMAGE" ++ m
  ed25519Verify ((g.drop 8).take 32) msg ((g.drop 40).take 64) &&
    mldsaVerify ((g.drop 104).take 1952) msg ((g.drop 2056).take 3309)

/-! ### The stop (R444) -/

/-- The protection set-up and the lock, the boot code's last write before the entry (R446, R447): windows, TAP_LOCK, the
island's load port closed. (DEDUCED, log entry 97.) -/
def Dev.lockDown (d : Dev) (wins : List (Nat × Nat)) : Dev :=
  let d := ((List.range 16).zip (wins ++ List.replicate 16 (0, 0))).foldl (fun (d : Dev) p =>
    (d.hwPair (BT_PROT_WIN_BASE p.1) (BitVec.ofNat 32 p.2.1)).hwPair (BT_PROT_WIN_LIMIT p.1) (BitVec.ofNat 32 p.2.2)) d
  let d := (d.hwPair BT_PROT_CFG (BitVec.ofNat 32 (wins.length + 32))).hwN BT_LOCK 1
  { d with bt := { d.bt with locked := true }, si := { d.si with portOpen := false } }

/-- A boot that stops (R444): maintenance mode entered by the boot code, with its reason and directory entry; SAFE_OK stays
low. Vector 13 is sent once the link is up. -/
def Dev.bootStop (d : Dev) (reason entry : Nat) : Dev :=
  let d := { d with bt := { d.bt with state := 3, reason := reason, entry := entry }, hi := { d.hi with maint := true }
                    si := { d.si with running := false, pin := false, maint := true } }
  let d := d.lockDown []
  if d.hi.linkUp then d.irq 13 else { d with hi := { d.hi with due13 := true } }

/-! ### Placement (steps 9 to 11) -/

/-- The log entries whose bytes are not all unwritten: only these can carry a CRC that holds. -/
def StoreSt.logSlots (x : StoreSt) : List Nat :=
  ((x.mem.filter (fun c => decide (x.logBase ≤ c.1) && decide (c.1 < x.cap))).map (fun c => (c.1 - x.logBase) / 64)).eraseDups

/-- The fault log found at start-up (R359): SEQ and the position go on from the newest entry whose CRC holds; BOOTS
counts on. (DEDUCED, log entry 53.) -/
def Dev.findLog (d : Dev) : Dev :=
  let best := d.xs.logSlots.foldl (fun (acc : Option (Nat × Nat × Nat)) k =>
    let e := memRead d.xs.mem (d.xs.logBase + 64 * k) 64
    if d.xs.badIn (d.xs.logBase + 64 * k) 64 ∨ crc32c (e.take 60 ++ zeros 4) ≠ leAt e 60 4 then acc
    else match acc with
      | some (q, _, _) => if leAt e 0 8 > q then some (leAt e 0 8, k, leAt e 40 4) else acc
      | none => some (leAt e 0 8, k, leAt e 40 4)) none
  match best with
  | none => d
  | some (q, k, b) =>
    { d with flt := { d.flt with logSeq := q + 1, logPos := (k + 1) % 16384, boots := max d.flt.boots (b + 1) } }

/-- The first section, in placement order, whose bytes do not hash to its DIGEST (R262, R279).
(DESIGN CHOICE, log entry 52.) -/
def BootSt.badDigest (b : BootSt) (l : List Sect) : Option Sect := l.find? (fun s => decide (sha512 (b.bytes s) ≠ s.digest))

/-- The sections before one whose digest fails (R279). -/
def sectsBefore (order : List Sect) : Option Sect → List Sect
  | none => order
  | some s => order.takeWhile (fun x => decide (x.idx ≠ s.idx))

/-- Steps 10 and 11 of R442: powered memory zero, the sections of this chip in their order, the default-row fill once
groups 1 and 2 are placed; up to the section whose digest fails, where one does. (DESIGN CHOICE, log entry 52.) -/
def Dev.placeAll (d : Dev) (order : List Sect) (bad : Option Sect) : Dev :=
  let mine := (sectsBefore order bad).filter (fun s => s.on d.rl.chip && s.valid (d.rl.countM1 + 1) && s.fits)
  let d := { d with mem := [], gb := { d.gb with tab := [], gtab := [] } }
  let d := (mine.filter (fun s => decide (s.group < 2))).foldl (fun d s => d.placeSect s) d
  let d := if bad.all (fun s => decide (s.group = 2)) then d.fillTables else d
  (mine.filter (fun s => decide (s.group = 2))).foldl (fun d s => d.placeSect s) d

/-! ### The restart copy (R445) -/

/-- An entry of the restart copy. -/
def copyEntry (s : Sect) (bs : List Byte) : List Byte :=
  toLE 2 s.type ++ zeros 2 ++ toLE 4 s.cores ++ toLE 8 s.dest ++ toLE 8 bs.length ++ toLE 8 (crc64 bs) ++ zeros 32 ++ padTo 64 bs

/-- The plane and staging sections of this chip. -/
def Dev.copySects (d : Dev) : List Sect :=
  d.bt.dir.filter (fun s => [0x10, 0x11, 0x12].contains s.type && s.on d.rl.chip)

/-- The restart copy's bytes. -/
def Dev.copyBytes (d : Dev) : List Byte := d.copySects.flatMap (fun s => copyEntry s (d.bt.bytes s)) ++ zeros 64

/-- The regions that the image places in the store: base and end: table copies, merge area, golden input, and the recording
ring where a REGISTERS section names it. -/
def Dev.placedStore (d : Dev) : List (Nat × Nat) :=
  let c : Chk := { d := d, dir := [], named := [] }
  let named := (namedRegs d.bt d.rl.chip d.bt.dir).any (fun p => [CS_REC_BASE, CS_REC_SIZE].contains p.1)
  let (ra, rn) := d.logRing
  let ring := if named then [(ra, ra + rn)] else []
  ring ++ c.copies.map (fun r => (r.2.1, r.2.2.1)) ++ [(c.merge.1, c.merge.1 + c.merge.2), (d.bt.gold, d.bt.gold + d.bt.goldLen)]

/-- Step 13: the copy is written; none where it overlaps a placed region. -/
def Dev.writeCopy (d : Dev) : Option Dev :=
  let bs := d.copyBytes
  let base := (d.xs.logBase - bs.length) / 65536 * 65536
  if d.xs.logBase < bs.length ∨ ¬ d.placedStore.all (fun r => !(meets base (d.xs.logBase - base) r.1 (r.2 - r.1))) then none
  else
    some (((d.storeWrite base bs).hwPair BT_RESTART_BASE (BitVec.ofNat 32 (base / 65536))).hwPair BT_RESTART_SIZE
      (BitVec.ofNat 32 ((d.xs.logBase - base) / 65536)))

/-! ### Protection windows (R446) -/

/-- The regions closed to the host, in 64 KiB units: first and end. -/
def Dev.excluded (d : Dev) : List (Nat × Nat) :=
  let c : Chk := { d := d, dir := [], named := [] }
  let unit (r : Nat × Nat) : Nat × Nat := (r.1 / 65536, (r.2 + 65535) / 65536)
  let rows := (c.copies.filter (fun r => d.tByRow r.1)).map (fun r => (r.2.1, r.2.2.1))
  let l := [(d.xs.logBase, d.xs.cap), (65536 * (d.rdLive BT_RESTART_BASE).toNat, d.xs.logBase),
    (d.bt.gold, d.bt.gold + d.bt.goldLen), (c.merge.1, c.merge.1 + c.merge.2)] ++ rows
  sortBy (fun a b => decide (a.1 < b.1)) ((l.filter (fun r => decide (r.1 < r.2))).map unit)

/-- The maximal ranges outside a sorted list of regions: first and last unit. -/
def gaps (top : Nat) : Nat → List (Nat × Nat) → List (Nat × Nat)
  | lo, [] => if lo < top then [(lo, top - 1)] else []
  | lo, r :: t => (if lo < r.1 then [(lo, r.1 - 1)] else []) ++ gaps top (max lo r.2) t

/-- The windows in force in the operational state. -/
def Dev.protSetup (d : Dev) : List (Nat × Nat) := gaps (d.xs.cap / 65536) 0 d.excluded

/-! ### The sequence (R442) -/

/-- Steps 13 to 15 up to the entry: the restart copy, the protection set-up, the lock; the chip is ready. -/
def Dev.bootFinish (d : Dev) : Dev :=
  match d.writeCopy with
  | none => d.bootStop 0x15 0x7FF
  | some d =>
    if d.protSetup.length > 16 then d.bootStop 0x15 0x7FF
    else
      let d := d.lockDown d.protSetup
      let d := { d with bt := { d.bt with placed := true }, ig := { d.ig with mask := d.maskReg } }
      d.maybeReady

/-- Steps 9 to 12. The boot code waits for the store: while it is neither ready nor in error nothing more happens. -/
def Dev.bootLoad (d : Dev) : Dev :=
  if d.xs.geomErr then d.bootStop 0x14 0x7FF
  else if d.xs.ready = false then d
  else
    let d := d.findLog
    let order := placeOrder d.bt.dir
    let bad := d.bt.badDigest order
    let d := d.placeAll order bad
    match bad with
    | some s => d.bootStop 0x03 s.idx
    | none =>
      match d.imageFault with
      | some v => d.bootStop v.1 v.2
      | none => d.bootFinish

/-- Steps 5 to 8: header, layout, measurement, signature block, security version. (DEDUCED, log entry 73.) -/
def Dev.bootVerify (d : Dev) : Dev :=
  let h := d.bt.imgHeader
  if hdrOk h d.rl.chip d.rl.countM1 = false then d.bootStop 0x01 0x7FF
  else if d.bt.layoutOk = false then d.bootStop 0x02 0x7FF
  else
    let m := d.bt.measure
    let g := d.bt.sigBlock
    if leAt g 0 4 ≠ 0x4749534C ∨ leAt g 4 4 ≠ 0 ∨ leAt g 5365 11 ≠ 0 then d.bootStop 0x04 0x7FF
    else if d.bt.signerOk (leNat (signerOf g)) = false then d.bootStop 0x11 0x7FF
    else if sigsOk g m = false then d.bootStop 0x04 0x7FF
    else
      let d := { d with bt := { d.bt with header := h, meas := m, signer := signerOf g } }
      let d := (List.range 16).foldl (fun (d : Dev) n => d.hwN (BT_MEAS n) (leAt m (4 * n) 4)) d
      let d := d.hwN BT_IMG_SV (hdrSv h)
      if hdrSv h < d.bt.minSv ∨ 64 < hdrSv h then d.bootStop 0x12 0x7FF else d.bootLoad

/-- KEY_HASH as BT_KEYHASH shows it. -/
def Dev.postKeys (d : Dev) : Dev :=
  let d := (List.range 16).foldl (fun (d : Dev) n => d.hwN (BT_KEYHASH n) (memNat d.bt.fuse (fuseKey + 4 * n) 4)) d
  d.hwN BT_SV d.bt.minSv

/-- Steps 2 to 4: the key store, which works at each start (R441), fuses, MAINT_N, flash discovery with the devices found. -/
def Dev.bootFuses (d : Dev) (found : List FlashDev) : Dev :=
  let cap := if flashOk found then 2 ^ 20 * (found.map (fun x => x.mib)).sum else 0
  let seed := d.bt.idSeed
  let d := { d with bt := { d.bt with
    flashCap := cap, flashBoth := found.any (fun x => decide (x.port = 1)),
    flashDev := 2 ^ 20 * ((found.head?.map FlashDev.mib).getD 0),
    begun := true, idFail := seed.isNone, idPk := (seed.map ed25519Public).getD [] } }
  if d.bt.fusesOk = false then d.bootStop 0x16 0x7FF
  else
    let both := d.bt.svA ||| d.bt.svB
    let d := { d with bt := { d.bt with svA := both, svB := both } }
    let d := d.postKeys
    if d.pm.maintN = false then d.bootStop 0x20 0x7FF
    else if flashOk found = false then d.bootStop 0x13 0x7FF
    else d.bootVerify

/-- BOOT (R442): the start-up sequence, once after the release from reset, with the root and the island PLL locked. -/
def boot (found : List FlashDev) (d : Dev) : Dev :=
  if d.pm.held ∨ d.tm.op ∨ d.pm.rootLock = false ∨ d.si.pllLost ∨ d.bt.placed ∨ d.bt.state ≠ 0 then d else d.bootFuses found

/-- Fuses programmed (R438): a bit changes only from 0 to 1. -/
def fuseBurn (m : Mem) (a : Nat) (bs : List Byte) : Mem :=
  memWrite m a (List.zipWith (fun x y => x ||| y) (memRead m a bs.length) bs)

/-- FUSE_ENROL (R439, R440): after the entry, an open device takes its signer's hash, then CLOSED; steps of SV are
programmed until MIN_SV is the image's SECURITY_VERSION. -/
def fuseEnrol (d : Dev) : Dev :=
  if d.tm.op = false then d
  else
    let inv (l : List Byte) : List Byte := l.map (fun b => ~~~b)
    let h := d.bt.signer
    let c : List Byte := toLE 4 0x434C5344
    let fuse :=
      if d.bt.closed then d.bt.fuse
      else fuseBurn (fuseBurn d.bt.fuse fuseKey (h ++ inv h)) fuseClosed (c ++ inv c)
    let missing := (List.range 64).filter (fun i => !(d.bt.svA.getLsbD i && d.bt.svB.getLsbD i))
    let add := (missing.take (hdrSv d.bt.header - d.bt.minSv)).foldl (fun (m : BitVec 64) i => m ||| BitVec.ofNat 64 (2 ^ i)) 0
    ({ d with bt := { d.bt with fuse := fuse, svA := d.bt.svA ||| add, svB := d.bt.svB ||| add } } : Dev).postKeys

end Sys2Proof.Machine
end

