-- ==== Sys2Proof/Machine/Power.lean ====
section
/-! DEFINITION. Power, clocks and reset (19_power_clocks_reset): the resets of R456 and their reach, the release and its
straps (R457, R458), rails (R452), the root PLL (R460), temperature and derating (R465 to R469). -/

namespace Sys2Proof.Machine

/-! ### Reset (R456, R457) -/

/-- The recording registers that only the main power-on reset resets (R229). -/
def recRegs : List Nat := [CS_REC_CTRL, CS_REC_STATUS, CS_REC_BASE, CS_REC_SIZE, CS_REC_SESSION_LO, CS_REC_SESSION_HI]

/-- The recording state that a device reset keeps: a session in progress has been lost with the operational state. -/
def RecSt.kept (r : RecSt) : RecSt :=
  { mode := r.mode, state := r.state, lastAbort := r.lastAbort, head := r.head, tail := r.tail, head0 := r.head0,
    count := r.count, session := r.session, abortSet := r.abortSet }

/-- The island's counters and mirrors (R345, R346): two pages of BAR0. -/
def islandAddr (a : Nat) : Bool := decide (a / 65536 = 11) || decide (a / 65536 = 12)

/-- What a device reset leaves of the boot block: fuses and flash. -/
def BootSt.kept (b : BootSt) : BootSt := { fuse := b.fuse, svA := b.svA, svB := b.svB, flash := b.flash }

/-- What a device reset leaves of the island: nothing after RESET_N; after the main power-on reset everything but the
pair of outputs, which is driven low and whose first edge waits for an entry and its self-test again (R337), and the load
port, which is open again until the lock. (DEDUCED, log entry 60.) -/
def IslandSt.kept (i : IslandSt) (por : Bool) : IslandSt :=
  if por then { i with portOpen := true, running := false, pin := false, tested := false, firstFailed := false } else {}

/-- The bursts that a device reset cuts off (R457): of each channel at which a write waits, the first of its bytes may be left
with a bad check word; a free value says whether. (DESIGN CHOICE, log entry 159.) -/
def Dev.cutBursts (d : Dev) : List Nat :=
  let ws := d.xs.chans.filterMap (fun p => (p.2.reqs.find? (fun r => r.write)).map (fun r => xsAddr p.1 r.off / 32))
  (ws.zip (List.range ws.length)).filterMap (fun q =>
    if (Config.freeValue (d.free + q.2)).getLsbD 0 then some q.1 else none)

/-- A device reset (R456, R457): `por` for the main power-on reset, CAUSE as PM_RESET_CAUSE codes it. The external store,
fuses, flash and the recording registers are kept, the rails and clocks are what they are, and the device is held. But for
the main power-on reset the arrays ramp down first (R464). -/
def Dev.resetTo (d : Dev) (cause : Nat) (por : Bool) : Dev :=
  let d := d.sessionLost
  let keep (a : Nat) : Bool := if por then islandAddr a else recRegs.contains a
  { reg := { regs := d.reg.regs.filter (fun p => keep p.1), ctrs := d.reg.ctrs.filter (fun p => por && islandAddr p.1) }
    cw := if por then {} else { vol := d.cw.ramps }
    lg := if por then {} else d.lg.kept
    si := d.si.kept por
    flt := { boots := d.flt.boots }
    hi := { mem := d.hi.mem }
    xs := { mem := d.xs.mem, bad := (d.xs.bad ++ d.cutBursts).eraseDups }
    bt := d.bt.kept
    pm := { rails := d.pm.rails, rootLock := d.pm.rootLock, refclk := d.pm.refclk, held := true, cause := cause }
    out := d.out
    free := d.free + d.xs.chans.length }

/-- RESET_N_ASSERT (R456): a low pulse of `ns`; below 40 ns it is ignored, from 100 ns it starts a reset, and between the
two either happens, as `taken` says. -/
def resetNAssert (ns : Nat) (taken : Bool) (d : Dev) : Dev :=
  if 100 ≤ ns ∨ (40 ≤ ns ∧ taken) then d.resetTo 1 false else d

/-- Whether a rail's fall below its level causes the main power-on reset: VDD_CORE, VDD_SRAM, VDDIO (R452). -/
def mainRail (rail : Nat) : Bool := decide (rail = 0) || decide (rail = 1) || decide (rail = 3)

/-- A rail leaves its window or comes back. -/
def Dev.setRail (d : Dev) (rail : Nat) (ok : Bool) : Dev :=
  let m : BitVec 6 := BitVec.ofNat 6 (2 ^ rail)
  { d with pm := { d.pm with rails := if ok then d.pm.rails ||| m else d.pm.rails &&& ~~~m } }

/-- MAIN_POR (R428, R452, R456): a main rail falls below its level. The external store does not survive the loss of VDDIO:
it then holds what a store holds at power-up. (DESIGN CHOICE, log entry 3.) -/
def mainPor (rail : Nat) (d : Dev) : Dev :=
  if mainRail rail then
    let d := (d.resetTo 0 true).setRail rail false
    if rail = 3 then { d with xs := {} } else d
  else d

/-- ISLAND_POR (R455, R456): VDD_SAFE below its level resets the island, and nothing else. Its load port stays closed once
the protection is locked. -/
def islandPor (d : Dev) : Dev :=
  let d := d.setRail 2 false
  { d with
    si := { portOpen := !d.bt.locked }
    reg := { d.reg with
      regs := d.reg.regs.filter (fun p => !(islandAddr p.1))
      ctrs := d.reg.ctrs.filter (fun p => !(islandAddr p.1)) } }

/-- Whether the rails let a reset end (R453, R456): of the main power-on reset, every main rail in range; of RESET_N, which
the board holds low until then, every rail; the pulse of LEAVE_MAINTENANCE ends by itself. (DEDUCED, log entry 61.) -/
def PowerSt.mayRelease (p : PowerSt) : Bool :=
  decide (p.cause = 2) || decide (p.rails = 0x3F) || (decide (p.cause = 0) && decide (p.rails = 0x3B))

/-- RESET_RELEASE (R453, R457, R458): the straps are sampled, BOOTS counts, the root PLL locks, the arrays stand at level 0
(R145), the links in use begin to train (R382), and an armed session's HEAD and TAIL are zero (R229). -/
def resetRelease (chipSel chipCntM1 : BitVec 2) (maintN : Bool) (d : Dev) : Dev :=
  if d.pm.held = false ∨ d.pm.mayRelease = false then d
  else
    let me := chipSel.toNat
    let n := chipCntM1.toNat + 1
    let lg := if d.lg.state = 1 then { d.lg with head := 0, tail := 0 } else d.lg
    let pm := { d.pm with held := false, rootLock := true, refclk := true, chipSel := me, chipCntM1 := n - 1, maintN := maintN }
    let d := { d with
      pm := pm
      cw := {}
      lg := lg
      rl := { d.rl with chip := me, countM1 := n - 1 }
      flt := { d.flt with boots := d.flt.boots + 1 } }
    ((List.range n).filter (fun j => j != me)).foldl (fun d j =>
      if me < n then d.putLink (linkOf me j) { state := 1 } else d) d

/-- INTERNAL_RESET_PULSE (R414, R456): the device reset that LEAVE_MAINTENANCE causes. -/
def internalReset (d : Dev) : Dev := if d.hi.leave then d.resetTo 2 false else d

/-- HOST_INTERFACE_RESET (R404): every ring disabled with its indices at zero and what was queued for it discarded, the
mailbox idle, the MSI-X table, HI_IRQ_CAUSE (R479) and the configuration space as after reset; nothing else changes.
(DEDUCED, log entry 62.) -/
def hostReset (d : Dev) : Dev :=
  let d := (List.range 7).foldl (fun (d : Dev) rr =>
    let a := HI_RING_CFG rr
    d.hwN a ((d.rd a).toNat / 2 * 2)) d
  { d with hi := { d.hi with rings := [], outq := [], fetchq := [], mbx := {}, msix := [], pba := 0, cause := 0, pci := {} } }

/-- PCIE_LINK_TRAINING (R402, R404, R444): the link comes up, with a partner that has FLIT mode, or goes down, at a width and
a rate; the function takes the configuration written to it, an entry to D3hot resets the host interface, messages that are
no longer masked are sent, and so is a vector 13 that waits for the link. (PRESUMED, log entry 161.) -/
def pcieLink (e : LinkEv) (width rate : Nat) (d : Dev) : Dev :=
  if d.pm.held then d
  else
    let up := e.up && e.flit
    let d := if e.cfg.d3hot ∧ d.hi.pci.d3hot = false then hostReset d else d
    let hi := { d.hi with
      linkUp := up, pci := e.cfg, width := if up then width % 4 else 0, rate := if up then min 5 rate else 0 }
    let d := (List.range 64).foldl (fun (d : Dev) v => d.msixRelease v) { d with hi := hi }
    if up ∧ d.hi.due13 then ({ d with hi := { d.hi with due13 := false } } : Dev).irq 13 else d

/-! ### Rails and clocks (R452, R455, R460) -/

/-- A report of the power manager: device-fatal, source 0x33. -/
def Dev.powerFatal (d : Dev) : Dev := if d.pm.held then d else d.report { src := 0x33, unit := unitOf 6 0 }

/-- RAIL_EXCURSION (R452): a rail has been outside its window for 1 µs. In reset the rails may fall in any order (R454). -/
def railExcursion (rail : Nat) (d : Dev) : Dev :=
  if 6 ≤ rail then d
  else
    let d := d.setRail rail false
    if rail ≤ 1 then d.powerFatal
    else if rail = 2 then if d.pm.held then d else d.islandFatal 4
    else d.bump PM_RAIL_WARN

/-- RAIL_RETURN (R452, R455): a rail is back within its window. An island that was reset waits for a load. -/
def railReturn (rail : Nat) (d : Dev) : Dev := if 6 ≤ rail then d else d.setRail rail true

/-- ROOT_PLL_LOSS (R460): the root PLL loses lock, or REFCLK is missing. -/
def rootPllLoss (refclk : Bool) (d : Dev) : Dev :=
  ({ d with pm := { d.pm with rootLock := false, refclk := d.pm.refclk && !refclk } } : Dev).powerFatal

/-! ### Temperature (R465 to R469) -/

/-- The hottest of readings 0 to 15, and the first sensor that gave it. -/
def hottest (l : List Int) : Int × Nat :=
  (((l.take 16).zip (List.range 16)).drop 1).foldl (fun a p => if p.1 > a.1 then p else a) (l.headD 0, 0)

/-- THERMAL_READ (R465, R469): the 17 sensors' readings, in units of 0.125 °C. A reading of sensors 0 to 15 at or above
TSHUT on two consecutive reads, of one sensor or of two, is device-fatal; of sensor 16, a fault of the island. -/
def thermalRead (l : List Int) (d : Dev) : Dev :=
  if d.pm.held then d
  else
    let shut : Int := (d.rf PM_THERM_CFG 18 11 : Nat)
    let (t, w) := hottest l
    let shutNow : BitVec 17 := (l.zip (List.range 17)).foldl (fun m p =>
      if p.1 ≥ shut then m ||| BitVec.ofNat 17 (2 ^ p.2) else m) 0
    let d := (l.zip (List.range 17)).foldl (fun (d : Dev) p => d.hwN (PM_THERM_TEMP p.2) (wrapN 12 p.1)) d
    let d := d.hwN PM_THERM_STATUS (d.pm.level + 16 * wrapN 12 t + 65536 * w + 2 ^ 20 * b2n (decide (t > 1000)))
    let hot := match d.pm.hot with
      | none => t
      | some h => max h t
    let old := d.pm.atShut
    let d := { d with pm := { d.pm with atShut := shutNow, hot := if d.tm.op then some hot else none } }
    let d := if shutNow.toNat % 65536 ≠ 0 ∧ old.toNat % 65536 ≠ 0 then d.powerFatal else d
    if shutNow.getLsbD 16 && old.getLsbD 16 then d.islandFatal 4 else d

/-- The derate level at the boundary that opens a frame (R467): from the hottest reading since the last frame's opening,
and the shed limits of the frame. -/
def Dev.derateStep (d : Dev) : Dev :=
  if d.rf PM_THERM_CFG 0 1 = 0 then { d with pm := { d.pm with hot := none }, ig := { d.ig with derate := 0 } }
  else
    let lo : Int := (d.rf PM_THERM_CFG 1 11 : Nat)
    let hy : Int := (d.rf PM_THERM_CFG 12 6 : Nat)
    let l := match d.pm.hot with
      | none => d.pm.level
      | some t => if t ≥ lo ∧ d.pm.level < 8 then d.pm.level + 1
        else if t < lo - hy ∧ 0 < d.pm.level then d.pm.level - 1 else d.pm.level
    let d := if l = d.pm.level then d else d.bump PM_DERATE_STEPS
    let d := if l = 0 then d else d.bump PM_DERATE_FRAMES
    let d := { d with pm := { d.pm with level := l, hot := none }, ig := { d.ig with derate := l } }
    d.hwN PM_THERM_STATUS ((d.rd PM_THERM_STATUS).toNat / 16 * 16 + l)

end Sys2Proof.Machine
end

