-- ==== Sys2Proof/Machine/View.lean ====
section
/-! DEFINITION. What a read of a BAR0 register returns (R7 to R13, R472 to R479 and the register tables of the chapters):
registers that show state are computed from it, the others return what they hold. -/

namespace Sys2Proof.Machine

/-- The number of an instance that an address names, of n at a stride. -/
def instOf (base s n a : Nat) : Option Nat :=
  if base ≤ a ∧ (a - base) % s = 0 ∧ (a - base) / s < n then some ((a - base) / s) else none

/-- The low word of a number. -/
def loW (n : Nat) : Word := BitVec.ofNat 32 n
/-- The high word of a number. -/
def hiW (n : Nat) : Word := BitVec.ofNat 32 (n / 2 ^ 32)

/-- BT_STATUS (R450). STATE reads operational once the device has entered it. (DEDUCED, log entry 100.) -/
def Dev.btStatus (d : Dev) : Nat :=
  let st := if d.bt.state ≠ 0 then d.bt.state else b2n d.tm.op
  st + 8 * b2n d.bt.locked + 16 * b2n d.bt.idFail + 32 * d.bt.lifecycle + 256 * d.bt.reason + 65536 * d.bt.entry

/-- CS_FLT_STATUS (R362). -/
def Dev.fltStatus (d : Dev) : Nat := b2n d.flt.rolling + 2 * b2n d.flt.restarting + 4 * b2n d.flt.fatal

/-- HI_GLB_STATUS (R477). -/
def Dev.glbStatus (d : Dev) : Nat :=
  let si := (d.rd SI_STATUS).toNat
  d.btStatus % 16 + 16 * b2n d.xs.ready + 32 * bits si 6 1 + 64 * bits si 0 2 + 256 * b2n d.flt.rolling +
    512 * b2n d.flt.restarting + 1024 * b2n (d.flt.fatal || bitOf si 7) + 2048 * b2n d.tm.aligned + 4096 * d.pm.level

/-- The fault registers of a core (R478). -/
def coreFaults (c : Nat) : List Nat := [MA_CORE_FAULT c, TP_CORE_FAULT c, CO_CORE_FAULT c, AG_CORE_FAULT c]

/-- HI_FLT_SUMMARY (R478). -/
def Dev.fltSummary (d : Dev) : Nat :=
  let any (l : List Nat) : Bool := l.any (fun a => decide (d.rd a ≠ 0))
  let per (f : Nat → Nat) (n : Nat) : List Nat := (List.range n).map f
  let si := (d.rd SI_STATUS).toNat
  b2n (any (per MA_CORE_FAULT 32)) + 2 * b2n (any (per TP_CORE_FAULT 32)) + 4 * b2n (any (per CO_CORE_FAULT 32)) +
    8 * b2n (any (per AG_CORE_FAULT 32)) + 16 * b2n (any (per CS_CREW_FAULT 4)) + 32 * b2n (any [ET_FAULT]) +
    64 * b2n ((per RL_LINK_STATUS 3).any (fun a => bitOf (d.rd a).toNat 14)) +
    128 * b2n ((per WW_STATE 12).any (fun a => decide (d.rf a 0 2 = 3))) +
    256 * b2n (decide (bits si 0 2 = 3) || bitOf si 7)

/-- HI_FLT_CORES (R478). -/
def Dev.fltCores (d : Dev) : Nat :=
  ((List.range 32).map (fun c => b2n ((coreFaults c).any (fun a => decide (d.rd a ≠ 0))) * 2 ^ c)).sum

/-- The global page (R476 to R479). -/
def Dev.viewGlobal (d : Dev) (a : Nat) : Word :=
  if a = HI_DEV_SERIAL_LO then loW (memNat d.bt.fuse fuseSerial 8)
  else if a = HI_DEV_SERIAL_HI then hiW (memNat d.bt.fuse fuseSerial 8)
  else if a = HI_GLB_STATUS then loW d.glbStatus
  else if a = HI_GLB_STROKE_LO then (if d.tm.op then loW d.tm.stroke.toNat else 0)
  else if a = HI_GLB_STROKE_HI then (if d.tm.op then hiW d.tm.stroke.toNat else 0)
  else if a = HI_GLB_FRAME then (if d.tm.op then loW d.tm.frame.toNat else 0)
  else if a = HI_FLT_SUMMARY then loW d.fltSummary
  else if a = HI_FLT_CORES then loW d.fltCores
  else if a = HI_IRQ_CAUSE then d.hi.cause
  else d.rd a

/-- Cell memory (R120). -/
def Dev.viewCells (d : Dev) (a : Nat) : Word :=
  if a = CM_WINDOW_X then BitVec.ofInt 32 d.cm.ox
  else if a = CM_WINDOW_Y then BitVec.ofInt 32 d.cm.oy
  else if a = CM_TARGET_X then BitVec.ofInt 32 d.target.1
  else if a = CM_TARGET_Y then BitVec.ofInt 32 d.target.2
  else if a = CM_STATUS then d.cmStatus
  else d.rd a

/-- MA_COREnn_STATUS (R149). -/
def Dev.maStatus (d : Dev) (c : Nat) : Nat :=
  let k := d.core c
  let running (arr h : Nat) : Option Job := (k.tgt (2 * arr + (if k.isSplit arr then h else 0))).run
  let live (j : Option Job) : Bool := j.isSome
  ((List.range 4).map (fun i => b2n (k.isSplit i) * 2 ^ i + (b2n (live (running i 0)) + 2 * b2n (live (running i 1))) *
    2 ^ (4 + 2 * i))).sum + 4096 * b2n ((List.range 4).any (fun i =>
      match running i 0 with
      | some j => j.trans
      | none => false))

/-- The arrays (R149). -/
def Dev.viewArrays (d : Dev) (a : Nat) : Word :=
  match instOf (MA_CORE_STATUS 0) 0x400 32 a, instOf (MA_CORE_LEVEL 0) 0x400 32 a with
  | some c, _ => loW (d.maStatus c)
  | _, some c => loW (((List.range 4).map (fun i => ((d.vol c).arr i).level * 16 ^ i)).sum)
  | _, _ => d.rd a

/-- TP_COREnn_RINGkk_STAT (R181). -/
def Dev.viewRings (d : Dev) (a : Nat) : Word :=
  let c := (a - 0x50000) / 0x400
  let o := (a - 0x50000) % 0x400
  match instOf 0x10C 0x10 32 o with
  | some k =>
    let r := (d.core c).ring k
    if c < 32 then loW (r.head + 2 ^ 12 * r.pep + 2 ^ 16 * r.tail + 2 ^ 28 * r.cep) else d.rd a
  | none => d.rd a

/-- WP_COREnn_CREDIT_AVAIL (R182). -/
def Dev.viewCredit (d : Dev) (a : Nat) : Word :=
  match instOf (WP_CORE_CREDIT_AVAIL 0) 0x400 32 a with
  | some c =>
    let s := WP_CORE_CREDIT_SEL c
    loW (d.credLeft c (16 * (if d.rf s 9 1 = 1 then 32 else d.rf s 0 5) + d.rf s 5 4))
  | none => d.rd a

/-- CO_COREnn_CTXx (R309). -/
def TurnCtx.view (t : TurnCtx) : Nat :=
  match t.bound, t.grp with
  | true, some g =>
    (if t.null then 0 else min 128 g.count) + 2 ^ 8 * (g.n % 128) + 2 ^ 15 * b2n t.null + 2 ^ 16 * (t.level % 4) + 2 ^ 18
  | true, none => 2 ^ 15 * b2n t.null + 2 ^ 16 * (t.level % 4) + 2 ^ 18
  | false, _ => 0

/-- CO_COREnn_STATUS (R309). -/
def Dev.coStatus (d : Dev) (c : Nat) : Nat :=
  let (b, p, r) := d.bundlePos (c / 8) (d.crew (c / 8)).pos
  let k := d.core c
  b + 2 ^ 11 * p + 2 ^ 15 * r + 2 ^ 19 * ((List.range 4).map (fun x =>
    let t : TurnCtx := smGet (fun _ => {}) k.ctx x
    b2n (t.bound && t.null) * 2 ^ x)).sum + 2 ^ 23 * b2n k.dig.isSome

/-- The core controllers (R309). -/
def Dev.viewCtl (d : Dev) (a : Nat) : Word :=
  let c := (a - 0x70000) / 0x400
  let o := (a - 0x70000) % 0x400
  if 32 ≤ c then d.rd a
  else if o = 0 then loW (d.coStatus c)
  else
    match instOf 0x10 4 4 o with
    | some x => loW (TurnCtx.view (smGet (fun _ => {}) (d.core c).ctx x))
    | none => d.rd a

/-- AG_COREnn_QUEUE (R210). -/
def Dev.viewQueue (d : Dev) (a : Nat) : Word :=
  match instOf (AG_CORE_QUEUE 0) 0x400 32 a with
  | some c => loW ((d.core c).descq.length + 2 ^ 15 * (d.core c).outstanding)
  | none => d.rd a

/-- Groups queued in a crew and not bound (R235). -/
def Dev.crewQueued (d : Dev) (k : Nat) : Nat := ((List.range 5).map (fun l => d.cw.seq.queued k l)).sum

/-- Group slots held by a crew (R235). -/
def Dev.crewSlots (d : Dev) (k : Nat) : Nat := ((List.range 8).map (fun i => d.slotsUsed (8 * k + i))).sum

/-- CS_REC_CTRL (R9, R234): MODE, and the W1S bits: ARM reads 1 while the session is armed, or, written during a session,
until that has ended, STOP until the frame boundary that answers it, ABORT until the next ARM. (DESIGN CHOICE, log entry
102.) -/
def RecSt.ctrl (r : RecSt) : Nat :=
  r.mode + 4 * b2n (decide (r.state = 1) || (decide (r.state = 2) && r.armSet)) + 8 * b2n r.stopReq + 16 * b2n r.abortSet

/-- The crew sequencers and the fault controller (R234, R235, R362). -/
def Dev.viewCrews (d : Dev) (a : Nat) : Word :=
  if a = CS_REC_CTRL then loW d.lg.ctrl
  else if a = CS_REC_STATUS then loW (d.lg.state + 8 * d.lg.lastAbort)
  else if a = CS_REC_HEAD then loW d.lg.head
  else if a = CS_REC_TAIL then loW d.lg.tail
  else if a = CS_FLT_STATUS then loW d.fltStatus
  else if a = CS_FLT_LOG_POS then loW d.flt.logPos
  else if a = CS_FLT_LOG_SEQ_LO then loW d.flt.logSeq
  else if a = CS_FLT_LOG_SEQ_HI then hiW d.flt.logSeq
  else
    match instOf (CS_CREW_STATUS 0) 0x100 4 a, instOf (CS_CREW_SLOTS 0) 0x100 4 a, instOf (CS_CORE_JRNL_FILL 0) 0x40 32 a with
    | some k, _, _ => loW ((d.crew k).pos % 2048 + 2 ^ 11 * b2n (d.crew k).waiting + 2 ^ 16 * d.crewQueued k)
    | _, some k, _ => loW (d.crewSlots k)
    | _, _, some c => loW (d.vol c).jfill
    | _, _, _ => d.rd a

/-- Embedding tables (R256, R257). The W1S bits ABORT (R9) read 1 from their write up to the boundary that carries the
abort out (R247, R250, R254; DESIGN CHOICE, log entry 102). -/
def Dev.viewTables (d : Dev) (a : Nat) : Word :=
  if a = ET_ADAPT_STATUS then loW (d.et.adStat + 8 * d.et.adLastAb)
  else if a = ET_ADAPT_CTRL then loW (b2n d.et.adAbort)
  else
    match instOf (ET_TABLE_STATUS 0) 0x40 64 a, instOf (ET_TABLE_CTRL 0) 0x40 64 a with
    | some t, _ => d.tableStatus t
    | _, some t => loW (b2n (d.et.aborts.contains t))
    | _, _ => d.rd a

/-- The island's mirrors (R344): SI_PARAM returns THRESHOLDS as the island holds them, each word with its complement. -/
def Dev.viewIsland (d : Dev) (a : Nat) : Word :=
  match instOf (SI_PARAM 0) 4 2048 a with
  | some n => if n % 2 = 0 then d.si.word (n / 2) else if d.si.loaded then d.si.compl (n / 2) else 0
  | none => d.rd a

/-- The time base (R380): RAW and NOW at raw time `raw`. -/
def Dev.viewTime (d : Dev) (raw a : Nat) : Word :=
  let now := wrapN 96 (d.corrected raw)
  let off := wrapN 96 d.tm.offset
  let rate := wrapN 64 d.tm.rate
  let m := wrapN 64 d.tm.lastM
  if a = TB_STATUS then loW (b2n d.tm.locked + 2 * b2n d.tm.holdover + 4 * b2n d.tm.aligned)
  else if a = TB_RAW_LO then loW (raw / 3)
  else if a = TB_RAW_HI then hiW (raw / 3)
  else if a = TB_NOW_FRAC then loW now
  else if a = TB_NOW_LO then hiW now
  else if a = TB_NOW_HI then hiW (now / 2 ^ 32)
  else if a = TB_OFFSET_FRAC then loW off
  else if a = TB_OFFSET_LO then hiW off
  else if a = TB_OFFSET_HI then hiW (off / 2 ^ 32)
  else if a = TB_RATE_LO then loW rate
  else if a = TB_RATE_HI then hiW rate
  else if a = TB_LAST_M_LO then loW m
  else if a = TB_LAST_M_HI then hiW m
  else if a = TB_STROKE_OFFSET_LO then loW d.tm.strokeOff.toNat
  else if a = TB_STROKE_OFFSET_HI then hiW d.tm.strokeOff.toNat
  else
    match instOf (TB_CAP_STAT 0) 0x20 24 a with
    | some n => d.captStat n
    | none => d.rd a

/-- Regatta (R400). -/
def Dev.viewRegatta (d : Dev) (a : Nat) : Word :=
  if a = RL_CFG then loW (d.rl.chip + 4 * d.rl.countM1 + 16 * d.rf RL_CFG 4 4) else d.rd a

/-- The host interface (R418). -/
def Dev.viewHost (d : Dev) (a : Nat) : Word :=
  if a = HI_STATUS then
    loW (d.hi.width + 4 * d.hi.rate + 32 * b2n d.hi.linkUp + 64 * b2n d.hi.maint + 128 * b2n d.flt.fatal)
  else if a = HI_MBX_STATUS then loW d.hi.mbx.state
  else if a = HI_MBX_RES0 then d.hi.mbx.res0
  else if a = HI_MBX_RES1 then d.hi.mbx.res1
  else
    match instOf (HI_RING_PROD 0) 0x40 7 a, instOf (HI_RING_CONS 0) 0x40 7 a with
    | some rr, _ => (d.ring rr).prod
    | _, some rr => (d.ring rr).cons
    | _, _ => d.rd a

/-- Power (R470). -/
def Dev.viewPower (d : Dev) (a : Nat) : Word :=
  let r (i : Nat) : Nat := b2n (d.pm.rails.getLsbD i)
  if a = PM_STATUS then
    loW (r 0 + 2 * r 1 + 4 * r 3 + 8 * r 4 + 16 * r 5 + 32 * b2n d.pm.rootLock + 64 * b2n d.pm.refclk)
  else if a = PM_RESET_CAUSE then loW d.pm.cause
  else if a = PM_STRAPS then loW (d.pm.chipSel + 4 * d.pm.chipCntM1 + 16 * b2n d.pm.maintN)
  else d.rd a

/-- A _C register: the complement of the pair's value as it is read (R13). -/
def Dev.viewCompl (d : Dev) (a mask : Nat) : Word := (~~~(d.rd (a - 4))) &&& BitVec.ofNat 32 mask

/-- What a read of the register at an address returns, at raw time `raw`. -/
def Dev.view (d : Dev) (raw a : Nat) : Word :=
  match regRow a with
  | none => 0
  | some r =>
    if r.cMask ≠ 0 then d.viewCompl a r.cMask
    else match a / 65536 with
    | 0 => d.viewGlobal a
    | 1 =>
      match instOf (IG_STREAM_STAT 0) 0x100 48 a with
      | some n => d.streamStat n
      | none => d.rd a
    | 3 => d.viewCells a
    | 4 => d.viewArrays a
    | 5 => d.viewRings a
    | 6 => d.viewCredit a
    | 7 => d.viewCtl a
    | 8 => d.viewQueue a
    | 9 => d.viewCrews a
    | 10 => d.viewTables a
    | 11 => d.viewIsland a
    | 13 => d.viewTime raw a
    | 14 => d.viewRegatta a
    | 15 => d.viewHost a
    | 17 => if a = BT_STATUS then loW d.btStatus else d.rd a
    | 18 => d.viewPower a
    | _ => d.rd a

end Sys2Proof.Machine
end

