-- ==== Sys2Proof/Machine/Host.lean ====
section
/-! DEFINITION. The host's accesses (R7 to R13, R402 to R417, R446 to R449, R472 to R480): writes and reads of BAR0 and BAR2,
complement-checked pairs, the mailbox and its commands, the flash, attestation, interrupts. -/

namespace Sys2Proof.Machine

/-! ### Counters and the MSI-X table -/

/-- The counter that an address lies in, and the byte within its 16 (R67). -/
def ctrHit (a : Nat) : Option (Nat × Nat) :=
  match (ctrPage (a / 65536)).find? (fun r =>
      decide (r.base ≤ a) && decide ((a - r.base) / (max r.s 16) < r.n) && decide ((a - r.base) % (max r.s 16) < 16)) with
  | some r => some (r.base + (a - r.base) / (max r.s 16) * (max r.s 16), (a - r.base) % (max r.s 16))
  | none => none

/-- COUNTER_CLEAR (R10): a write of 1 to CLR of the counter at `a`. The counters of the island and of the watchdogs are
mirrors and take no write (R312, R346). -/
def counterClear (a : Nat) (d : Dev) : Dev :=
  match ctrHit a with
  | some (b, _) => if islandAddr a then d else d.ctrClear b
  | none => d

/-- A word of the MSI-X table written; a pending vector whose mask clears is sent (R416). -/
def Dev.msixWrite (d : Dev) (i : Nat) (v : Word) : Dev :=
  let v := if i % 4 = 0 then v &&& 0xFFFFFFFC else if i % 4 = 3 then v &&& 1 else v
  let d := { d with hi := { d.hi with msix := smSet msixReset d.hi.msix i v } }
  if i % 4 = 3 then d.msixRelease (i / 4) else d

/-! ### Complement-checked pairs (R13, R349) -/

/-- The mask of the fields of a pair whose value lies at an address, if a pair's value lies there.
(DEDUCED, log entry 7.) -/
def pairMask (a : Nat) : Option Nat :=
  match regRow (a + 4) with
  | some r => if r.cMask = 0 ∨ (regRow a).isNone then none else some r.cMask
  | none => none

/-- An input logged as REG_WRITE (R229). (DEDUCED, log entry 64.) -/
def Dev.logReg (d : Dev) (s : Stroke) (a : Nat) (v : Word) : Dev :=
  d.logIn { stroke := s, type := 3, payload := toLE 4 a ++ toLE 4 v.toNat }

/-- A commit pair of a table accepted (R245): it replaces one that is pending. (DEDUCED, log entry 70.) -/
def Dev.takeCommit (d : Dev) (t : Nat) (v : Word) : Dev :=
  { d with et := { d.et with
    commits := d.et.commits.filter (fun c => decide (c.1 ≠ t)) ++ [(t, v)]
    opStat := smSet (fun _ => 0) d.et.opStat t 1 } }

/-- A pair accepted (R13): reads return it from now on, and the next boundary applies it. -/
def Dev.pairTake (d : Dev) (a : Nat) (v : Word) : Dev :=
  let d := d.hw a v
  let d := { d with reg := { d.reg with acc := d.reg.acc.filter (fun x => decide (x ≠ a)) ++ [a] } }
  match instOf (ET_TABLE_COMMIT 0) 0x40 64 a with
  | some t => d.takeCommit t v
  | none => d.logReg (sAdd d.tm.stroke 1) a v

/-- A write of a pair's value: held pending (R13). -/
def Dev.pairValue (d : Dev) (a : Nat) (v : Word) : Dev :=
  { d with reg := { d.reg with pend := smSet (fun _ => none) d.reg.pend a (some v) } }

/-- A write of a pair's complement (R13): a match accepts the pending value; otherwise it is discarded, and a complement
fault is raised (R349). -/
def Dev.pairCompl (d : Dev) (a mask : Nat) (v : Word) : Dev :=
  let p := smGet (fun _ => (none : Option Word)) d.reg.pend a
  let d := { d with reg := { d.reg with pend := smSet (fun _ => none) d.reg.pend a none } }
  let m : Word := BitVec.ofNat 32 mask
  match p with
  | some w =>
    if (w ^^^ v) &&& m = m then d.pairTake a (w &&& m)
    else (d.bump FLT_CMPL_WRITE).report { src := 0x08, unit := unitOf 7 0 }
  | none => (d.bump FLT_CMPL_WRITE).report { src := 0x08, unit := unitOf 7 0 }

/-! ### Writes of a register (R9, R11, R474) -/

/-- The stroke at whose boundary the next frame begins, in the stroke in progress (R21). -/
def Dev.nextFrame (d : Dev) : Stroke :=
  if d.tm.framed then sAdd d.tm.frameAt d.frameLen else sAdd d.tm.stroke (1000 - d.tm.stroke.toNat % 1000)

/-- The registers whose host writes are logged at the write, and ignored in a replay (R229, R233). -/
def loggedReg (a : Nat) : Bool :=
  [IG_STREAM_MASK_LO, IG_STREAM_MASK_HI, CM_POSE_X_LO, CM_POSE_X_HI, CM_POSE_Y_LO, CM_POSE_Y_HI, AG_BEV_COS, AG_BEV_SIN,
    CS_CFG].contains a

/-- A write by the access codes of the fields (R9); in a configuration of 3 or 4 chips a write to DIGEST_EN is ignored
(R226). -/
def Dev.regStore (d : Dev) (r : RegRow) (a : Nat) (v : Word) : Dev :=
  let rw : Word := BitVec.ofNat 32 r.rw &&& d.digestMask a
  let w1c : Word := BitVec.ofNat 32 r.w1c
  let old := d.rd a
  d.hw a (((old &&& ~~~rw) ||| (v &&& rw)) &&& ~~~(v &&& w1c))

/-- CS_REC_CTRL written (R234): a MODE of 3 is rejected, and MODE keeps its value. (DEDUCED, log entry 65.) One write that
sets several of ARM, STOP and ABORT carries them out in this order. (DESIGN CHOICE, log entry 102.) -/
def Dev.recCtrl (d : Dev) (v : Word) : Dev :=
  let d := if d.lg.state = 1 ∨ d.lg.state = 2 ∨ fld v 0 2 = 3 then d else { d with lg := { d.lg with mode := fld v 0 2 } }
  let d := if bitOf v.toNat 2 then recArm (fld v 0 2) d else d
  let d := if bitOf v.toNat 3 then recStop d else d
  if bitOf v.toNat 4 then recAbort d else d

/-- Whether a trigger write breaks R376 or R380: MODE 5 to 7, a PERIOD of 0 in modes 2 and 3, a WIDTH outside its range,
or a MODE that would drive pulses of such a WIDTH. -/
def Dev.trigBad (d : Dev) (n a : Nat) (v : Word) : Bool :=
  let per (m : Nat) : Bool := decide (m = 2) || decide (m = 3)
  if a = TB_TRIG_CFG n then
    decide (fld v 0 3 ≥ 5) || (per (fld v 0 3) && decide (d.rd (TB_TRIG_PERIOD n) = 0)) ||
      (decide (fld v 0 3 ≠ 0) && !widthOk (d.rf (TB_TRIG_WIDTH n) 0 24))
  else if a = TB_TRIG_WIDTH n then !widthOk (fld v 0 24)
  else decide (a = TB_TRIG_PERIOD n) && decide (v = 0) && per (d.rf (TB_TRIG_CFG n) 0 3)

/-- A trigger register written (R378): the trigger notes a write of its CFG. -/
def Dev.trigStore (d : Dev) (r : RegRow) (n a : Nat) (v : Word) : Dev :=
  let d := d.regStore r a v
  if a = TB_TRIG_CFG n then d.setTrg n { d.trg n with wrote := true } else d

/-- Whether a write of a ring's BASE or STAT meets a locked ring (R407). -/
def Dev.ringBarred (d : Dev) (a : Nat) : Bool :=
  if HI_RING_CFG 0 ≤ a ∧ a < HI_RING_CFG 7 then
    let rr := (a - HI_RING_CFG 0) / 0x40
    let o := (a - HI_RING_CFG 0) % 0x40
    (d.ring rr).locked && decide (4 ≤ o) && decide (o ≤ 0x10)
  else false

/-- A write of a register with no effect beside the value it takes, or of one that a rule of its own governs.
(DEDUCED, log entry 74.) -/
def Dev.regPlain (d : Dev) (r : RegRow) (a : Nat) (v : Word) : Dev :=
  if d.ringBarred a then d
  else
    match instOf (TB_TRIG_CFG 0) 0x20 24 (a / 32 * 32) with
    | some n => if d.trigBad n a v then d else d.trigStore r n a v
    | none => d.regStore r a v

/-- The mailbox command register (R414): the command's effect, defined below, is passed in. -/
def Dev.regSpecial (d : Dev) (mbx : Nat → Dev → Dev) (a : Nat) (v : Word) : Option Dev :=
  if a = CS_REC_CTRL then some (d.recCtrl v)
  else if a = CS_REC_HEAD then
    some (if d.lg.recording then d else { d with lg := { d.lg with head := v.toNat } })
  else if a = CS_REC_TAIL then
    some (if d.lg.replaying then d else { d with lg := { d.lg with tail := v.toNat } })
  else if a = CM_POSE_COMMIT then some (if v.getLsbD 0 then poseCommit d else d)
  else if a = ET_ADAPT_CTRL then some (if v.getLsbD 0 then adaptAbort d else d)
  else if a = TB_ADJ_CTRL then some (if v.getLsbD 0 then timeAdjust d else d)
  else if a = HI_MBX_CMD then some (mbx (fld v 0 8) d)
  else if a = HI_IRQ_CAUSE then some { d with hi := { d.hi with cause := d.hi.cause &&& ~~~v } }
  else
    match instOf (ET_TABLE_CTRL 0) 0x40 64 a, instOf (HI_RING_CFG 0) 0x40 7 a, instOf (HI_RING_PROD 0) 0x40 7 a,
        instOf (HI_RING_CONS 0) 0x40 7 a with
    | some t, _, _, _ => some (if v.getLsbD 0 then tableAbort t d else d)
    | _, some rr, _, _ => some (ringCfgWrite rr v d)
    | _, _, some rr, _ => some (if rr = 5 then ringProdWrite v d else d)
    | _, _, _, some rr => some (if rr = 5 then d else ringConsWrite rr v d)
    | _, _, _, _ => none

/-- A write of the register at an address, in a row of the register table. -/
def Dev.regWrite (d : Dev) (mbx : Nat → Dev → Dev) (r : RegRow) (a : Nat) (v : Word) : Dev :=
  if r.cMask ≠ 0 then
    match regRow (a - 4) with
    | some q =>
      if q.bl ≠ 0 then d.bump BT_BL_IGNORED (b2n d.bt.locked)
      else if q.rw = 0 ∨ d.lg.replaying then d
      else d.pairCompl (a - 4) r.cMask v
    | none => d
  else if r.bl ≠ 0 then d.bump BT_BL_IGNORED (b2n d.bt.locked)
  else if (pairMask a).isSome then
    if r.rw = 0 ∨ d.lg.replaying then d else d.pairValue a v
  else
    match d.regSpecial mbx a v with
    | some d => d
    | none =>
      if loggedReg a then
        if d.lg.replaying then d
        else (d.regPlain r a v).logReg (if a = CS_CFG then d.nextFrame else sAdd d.tm.stroke 1) a v
      else d.regPlain r a v

/-- A 4-byte write to BAR0 (R406, R473). -/
def Dev.writeWord (d : Dev) (mbx : Nat → Dev → Dev) (a : Nat) (v : Word) : Dev :=
  if 0x2000 ≤ a ∧ a < 0x2400 then d.msixWrite ((a - 0x2000) / 4) v
  else if 0x3000 ≤ a ∧ a < 0x3008 then d
  else
    match ctrHit a, regRow a with
    | some (_, o), _ => if o = 12 then d.bump HI_BAR0_BAD else if o = 8 ∧ v.getLsbD 0 then counterClear a d else d
    | none, some r => d.regWrite mbx r a v
    | none, none => d.bump HI_BAR0_BAD

/-! ### Reads of BAR0 (R7, R406, R473) -/

/-- A word of BAR0, or none where nothing lies. (DESIGN CHOICE, log entry 63.) -/
def Dev.readWord (d : Dev) (raw a : Nat) : Option Word :=
  if 0x2000 ≤ a ∧ a < 0x2400 then some (smGet msixReset d.hi.msix ((a - 0x2000) / 4))
  else if a = 0x3000 then some (loW d.hi.pba.toNat)
  else if a = 0x3004 then some (hiW d.hi.pba.toNat)
  else
    match ctrHit a, regRow a with
    | some (b, o), _ =>
      let c := d.ctr b
      if o = 0 then some (loW c.v) else if o = 4 then some (hiW c.v) else if o = 8 then some (loW (2 * b2n c.ovf)) else none
    | none, some _ => some (d.view raw a)
    | none, none => none

/-- How many words above a low word its read captures (R7). -/
def capOf (a : Nat) : Nat :=
  match ctrHit a, regRow a with
  | some (_, o), _ => if o = 0 then 1 else 0
  | none, some r => r.cap
  | none, none => 0

/-- The upper words that the read of a word captures (R7, R380), but for the first `skip` of them. -/
def Dev.captures (d : Dev) (req raw a skip : Nat) : Dev :=
  ((List.range (capOf a)).drop skip).foldl (fun d i =>
    d.setCapt4 req (a + 4 * (i + 1)) (d.readWord raw (a + 4 * (i + 1)))) d

/-- The word that stands at an address as a read takes it: of a capture input's VAL the words of the oldest entry
(R380), where the store has been emptied a free value. -/
def Dev.takeWord (d : Dev) (raw a : Nat) : Option Word × Dev :=
  match instOf (TB_CAP_VAL_LO 0) 0x20 24 a, instOf (TB_CAP_VAL_HI 0) 0x20 24 a with
  | some n, _ => (some (loW (d.captVal n).1), (d.captVal n).2)
  | _, some n => (some (hiW (d.captVal n).1), (d.captVal n).2)
  | _, _ => (d.readWord raw a, d)

/-- A 4-byte read (R7): a word captured for this requester is returned once; the word as it stands otherwise. -/
def Dev.read4 (d : Dev) (req raw a : Nat) : Dev :=
  match instOf (TB_CAP_VAL_LO 0) 0x20 24 a with
  | some n => captureRead req n d
  | none =>
    match smGet (fun _ => (none : Option Word)) d.reg.capt (captKey req a) with
    | some w => (d.setCapt4 req a none).emit (.readData (toLE 4 w.toNat))
    | none =>
      match d.takeWord raw a with
      | (some w, d) => (d.captures req raw a 0).emit (.readData (toLE 4 w.toNat))
      | (none, d) => (d.bump HI_BAR0_BAD).emit (.readData (zeros 4))

/-- An 8-byte read (R7): both words at once; a value wider than 64 bits captures the rest. Where the upper word is the
VAL_LO of a capture input, the read removes its oldest entry and captures VAL_HI, as a 4-byte read of it does. -/
def Dev.read8 (d : Dev) (req raw a : Nat) : Dev :=
  let (lo, d) := d.takeWord raw a
  let (hi, d, v) := match instOf (TB_CAP_VAL_LO 0) 0x20 24 (a + 4) with
    | some n =>
      let (v, d) := d.captVal n
      (some (loW v), (d.captPop n), some (n, hiW v))
    | none =>
      let (w, d) := d.takeWord raw (a + 4)
      (w, d, none)
  let d := if lo.isNone ∨ hi.isNone then d.bump HI_BAR0_BAD else d
  let d := d.captures req raw a 1
  let d := match v with
    | some (n, w) => d.setCapt4 req (TB_CAP_VAL_HI n) (some w)
    | none => d
  d.emit (.readData (toLE 4 (lo.getD 0).toNat ++ toLE 4 (hi.getD 0).toNat))

/-- Whether an access to BAR0 has a legal size and alignment (R406). -/
def bar0Ok (a size : Nat) : Bool := (decide (size = 4) || decide (size = 8)) && decide (a % size = 0) && decide (a < 2 ^ 28)

/-- REG64_LOW_READ (R7): a read of BAR0 by a requester, at raw time `raw`. -/
def bar0Read (req a size raw : Nat) (d : Dev) : Dev :=
  if d.pm.held then d
  else if bar0Ok a size = false then
    (d.bump HI_BAR0_BAD).emit (.readData (List.replicate size 0xFF))
  else if size = 4 then d.read4 req raw a
  else d.read8 req raw a

/-- BAR0_BAD_READ (R406, R473): a read that breaks the size or alignment rule answers all ones, one where nothing lies
answers zero; both are counted. A read that breaks neither is not this event. -/
def bar0BadRead (a size : Nat) (d : Dev) : Dev :=
  if d.pm.held then d
  else if bar0Ok a size = false then (d.bump HI_BAR0_BAD).emit (.readData (List.replicate size 0xFF))
  else if size = 4 then if (d.readWord 0 a).isNone then d.read4 0 0 a else d
  else if (d.readWord 0 a).isNone ∨ (d.readWord 0 (a + 4)).isNone then d.read8 0 0 a else d

/-! ### The flash and the mailbox (R414, R434 to R436, R448) -/

/-- An argument of the mailbox. -/
def Dev.mbxArg (d : Dev) (n : Nat) : Nat := (d.rd (HI_MBX_ARG n)).toNat

/-- The buffer's host address. -/
def Dev.mbxBuf (d : Dev) : Nat := d.mbxArg 0 + 2 ^ 32 * d.mbxArg 1

/-- In the operational state, for the mailbox. -/
def Dev.operational (d : Dev) : Bool := d.tm.op && !d.hi.maint

/-- The report of R448 without its signature. -/
def Dev.report448 (d : Dev) (nonce : List Byte) : List Byte :=
  let b := d.bt
  let img := !b.header.isEmpty
  let st := if b.state ≠ 0 then b.state else b2n d.tm.op
  let prot := toLE 4 (d.rd BT_PROT_CFG).toNat ++ (List.range 16).flatMap (fun n =>
    toLE 4 (d.rd (BT_PROT_WIN_BASE n)).toNat ++ toLE 4 (d.rd (BT_PROT_WIN_LIMIT n)).toNat)
  let si := if d.operational then d.hi.siAt else d.rd SI_STATUS
  toLE 4 0x5441534C ++ toLE 2 1 ++ toLE 2 512 ++ toLE 2 0x8640 ++ toLE 1 (d.rf HI_DEV_ID 16 8) ++ toLE 1 st ++
    toLE 1 b.reason ++ toLE 1 b.lifecycle ++ toLE 1 (d.rl.chip + 4 * d.rl.countM1) ++
    toLE 1 (if img then hdrLevel b.header else 0xFF) ++ b.fuseAt fuseSerial 8 ++ (nonce ++ zeros 32).take 32 ++
    (if img then (b.meas ++ zeros 64).take 64 else zeros 64) ++
    (if b.closed then toLE 64 b.keyHash else zeros 64) ++ sha512 prot ++
    toLE 4 (if img then hdrSv b.header else 0) ++ toLE 4 b.minSv ++
    toLE 8 (if d.operational then d.tm.stroke.toNat else 0) ++ toLE 8 (d.nsAt d.tm.raw) ++ toLE 4 d.flt.boots ++
    toLE 4 si.toNat ++ (b.idPk ++ zeros 32).take 32 ++ b.fuseAt fuseCert 64 ++ zeros 72

/-- The report with the signature that the key store makes (R441, R448). -/
def Dev.attestation (d : Dev) (nonce : List Byte) : List Byte :=
  let r := d.report448 nonce
  let sig := ed25519Sign (d.bt.idSeed.getD []) (ascii "LS8640-ATTEST" ++ r)
  r ++ sig

/-- A flash range in an undefined state (R414). -/
def Dev.flashLost (d : Dev) (off n : Nat) : Dev :=
  let (bs, d) := d.freeBytes n
  { d with bt := d.bt.flashWrite off bs }

/-- Bytes programmed into a NOR flash: a program clears bits and sets none. (PRESUMED, log entry 72.) -/
def programBytes (old data : List Byte) : List Byte := List.zipWith (fun a b => a &&& b) old data

/-- GET_ATTESTATION's effect (R448, R449): result code and state. -/
def Dev.mbxAttest (d : Dev) : Nat × Dev :=
  if (d.operational || d.hi.maint) = false ∨ d.bt.idFail then (4, d)
  else if d.mbxBuf % 4096 ≠ 0 then (5, d)
  else
    let d := d.hostWrite d.mbxBuf (d.attestation (memRead d.hi.mem d.mbxBuf 32))
    (2, { d with hi := { d.hi with mbx := { d.hi.mbx with res0 := 512 } } })

/-- GET_IMAGE_INFO's effect (R414). -/
def Dev.mbxInfo (d : Dev) : Nat × Dev :=
  if d.operational = false then (4, d)
  else if d.mbxBuf % 4096 ≠ 0 then (5, d)
  else (2, d.hostWrite d.mbxBuf ((d.bt.meas ++ zeros 64).take 64 ++ (d.bt.header ++ zeros 256).take 256))

/-- FLASH_READ's effect (R414, R436). -/
def Dev.mbxRead (d : Dev) : Nat × Dev :=
  let off := d.mbxArg 2
  let n := d.mbxArg 3
  if d.hi.maint = false then (4, d)
  else if d.mbxBuf % 4096 ≠ 0 ∨ n = 0 ∨ 65536 < n ∨ d.bt.flashCap < off + n then (5, d)
  else (2, d.hostWrite d.mbxBuf (d.bt.flashRead off n))

/-- FLASH_ERASE's effect (R414): `err` for an erase failure, which leaves the block undefined. -/
def Dev.mbxErase (d : Dev) (err : Bool) : Nat × Dev :=
  let off := d.mbxArg 2
  if d.hi.maint = false then (4, d)
  else if off % 65536 ≠ 0 ∨ d.bt.flashCap < off + 65536 then (5, d)
  else if err then (6, d.flashLost off 65536)
  else (2, { d with bt := d.bt.flashWrite off (List.replicate 65536 0xFF) })

/-- FLASH_WRITE's effect (R414): programmed and read back; a failure, or a byte that reads back otherwise, leaves the
range undefined. -/
def Dev.mbxWrite (d : Dev) (err : Bool) : Nat × Dev :=
  let off := d.mbxArg 2
  let n := d.mbxArg 3
  if d.hi.maint = false then (4, d)
  else if d.mbxBuf % 4096 ≠ 0 ∨ off % 256 ≠ 0 ∨ n % 256 ≠ 0 ∨ 4096 < n ∨ d.bt.flashCap < off + n then (5, d)
  else
    let data := memRead d.hi.mem d.mbxBuf n
    let new := programBytes (d.bt.flashRead off n) data
    if err ∨ new ≠ data then (6, d.flashLost off n)
    else (2, { d with bt := d.bt.flashWrite off new })

/-- The confirmation word of ENTER_MAINTENANCE and LEAVE_MAINTENANCE (R414). -/
def confirmWord : Nat := 0x544E494D

/-- ENTER_MAINTENANCE's effect (R414, R415): taken, it stays BUSY until the boundary. -/
def Dev.mbxEnter (d : Dev) : Option Nat × Dev :=
  if d.operational = false then (some 4, d)
  else if d.mbxArg 2 ≠ confirmWord then (some 3, d)
  else (none, { d with hi := { d.hi with maintReq := true } })

/-- LEAVE_MAINTENANCE's effect (R414). -/
def Dev.mbxLeave (d : Dev) : Nat × Dev :=
  if d.hi.maint = false then (4, d) else if d.mbxArg 2 ≠ confirmWord then (3, d) else (2, d)

/-- The protection set-up used by a flash command in maintenance mode (R349, R447). -/
def Dev.flashCheck (d : Dev) : Dev := if d.hi.maint then d.useCritical d.protHeld else d

/-- The effect of a command code, and its result unless it is still to come. (DESIGN CHOICE, log entry 58.) -/
def Dev.mbxRun (d : Dev) (code : Nat) (err : Bool) : Option Nat × Dev :=
  let put (p : Nat × Dev) : Option Nat × Dev := (some p.1, p.2)
  match code with
  | 1 => (some 2, d)
  | 2 => put d.mbxAttest
  | 3 => put d.mbxInfo
  | 4 => d.mbxEnter
  | 5 => put d.flashCheck.mbxRead
  | 6 => put (d.flashCheck.mbxErase err)
  | 7 => put (d.flashCheck.mbxWrite err)
  | 8 => put d.mbxLeave
  | _ => (some 3, d)

/-- A write of CMD (R414): ignored while a command runs; otherwise the command's effect, and STATE BUSY until its end.
`err` is the outcome of an erase or a program at the flash. -/
def mailbox (err : Bool) (code : Nat) (d : Dev) : Dev :=
  if d.hi.mbx.state = 1 then d.bump HI_MBX_IGNORED
  else
    let d := { d with hi := { d.hi with mbx := { d.hi.mbx with state := 1, cmd := code, result := none } } }
    let (r, d) := d.mbxRun code err
    { d with hi := { d.hi with mbx := { d.hi.mbx with result := r } } }

/-- The arguments written, then the command (R414). -/
def mailboxArgs (a0 a1 a2 a3 : Word) (err : Bool) (code : Nat) (d : Dev) : Dev :=
  if d.pm.held then d
  else
    mailbox err code ((((d.hw (HI_MBX_ARG 0) a0).hw (HI_MBX_ARG 1) a1).hw (HI_MBX_ARG 2) a2).hw (HI_MBX_ARG 3) a3)

/-- A command's end shown: STATE, then vector 3; after LEAVE_MAINTENANCE the reset is due. -/
def Dev.mbxDone (d : Dev) (r : Nat) : Dev :=
  let leave := decide (d.hi.mbx.cmd = 8) && decide (r = 2)
  let d := { d with hi := { d.hi with mbx := { d.hi.mbx with state := r, result := none }, leave := d.hi.leave || leave } }
  d.irq 3

/-- MAILBOX_END (R414): the command in progress ends with its result. -/
def mailboxEnd (d : Dev) : Dev :=
  match d.hi.mbx.result with
  | some r => if d.hi.mbx.state = 1 then d.mbxDone r else d
  | none => d

/-! ### Writes of BAR0 by the host -/

/-- A write of one word by the host. -/
def hostWord (a : Nat) (v : Word) (d : Dev) : Dev := d.writeWord (mailbox false) a v

/-- REGISTER_WRITE (R406, R473, R474): 4 or 8 bytes, aligned; anything else is discarded and counted.
(DESIGN CHOICE, log entry 68.) -/
def registerWrite (a size : Nat) (v : Word64) (d : Dev) : Dev :=
  if d.pm.held then d
  else if bar0Ok a size = false then d.bump HI_BAR0_BAD
  else if size = 4 then hostWord a (loW v.toNat) d
  else hostWord (a + 4) (hiW v.toNat) (hostWord a (loW v.toNat) d)

/-- COMPLEMENT_VALUE_WRITE (R13): a write of the value register of a pair. -/
def complementValue (a : Nat) (v : Word) (d : Dev) : Dev :=
  if d.pm.held ∨ (pairMask a).isNone then d else hostWord a v d

/-- COMPLEMENT_C_WRITE (R13): a write of the complement register of the pair whose value lies at `a`. -/
def complementC (a : Nat) (v : Word) (d : Dev) : Dev :=
  if d.pm.held ∨ (pairMask a).isNone then d else hostWord (a + 4) v d

/-- STREAM_MASK_WRITE (R44): the low or the high word of IG_STREAM_MASK. -/
def streamMaskWrite (high : Bool) (v : Word) (d : Dev) : Dev :=
  if d.pm.held then d else hostWord (if high then IG_STREAM_MASK_HI else IG_STREAM_MASK_LO) v d

/-- IRQ_CAUSE_CLEAR (R479): a write of ones to HI_IRQ_CAUSE. -/
def irqCauseClear (v : Word) (d : Dev) : Dev := if d.pm.held then d else hostWord HI_IRQ_CAUSE v d

/-! ### BAR2 (R406, R446, R480) -/

/-- What one byte of BAR2 reads as, and what its read counts: nothing, BAR2_DENIED (1) or HOST_PD (2). -/
def Dev.bar2Byte (d : Dev) (a : Nat) : Byte × Nat :=
  if a < 0x10000000 then
    if d.powered (a / 0x800000) false (a % 0x800000) then (memGet d.mem a, 0) else (0, 2)
  else if a < 0x14000000 then
    if d.powered ((a - 0x10000000) / 0x200000) true (a % 0x200000) then (memGet d.mem a, 0) else (0, 2)
  else if 0x20000000 ≤ a ∧ a < 0x27000000 then
    if d.commonsOn (a - 0x20000000) then ((d.commonsRead (a - 0x20000000) 1).headD 0, 0) else (0, 2)
  else if 0x40000000 ≤ a ∧ a < 0x80000000 then
    if a - 0x40000000 < d.bt.flashCap then (memGet d.bt.flash (d.bt.flashKey (a - 0x40000000)), 0) else (0, 0)
  else if 0x100000000 ≤ a ∧ a < 0x200000000 then
    if d.xs.ready ∧ a - 0x100000000 < d.xs.cap then (memGet d.xs.mem (a - 0x100000000), 0) else (0, 1)
  else (0, 1)

/-- An error that a host read meets in a plane or in the commons (R164, R167): what correction does, and the bytes, by BAR2
address, that are left open. -/
def Dev.bar2Err (d : Dev) (e : CmnErr) : List (Nat × Byte) × Dev :=
  let a := e.off
  let open_ (u : Nat) (d : Dev) : List (Nat × Byte) × Dev :=
    let (fb, d) := d.freeBytes u
    (fb.mapIdx (fun i b => (a / u * u + i, b)), d)
  if a < 0x14000000 then
    let word := decide (0x10000000 ≤ a)
    let o := if word then a - 0x10000000 else a
    let c := o / planeSize word
    let off := o % planeSize word
    if d.powered c word off = false then ([], d)
    else if e.unc then open_ (eccUnit word) (d.uncorr c word off)
    else ([], d.corrected_ c word off 1)
  else if 0x20000000 ≤ a ∧ a < 0x27000000 ∧ d.commonsOn (a - 0x20000000) then
    if e.unc then open_ 8 (d.cmnLost (a - 0x20000000)) else ([], d.cmnFixed (a - 0x20000000) 1)
  else ([], d)

/-- The errors of a host read, those within the range that it reads. -/
def Dev.bar2Errs (d : Dev) (a len : Nat) (es : List CmnErr) : List (Nat × Byte) × Dev :=
  (es.filter (fun e => decide (a ≤ e.off) && decide (e.off < a + len))).foldl (fun (q : List (Nat × Byte) × Dev) e =>
    let r := q.2.bar2Err e
    (q.1 ++ r.1, r.2)) ([], d)

/-- The plane ranges that `len` bytes of BAR2 take in: core, plane, offset, length (R480). -/
def barPlanes (a len : Nat) : List (Nat × Bool × Nat × Nat) :=
  [false, true].flatMap (fun word => (List.range 32).filterMap (fun c =>
    let lo := max a (planeAt word c 0)
    let hi := min (a + len) (planeAt word c 0 + planeSize word)
    if lo < hi then some (c, word, lo - planeAt word c 0, hi - lo) else none))

/-- BAR2_READ (R406, R480): any length and alignment, always permitted; `errs` are the errors that it meets. -/
def bar2Read (a len : Nat) (errs : List CmnErr) (d : Dev) : Dev :=
  if d.pm.held then d
  else
    let d := (barPlanes a len).foldl (fun (d : Dev) p => d.planeTurn p.1 p.2.1 p.2.2.1 p.2.2.2) d
    let v := (barPlanes a len).foldl (fun (v : Dev) p => v.planeSight p.1 p.2.1 p.2.2.1 p.2.2.2) d
    let l := (List.range len).map (fun i => v.bar2Byte (a + i))
    let (op, d) := d.bar2Errs a len errs
    let d := d.bump HI_BAR2_DENIED (b2n (l.any (fun p => decide (p.2 = 1))))
    let d := d.bump WP_HOST_PD (b2n (l.any (fun p => decide (p.2 = 2))))
    let d := if 0x100000000 ≤ a ∧ a + len ≤ 0x100000000 + d.xs.cap then d.storeReq 4 false (a - 0x100000000) len false else d
    d.emit (.readData (overlay (l.map (fun p => p.1)) a op))

/-- BAR2_WRITE (R406, R446, R447): accepted within one window of the protection set-up of the external store, otherwise
discarded and counted. (DEDUCED, log entry 69.) -/
def bar2Write (a : Nat) (bs : List Byte) (d : Dev) : Dev :=
  if d.pm.held ∨ bs.isEmpty then d
  else
    let o := a - 0x100000000
    let d := d.useCritical d.protHeld
    if 0x100000000 ≤ a ∧ d.xs.ready ∧ o + bs.length ≤ d.xs.cap ∧ d.inProt o (o + bs.length) then
      ({ d with xs := d.xs.put o bs } : Dev).storeReq 4 true o bs.length false
    else
      let pd := (List.range bs.length).any (fun i => decide ((d.bar2Byte (a + i)).2 = 2))
      (d.bump HI_BAR2_DENIED).bump WP_HOST_PD (b2n pd)

/-! ### Interrupts and the link -/

/-- MSIX_COALESCE_TIMER (R416): COAL_US after the first unsignalled entry of a ring, its message comes due. -/
def msixTimer (rr : Nat) (d : Dev) : Dev :=
  let r := d.ring rr
  if r.timer = false ∨ r.unsig = 0 then d
  else (d.coalRestart rr).msixSend (ringVector rr)

/-- Vector 10 (R416): CS_REC_STATUS STATE has changed, or the fill of a recording's log has come to half of its ring.
(DEDUCED, log entry 66.) -/
def Dev.recPost (new old : Dev) : Dev :=
  let half (d : Dev) : Bool := decide (d.logRing.2 ≠ 0) && decide (d.logRing.2 ≤ 2 * d.logUsed)
  if new.lg.state ≠ old.lg.state ∨ (new.lg.recording ∧ half new ∧ ¬ half old) then new.irq 10 else new

end Sys2Proof.Machine
end

