-- ==== Sys2Proof/Machine/Store.lean ====
section
/-! DEFINITION. The external store's controllers (17_external_store): initialisation, bursts with their check words,
promotion, write-back of check bursts, the patrol scrub and retraining (R420 to R433). -/

namespace Sys2Proof.Machine

/-! ### Geometry (R422, R425) -/

/-- E of R422: the data region of a device. -/
def StoreSt.devData (x : StoreSt) : Nat := 2 ^ 24 * 2 ^ x.density / 8 * 7

/-- The data bytes of a channel. -/
def StoreSt.chData (x : StoreSt) : Nat := x.devData * (x.devicesM1 + 1)

/-! ### Service (R426, R427, R430, R431) -/

/-- The class in which a request is served (R430). -/
def XsReq.rank (r : XsReq) : Nat := if r.top then 1 else r.cls

/-- The request that a channel serves next: the lowest class, within it the oldest (R430). -/
def nextReq (l : List XsReq) : Option (XsReq × List XsReq) :=
  match (List.range 6).find? (fun k => l.any (fun r => r.rank == k)) with
  | some k => takeFirst (fun r => r.rank == k) l
  | none => none

/-- Whether a request goes on where a burst ends, in its direction and within its device row (R430). -/
def XsReq.follows (r : XsReq) (off len : Nat) (write : Bool) (rank : Nat) : Bool :=
  (r.write == write) && (r.rank == rank) && (r.off == off + len) && decide (r.off / 2048 = off / 2048)

/-- The requests that a channel would serve next, one after the other, merged into a burst while each goes on where it ends
(R430): its length and the requests that are left. -/
def mergeReqs (off rank : Nat) (write : Bool) : Nat → Nat → List XsReq → Nat × List XsReq
  | 0, len, l => (len, l)
  | n + 1, len, l =>
    match nextReq l with
    | some (r, rest) => if r.follows off len write rank then mergeReqs off rank write n (len + r.len) rest else (len, l)
    | none => (len, l)

/-- The most bytes of a piece into which CEM splits a burst (R421): its clocks are 3 + 2 × LATENCY + bytes / 2, of 2.5 ns
each. -/
def Dev.cemCap (d : Dev) : Nat := max 32 ((4 * d.rf XS_TIMING 6 10 - 3 - 2 * d.rf XS_TIMING 0 4) * 2 / 32 * 32)

/-- The pieces of a burst of n bytes (R421). -/
def Dev.cemPieces (d : Dev) (n : Nat) : Nat := max 1 ((n + d.cemCap - 1) / d.cemCap)

/-- The device of an offset of a channel, and its byte there (R422). -/
def StoreSt.place (x : StoreSt) (o : Nat) : Nat × Nat := (o / x.devData, o % x.devData)

/-- Bytes of a channel's offset space. -/
def StoreSt.chBytesAt (x : StoreSt) (ch o n : Nat) : List Byte := (List.range n).map (fun k => memGet x.mem (xsAddr ch (o + k)))

/-- The check word of the burst at an offset of a channel (R425): the code over its data and its index, the index above. -/
def StoreSt.checkWord (x : StoreSt) (ch o : Nat) : Nat :=
  let k := (x.place o).2 / 32
  (Config.secDed (leNat (x.chBytesAt ch (o / 32 * 32) 32)) k).toNat + 2 ^ 10 * k

/-- A read command on the bus, of bytes from an offset of a channel (R422). -/
def Dev.busRead (d : Dev) (ch o n : Nat) : Dev :=
  d.storeCmd ch (d.xs.place o).1 (d.rf XS_OPCODE 0 8) (d.xs.place o).2 n []

/-- A check burst of a channel written back (R426): the eight check words of its 256 data bytes, at E + p / 8. -/
def Dev.chkBack (d : Dev) (ch idx : Nat) : Dev :=
  let p := d.xs.place (256 * idx)
  (d.bump (XS_WR_BURSTS ch)).storeCmd ch p.1 (d.rf XS_OPCODE 8 8) (d.xs.devData + p.2 / 8) 32
    ((List.range 8).flatMap (fun k => toLE 4 (d.xs.checkWord ch (256 * idx + 32 * k))))

/-- A check burst marked as written back. -/
def XsChan.clean (c : XsChan) (idx : Nat) : XsChan :=
  { c with cache := c.cache.map (fun b => if b.idx = idx then { b with changed := false } else b) }

/-- A check burst used by a channel from the data burst at an offset on (R426): fetched with a wrapped burst that starts at
the needed word, and counted, where a read does not find it, taken in changed by a write; `victim` is the cached burst that
leaves when 256 are held, written back where it is changed. -/
def Dev.chkUse (d : Dev) (ch o : Nat) (write : Bool) (victim : Nat) : Dev :=
  let c := d.xsChan ch
  let idx := o / 256
  match takeFirst (fun (b : ChkBurst) => b.idx == idx) c.cache with
  | some (b, rest) =>
    let b := if write ∧ ¬ b.changed then { b with changed := true, at_ := d.tm.raw } else b
    d.setXsChan ch { c with cache := b :: rest }
  | none =>
    let p := d.xs.place o
    let d := if write then d
      else ((d.bump (XS_CHK_MISS ch)).bump (XS_RD_BURSTS ch)).storeCmd ch p.1 (d.rf XS_OPCODE 0 8) (d.xs.devData + p.2 / 32 * 4)
        32 []
    let out := if c.cache.length < 256 then none else c.cache[victim % 256]?
    let cache := if c.cache.length < 256 then c.cache else c.cache.eraseIdx (victim % 256)
    let d := match out with
      | some b => if b.changed then d.chkBack ch b.idx else d
      | none => d
    d.setXsChan ch { c with cache := { idx := idx, changed := write, at_ := d.tm.raw } :: cache }

/-- Check bursts changed 64 µs ago or longer are written back (R426). -/
def Dev.chkOverdue (d : Dev) (ch : Nat) : Dev :=
  (((d.xsChan ch).cache.filter (fun b => b.changed && decide (b.at_ + 76800 ≤ d.tm.raw))).foldl (fun d b =>
    (d.chkBack ch b.idx).setXsChan ch ((d.xsChan ch).clean b.idx)) d)

/-- The same of every channel, as raw time passes. -/
def Dev.chksDue (d : Dev) : Dev := d.xs.chans.foldl (fun d p => d.chkOverdue p.1) d

/-- The commands of a burst that moves bytes lo to hi − 1 of a channel (R420, R421), in the pieces that CEM allows. -/
def Dev.burstCmds (d : Dev) (ch : Nat) (write : Bool) (lo hi : Nat) : Dev :=
  (List.range (d.cemPieces (hi - lo))).foldl (fun d k =>
    let o := lo + k * d.cemCap
    let n := min d.cemCap (hi - o)
    if write then
      d.storeCmd ch (d.xs.place o).1 (d.rf XS_OPCODE 8 8) (d.xs.place o).2 n (d.xs.chBytesAt ch o n)
    else d.busRead ch o n) d

/-- The 32-byte bursts that a request reads (R426): all of a read; of a write its first and its last, where it covers a part
of them. -/
def readBursts (write : Bool) (off len lo hi : Nat) : List Nat :=
  if ¬ write then (List.range ((hi - lo) / 32)).map (fun k => lo + 32 * k)
  else ((if lo < off then [lo] else []) ++ (if off + len < hi then [hi - 32] else [])).eraseDups

/-- XS_BURST (R421, R426, R427, R430): channel ch serves its next request. `corr` of the bursts that it reads are corrected
and written back; `unc` marks an uncorrectable one, whose data is bad from then on; `victim` names the check burst that an
eviction takes. A write that does not cover whole 32-byte bursts reads them first. -/
def xsBurst (ch corr : Nat) (unc : Bool) (victim : Nat) (d : Dev) : Dev :=
  let d := d.chkOverdue ch
  let c := d.xsChan ch
  if ¬ d.xs.ready ∨ ch ≥ 32 then d
  else
    match nextReq c.reqs with
    | none => d
    | some (r, rest) =>
      let (len, rest) := mergeReqs r.off r.rank r.write rest.length r.len rest
      let lo := r.off / 32 * 32
      let hi := (r.off + len + 31) / 32 * 32
      let n := d.cemPieces (hi - lo)
      let d := d.setXsChan ch { c with reqs := rest }
      let reads := readBursts r.write r.off len lo hi
      let d := if r.write then
          (reads.foldl (fun d o => d.busRead ch o 32) ((d.bump (XS_WR_BURSTS ch) n).bump (XS_RD_BURSTS ch) reads.length)).burstCmds
            ch true lo hi
        else (d.bump (XS_RD_BURSTS ch) n).burstCmds ch false lo hi
      let d := d.bump (XS_CEM_SPLIT ch) (n - 1)
      let d := (List.range (hi / 256 + 1 - lo / 256)).foldl (fun d i =>
        if 256 * (lo / 256 + i) < hi then d.chkUse ch (max lo (256 * (lo / 256 + i))) r.write victim else d) d
      let corr := min corr reads.length
      let d := (d.bump (XS_CORR ch) corr).bump (XS_WR_BURSTS ch) corr
      let d := loopN (fun _ d => d.report { src := 0x06, unit := unitOf 3 ch, addr := xsAddr ch lo }) corr d
      let new := if unc then (reads.take 1).map (fun o => xsAddr ch o / 32) else []
      let d := { d with xs := { d.xs with bad := (d.xs.bad ++ new).eraseDups } }
      d.bump (XS_UNCORR ch) (reads.countP (fun o => d.xs.badIn (xsAddr ch o) 32))

/-- XS_PROMOTE (R430): the requests of channel ch that have waited 8 µs at raw time `raw` are promoted to the top class. -/
def xsPromote (ch raw : Nat) (d : Dev) : Dev :=
  let c := d.xsChan ch
  let up (r : XsReq) : XsReq := if r.at_ + 9600 ≤ raw then { r with top := true } else r
  d.setXsChan ch { c with reqs := c.reqs.map up }

/-- The changed check burst of a cache that was changed longest ago (R426). -/
def oldestChanged (l : List ChkBurst) : Option ChkBurst :=
  l.foldl (fun (m : Option ChkBurst) b =>
    if b.changed then
      match m with
      | none => some b
      | some x => if b.at_ ≤ x.at_ then some b else some x
    else m) none

/-- XS_CHECK_WRITEBACK (R426): the check burst of channel ch that has been changed longest is written back. -/
def xsCheckWriteback (ch : Nat) (d : Dev) : Dev :=
  match oldestChanged (d.xsChan ch).cache with
  | none => d
  | some b => (d.chkBack ch b.idx).setXsChan ch ((d.xsChan ch).clean b.idx)

/-- XS_SCRUB (R427): in each channel the patrol scrub asks for its next device row, as a request of the lowest class. -/
def xsScrub (d : Dev) : Dev :=
  if d.xs.ready then
    (List.range 32).foldl (fun d ch =>
      let c := d.xsChan ch
      let r : XsReq := { cls := 5, off := 2048 * c.scrub, len := 2048, write := false, at_ := d.tm.raw, id := d.xs.next }
      d.setXsChan ch { c with reqs := c.reqs ++ [r], scrub := (c.scrub + 1) % (d.xs.chData / 2048) })
      { d with xs := { d.xs with next := d.xs.next + 1 } }
  else d

/-! ### Start-up and retraining (R428, R429) -/

/-- XS_CFG (R432). -/
def StoreSt.cfg (x : StoreSt) : Nat := x.devicesM1 + 2 * x.density + 8 * b2n x.ready + 16 * b2n x.geomErr

/-- The strobe delay in use (R428, R432): the centre that training found, plus the signed DQS_TRIM, in 6 bits.
(DESIGN CHOICE at the ends of the range, log entry 134.) -/
def Dev.dqsDelay (d : Dev) (ch centre : Nat) : Nat := wrapN 6 ((centre : Int) + sext 6 (d.rf (XS_CH_CFG ch) 0 6))

/-- The calibration area of a device (R425): its last 1/64. -/
def StoreSt.calBase (x : StoreSt) : Nat := 2 ^ 24 * 2 ^ x.density / 64 * 63

/-- The commands of a channel's Train phase (R428): the pattern written to each device's calibration area and read back. -/
def Dev.trainCmds (d : Dev) (ch : Nat) : Dev :=
  (List.range (d.xs.devicesM1 + 1)).foldl (fun d dev =>
    (d.storeCmd ch dev (d.rf XS_OPCODE 8 8) d.xs.calBase Config.trainPattern.length Config.trainPattern).storeCmd ch dev
      (d.rf XS_OPCODE 0 8) d.xs.calBase Config.trainPattern.length []) d

/-- XS_RETRAIN (R429): channel ch repeats its Train phase and uses the delay that it found. -/
def xsRetrain (ch delay : Nat) (d : Dev) : Dev :=
  if d.xs.ready ∧ ch < 32 then
    let a := XS_CH_STATUS ch
    ((d.trainCmds ch).bump (XS_RETRAIN ch)).hwN a ((d.rd a).toNat / 64 * 64 + d.dqsDelay ch delay)
  else d

/-- The commands with which a channel initialises (R428): reset and identification on both chip selects, then the mode
registers and training on the devices found. -/
def Dev.initCmds (d : Dev) (ch : Nat) : Dev :=
  let d := (List.range 2).foldl (fun d dev => d.storeCmd ch dev (d.rf XS_OPCODE2 0 8) 0 0 []) d
  let d := (List.range 2).foldl (fun d dev => d.storeCmd ch dev (d.rf XS_OPCODE 16 8) 0 1 []) d
  (d.modeWrites ch ((List.range 4).map XS_MRW)).trainCmds ch

/-- XS_INIT (R428): the channels initialise in parallel: `fail` names those that failed, `same` that all agree with
channel 0; the devices found, and by channel their IDs and the centre that training found. READY or GEOM_ERR is set. -/
def xsInit (fail : BitVec 32) (same : Bool) (devicesM1 density : Nat) (id0 id1 delay : List Nat) (d : Dev) : Dev :=
  if d.pm.held ∨ d.xs.ready ∨ d.xs.geomErr then d
  else
    let ok := decide (fail = 0) && same && !(decide (devicesM1 % 2 = 1) && decide (density % 4 = 3))
    let d := { d with xs := { d.xs with ready := ok, geomErr := !ok, devicesM1 := devicesM1 % 2, density := density % 4 } }
    let d := d.hwN XS_CFG d.xs.cfg
    (List.range 32).foldl (fun d ch =>
      let bad := fail.getLsbD ch
      (d.initCmds ch).hwN (XS_CH_STATUS ch) (d.dqsDelay ch (delay.getD ch 0) + 64 * b2n (!bad) + 128 * b2n bad +
        256 * (id0.getD ch 0 % 256) + 65536 * (if devicesM1 % 2 = 1 then id1.getD ch 0 % 256 else 0))) d

end Sys2Proof.Machine
end

