-- ==== Sys2Proof/Machine/Boundary.lean ====
section
/-! DEFINITION. Boundaries: the actions of R25 in their order at the boundary between two strokes, with what the other
chapters tie to it, the frame boundary (R21), and the entry to the operational state (R19). -/

namespace Sys2Proof.Machine

/-! ### The stroke that closes -/

/-- STROKE_OVERRUN (R217): the boundary falls before the stroke program of a crew has ended. A crew whose program fits the
stroke has ended it, whether or not PROGRAM_END has come. -/
def Dev.overruns (d : Dev) : Dev :=
  let d := (List.range 4).foldl (fun d k => if d.prog k = [] then d else programEnd k 0 0 d) d
  let run := d.crewsRun
  let d := (List.range 4).foldl (fun d k => (d.cutWaits k).cutBundles k) d
  if run = false then d
  else
    let late := (List.range 4).filter (fun k =>
      !(d.crew k).waiting && !(d.crew k).halted && decide (d.prog k ≠ []))
    late.foldl (fun d k =>
      ((d.bump (CS_OVERRUN k)).hwOr (CS_CREW_FAULT k) 1).report { src := 0x10, unit := unitOf 0 k }) d

/-- The timeouts that have become due in a stroke that closes (R54). -/
def Dev.timeouts (d : Dev) : Dev := (List.range 48).foldl (fun d n => sectorTimeout n d) d

/-- Results due within the programs of a stroke that closes land (R158, R162), so that a full journal is a fault of that stroke
(R222). (DEDUCED, log entry 38.) -/
def Dev.landAll (d : Dev) : Dev :=
  if d.accel ∧ ¬ d.flt.rolling then (List.range 32).foldl (fun d c => d.syncNow c) d else d

/-- What closes with stroke c, while the device is still in it: overruns, timeouts and verdicts (R54, R55), the grid builder's
status (R101), ABORTs (R247, R250, R254), rule 8 of Cox in a frame's last stroke, and fault control (R350). -/
def Dev.closeStroke (d : Dev) : Dev :=
  let d := ((d.overruns.landAll.timeouts.closeVerdicts).gridStatus).tableAborts
  let last := d.tm.framed && decide (sAdd d.tm.frameAt d.frameLen = sAdd d.tm.stroke 1)
  (if last then d.goldenClose else d).faultControl

/-- The end of a restoration stroke (R352 steps 3 to 5): what has not been restored yet is, and the crews go on. -/
def Dev.endRollback (d : Dev) : Dev :=
  let d := if d.flt.restored then d else d.restoreAll
  { d with flt := { d.flt with rolling := false, stopped := false, resumed := true } }

/-! ### Maintenance (R415) -/

/-- Time and triggers after the operational state (R415). -/
def TimeSt.down (t : TimeSt) : TimeSt :=
  { t with op := false, trig := trigLow t.trig, frameDue := false, retireDue := false }

/-- Crews after the operational state: their work in flight is discarded (R415), and the arrays ramp down (R464). -/
def CrewSide.down (c : CrewSide) : CrewSide := { progs := c.progs, table := c.table, vol := c.ramps }

/-- The grid builder's work in flight discarded (R415). -/
def GridSt.down (g : GridSt) : GridSt :=
  { g with inq := [], gold := [], secs := [], vq := [], commits := [], empties := [], scrub := none }

/-- Cell memory's work in flight discarded (R415). -/
def CellSt.down (c : CellSt) : CellSt :=
  { c with path := [], roll := none, reload := none, held := none, adds := [], exps := [] }

/-- The fault controller without a restart or a rollback. -/
def FltSt.down (f : FltSt) : FltSt :=
  { f with phase := .idle, stopped := false, rolling := false, restartAt := none, resumeAt := none }

/-- The island in maintenance mode: no further edge, SAFE_OK low (R415). -/
def IslandSt.down (i : IslandSt) : IslandSt :=
  { i with running := false, pin := false, maint := true, restarting := false }

/-- The blocks that maintenance mode stops. -/
def Dev.stopAll (d : Dev) : Dev :=
  let et := { d.et with lookups := [], aborts := [], adAbort := false }
  let hi := { d.hi with maint := true, maintReq := false, outq := [] }
  let bt := { d.bt with state := 2 }
  { d with tm := d.tm.down, cw := d.cw.down, cm := d.cm.down, flt := d.flt.down, si := d.si.down, gb := d.gb.down,
           ag := {}, lg := { d.lg with digs := [] }, ig := { d.ig with verd := [] }, et := et, hi := hi, bt := bt }

/-- MAINTENANCE_ENTRY (R415, R232): at the boundary the accelerator stops, the outputs end, no further SAFE_OK edge comes,
table operations and the session end, and vector 13 is sent; the rings take what the boundary brings them (R407). BAR2
writes need a protection window from now on (R447). -/
def Dev.maintenance (d : Dev) : Dev :=
  let d := d.ringBoundary
  let prot := d.rdLive BT_PROT_CFG
  let e := ((d.abortLive).sessionLost).hwPair BT_PROT_CFG (prot &&& 0xFFFFFFE0)
  let e := e.stopAll
  let e := if e.hi.mbx.cmd = 4 ∧ e.hi.mbx.state = 1 then e.mbxDone 2 else e
  (e.posted d.si).irq 13

/-! ### Step 1: the checkpoint (R25, R221) -/

/-- A crew at the start of the next program: earlier schedule cycles are counted in `base` (R284). -/
def CrewVol.next (v : CrewVol) : CrewVol := { base := v.base + v.pos }

/-- CHECKPOINT_COMMIT (R221, R222): the state of crews and cores is kept, journals are empty, and the sectors that hold a
context are those bound (R353). -/
def Dev.checkpoint (d : Dev) : Dev :=
  let bound := d.cw.cores.flatMap (fun p => p.2.ctx.filterMap (fun t => t.2.grp.map (fun g => g.id)))
  { d with cw := { d.cw with
    ckSeq := d.cw.seq, ckCores := d.cw.cores, pushed := [], touched := bound.eraseDups
    vol := smMap vol0 (fun _ (v : CoreVol) => { v with jfill := 0 }) d.cw.vol } }

/-- The crews' programs end with the stroke (R215). -/
def Dev.nextPrograms (d : Dev) : Dev :=
  { d with cw := { d.cw with crews := smMap crew0 (fun _ (v : CrewVol) => v.next) d.cw.crews } }

/-- Step 1 of R25: the checkpoint is committed, digest records are released (R228), groups migrate (R218).
(DEDUCED, log entry 38.) -/
def Dev.commitStroke (d : Dev) : Dev := (d.checkpoint.digestRelease).balance

/-! ### A replay's entries (R233) -/

/-- Whether bytes of the log ring cannot be corrected, so that the CRC of their entry fails (R427). -/
def Dev.logBad (d : Dev) (from_ n : Nat) : Bool :=
  let (base, size) := d.logRing
  let o := from_ % size
  d.xs.badIn (base + o) (min n (size - o)) || (decide (size < o + n) && d.xs.badIn base (n - (size - o)))

/-- Entries of stroke s taken from the log ring at TAIL, in order. One whose stroke has begun already, or that does not
read back whole, ends the session as STARVED. (DEDUCED, log entry 37.) -/
def Dev.replayTake (d : Dev) (s : Stroke) : Nat → List (List Byte) → Dev × List (List Byte)
  | 0, acc => (d, acc)
  | n + 1, acc =>
    let (base, size) := d.logRing
    let h := ringRead d.xs.mem base size d.lg.tail 16
    let len := 16 + (leAt h 8 2 + 15) / 16 * 16
    if d.lg.replaying = false ∨ d.logUsed < 16 ∨ d.logUsed < len then (d, acc)
    else
      let e := ringRead d.xs.mem base size d.lg.tail len
      let at_ : Stroke := BitVec.ofNat 48 (leAt h 0 6)
      let bad := decide (crc32c (patch e 12 (zeros 4)) ≠ leAt h 12 4) || d.logBad d.lg.tail len
      if bad ∨ sOlder at_ s then ({ d with lg := { d.lg with state := 6, ended := true } }, acc)
      else if at_ ≠ s then (d, acc)
      else
        let d := { d with lg := { d.lg with tail := (d.lg.tail + len) % size, count := d.lg.count + 1 } }
        Dev.replayTake ((d.bump CS_REC_ENTRIES).bump CS_REC_BYTES len) s n (acc ++ [e])

/-- A register write of a replay (R229, R233): the effect that the write had at the boundary. -/
def Dev.replayReg (d : Dev) (a : Nat) (v : Word) : Dev :=
  if a = CM_POSE_COMMIT then { d with cm := { d.cm with poseNext := some d.poseRegs } }
  else if a = ET_ADAPT_CTRL then { d with et := { d.et with adAbort := true } }
  else if a = CM_PRIOR_ORIGIN_X ∨ a = CM_PRIOR_ORIGIN_Y then
    let d := d.hw a v
    { d with reg := { d.reg with acc := d.reg.acc.filter (fun x => decide (x ≠ a)) ++ [a] } }
  else
    match instOf (ET_TABLE_CTRL 0) 0x40 64 a with
    | some t => { d with et := { d.et with aborts := d.et.aborts ++ [t] } }
    | none => match regRow a with
      | some r => d.regStore r a v
      | none => d

/-- An entry applied at the boundary of raw time r that opens its stroke: host writes, commits, TIME. -/
def Dev.replayBoundary (d : Dev) (r : Nat) (e : List Byte) : Dev :=
  let p := e.drop 16
  match leAt e 6 1 with
  | 3 => d.replayReg (leAt p 0 4) (BitVec.ofNat 32 (leAt p 4 4))
  | 5 => { d with et := { d.et with commits := d.et.commits ++ [(leAt p 0 1 % 64, BitVec.ofNat 32 (leAt p 4 4))] } }
  | 6 =>
    let d := d.retime r (sext 64 (leAt p 12 8)) (sext 96 (leAt p 0 12) - d.corrected r)
    d.bump TB_STEPS (leAt p 20 4 % 2)
  | _ => d

/-- END consumed (R233): it is the last entry of its stroke (R230), so the stroke's other entries have been applied (R248). -/
def Dev.replayEnd (d : Dev) (es : List (List Byte)) : Dev :=
  if es.any (fun e => decide (leAt e 6 1 = 8)) then { d with lg := { d.lg with state := 3, ended := true } } else d

/-- An entry taken as an input of its stroke: a packet, by its port and SID, or a row. -/
def Dev.replayInput (d : Dev) (e : List Byte) : Dev :=
  let p := (e.drop 16).take (leAt e 8 2)
  match leAt e 6 1 with
  | 2 =>
    let src := leAt e 10 2
    let bs := p.drop 8
    let hit (n : Nat) : Bool :=
      let b := d.rdLive (IG_STREAM_BIND n)
      decide (fld b 0 1 = 1) && decide (fld b 1 5 = src % 32) && decide (fld b 8 8 = leAt bs 4 1) &&
        (decide (fld b 1 1 = 0) || decide (fld b 6 2 = bits src 5 2))
    let d := d.useCritical d.bindsHeld
    match (List.range 48).find? hit with
    | some n => d.streamPkt n src (leAt p 0 8) bs
    | none => d
  | 4 => d.takeRow (leAt p 0 1 % 64) (leAt p 4 4) (p.drop 8)
  | _ => d

/-! ### The stroke that opens -/

/-- Time at the boundary of raw time r that opens stroke s: corrections (R366), the stroke's length (R373), ALIGNED
(R374), and what falls on the boundary (R21, R91). -/
def Dev.openTime (d : Dev) (r : Nat) (s : Stroke) : Dev :=
  let d := d.timeBoundary r s
  let d := { d with tm := { d.tm with len := d.strokeLength r } }
  let d := d.alignment r s
  let due := if d.tm.framed then decide (s = sAdd d.tm.frameAt d.frameLen) else decide (s.toNat % 1000 = 0)
  { d with tm := { d.tm with frameDue := due, retireDue := d.retiresAt s } }

/-- Step 2 of R25 (R108 sub-steps 1 to 4): the write-back of the record of stroke s − 2, the scatter of the stroke that
has closed, the re-seat, expiry. A sector of this chip with an add missing is cancelled (R354). -/
def Dev.cellStep (d : Dev) (s : Stroke) (heads : Option (List (Word64 × Word64))) : Dev :=
  let take (r : RecSlot) : RecSlot := if r.stroke = s - 2 ∧ ¬ r.absent then { r with heads := heads } else r
  let d := { d with cm := { d.cm with path := d.cm.path.map take } }
  let d := match d.cm.path.find? (fun r => decide (r.stroke = s - 2)) with
    | some r => d.writeBack r
    | none => d
  let d := { d with cm := { d.cm with exps := d.cm.exps ++ d.unstarted (s - 1) } }
  let (d, bad) := d.scatterApply (s - 1)
  let own := (bad.filter (fun e => decide (e.from_ = 4))).map (fun e => e.id)
  let d := own.foldl (fun d i => (d.cancelSector i).report { src := 0x18, unit := unitOf 7 0, cancel := [i] }) d
  let d := d.reseat
  let d := d.bump CM_CTR_ROLL_LAG (b2n d.lagging)
  (d.mon (.mark .subSteps)).expireTile s

/-- Step 3 of R25 (R13): the pairs accepted are applied. -/
def Dev.pairApply (d : Dev) : Dev :=
  let live := d.reg.acc.foldl (fun m a => smSet regReset m a (d.rd a)) d.reg.live
  let comp := d.reg.acc.foldl (fun m a => smSet compReset m a (~~~(d.rd a))) d.reg.comp
  { d with reg := { d.reg with live := live, comp := comp, acc := [] } }

/-- Step 3 of R25: the pairs, and the reload that a new prior origin begins (R113). -/
def Dev.pairStep (d : Dev) : Dev :=
  let as_ := d.reg.acc
  let d := d.pairApply
  if d.cellsUp ∧ (as_.contains CM_PRIOR_ORIGIN_X ∨ as_.contains CM_PRIOR_ORIGIN_Y) then d.reloadStep else d

/-- The adaptation step at its effect (R254, R255): COMPLETE where all its operations are; ABORTED with ROW_LATE where it has
not been merged, or a row that another chip owns has not come back; ABORTED where an operation of it was. -/
def Dev.adaptDue (d : Dev) (s : Stroke) : Dev :=
  match d.et.adapt with
  | none => d
  | some a =>
    if sAdd a.issued (d.rf ET_CFG 8 8) ≠ s then d
    else if ¬ a.merged ∨ ¬ a.want.isEmpty then d.lateSum
    else { d with et := { d.et with adapt := none, adStat := if a.cut then 4 else 3 } }

/-- Step 4 of R25: update operations take effect (R250), tables are switched (R245), the versions of stroke s are
latched. -/
def Dev.tableStep (d : Dev) (s : Stroke) : Dev :=
  let d := (((d.useCritical d.versionsHeld).rowEffects s).adaptApply s).adaptDue s
  let (d, ts) := d.tableSwitches s
  let d := if d.cellsUp ∧ ts.contains (d.rf CM_PRIOR_CFG 0 6) then d.reloadStep else d
  d.latchVersions s

/-! ### Hand-out (R26, R324, R394) -/

/-- Bivouac's words of a record's tile (R322); where the island has not computed them at the BOUNDARY that it missed, as it
computes them now. (DESIGN CHOICE, log entry 36.) -/
def Dev.bivWords (d : Dev) (r : RecSlot) : List Word64 :=
  match d.si.biv.find? (fun x => decide (x.1 = r.stroke)) with
  | some x => x.2
  | none => d.si.bivTile { s := r.stroke, frame := r.frame, ox := r.ox, oy := r.oy }

/-- A record delivered from a source (R115, R325): queued for the rings, the island told. Bivouac selected while it has
failed is device-fatal (R323, R340). -/
def Dev.deliverRecord (d : Dev) (b : Stroke) (r : RecSlot) (src : Nat) : Dev :=
  let biv := decide (src = 0xC3)
  if biv ∧ d.si.bivFail then d.islandFatal 6
  else
    let latched := (d.si.atBoundary b).1.latched
    let words := if biv then d.bivWords r else r.accelWords
    let d := d.queueRecord r.stroke (r.bytes (decide (d.rf CM_CFG 26 1 = 1)) src latched words)
    let d := { d with si := { d.si with sel := d.si.sel ++ [(r.stroke, src)] } }
    (d.mon (.delivered r.stroke src)).mon (.mark (.handOver r.stroke))

/-- RECORD_HANDOUT (R26, R313, R324, R394, R399) at the boundary that opens stroke b: the record of stroke b − 2. A tile
of another chip yields none from this one, unless this chip has taken it over. -/
def Dev.handOut (d : Dev) (b : Stroke) : Dev :=
  match d.cm.path.find? (fun x => decide (x.stroke = b - 2)) with
  | none => d
  | some r =>
    let d := { d with cm := { d.cm with path := d.cm.path.filter (fun x => decide (x.stroke ≠ b - 2)) } }
    let owner := d.ownerOf r.stroke
    if owner = d.rl.chip then
      let d := d.useCritical d.switchHeld
      let src := if d.flt.restartAt = some b then 0xC3 else d.selectSource b r
      let d := if r.absent ∨ r.heads.isNone then d.mon (.record r.stroke none false)
        else d.mon (.record r.stroke
          (some (r.bytes (decide (d.rf CM_CFG 26 1 = 1)) 0x3C (d.si.atBoundary b).1.latched r.accelWords)) false)
      d.deliverRecord b r src
    else
      let d := d.mon (.record r.stroke none true)
      if d.rl.takeover ∧ bitOf d.rl.lost owner then d.deliverRecord b r 0xC3 else d

/-! ### STROKE_BOUNDARY -/

/-- The accelerator's part of the boundary that opens stroke s: steps 2 to 4 of R25 and the roll engine. -/
def Dev.accelSteps (d : Dev) (s : Stroke) (heads : Option (List (Word64 × Word64))) : Dev :=
  let d := if d.cellsUp then d.cellStep s heads else d
  let d := (d.pairStep).tableStep s
  d.engineBegin s

/-- The record of the stroke that opens as a restoration stroke (R355). -/
def Dev.markRolled (d : Dev) (s : Stroke) : Dev :=
  let roll (r : RecSlot) : RecSlot := if r.stroke = s then { r with rolled := true, absent := true } else r
  if d.flt.rolling then { d with cm := { d.cm with path := d.cm.path.map roll } } else d

/-- What the host interface counts by stroke (R412, R449). -/
def Dev.hostStroke (d : Dev) : Dev :=
  let st := d.rd SI_STATUS
  { d with hi := { d.hi with decided := 0, siAt := st } }

/-- A restart that a configuration has named for this boundary (R397). -/
def Dev.namedRestart (d : Dev) (s : Stroke) : Dev :=
  match d.flt.restartAt with
  | some t => if sLe t s then d.beginStop else d
  | none => d

/-- Step 5 of R25 and what follows it in the stroke that opens: a restart named for this boundary (R397), the tile heads,
the BOUNDARY message, the rings (R407). -/
def Dev.openStroke (d : Dev) (s : Stroke) : Dev :=
  let d := (((d.namedRestart s).openTile s).markRolled s).sendBoundary
  let d := (d.ringBoundary.hostStroke).heartbeats.timeSend
  if d.accel ∧ ¬ d.flt.rolling then d.dispatch else d

/-- The boundary of a device whose output path a device-fatal condition has stopped (R338): time, pairs, rings and
heartbeats go on; poses, the sub-steps of cell memory, tables and the roll engine stop with it. (DESIGN CHOICE, log entry 116.) -/
def Dev.fatalStroke (d : Dev) (r : Nat) (s : Stroke) : Dev :=
  let d := (d.openTime r s).pairStep
  let d := { d with cm := { d.cm with path := [] } }
  d.ringBoundary.hostStroke.heartbeats.timeSend

/-- The boundary that opens stroke s at raw time r, after what closes with the stroke before. -/
def Dev.nextStroke (d : Dev) (r : Nat) (s : Stroke) (heads : Option (List (Word64 × Word64))) (errs : List CmnErr)
    (commit : Bool) : Dev :=
  let d := if commit ∧ d.accel then d.commitStroke else d
  let d := d.nextPrograms
  let (d, es) := d.replayTake s (d.logUsed / 16 + 1) []
  let d := { d with tm := { d.tm with stroke := s, openRaw := r }, gb := { d.gb with taken := 0, goldTaken := 0, stuck := false } }
  let d := es.foldl (fun d e => d.replayBoundary r e) d
  if d.flt.fatal then (d.fatalStroke r s).replayEnd es
  else
    let d := (d.openTime r s).poseApply s
    let d := d.tableAborts.applyMask
    let d := d.trigBoundaries r s d.tm.frameDue
    let d := (d.accelSteps s heads).cellErrs d.cm errs
    let d := d.handOut s
    let d := if es.any (fun e => decide (leAt e 6 1 = 7)) then d.beginStop else d
    let d := (d.openStroke s).tileErrs s errs
    (es.foldl (fun d e => d.replayInput e) d).replayEnd es

/-! ### FRAME_BOUNDARY (R21) -/

/-- Points of the golden sector (R328): those of its packets, converted, with times from t_f. -/
def goldPoints (c : StreamCfg) (tf : Nat) (p : Pkt) : List Point :=
  (List.range p.count).flatMap (fun j =>
    let i := p.first + j
    (returnsOf c p i).filterMap (fun r => match r with
      | .ok x y z inten _ ret pos =>
        some { x := x, y := y, z := z, t := (tf + j * p.period) % 2 ^ 64, inten := inten, stream := goldStream,
               sweep := p.seq, sector := 0, pos := pos, ret := ret }
      | _ => none))

/-- GOLDEN_INJECT (R328): the golden sector enters the grid builder with its verdict, ACCEPT. (DEDUCED, log entry 91.) -/
def Dev.injectGold (d : Dev) : Dev :=
  if d.bt.goldLen = 0 then d
  else
    let bs := memRead d.xs.mem d.bt.gold d.bt.goldLen
    let c := goldCfgOf bs
    let ps := (goldPackets (min (leAt bs 20 4) 16384) (bs.drop (goldStart bs))).map parsePkt
    let s := d.tm.stroke
    let pts := ps.flatMap (goldPoints c d.tm.tf)
    let d := pts.foldl (fun d pt => d.queuePoint ⟨s, pt⟩) d
    let sweep : BitVec 16 := match ps with
      | p :: _ => BitVec.ofNat 16 p.seq
      | [] => 0
    let v : GVerd := { id := ⟨goldStream, sweep, 0⟩, what := 2, v := s, last := s, frame := d.tm.frame }
    { d with gb := { d.gb with vq := d.gb.vq ++ [v] } }

/-- RESTART_RESUME (R333, R397): accelerator work resumes at the first frame boundary at least one stroke after the stroke in
which Re-seat has ended. -/
def Dev.resumeWork (d : Dev) : Dev :=
  let s := d.tm.stroke
  let due := if d.rl.countM1 = 0 then decide (2 ≤ sDiff s d.flt.reseatAt) else decide (d.flt.resumeAt = some s)
  if d.flt.phase = .waiting ∧ due then
    ({ d with
      flt := { d.flt with phase := .idle, stopped := false, resumeAt := none }
      si := { d.si with restarting := false }
      cm := { d.cm with path := d.cm.path.filter (fun r => decide (r.stroke ≠ s)) } } : Dev).posted d.si
  else d

/-- A new frame's numbers and counts (R21, R62, R86, R90, R119, R187). -/
def Dev.newFrame (d : Dev) : Dev :=
  let first := !d.tm.framed
  let s := d.tm.stroke
  { d with
    tm := { d.tm with frameDue := false, framed := true, frame := if first then 0 else d.tm.frame + 1, frameAt := s,
                      tfPrev := d.tm.tf, tf := d.nsAt d.tm.openRaw }
    gb := { d.gb with prev := d.gb.cur, cur := {}, prevLive := !first, sitePrev := d.gb.siteCur, siteCur := [],
                      siteGoldPrev := d.gb.siteGold, siteGold := [] }
    ag := { d.ag with lvPrev := d.ag.lvCur, lvCur := [], lvGold := [] }
    ig := { d.ig with used := 0, usedPrev := d.ig.used, deratePrev := d.ig.derate }
    cm := { d.cm with gold := [] }
    lg := { d.lg with balanceEn := decide (d.rf CS_CFG 0 1 = 1)
                      digestEn := decide (d.rf CS_CFG 1 1 = 1) && decide (d.rl.countM1 < 2) } }

/-- FRAME_BOUNDARY (R21): at the boundary that opened this stroke a new frame begins: its counts, the derate level (R467),
the end of a session (R232), the resumption of a restart, the golden sector. -/
def frameBoundary (d : Dev) : Dev :=
  if d.tm.op ∧ d.tm.frameDue then
    let d := ((d.newFrame.gridStatus).derateStep).sessionStop d.tm.stroke
    if d.flt.fatal then d
    else
      let d := d.resumeWork
      let d := if d.accel then d.injectGold else d
      d.resume
  else d

/-- The work of a STROKE_BOUNDARY: a frame boundary or a retirement that is still due at the boundary before is done
first. -/
def Dev.boundaryWork (d : Dev) (heads : Option (List (Word64 × Word64))) (gcrc : Option (Nat × Bool)) (errs : List CmnErr)
    (agree : Bool) : Dev :=
  let d := if agree then d else d.report { src := 0x32, unit := unitOf 7 0 }
  let d := (frameRetire (frameBoundary d))
  let r := d.tm.openRaw + d.tm.len
  let s := sAdd d.tm.stroke 1
  let d := Dev.chksDue { d with tm := { d.tm with raw := r }, cm := { d.cm with held := none } }
  let closing := d.flt.rolling
  let d := match gcrc with
    | some (c, late) => if d.accel then d.mon (.golden none c (!late)) else d
    | none => d
  let d := { d with flt := { d.flt with resumed := false } }
  let d := if d.flt.fatal then d.faultControl else d.closeStroke
  let d := if closing ∧ d.flt.rolling ∧ d.accel then d.endRollback else d
  let d := d.logFlush s
  if d.hi.maintReq then d.maintenance else d.nextStroke r s heads errs (!d.flt.rolling)

/-- The mode flags after a device has entered maintenance mode (R415). -/
def Dev.maintFlags (d old : Dev) : Dev :=
  let d := (d.sameMode old).sameOk old
  let tm := { d.tm with op := false }
  let hi := { d.hi with maint := true }
  let si := { d.si with running := false, pin := false, maint := true }
  { d with tm := tm, hi := hi, si := si }

/-- STROKE_BOUNDARY (R25): the boundary that closes the stroke in progress. `heads` is what the tile heads deliver for the
record handed out, `gcrc` the CRC of the golden tile if its tile heads ended in the stroke that closes, with whether they were those of a frame
that has closed (DESIGN CHOICE, log entry 16),
`errs` the errors met in cell memory, `agree` that the two copies of the fault controller agreed in it (R351). The stroke
that opens has the next number, and opens where the one before ends. The mode flags change only where maintenance mode is
entered. -/
def strokeBoundary (heads : Option (List (Word64 × Word64))) (gcrc : Option (Nat × Bool)) (errs : List CmnErr) (agree : Bool)
    (d : Dev) : Dev :=
  if d.pm.held ∨ d.hi.maint ∨ ¬ d.tm.op then d
  else
    let e := (d.boundaryWork heads gcrc errs agree).recPost d
    if e.hi.maint then e.maintFlags d
    else
      let f := (e.sameMode d).sameOk d
      { f with tm := { f.tm with stroke := sAdd d.tm.stroke 1, openRaw := d.tm.openRaw + d.tm.len } }

/-! ### ENTER_OPERATIONAL (R19) -/

/-- The state of a device that enters the operational state with stroke s at raw time r (R19, R22, R114, R398): prior origins
accepted before are in force for the one reload of the entry. A GO written before is applied as at any boundary, after the
re-seat, which R114 places at (−512, −512). (DESIGN CHOICE, log entry 115.) The reachable set is this chip alone until
heartbeats arrive, a first change. (DEDUCED, log entry 44.) -/
def Dev.firstStroke (d : Dev) (r : Nat) (s : Stroke) : Dev :=
  let d := { d with tm := { d.tm with op := true, stroke := s, openRaw := r, raw := r, framed := false,
                                      frame := 0xFFFFFFFF, frameDue := decide (s.toNat % 1000 = 0), retireDue := false }
                    rl := { d.rl with reach := 2 ^ d.rl.chip, silent := [], views := []
                                      changedAt := if d.rl.countM1 = 0 then none else some s } }
  let d := { d with tm := { d.tm with len := d.strokeLength r }, si := { d.si with gsAt := s } }
  let d := ((d.alignment r s).pairApply).reseatCells
  let d := (d.poseApply s).applyMask
  let d := d.trigBoundaries r s d.tm.frameDue
  let d := ((d.useCritical d.versionsHeld).latchVersions s).engineBegin s
  ((d.checkpoint.gridStatus).postView).openStroke s

/-- Whether a device may enter the operational state with stroke s (R19, R233, R390): booted and locked, not in it, not held,
not in maintenance mode, not fatal, not barred by a replay's START; in a configuration, s is the stroke that START names
and every link is ACTIVE (R388).
(DEDUCED, log entry 39.) -/
def Dev.mayEnter (d : Dev) (s : Stroke) : Bool :=
  d.bt.placed && d.bt.locked && decide (d.bt.state = 0) && !d.tm.op && !d.pm.held && !d.hi.maint && !d.flt.fatal &&
    !d.lg.barred && !d.hi.maintReq &&
    (decide (d.rl.countM1 = 0) || (decide (d.rl.startAt = some s) && d.linksUp))

/-- The work of the entry, after a session's start: the first stroke, and a replay's entries of it. -/
def Dev.entryWork (e : Dev) (r : Nat) (s : Stroke) : Dev :=
  let e := e.firstStroke r s
  let e := { e with bt := { e.bt with state := 1 } }
  let (f, es) := e.replayTake s (e.logUsed / 16 + 1) []
  let f := es.foldl (fun f x => f.replayBoundary r x) f
  let f := if es.any (fun e => decide (leAt e 6 1 = 7)) then f.beginStop else f
  (es.foldl (fun f x => f.replayInput x) f).replayEnd es

/-- Maintenance mode entered in place of the operational state (R233, R415, R446), as at a boundary. -/
def Dev.holdEnds (d : Dev) : Dev := d.maintenance.maintFlags d

/-- ENTER_OPERATIONAL (R19, R229, R233, R390): a device that is ready enters at the first array clock at or after a whole
microsecond of corrected time; in a configuration, at the stroke that START names. -/
def enterOperational (d : Dev) : Dev :=
  let (r, us) := d.entryClock
  let s : Stroke := BitVec.ofInt 48 us
  if d.mayEnter s then
    let (go, s, e) := d.sessionStart s
    if go then
      let f := ((e.entryWork r s).recPost d).sameMode d
      { f with tm := { f.tm with op := true, stroke := s, openRaw := r } }
    else (e.recPost d).sameMode d
  else if d.hi.maintReq ∧ d.bt.placed ∧ ¬ d.tm.op ∧ ¬ d.hi.maint then d.holdEnds
  else d

end Sys2Proof.Machine
end

