-- ==== Sys2Proof/Machine/Blocks.lean ====
section
/-! DEFINITION. Commands and blocks: how a command's effect becomes the next state. A command acts on the blocks that it
names; beside them every command may reach registers and counters, events outside, free values, fault reports with the
log in the store, the monitor port, interrupts and triggers, for faults are reported from everywhere (R350). -/

namespace Sys2Proof.Machine

/-- The outcome of a command. -/
abbrev Out := Host.Outcome State Fault Refusal

/-- The blocks on which a command acts. -/
structure Writes where
  tm : Bool := false
  ig : Bool := false
  gb : Bool := false
  cm : Bool := false
  cw : Bool := false
  ag : Bool := false
  et : Bool := false
  lg : Bool := false
  si : Bool := false
  flt : Bool := false
  rl : Bool := false
  hi : Bool := false
  xs : Bool := false
  bt : Bool := false
  pm : Bool := false
  mem : Bool := false
  /-- The mode flags (`Dev.sameMode`), and the SAFE_OK outputs with what the island holds against them (`Dev.sameOk`). -/
  mode : Bool := false
  ok : Bool := false
  deriving DecidableEq, Repr

/-- Every block. -/
def Writes.all : Writes :=
  { tm := true, ig := true, gb := true, cm := true, cw := true, ag := true, et := true, lg := true, si := true,
    flt := true, rl := true, hi := true, xs := true, bt := true, pm := true, mem := true, mode := true,
    ok := true }

/-- Of the time structure, what a report reaches: trigger outputs (R338). -/
def TimeSt.side (old new : TimeSt) : TimeSt := { old with trig := new.trig }

/-- Of the island, what a report reaches: the monitor port's queue (R313). -/
def IslandSt.side (old new : IslandSt) : IslandSt := { old with mq := new.mq }

/-- Of the fault controller, what a report reaches: reports, log, the stop of the crews, the device-fatal condition. -/
def FltSt.side (old new : FltSt) : FltSt :=
  { old with reps := new.reps, coal := new.coal, fatal := new.fatal, stopped := new.stopped, logPos := new.logPos,
             logSeq := new.logSeq, lost := new.lost }

/-- Of the host interface, what a report reaches: pending messages and the cause register (R416). -/
def HostSt.side (old new : HostSt) : HostSt := { old with pba := new.pba, cause := new.cause }

/-- Of the store, what every block's requests reach: its memory and the channels' queues (R430). -/
def StoreSt.side (old new : StoreSt) : StoreSt := 
  { old with mem := new.mem, chans := new.chans, next := new.next, bad := new.bad }

/-- A block taken from the new state where it is acted on. -/
def pick {α : Type} (b : Bool) (old new : α) : α := if b then new else old

/-- The blocks of the device after a command that acts on some of them. -/
def Dev.blocks (w : Writes) (old new : Dev) : Dev :=
  { reg := new.reg
    tm := pick w.tm (old.tm.side new.tm) new.tm
    ig := pick w.ig old.ig new.ig
    gb := pick w.gb old.gb new.gb
    cm := pick w.cm old.cm new.cm
    cw := pick w.cw old.cw new.cw
    ag := pick w.ag old.ag new.ag
    et := pick w.et old.et new.et
    lg := pick w.lg old.lg new.lg
    si := pick w.si (old.si.side new.si) new.si
    flt := pick w.flt (old.flt.side new.flt) new.flt
    rl := pick w.rl old.rl new.rl
    hi := pick w.hi (old.hi.side new.hi) new.hi
    xs := pick w.xs (old.xs.side new.xs) new.xs
    bt := pick w.bt old.bt new.bt
    pm := pick w.pm old.pm new.pm
    mem := pick w.mem old.mem new.mem
    out := new.out
    free := new.free }

/-- The device after a command that acts on some blocks. (DESIGN CHOICE, log entry 35.) -/
def Dev.commit (w : Writes) (old new : Dev) : Dev :=
  let d := Dev.blocks w old new
  let d := if w.mode then d else d.sameMode old
  if w.ok then d else d.sameOk old

/-- A command's effect on the blocks on which it acts; the queue stays as it is. -/
def State.run (s : State) (w : Writes) (f : Dev → Dev) : Out := .next { s with dev := s.dev.commit w (f s.dev) }

/-- The bundle in which a core instruction executes: that of its crew's program at its schedule cycle, where the program
holds the instruction there (R281); with no program in the slot, the bundle that holds the instruction alone.
(DESIGN CHOICE, log entry 123.) -/
def Dev.fetched (d : Dev) (i : Instr) (o : CoreOp) : Option Nat :=
  match bundlesOf (d.prog (o.loc.core.val / 8)) with
  | [] => some o.word
  | l =>
    let (n, r) := bundleAt l 0 o.loc.cyc
    match l[n]? with
    | some b => if i.heldBy o.loc b ∧ r = o.r then some b else none
    | none => none

/-- Whether the bundle that a core fetches for an instruction is legal, as are those before it (R307, R308). -/
def Dev.legalAt (d : Dev) (c cyc b : Nat) : Bool :=
  (d.badBefore (c / 8) cyc).isNone && d.bundleFits (c / 8) (bundlesOf (d.prog (c / 8))) b

/-- A core instruction's effect: an uncorrectable error of the program store and an illegal bundle, this one or one before it,
stop the program (R307, R308); a span cycle beyond the span has no effect, and neither has an instruction that the program does not hold
(DESIGN CHOICE, log entry 17). -/
def Dev.coreStep (d : Dev) (i : Instr) (f : Dev → Dev) : Dev :=
  match i.coreOp with
  | none => d
  | some o =>
    if o.gate.spanM1.toNat < o.r then d
    else
      match d.fetched i o with
      | none => d
      | some b =>
        let c := o.loc.core.val
        match d.badBefore (c / 8) o.loc.cyc with
        | some t => d.bundleIllegal (c / 8) t
        | none =>
          let ok := d.bundleFits (c / 8) (bundlesOf (d.prog (c / 8))) b
          let d := d.pstoreCorr c o.loc.cyc o.loc.corr
          if o.loc.unc then d.pstoreUncorr c o.loc.cyc
          else if ok then f d
          else d.bundleIllegal (c / 8) o.loc.cyc

/-- A core instruction carried out. -/
def State.coreRun (s : State) (i : Instr) (w : Writes) (f : Dev → Dev) : Out := s.run w (fun d => d.coreStep i f)

end Sys2Proof.Machine
end

