-- ==== Sys2Proof/Machine/CmdAddr.lean ====
section
/-! DEFINITION. The commands of address registers, windows and feeds (slot A): each one's effect on the device, and the blocks on which it acts. -/

namespace Sys2Proof.Machine

/-- LDA (R298): LDA loads an address register with an immediate. -/
def execLda (p : At) (g : Gate) (reg : BitVec 4) (imm : Word) (s : State) : Out :=
  s.coreRun (.lda p g reg imm) { cw := true, mem := true }
    (ldaOp p.core.val p.cyc reg.toNat imm)

/-- LDS (R298): LDS loads a stride register with an immediate. -/
def execLds (p : At) (g : Gate) (reg : BitVec 4) (imm : Word) (s : State) : Out :=
  s.coreRun (.lds p g reg imm) { cw := true, mem := true }
    (ldsOp p.core.val p.cyc reg.toNat imm)

/-- ADDA (R298): ADDA adds an immediate to an address register. -/
def execAdda (p : At) (g : Gate) (reg : BitVec 4) (imm : Word) (s : State) : Out :=
  s.coreRun (.adda p g reg imm) { cw := true, mem := true }
    (addaOp p.core.val p.cyc reg.toNat imm)

/-- SETR (R298): SETR loads WBSTEP, HSTEP or WQBASE. -/
def execSetr (p : At) (g : Gate) (reg : BitVec 4) (imm : Word) (s : State) : Out :=
  s.coreRun (.setr p g reg imm) { cw := true, mem := true }
    (setrOp p.core.val p.cyc reg.toNat imm)

/-- WIN (R298): WIN sets the geometry of a window. -/
def execWin (p : At) (g : Gate) (w : BitVec 3) (lb n : BitVec 13) (logP : BitVec 2) (cM1 : BitVec 6) (k : BitVec 7) (s
    : State) : Out :=
  s.coreRun (.win p g w lb n logP cM1 k) { cw := true, mem := true }
    (winOp p.core.val p.cyc w.toNat lb.toNat n.toNat logP.toNat cM1.toNat k.toNat)

/-- FEED_MAP (R298): FEED_MAP reads map words and window rows to build the broadcast 14 cycles later. -/
def execFeedMap (p : At) (g : Gate) (r : BitVec 4) (w : BitVec 3) (base : BitVec 5) (entry pass : BitVec 7) (chunk :
    BitVec 6) (estep mx : Bool) (err : MapErr) (s : State) : Out :=
  s.coreRun (.feedMap p g r w base entry pass chunk estep mx err) { cw := true, mem := true }
    (feedMap p.core.val p.cyc r.toNat w.toNat base.toNat entry.toNat pass.toNat chunk.toNat estep mx g.bound
      g.ctxFeed.toNat err.map err.row)

/-- FEED_DIR (R298): FEED_DIR reads 128 bytes at a strided address for the broadcast 8 cycles later. -/
def execFeedDir (p : At) (g : Gate) (r : BitVec 4) (base : BitVec 5) (entry : BitVec 7) (stride : BitVec 12) (chunk :
    BitVec 6) (estep mx : Bool) (ecc : Ecc) (s : State) : Out :=
  s.coreRun (.feedDir p g r base entry stride chunk estep mx ecc) { cw := true, mem := true }
    (feedDir p.core.val p.cyc r.toNat base.toNat entry.toNat stride.toNat chunk.toNat estep mx g.bound g.ctxFeed.toNat
      ecc)

/-- FEED_LIN (R298): FEED_LIN reads 128 bytes linearly for the broadcast 8 cycles later. -/
def execFeedLin (p : At) (g : Gate) (r : BitVec 4) (base : BitVec 5) (inc mx : Bool) (ecc : Ecc) (s : State) : Out :=
  s.coreRun (.feedLin p g r base inc mx ecc) { cw := true, mem := true }
    (feedLin p.core.val p.cyc r.toNat g.span base.toNat inc mx g.bound g.ctxFeed.toNat ecc)

/-- FEED_LAND (R299): A feed lands on the broadcast in its cycle; two feeds landing together raise FEED_CLASH. -/
def execFeedLand (core : Fin 32) (cyc : Nat) (s : State) : Out :=
  s.run { cw := true, mem := true } (feedLand core.val cyc)

end Sys2Proof.Machine
end

