-- ==== Sys2Proof/Machine/CmdArrays.lean ====
section
/-! DEFINITION. The commands of the matrix arrays (slots MW, MX and W): each one's effect on the device, and the blocks on which it acts. -/

namespace Sys2Proof.Machine

/-- WAVE (R294): The MW slot issues a wave, with optional swap, begin or end, to the targeted arrays or halves. -/
def execWave (p : At) (g : Gate) (r : BitVec 4) (t : Bool) (arrays : BitVec 4) (half : BitVec 2) (entry : BitVec 7)
    (estep accum swap begin_ end_ : Bool) (bad : BitVec 8) (feedBad : BitVec 4) (s : State) : Out :=
  s.coreRun (.wave p g r t arrays half entry estep accum swap begin_ end_ bad feedBad)
    { cw := true, lg := true, mem := true }
    (waveOp p.core.val p.cyc r.toNat g.span t arrays.toNat half.toNat entry.toNat estep accum swap begin_ end_
      bad.toNat feedBad.toNat)

/-- WAVE_LAND (R126): 200 schedule cycles after issue, a wave's column results enter the accumulator entry. -/
def execWaveLand (core : Fin 32) (cyc corr : Nat) (bad : BitVec 8) (row : Bool) (s : State) : Out :=
  s.run { cw := true, lg := true, mem := true } (waveLand core.val cyc corr bad.toNat row)

/-- FILL (R129): FILL loads a weight tile into the shadow registers of an array or half. -/
def execFill (p : At) (g : Gate) (array half : BitVec 2) (base : BitVec 5) (inc layout : Bool) (stride : BitVec 7)
    (ecc : List Ecc) (bad : BitVec 2) (s : State) : Out :=
  s.coreRun (.fill p g array half base inc layout stride ecc bad) { cw := true, lg := true, mem := true }
    (fillOp p.core.val p.cyc array.toNat half.toNat base.toNat inc (b2n layout) (stride.toNat + 1) ecc bad.toNat)

/-- JOB (R295): JOB sets the pending job number and format pair of a target. -/
def execJob (p : At) (g : Gate) (array half : BitVec 2) (afmt wfmt : BitVec 4) (jobNo : BitVec 16) (s : State) : Out
    :=
  s.coreRun (.job p g array half afmt wfmt jobNo) { cw := true, mem := true }
    (jobOp p.core.val p.cyc array.toNat half.toNat afmt.toNat wfmt.toNat jobNo.toNat)

/-- WAKE (R143): WAKE starts the ramp-up of the named arrays. -/
def execWake (p : At) (g : Gate) (arrays : BitVec 4) (s : State) : Out :=
  s.coreRun (.wake p g arrays) { cw := true, mem := true }
    (wakeOp p.core.val p.cyc arrays.toNat)

/-- SPLIT (R140): SPLIT makes arrays split into halves or whole. -/
def execSplit (p : At) (g : Gate) (arrays value : BitVec 4) (s : State) : Out :=
  s.coreRun (.split p g arrays value) { cw := true, mem := true }
    (splitOp p.core.val p.cyc arrays.toNat value.toNat)

/-- ARRAY_RAMP_STEP (R143): After each further 32 cycles the activity level of a ramping array rises or falls by 1. -/
def execArrayRampStep (core : Fin 32) (cyc : Nat) (array : Fin 4) (s : State) : Out :=
  s.run { cw := true, mem := true } (arrayRampStep core.val cyc array.val)

/-- WB (R297): WB writes back a column accumulator entry, converted, to a plane. -/
def execWb (p : At) (g : Gate) (r : BitVec 4) (arrays : BitVec 4) (half : BitVec 2) (entry : BitVec 7) (estep : Bool)
    (fmt : BitVec 4) (base : BitVec 5) (inc : Bool) (aow : BitVec 3) (dig : Bool) (corr : Nat) (err : WbErr) (s : State) : Out :=
  s.coreRun (.wb p g r arrays half entry estep fmt base inc aow dig corr err)
    { cw := true, lg := true, mem := true }
    (wbOp p.core.val p.cyc r.toNat g.span arrays.toNat half.toNat entry.toNat estep fmt.toNat base.toNat inc aow.toNat
      dig g.bound g.ctxOut.toNat corr err.bad.toNat err.par.toNat err.ecc)

/-- WBR (R297): WBR writes back a row accumulator entry of the transposed path. -/
def execWbr (p : At) (g : Gate) (r : BitVec 4) (entry : BitVec 7) (estep : Bool) (fmt : BitVec 4) (base : BitVec 5)
    (inc : Bool) (aow : BitVec 3) (dig : Bool) (corr : Nat) (err : WbrErr) (s : State) : Out :=
  s.coreRun (.wbr p g r entry estep fmt base inc aow dig corr err) { cw := true, lg := true, mem := true }
    (wbrOp p.core.val p.cyc r.toNat g.span entry.toNat estep fmt.toNat base.toNat inc aow.toNat dig g.bound
      g.ctxOut.toNat corr err.bad err.ecc)

end Sys2Proof.Machine
end

