-- ==== Sys2Proof/Machine/CmdBar.lean ====
section
/-! DEFINITION. The commands of host accesses to BAR0 and BAR2: each one's effect on the device, and the blocks on which it acts. -/

namespace Sys2Proof.Machine

/-- BAR2_WRITE (R406): A host write through BAR2 is applied within a protection window or discarded. -/
def execBar2Write (addr : Nat) (bytes : List Byte) (s : State) : Out :=
  s.run {} (bar2Write addr bytes)

/-- BAR2_READ (R406): A host read through BAR2 returns memory, flash or zero. -/
def execBar2Read (addr : Nat) (read : ReadSpan) (s : State) : Out :=
  s.run { cw := true, mem := true } (bar2Read addr read.len read.errs)

/-- REG64_LOW_READ (R7): A 4-byte read of a 64-bit register's low word captures the upper half for the next high-word
read. -/
def execReg64LowRead (requester addr size raw : Nat) (s : State) : Out :=
  s.run { tm := true } (bar0Read requester addr size raw)

/-- COUNTER_CLEAR (R10): A write to a SAT counter's CLR field sets it to zero and clears its overflow bit. -/
def execCounterClear (addr : Nat) (s : State) : Out :=
  s.run {} (counterClear addr)

/-- COMPLEMENT_VALUE_WRITE (R13): A write to the value register of a complement-checked pair is held pending. -/
def execComplementValueWrite (addr : Nat) (value : Word) (s : State) : Out :=
  s.run {} (complementValue addr value)

/-- COMPLEMENT_C_WRITE (R13): A write to a _C register accepts the pending value or raises a complement fault. -/
def execComplementCWrite (addr : Nat) (value : Word) (s : State) : Out :=
  s.run { et := true, lg := true } (complementC addr value)

/-- REGISTER_WRITE (R9): A write to any other register applies its access codes, including BL writes ignored after the
lock. -/
def execRegisterWrite (addr size : Nat) (value : Word64) (s : State) : Out :=
  s.run { tm := true, cm := true, et := true, lg := true, hi := true, bt := true } (fun d => (registerWrite addr size
    value d).recPost d)

/-- BAR0_BAD_READ (R473): A BAR0 read of bad size or alignment, or of an unoccupied offset, returns 0xFF bytes or zero
and counts in BAR0_BAD. -/
def execBar0BadRead (addr size : Nat) (s : State) : Out :=
  s.run {} (bar0BadRead addr size)

end Sys2Proof.Machine
end

