-- ==== Sys2Proof/Machine/CmdEngine.lean ====
section
/-! DEFINITION. The commands of gather/scatter engines, planes, network and digests: each one's effect on the device, and the blocks on which it acts. -/

namespace Sys2Proof.Machine

/-- ACCESS_PROMOTE (R159): An unscheduled plane access that has waited 16 array clocks is promoted above scheduled
accesses. -/
def execAccessPromote (core : Fin 32) (what : PlaneReq) (s : State) : Out :=
  s.run { cw := true } (accessPromote core.val what)

/-- UNSCHEDULED_ACCESS (R161): An unscheduled access is served at a plane bank, with journalling and correction. -/
def execUnscheduledAccess (core : Fin 32) (op : Nat) (ecc : Ecc) (s : State) : Out :=
  s.run { cw := true, mem := true } (unscheduledAccess core.val op ecc)

/-- PLANE_SCRUB (R166): Every 256 clocks the patrol scrub reads one entry of every powered bank and corrects it. -/
def execPlaneScrub (crew : Fin 4) (core : Fin 8) (word : Bool) (corr unc : List Nat) (s : State) : Out :=
  s.run { cw := true, mem := true } (planeScrub (8 * crew.val + core.val) word corr unc)

/-- WINDOW (R193): The WINDOW descriptor fetches the source rows of a group into a window and writes its map. -/
def execWindow (what : WinReq) (s : State) : Out :=
  s.run { cw := true, mem := true } (windowOp what.core.val what.mx)

/-- SPREAD (R204): The SPREAD descriptor writes output buffer rows to feature-map rows. -/
def execSpread (core : Fin 32) (s : State) : Out :=
  s.run { cw := true, mem := true } (spreadOp core.val)

/-- SCATTER_BEV (R206): The SCATTER_BEV descriptor projects sites into world cells and issues cell memory adds. -/
def execScatterBev (core : Fin 32) (s : State) : Out :=
  s.run { cm := true, cw := true, rl := true, mem := true } (scatterBev core.val)

/-- COPY (R204): The COPY descriptor moves 64-byte blocks between spaces. -/
def execCopy (core : Fin 32) (s : State) : Out :=
  s.run { cw := true, mem := true } (copyOp core.val)

/-- GS_OP_ISSUE (R202): The engine issues an operation when fewer than 512 are outstanding and any credit it needs is
held. -/
def execGsOpIssue (core : Fin 32) (issue : OpIssue) (s : State) : Out :=
  s.run { cw := true, rl := true } (gsOpIssue core.val issue)

/-- GS_OP_COMPLETE (R200): An operation completes, and the last one of a descriptor with PUT marks its ring slot FULL.
-/
def execGsOpComplete (core : Fin 32) (op : Nat) (s : State) : Out :=
  s.run { cw := true } (gsOpComplete core.val op)

/-- REMOTE_ACCESS_ARRIVE (R172): A remote access arrives at its target plane or the commons over the network-on-chip.
-/
def execRemoteAccessArrive (core : Fin 32) (op : Nat) (net : NetErr) (ecc : Ecc) (s : State) : Out :=
  s.run { cw := true, mem := true } (remoteArrive core.val op net ecc)

/-- CREDIT_RETURN (R174): A returned credit raises the sender's counter, or raises CREDIT_OVERFLOW. -/
def execCreditReturn (core : Fin 32) (dst : Fin 33) (entry : Fin 16) (s : State) : Out :=
  s.run { cw := true } (creditReturn core.val dst.val entry.val)

/-- BEV_ADD_ARRIVE (R207): A scatter add reaches the scatter buffer, where it waits for its stroke or is discarded as
late. -/
def execBevAddArrive (core : Fin 32) (op : Nat) (net : NetErr) (s : State) : Out :=
  s.run { cm := true, cw := true } (bevAddArrive core.val op net)

/-- DIGEST_COMPLETE (R227): The last group of a sector completes and the digest unit combines the group CRCs into a
digest record. -/
def execDigestComplete (s : State) : Out :=
  s.run { lg := true } digestComplete

end Sys2Proof.Machine
end

