-- ==== Sys2Proof/Machine/CmdGrid.lean ====
section
/-! DEFINITION. The commands of the grid builder and the level merger: each one's effect on the device, and the blocks on which it acts. -/

namespace Sys2Proof.Machine

/-- SPECULATIVE_INSERT (R78): A point is voxelised and, if its key is new to the sector, takes a PENDING hold in the
spatial hash. -/
def execSpeculativeInsert (s : State) : Out :=
  s.run { gb := true, mem := true } specInsert

/-- VERDICT_OPERATION (R80): The grid builder carries out the verdict operation of a sector: commit, drop or rollback.
-/
def execVerdictOperation (s : State) : Out :=
  s.run { gb := true, cw := true, mem := true } verdictOperation

/-- LEVEL_MERGE (R189): The level merger processes a commit for the coarse levels, writes its lists and PUTs the
work-set header. -/
def execLevelMerge (s : State) : Out :=
  s.run { gb := true, cw := true, ag := true, mem := true } levelMergeOp

/-- HASH_SCRUB_STEP (R91): The background scrub visits table handles and clears entries that are still LIVE with the
tag of a retired frame. -/
def execHashScrubStep (handles : Nat) (s : State) : Out :=
  s.run { gb := true, mem := true } (hashScrub handles)

end Sys2Proof.Machine
end

