-- ==== Sys2Proof/Machine/CmdHost.lean ====
section
/-! DEFINITION. The commands of the host interface: rings, interrupts, mailbox, link: each one's effect on the device, and the blocks on which it acts. -/

namespace Sys2Proof.Machine

/-- RECORD_DELIVER (R409): A queued record is written to the enabled record rings and their status blocks. -/
def execRecordDeliver (s : State) : Out :=
  s.run { hi := true } recordDeliver

/-- UPDATE_RECORD_FETCH (R412): The device fetches update records from ring 05 while ring 06 has room. -/
def execUpdateRecordFetch (s : State) : Out :=
  s.run { hi := true } updateFetch

/-- RING_ENABLE (R407): A write that sets EN of HI_RINGrr_CFG zeroes the ring's indices and enables the ring from the
next boundary. -/
def execRingEnable (ring : Fin 7) (value : Word) (s : State) : Out :=
  s.run { hi := true } (ringEnable ring.val value)

/-- RING_DISABLE (R407): A write that clears EN of HI_RINGrr_CFG disables the ring at the next boundary and discards
the entries queued for it. -/
def execRingDisable (ring : Fin 7) (value : Word) (s : State) : Out :=
  s.run { hi := true } (ringDisable ring.val value)

/-- RING_CONS_WRITE (R407): The host advances the CONS index of a ring, or the write is refused. -/
def execRingConsWrite (ring : Fin 7) (value : Word) (s : State) : Out :=
  s.run { hi := true } (ringConsWrite ring.val value)

/-- RING_PROD_WRITE (R407): The host advances the PROD index of ring 05, or the write is refused. -/
def execRingProdWrite (value : Word) (s : State) : Out :=
  s.run { hi := true } (ringProdWrite value)

/-- MSIX_COALESCE_TIMER (R416): The COAL_US timer of a coalescing vector expires, and its message is sent or made
pending. -/
def execMsixCoalesceTimer (ring : Fin 7) (s : State) : Out :=
  s.run { hi := true } (msixTimer ring.val)

/-- IRQ_CAUSE_CLEAR (R479): A W1C write to HI_IRQ_CAUSE clears the cause bits it names. -/
def execIrqCauseClear (value : Word) (s : State) : Out :=
  s.run { hi := true } (irqCauseClear value)

/-- NOP (R414): The NOP mailbox command ends DONE. -/
def execNop (a0 a1 a2 a3 : Word) (s : State) : Out :=
  s.run { hi := true, bt := true } (mailboxArgs a0 a1 a2 a3 false 1)

/-- GET_ATTESTATION (R448): The GET_ATTESTATION mailbox command writes a signed attestation report. -/
def execGetAttestation (a0 a1 a2 a3 : Word) (s : State) : Out :=
  s.run { hi := true, bt := true } (mailboxArgs a0 a1 a2 a3 false 2)

/-- GET_IMAGE_INFO (R414): The GET_IMAGE_INFO mailbox command writes M and the image header. -/
def execGetImageInfo (a0 a1 a2 a3 : Word) (s : State) : Out :=
  s.run { hi := true, bt := true } (mailboxArgs a0 a1 a2 a3 false 3)

/-- ENTER_MAINTENANCE (R415): The ENTER_MAINTENANCE mailbox command requests maintenance mode. -/
def execEnterMaintenance (a0 a1 a2 a3 : Word) (s : State) : Out :=
  s.run { hi := true, bt := true } (mailboxArgs a0 a1 a2 a3 false 4)

/-- FLASH_READ (R414): The FLASH_READ mailbox command reads flash into a host buffer. -/
def execFlashRead (a0 a1 a2 a3 : Word) (s : State) : Out :=
  s.run { hi := true, bt := true } (mailboxArgs a0 a1 a2 a3 false 5)

/-- FLASH_ERASE (R414): The FLASH_ERASE mailbox command erases a 64 KiB flash block. -/
def execFlashErase (a0 a1 a2 a3 : Word) (err : Bool) (s : State) : Out :=
  s.run { hi := true, bt := true } (mailboxArgs a0 a1 a2 a3 err 6)

/-- FLASH_WRITE (R414): The FLASH_WRITE mailbox command programs flash and reads it back. -/
def execFlashWrite (a0 a1 a2 a3 : Word) (err : Bool) (s : State) : Out :=
  s.run { hi := true, bt := true } (mailboxArgs a0 a1 a2 a3 err 7)

/-- LEAVE_MAINTENANCE (R414): The LEAVE_MAINTENANCE mailbox command causes a device reset 1 ms after DONE. -/
def execLeaveMaintenance (a0 a1 a2 a3 : Word) (s : State) : Out :=
  s.run { hi := true, bt := true } (mailboxArgs a0 a1 a2 a3 false 8)

/-- MAILBOX_END (R414): A mailbox command finishes, STATE takes its result and vector 3 is sent. -/
def execMailboxEnd (s : State) : Out :=
  s.run { hi := true } mailboxEnd

/-- HOST_INTERFACE_RESET (R404): PERST_N, Function Level Reset or D3hot resets only the host interface. -/
def execHostInterfaceReset (s : State) : Out :=
  s.run { hi := true } hostReset

/-- PCIE_LINK_TRAINING (R402): The PCI Express link trains up or goes down; LINK_UP, WIDTH and RATE change, and in
maintenance mode entered by the boot code vector 13 is sent once the link is up. -/
def execPcieLinkTraining (link : LinkEv) (width : BitVec 2) (rate : BitVec 3) (s : State) : Out :=
  s.run { hi := true } (pcieLink link width.toNat rate.toNat)

end Sys2Proof.Machine
end

