-- ==== Sys2Proof/Machine/CmdIntake.lean ====
section
/-! DEFINITION. The commands of intake: each one's effect on the device, and the blocks on which it acts. -/

namespace Sys2Proof.Machine

/-- ETH_FRAME_RX (R38): A whole Ethernet frame arrives at a MAC and is checked for FCS, tags and type, then routed to
intake or the time base. -/
def execEthFrameRx (mac : Fin 16) (frame : List Byte) (fcsOk : Bool) (left raw : Nat) (s : State) : Out :=
  s.run { tm := true, ig := true, gb := true, lg := true, si := true, rl := true, mem := true }
    (ethFrame mac.val frame fcsOk left raw)

/-- CSI2_PACKET_RX (R39): A whole CSI-2 long packet arrives at a receiver and is checked for header ECC, CRC and data
type. -/
def execCsi2PacketRx (rx : Fin 8) (vc : BitVec 2) (dt : BitVec 6) (payload : List Byte) (hdrOk crcOk : Bool)
    (left raw : Nat) (s : State) : Out :=
  s.run { ig := true, gb := true, lg := true, si := true, rl := true, mem := true }
    (csiPacket rx.val vc.toNat dt.toNat payload hdrOk crcOk left raw)

/-- SECTOR_TIMEOUT (R54): An open sector fails when no packet of its stream is accepted for 16 × TIMEOUT strokes. -/
def execSectorTimeout (stream : Fin 48) (s : State) : Out :=
  s.run { ig := true } (sectorTimeout stream.val)

/-- STREAM_MASK_WRITE (R44): A host write to IG_STREAM_MASK_LO or IG_STREAM_MASK_HI withdraws or re-enables streams at
the next boundary. -/
def execStreamMaskWrite (high : Bool) (value : Word) (s : State) : Out :=
  s.run { lg := true } (streamMaskWrite high value)

end Sys2Proof.Machine
end

