-- ==== Sys2Proof/Machine/CmdIsland.lean ====
section
/-! DEFINITION. The commands of the safety island: each one's effect on the device, and the blocks on which it acts. -/

namespace Sys2Proof.Machine

/-- GS_PLACE (R318): Bivouac places a tapped point into the groundsheet. -/
def execGsPlace (s : State) : Out :=
  s.run { si := true } gsPlace

/-- GS_SWEEP (R319): The groundsheet sweep clears slots whose T_SEEN is older than GS_HOLD. -/
def execGsSweep (slots : Nat) (s : State) : Out :=
  s.run { si := true } (gsSweep slots)

/-- MON_BOUNDARY (R316): The island takes a BOUNDARY message, judges it, applies doubts and clears groundsheet rows.
-/
def execMonBoundary (rx : MonRx) (cyc : Nat) (s : State) : Out :=
  s.run { cm := true, et := true, lg := true, si := true, flt := true, rl := true } (monBoundaryCore rx cyc)

/-- MON_RECORD (R317): The island takes a RECORD message and applies the record rules. -/
def execMonRecord (rx : MonRx) (s : State) : Out :=
  s.run { si := true } (monRecordCore rx)

/-- MON_DELIVERED (R325): The island takes a DELIVERED message, and a source mismatch is device-fatal. -/
def execMonDelivered (rx : MonRx) (got : Option Nat) (s : State) : Out :=
  s.run { si := true } (monDeliveredCore rx got)

/-- MON_MARK (R326): The island takes a MARK message for the window watchdogs. -/
def execMonMark (rx : MonRx) (cyc : Nat) (s : State) : Out :=
  s.run { si := true } (monMarkCore rx cyc)

/-- MON_SECTOR (R326): The island takes a SECTOR message and opens, tracks or closes the sector's windows. -/
def execMonSector (rx : MonRx) (s : State) : Out :=
  s.run { si := true } (monSectorCore rx)

/-- MON_GOLDEN (R317): The island takes a GOLDEN message and compares it with GOLDEN_REF. -/
def execMonGolden (rx : MonRx) (s : State) : Out :=
  s.run { si := true } (monGoldenCore rx)

/-- MON_POSE (R313): The island takes a POSE message and moves the groundsheet window. -/
def execMonPose (rx : MonRx) (s : State) : Out :=
  s.run { si := true } (monPoseCore rx)

/-- MON_FAULT (R339): The island takes a FAULT message and reacts by the fault class. -/
def execMonFault (rx : MonRx) (s : State) : Out :=
  s.run { si := true } (monFaultCore rx)

/-- WATCHDOG_CLOSE (R326): A window watchdog reaches CLOSE without its event, and the window is violated. -/
def execWatchdogClose (window : Fin 12) (sector : Machine.SecId) (s : State) : Out :=
  s.run { si := true } (watchdogCloseCore window.val sector)

/-- SAFE_OK_EDGE (R337): Every 500 µs Cox makes the next SAFE_OK edge if its conditions hold. -/
def execSafeOkEdge (match_ : Bool) (s : State) : Out :=
  s.run { si := true, ok := true } (safeOkEdgeCore match_)

/-- ISLAND_PLL_LOSS (R340): The island PLL loses lock, for example on loss of the 25 MHz crystal, and the island
raises device-fatal with no further SAFE_OK edge. -/
def execIslandPllLoss (s : State) : Out :=
  s.run { si := true, ok := true } islandPllLossCore

end Sys2Proof.Machine
end

