-- ==== Sys2Proof/Machine/CmdRegatta.lean ====
section
/-! DEFINITION. The commands of Regatta: each one's effect on the device, and the blocks on which it acts. -/

namespace Sys2Proof.Machine

/-- FLIT_RX (R386): A Regatta flit is received, checked and accepted in order, or answered by a NAK and replay. -/
def execFlitRx (link : Fin 3) (bytes : List Byte) (s : State) : Out :=
  s.run { rl := true } (flitRx link.val bytes)

/-- LINK_TRAIN_STATE (R388): A link training state completes and the link moves to the next state. -/
def execLinkTrainState (link : Fin 3) (ok : Bool) (ident : Machine.Ident) (reversed : Bool) (inverted : BitVec 16) (s
    : State) : Out :=
  s.run { tm := true, rl := true } (linkTrain link.val ok ident reversed inverted.toNat)

/-- RG_HEARTBEAT (R398): A heartbeat message from a peer updates its reachable set. -/
def execRgHeartbeat (chip : Fin 4) (reach : BitVec 4) (s : State) : Out :=
  s.run { rl := true } (rgHeartbeat chip.val reach.toNat)

/-- RG_TIME_EXCHANGE (R389): A time exchange message with chip 0 forms a servo measurement. -/
def execRgTimeExchange (chip : Fin 4) (t1 t2 t3 t4 : Int) (s : State) : Out :=
  s.run { tm := true, rl := true } (rgTime chip.val t1 t2 t3 t4)

/-- RG_READY (R390): Chip 0 takes a READY message from a chip. -/
def execRgReady (chip : Fin 4) (s : State) : Out :=
  s.run { rl := true } (rgReady chip.val)

/-- RG_START (R390): A START message names the stroke at which every chip enters the operational state. -/
def execRgStart (stroke : Stroke) (s : State) : Out :=
  s.run { rl := true } (rgStart stroke)

/-- RG_RESTART (R397): A RESTART message makes every chip restart at the named boundary. -/
def execRgRestart (chip : Fin 4) (stroke : Stroke) (s : State) : Out :=
  s.run { si := true, flt := true, rl := true } (rgRestart chip.val stroke)

/-- RG_FWD_POINT (R392): A forwarded point of a sector part arrives from its home chip. -/
def execRgFwdPoint (chip : Fin 4) (stroke : Stroke) (point : Machine.Point) (s : State) : Out :=
  s.run { gb := true, rl := true } (rgFwdPoint chip.val stroke point)

/-- RG_FWD_VERDICT (R392): The verdict of a forwarded part arrives from its home chip. -/
def execRgFwdVerdict (chip : Fin 4) (verdict : Machine.GVerd) (s : State) : Out :=
  s.run { gb := true, rl := true } (rgFwdVerdict chip.val verdict)

/-- RG_TAP_COPY (R393): A copy of a tapped point arrives for the island's raw point tap. -/
def execRgTapCopy (chip : Fin 4) (stroke : Stroke) (x y z : Int) (s : State) : Out :=
  s.run { si := true, rl := true } (rgTapCopy chip.val stroke x y z)

/-- RG_REMOTE_ADD (R395): A cell memory add, or its part header, arrives for a tile this chip owns. -/
def execRgRemoteAdd (chip : Fin 4) (item : Machine.RemoteAdd) (s : State) : Out :=
  s.run { cm := true, rl := true } (match item with
    | .add a => rgRemoteAdd chip.val a
    | .header e => rgAddHeader chip.val e)

/-- RG_PARTIAL_SUM (R255): An adaptation partial sum or new row arrives from another chip. -/
def execRgPartialSum (chip : Fin 4) (kind : Fin 3) (table : Fin 64) (row : Nat) (vals : List Nat) (s : State) : Out :=
  s.run { et := true, rl := true } (rgPartialSum chip.val kind.val table.val row vals)

/-- PEER_LOSS (R398): Eight strokes without a heartbeat remove a peer from the reachable set. -/
def execPeerLoss (chip : Fin 4) (s : State) : Out :=
  s.run { rl := true } (peerLoss chip.val)

/-- GROUP_EVALUATE (R399): Four strokes after a change of the reachable set, the chip evaluates its group and reacts.
-/
def execGroupEvaluate (s : State) : Out :=
  s.run { rl := true } groupEvaluate

/-- RG_RESUME (R397): Chip 0 learns that every chip has completed Re-seat and names the frame boundary at which all
chips resume, and each chip takes that naming. -/
def execRgResume (chip : Fin 4) (stroke : Stroke) (s : State) : Out :=
  s.run { flt := true, rl := true } (rgResume chip.val stroke)

end Sys2Proof.Machine
end

