-- ==== Sys2Proof/Machine/CmdRestart.lean ====
section
/-! DEFINITION. The commands of the phases of an accelerator restart: each one's effect on the device, and the blocks on which it acts. -/

namespace Sys2Proof.Machine

/-- RESTART_STOP_DONE (R333): The network-on-chip and the outstanding store operations of a restart have drained. -/
def execRestartStopDone (s : State) : Out :=
  s.run { flt := true } restartStopDone

/-- RESTART_RESET_DONE (R333): The accelerator blocks have been reset. -/
def execRestartResetDone (s : State) : Out :=
  s.run { gb := true, cm := true, cw := true, ag := true, et := true, lg := true, flt := true } restartResetDone

/-- RESTART_RESTORE_DONE (R333): The planes and staging have been restored from the restart copy, or a CRC failure
makes the latch permanent. -/
def execRestartRestoreDone (ok : Bool) (s : State) : Out :=
  s.run { flt := true, mem := true } (restartRestoreDone ok)

/-- RESTART_RESEAT_DONE (R333): The hash has been zeroed and cell memory re-seated, so resumption waits for a frame
boundary. -/
def execRestartReseatDone (s : State) : Out :=
  s.run { gb := true, cm := true, flt := true, rl := true } restartReseatDone

end Sys2Proof.Machine
end

