-- ==== Sys2Proof/Machine/CmdRing.lean ====
section
/-! DEFINITION. The commands of rings, descriptors and the ends of programs (slot G): each one's effect on the device, and the blocks on which it acts. -/

namespace Sys2Proof.Machine

/-- DESC (R304): DESC copies a descriptor template into the gather/scatter queue. -/
def execDesc (p : At) (g : Gate) (base : BitVec 5) (inc : Bool) (a0src : BitVec 5) (cnt : Bool) (ctx : BitVec 2) (bnd
    : Bool) (waited : Nat) (s : State) : Out :=
  s.coreRun (.desc p g base inc a0src cnt ctx bnd waited) { cw := true, mem := true }
    (descOp p.core.val p.cyc base.toNat inc a0src.toNat cnt ctx.toNat bnd waited)

/-- GET (R169): GET checks a ring slot for the consumer and loads its address. -/
def execGet (p : At) (g : Gate) (ring : BitVec 5) (ar : BitVec 4) (ctx : BitVec 2) (bnd : Bool) (waited : Nat) (s :
    State) : Out :=
  s.coreRun (.get p g ring ar ctx bnd waited) { cw := true, mem := true }
    (getOp p.core.val p.cyc ring.toNat ar.toNat ctx.toNat bnd waited)

/-- PUTR (R304): PUTR reserves the slot at a ring's head. -/
def execPutr (p : At) (g : Gate) (ring : BitVec 5) (ar : BitVec 4) (ctx : BitVec 2) (bnd : Bool) (s : State) : Out :=
  s.coreRun (.putr p g ring ar ctx bnd) { cw := true, mem := true }
    (putrOp p.core.val p.cyc ring.toNat ar.toNat ctx.toNat bnd)

/-- PUTC (R304): PUTC completes the oldest reserved slot of a ring and marks it FULL. -/
def execPutc (p : At) (g : Gate) (ring : BitVec 5) (ctx : BitVec 2) (bnd : Bool) (waited : Nat) (s : State) : Out :=
  s.coreRun (.putc p g ring ctx bnd waited) { cw := true, mem := true }
    (putcOp p.core.val p.cyc ring.toNat ctx.toNat bnd waited)

/-- DRAIN (R169): DRAIN frees a ring slot and advances the tail. -/
def execDrain (p : At) (g : Gate) (ring : BitVec 5) (ctx : BitVec 2) (bnd : Bool) (s : State) : Out :=
  s.coreRun (.drain p g ring ctx bnd) { cw := true, mem := true }
    (drainOp p.core.val p.cyc ring.toNat ctx.toNat bnd)

/-- PROGRAM_END (R273): A stroke program ends, its share counts are checked and the crew enters the boundary wait. -/
def execProgramEnd (crew : CrewEnd) (real golden : Nat) (s : State) : Out :=
  s.run { cw := true } (crewEnd crew real golden)

/-- SLOT_WAIT_EXPIRE (R170): A slot check that still fails after 64 cycles raises SLOT_UNDERRUN or SLOT_OVERRUN. -/
def execSlotWaitExpire (core : Fin 32) (s : State) : Out :=
  s.run { cw := true } (slotWaitExpire core.val)

/-- DESC_QUEUE_TIMEOUT (R201): A descriptor that has waited 64 freeze cycles for the full queue raises DESC_OVERRUN.
-/
def execDescQueueTimeout (core : Fin 32) (s : State) : Out :=
  s.run { cw := true } (descQueueTimeout core.val)

end Sys2Proof.Machine
end

