-- ==== Sys2Proof/Machine/CmdSeq.lean ====
section
/-! DEFINITION. The commands of the crew sequencer (slot S): each one's effect on the device, and the blocks on which it acts. -/

namespace Sys2Proof.Machine

/-- TURN (R291): TURN binds the core's next queued group, or a null group, into a turn context. -/
def execTurn (p : At) (g : Gate) (stage : BitVec 5) (level : BitVec 2) (s : State) : Out :=
  s.coreRun (.turn p g stage level) { cw := true, mem := true }
    (turnOp p.core.val p.cyc g.ctxFeed.toNat level.toNat g.gold)

/-- RELEASE (R291): RELEASE frees the group slot of a context. -/
def execRelease (p : At) (g : Gate) (s : State) : Out :=
  s.coreRun (.release p g) { cw := true, mem := true }
    (releaseOp p.core.val p.cyc g.ctxOut.toNat)

/-- DIGOPEN (R293): DIGOPEN opens the core's digest channel at a digest point. -/
def execDigopen (p : At) (g : Gate) (point : BitVec 8) (s : State) : Out :=
  s.coreRun (.digopen p g point) { cw := true, mem := true }
    (digopenOp p.core.val p.cyc g.ctxOut.toNat point.toNat)

/-- DIGCLOSE (R293): DIGCLOSE closes the digest channel and passes the group CRC to the digest unit. -/
def execDigclose (p : At) (g : Gate) (s : State) : Out :=
  s.coreRun (.digclose p g) { cw := true, lg := true, mem := true }
    (digcloseOp p.core.val p.cyc g.ctxOut.toNat)

/-- MERGE (R252): MERGE issues an adaptation step with a record count taken from an address register. -/
def execMerge (p : At) (g : Gate) (ar : BitVec 4) (waited : Nat) (s : State) : Out :=
  s.coreRun (.merge p g ar waited) { cw := true, et := true, mem := true }
    (mergeOp p.core.val p.cyc ar.toNat waited)

end Sys2Proof.Machine
end

