-- ==== Sys2Proof/Machine/CmdStore.lean ====
section
/-! DEFINITION. The commands of the external store: each one's effect on the device, and the blocks on which it acts. -/

namespace Sys2Proof.Machine

/-- XS_BURST (R430): A store channel serves its next request by class and age as a burst with ECC. -/
def execXsBurst (channel : Fin 32) (corr : Nat) (unc : Bool) (victim : Nat) (s : State) : Out :=
  s.run { xs := true } (xsBurst channel.val corr unc victim)

/-- XS_PROMOTE (R430): A store request that has waited 8 µs is promoted to the top class. -/
def execXsPromote (channel : Fin 32) (raw : Nat) (s : State) : Out :=
  s.run { xs := true } (xsPromote channel.val raw)

/-- XS_CHECK_WRITEBACK (R426): A changed check burst is written back on eviction or 64 µs after its first change. -/
def execXsCheckWriteback (channel : Fin 32) (s : State) : Out :=
  s.run { xs := true } (xsCheckWriteback channel.val)

/-- XS_SCRUB (R427): Every 512 µs the store patrol scrub reads a device row of each channel. -/
def execXsScrub (s : State) : Out :=
  s.run { xs := true } xsScrub

/-- XS_RETRAIN (R429): Each channel retrains its read strobe once every second. -/
def execXsRetrain (channel : Fin 32) (delay : BitVec 6) (s : State) : Out :=
  s.run { xs := true } (xsRetrain channel.val delay.toNat)

/-- XS_INIT (R428): After reset release the store channels initialise, train and set READY or GEOM_ERR. -/
def execXsInit (fail : BitVec 32) (same : Bool) (devicesM1 : BitVec 1) (density : BitVec 2) (id0 id1 : List (BitVec 8))
    (delay : List (BitVec 6)) (s : State) : Out :=
  s.run { xs := true } (xsInit fail same devicesM1.toNat density.toNat (id0.map BitVec.toNat) (id1.map BitVec.toNat)
    (delay.map BitVec.toNat))

end Sys2Proof.Machine
end

