-- ==== Sys2Proof/Machine/CmdStroke.lean ====
section
/-! DEFINITION. The commands of boundaries, cell memory and rollbacks: each one's effect on the device, and the blocks on which it acts. -/

namespace Sys2Proof.Machine

/-- STROKE_BOUNDARY (R25): At the end of each stroke the device commits the checkpoint and applies commits, pairs,
table switches and tile-head start, in order. -/
def execStrokeBoundary (heads : Option (List (Word64 × Word64))) (what : BoundaryIn) (s : State) : Out :=
  s.run { Writes.all with xs := false } (strokeBoundary heads (what.golden.map (fun c => (c, what.goldenLate))) what.errs what.agree)

/-- ROLL_STEP_COMPLETE (R111): A roll step completes once its rows have arrived and 16 strokes have passed: the origin
moves and the entering slots are re-initialised. -/
def execRollStepComplete (rows : RowsIn) (s : State) : Out :=
  s.run { cm := true, et := true, lg := true, mem := true } (rollStepComplete rows.bad rows.errs)

/-- RELOAD_BLOCK_COMPLETE (R113): A reload block completes and replaces PRIOR and its flags in its slots. -/
def execReloadBlockComplete (rows : RowsIn) (s : State) : Out :=
  s.run { cm := true, et := true, lg := true, mem := true } (reloadBlockComplete rows.bad rows.errs)

/-- POSE_COMMIT (R103): A write of GO to CM_POSE_COMMIT applies the pose and yaw at the next boundary. -/
def execPoseCommit (s : State) : Out :=
  s.run { cm := true, lg := true } poseCommit

/-- ROLLBACK_RESTORE (R352): The network-on-chip drain, the checkpoint restore and the journal restore of the
restoration stroke complete. -/
def execRollbackRestore (bad : Option (Fin 32)) (s : State) : Out :=
  s.run { gb := true, cm := true, cw := true, ag := true, et := true, lg := true, flt := true, mem := true }
    (rollbackRestore bad)

/-- FRAME_BOUNDARY (R21): After L strokes a new frame begins with a sequence number one greater. -/
def execFrameBoundary (s : State) : Out :=
  s.run
    { Writes.all with cw := false, et := false, rl := false, hi := false, xs := false, bt := false, mem := false, mode := false, ok := false }
    (fun d => (frameBoundary d).recPost d)

/-- FRAME_RETIRE (R91): 320 + D strokes into the next frame, a frame retires and its LIVE entries become FREE. -/
def execFrameRetire (s : State) : Out :=
  s.run { tm := true, gb := true } frameRetire

/-- ENTER_OPERATIONAL (R19): Once ready, the device enters the operational state at the first whole microsecond of
corrected time and opens the first stroke. -/
def execEnterOperational (s : State) : Out :=
  s.run { Writes.all with xs := false, pm := false } enterOperational

end Sys2Proof.Machine
end

