-- ==== Sys2Proof/Machine/CmdSystem.lean ====
section
/-! DEFINITION. The commands of resets, boot, power and clocks: each one's effect on the device, and the blocks on which it acts. -/

namespace Sys2Proof.Machine

/-- RESET_RELEASE (R457): The release from device reset samples the straps and starts the boot sequence. -/
def execResetRelease (chipSel chipCntM1 : BitVec 2) (maintN : Bool) (s : State) : Out :=
  s.run Writes.all (resetRelease chipSel chipCntM1 maintN)

/-- BOOT (R442): The boot code verifies, places and checks the image, writes the restart copy, locks protection or
enters maintenance mode. -/
def execBoot (found : List FlashDev) (s : State) : Out :=
  s.run { Writes.all with tm := false, cm := false, ag := false, et := false, xs := false, pm := false }
    (boot found)

/-- FUSE_ENROL (R439): After entry, the boot code enrols the signer and raises the security version in the fuses. -/
def execFuseEnrol (s : State) : Out :=
  s.run { bt := true } fuseEnrol

/-- RESET_N_ASSERT (R456): A low pulse on RESET_N starts a device reset. -/
def execResetNAssert (ns : Nat) (taken : Bool) (s : State) : Out :=
  s.run Writes.all (resetNAssert ns taken)

/-- MAIN_POR (R456): A main rail below its level causes the main power-on reset. -/
def execMainPor (rail : Fin 6) (s : State) : Out :=
  s.run Writes.all (mainPor rail.val)

/-- ISLAND_POR (R456): VDD_SAFE below its level resets the island only. -/
def execIslandPor (s : State) : Out :=
  s.run { si := true, pm := true, ok := true } islandPor

/-- RAIL_EXCURSION (R452): A rail outside its window for 1 µs is reported or made device-fatal. -/
def execRailExcursion (rail : Fin 6) (s : State) : Out :=
  s.run { si := true, pm := true } (railExcursion rail.val)

/-- ROOT_PLL_LOSS (R460): Loss of root PLL lock, or of REFCLK, is device-fatal. -/
def execRootPllLoss (refclk : Bool) (s : State) : Out :=
  s.run { pm := true } (rootPllLoss refclk)

/-- THERMAL_READ (R469): Every 100 µs the junction sensors are read, and two reads at TSHUT are device-fatal. -/
def execThermalRead (readings : List Int) (s : State) : Out :=
  s.run { si := true, pm := true } (thermalRead readings)

/-- RAIL_RETURN (R455): A rail comes back within its window: its PM_STATUS bit sets again, or for VDD_SAFE the island
power-on reset completes and the island waits, holding no THRESHOLDS. -/
def execRailReturn (rail : Fin 6) (s : State) : Out :=
  s.run { pm := true } (railReturn rail.val)

/-- INTERNAL_RESET_PULSE (R456): 1 ms after LEAVE_MAINTENANCE reads DONE, an internal reset pulse of 10 µs starts a
device reset. -/
def execInternalResetPulse (s : State) : Out :=
  s.run Writes.all internalReset

end Sys2Proof.Machine
end

