-- ==== Sys2Proof/Machine/CmdTables.lean ====
section
/-! DEFINITION. The commands of embedding tables, updates and recording: each one's effect on the device, and the blocks on which it acts. -/

namespace Sys2Proof.Machine

/-- LOOKUP (R241): The table engine takes up a lookup request, or refuses it as stale, and issues its row reads. -/
def execLookup (ring : Fin 32) (s : State) : Out :=
  s.run { cw := true, et := true, mem := true } (lookupOp ring.val)

/-- LOOKUP_ROW_RETURN (R243): A row read returns, the old or new row is chosen and written to DEST, and the result
slot is PUT. -/
def execLookupRowReturn (index : Nat) (bad : Bool) (s : State) : Out :=
  s.run { cw := true, et := true, mem := true } (lookupRowReturn index bad)

/-- TABLE_ABORT (R247): A write of ABORT to ET_TABLEtt_CTRL cancels a pending commit or live operations at the closing
boundary. -/
def execTableAbort (table : Fin 64) (s : State) : Out :=
  s.run { et := true, lg := true } (tableAbort table.val)

/-- ROW_WRITE (R244): The engine writes a row of a row-by-row table through its shadow and odd-even SEQ steps. -/
def execRowWrite (s : State) : Out :=
  s.run { et := true } rowWrite

/-- ROW_RESTORE (R250): The rows of an aborted operation are restored from the shadow. -/
def execRowRestore (s : State) : Out :=
  s.run { et := true } rowRestore

/-- SETTLED_SWEEP (R244): A background sweep sets SETTLED in slots whose last write took effect at least 2²⁰ strokes
ago. -/
def execSettledSweep (places : Nat) (s : State) : Out :=
  s.run { et := true } (settledSweep places)

/-- ADAPT_MERGE (R253): The merge unit sorts a batch and computes each updated row. -/
def execAdaptMerge (s : State) : Out :=
  s.run { et := true, rl := true } adaptMerge

/-- ADAPT_ABORT (R254): A write of ABORT to ET_ADAPT_CTRL aborts the live adaptation step before its linearisation
point. -/
def execAdaptAbort (s : State) : Out :=
  s.run { et := true, lg := true } adaptAbort

/-- UPDATE_RECORD (R251): A fetched update record is decided and its completion is written to ring 06. -/
def execUpdateRecord (s : State) : Out :=
  s.run { et := true, lg := true, hi := true } updateRecord

/-- REC_ARM (R229): A write of ARM to CS_REC_CTRL arms a recording or replay session. -/
def execRecArm (mode : BitVec 2) (s : State) : Out :=
  s.run { lg := true } (fun d => (recArm mode.toNat d).recPost d)

/-- REC_STOP (R232): A write of STOP to CS_REC_CTRL ends the session at the next frame boundary. -/
def execRecStop (s : State) : Out :=
  s.run { lg := true } (fun d => (recStop d).recPost d)

/-- REC_ABORT (R232): A write of ABORT to CS_REC_CTRL aborts the session before END, or reports NOTHING_TO_ABORT. -/
def execRecAbort (s : State) : Out :=
  s.run { lg := true, hi := true } (fun d => (recAbort d).recPost d)

end Sys2Proof.Machine
end

