-- ==== Sys2Proof/Machine/CmdTime.lean ====
section
/-! DEFINITION. The commands of the time base: each one's effect on the device, and the blocks on which it acts. -/

namespace Sys2Proof.Machine

/-- PTP_MESSAGE_RX (R371): The protocol engine takes a time-synchronisation message and may form a measurement. -/
def execPtpMessageRx (raw : Nat) (s : State) : Out :=
  s.run { tm := true } (ptpMessageRx raw)

/-- PTP_SYNC_TX (R370): A master port sends Sync and Follow_Up at its interval. -/
def execPtpSyncTx (mac : Fin 16) (raw : Nat) (s : State) : Out :=
  s.run { tm := true } (ptpSyncTx mac.val raw)

/-- HOLDOVER_ENTER (R368): When no measurement has been formed for HOLD_MS, the servo enters holdover. -/
def execHoldoverEnter (raw : Nat) (s : State) : Out :=
  s.run { tm := true } (holdoverEnter raw)

/-- TIME_ADJUST (R369): A write of GO to TB_ADJ_CTRL applies the rate and step at the next boundary. -/
def execTimeAdjust (s : State) : Out :=
  s.run { tm := true } timeAdjust

/-- TRIGGER_EDGE (R376): A trigger output drives its rising edge by its mode. -/
def execTriggerEdge (n : Fin 24) (raw : Nat) (s : State) : Out :=
  s.run { tm := true } (triggerEdge n.val raw)

/-- TRIGGER_PULSE_END (R376): A trigger pulse ends after WIDTH ns of raw time. -/
def execTriggerPulseEnd (n : Fin 24) (raw : Nat) (s : State) : Out :=
  s.run { tm := true } (triggerPulseEnd n.val raw)

/-- CAPTURE_EDGE (R379): A filtered edge on a capture input is stored with its corrected time. -/
def execCaptureEdge (n : Fin 24) (rise : Bool) (raw : Nat) (s : State) : Out :=
  s.run { tm := true } (captureEdge n.val rise raw)

/-- CAPTURE_READ (R380): A read of TB_CAPnn_VAL_LO removes the oldest capture entry. -/
def execCaptureRead (n : Fin 24) (s : State) : Out :=
  s.run { tm := true } (captureRead 0 n.val)

/-- RAW_MICROSECOND_TICK (R366): Before the operational state, OFFSET, RATE and ANCHOR change at each 1 µs tick of raw
time, by the servo or an adjustment. -/
def execRawMicrosecondTick (s : State) : Out :=
  s.run { tm := true, lg := true, rl := true } rawTickReady

/-- PTP_DELAY_REQ_TX (R371): The SLAVE port sends Delay_Req, or Pdelay_Req as requester, to obtain the path-delay
measurements that the servo's measurement needs. -/
def execPtpDelayReqTx (raw : Nat) (s : State) : Out :=
  s.run { tm := true } (ptpDelayReqTx raw)

end Sys2Proof.Machine
end

