-- ==== Sys2Proof/Machine/CmdVector.lean ====
section
/-! DEFINITION. The commands of the vector unit (slot V): each one's effect on the device, and the blocks on which it acts. -/

namespace Sys2Proof.Machine

/-- ADD (R301): Vector INT32 addition. -/
def execAdd (p : At) (g : Gate) (f : VecF) (s : State) : Out :=
  s.coreRun (.add p g f) { cw := true, mem := true }
    (vecOp p.core.val p.cyc f.vd.toNat f.va.toNat f.vb.toNat f.vc.toNat 2 (fun a b _ => iAdd f.sat a b))

/-- SUB (R301): Vector INT32 subtraction. -/
def execSub (p : At) (g : Gate) (f : VecF) (s : State) : Out :=
  s.coreRun (.sub p g f) { cw := true, mem := true }
    (vecOp p.core.val p.cyc f.vd.toNat f.va.toNat f.vb.toNat f.vc.toNat 2 (fun a b _ => iSub f.sat a b))

/-- MUL (R301): Vector INT32 multiplication keeping the low 32 bits. -/
def execMul (p : At) (g : Gate) (f : VecF) (s : State) : Out :=
  s.coreRun (.mul p g f) { cw := true, mem := true }
    (vecOp p.core.val p.cyc f.vd.toNat f.va.toNat f.vb.toNat f.vc.toNat 2 (fun a b _ => iMul f.sat a b))

/-- AND (R301): Vector bitwise AND. -/
def execAnd (p : At) (g : Gate) (f : VecF) (s : State) : Out :=
  s.coreRun (.and p g f) { cw := true, mem := true }
    (vecOp p.core.val p.cyc f.vd.toNat f.va.toNat f.vb.toNat f.vc.toNat 2 (fun a b _ => (Nat.land a b, {})))

/-- OR (R301): Vector bitwise OR. -/
def execOr (p : At) (g : Gate) (f : VecF) (s : State) : Out :=
  s.coreRun (.or p g f) { cw := true, mem := true }
    (vecOp p.core.val p.cyc f.vd.toNat f.va.toNat f.vb.toNat f.vc.toNat 2 (fun a b _ => (Nat.lor a b, {})))

/-- XOR (R301): Vector bitwise XOR. -/
def execXor (p : At) (g : Gate) (f : VecF) (s : State) : Out :=
  s.coreRun (.xor p g f) { cw := true, mem := true }
    (vecOp p.core.val p.cyc f.vd.toNat f.va.toNat f.vb.toNat f.vc.toNat 2 (fun a b _ => (Nat.xor a b, {})))

/-- SHL (R301): Vector shift left. -/
def execShl (p : At) (g : Gate) (f : VecF) (s : State) : Out :=
  s.coreRun (.shl p g f) { cw := true, mem := true }
    (vecOp p.core.val p.cyc f.vd.toNat f.va.toNat f.vb.toNat f.vc.toNat 2 (fun a b _ => (iShl a b, {})))

/-- SHRL (R301): Vector logical shift right. -/
def execShrl (p : At) (g : Gate) (f : VecF) (s : State) : Out :=
  s.coreRun (.shrl p g f) { cw := true, mem := true }
    (vecOp p.core.val p.cyc f.vd.toNat f.va.toNat f.vb.toNat f.vc.toNat 2 (fun a b _ => (iShrl a b, {})))

/-- SHRA (R301): Vector arithmetic shift right. -/
def execShra (p : At) (g : Gate) (f : VecF) (s : State) : Out :=
  s.coreRun (.shra p g f) { cw := true, mem := true }
    (vecOp p.core.val p.cyc f.vd.toNat f.va.toNat f.vb.toNat f.vc.toNat 2 (fun a b _ => (iShra a b, {})))

/-- CMP (R301): Vector signed integer compare. -/
def execCmp (p : At) (g : Gate) (f : VecF) (s : State) : Out :=
  s.coreRun (.cmp p g f) { cw := true, mem := true }
    (vecOp p.core.val p.cyc f.vd.toNat f.va.toNat f.vb.toNat f.vc.toNat 2 (fun a b _ => (iCmp f.sub.toNat a b, {})))

/-- SEL (R301): Vector lane select. -/
def execSel (p : At) (g : Gate) (f : VecF) (s : State) : Out :=
  s.coreRun (.sel p g f) { cw := true, mem := true }
    (vecOp p.core.val p.cyc f.vd.toNat f.va.toNat f.vb.toNat f.vc.toNat 2
      (fun a b x => (selLane f.ty.toNat a b x, {})))

/-- FADD (R301): Vector floating-point addition. -/
def execFadd (p : At) (g : Gate) (f : VecF) (s : State) : Out :=
  s.coreRun (.fadd p g f) { cw := true, mem := true }
    (vecOp p.core.val p.cyc f.vd.toNat f.va.toNat f.vb.toNat f.vc.toNat 4 (fun a b _ => fp2 f.ty.toNat (fAdd fmtF32) a
      b))

/-- FSUB (R301): Vector floating-point subtraction. -/
def execFsub (p : At) (g : Gate) (f : VecF) (s : State) : Out :=
  s.coreRun (.fsub p g f) { cw := true, mem := true }
    (vecOp p.core.val p.cyc f.vd.toNat f.va.toNat f.vb.toNat f.vc.toNat 4 (fun a b _ => fp2 f.ty.toNat (fSub fmtF32) a
      b))

/-- FMUL (R301): Vector floating-point multiplication. -/
def execFmul (p : At) (g : Gate) (f : VecF) (s : State) : Out :=
  s.coreRun (.fmul p g f) { cw := true, mem := true }
    (vecOp p.core.val p.cyc f.vd.toNat f.va.toNat f.vb.toNat f.vc.toNat 4 (fun a b _ => fp2 f.ty.toNat (fMul fmtF32) a
      b))

/-- FMA (R301): Vector fused multiply-add with one rounding. -/
def execFma (p : At) (g : Gate) (f : VecF) (s : State) : Out :=
  s.coreRun (.fma p g f) { cw := true, mem := true }
    (vecOp p.core.val p.cyc f.vd.toNat f.va.toNat f.vb.toNat f.vc.toNat 4 (fun a b x => fp3 f.ty.toNat a b x))

/-- FMIN (R301): Vector floating-point minimum. -/
def execFmin (p : At) (g : Gate) (f : VecF) (s : State) : Out :=
  s.coreRun (.fmin p g f) { cw := true, mem := true }
    (vecOp p.core.val p.cyc f.vd.toNat f.va.toNat f.vb.toNat f.vc.toNat 4 (fun a b _ => fp2 f.ty.toNat (fMinMax fmtF32
      false) a b))

/-- FMAX (R301): Vector floating-point maximum. -/
def execFmax (p : At) (g : Gate) (f : VecF) (s : State) : Out :=
  s.coreRun (.fmax p g f) { cw := true, mem := true }
    (vecOp p.core.val p.cyc f.vd.toNat f.va.toNat f.vb.toNat f.vc.toNat 4 (fun a b _ => fp2 f.ty.toNat (fMinMax fmtF32
      true) a b))

/-- FCMP (R301): Vector floating-point compare. -/
def execFcmp (p : At) (g : Gate) (f : VecF) (s : State) : Out :=
  s.coreRun (.fcmp p g f) { cw := true, mem := true }
    (vecOp p.core.val p.cyc f.vd.toNat f.va.toNat f.vb.toNat f.vc.toNat 4 (fun a b _ => fpCmp f.ty.toNat f.sub.toNat a
      b))

/-- CVT (R302): Vector format conversion with packing. -/
def execCvt (p : At) (g : Gate) (f : VecF) (s : State) : Out :=
  s.coreRun (.cvt p g f) { cw := true, mem := true }
    (cvtOp p.core.val p.cyc f.vd.toNat f.va.toNat f.ty.toNat f.sub.toNat)

/-- UNPK (R301): Vector unpacking of 8-bit or BF16 elements. -/
def execUnpk (p : At) (g : Gate) (f : VecF) (s : State) : Out :=
  s.coreRun (.unpk p g f) { cw := true, mem := true }
    (unpkOp p.core.val p.cyc f.vd.toNat f.va.toNat f.ty.toNat f.sub.toNat)

/-- MXB (R148): Vector MX block formation. -/
def execMxb (p : At) (g : Gate) (f : VecF) (s : State) : Out :=
  s.coreRun (.mxb p g f) { cw := true, mem := true }
    (mxbOp p.core.val p.cyc f.vd.toNat f.va.toNat f.sub.toNat)

/-- FN (R303): Vector function exp2, log2, reciprocal, reciprocal square root, tanh or sigmoid. -/
def execFn (p : At) (g : Gate) (f : VecF) (s : State) : Out :=
  s.coreRun (.fn p g f) { cw := true, mem := true }
    (vecOp p.core.val p.cyc f.vd.toNat f.va.toNat f.vb.toNat f.vc.toNat 8 (fun a _ _ => fpFn f.ty.toNat f.sub.toNat
      a))

/-- RED (R147): Vector reduction across lanes or groups by the fixed tree. -/
def execRed (p : At) (g : Gate) (f : VecF) (s : State) : Out :=
  s.coreRun (.red p g f) { cw := true, mem := true }
    (redOp p.core.val p.cyc f.vd.toNat f.va.toNat f.ty.toNat f.sub.toNat)

/-- VLD (R301): Vector load of 1 KiB from a plane. -/
def execVld (p : At) (g : Gate) (r : BitVec 4) (f : VecM) (ecc : Ecc) (s : State) : Out :=
  s.coreRun (.vld p g r f ecc) { cw := true, mem := true }
    (vldOp p.core.val p.cyc r.toNat g.span f.vd.toNat f.base.toNat f.inc f.word ecc)

/-- VST (R301): Vector store of 1 KiB with an optional accumulate-on-write. -/
def execVst (p : At) (g : Gate) (r : BitVec 4) (f : VecM) (s : State) : Out :=
  s.coreRun (.vst p g r f) { cw := true, mem := true }
    (vstOp p.core.val p.cyc r.toNat g.span f.va.toNat f.base.toNat f.inc f.word f.aow.toNat)

/-- VGATH (R301): Vector gather of 64 word-plane words. -/
def execVgath (p : At) (g : Gate) (r : BitVec 4) (f : VecM) (ecc : Ecc) (s : State) : Out :=
  s.coreRun (.vgath p g r f ecc) { cw := true, mem := true }
    (vgathOp p.core.val p.cyc r.toNat g.span f.vd.toNat f.vb.toNat f.base.toNat f.inc ecc)

/-- VSCAT (R301): Vector scatter of 64 word-plane words. -/
def execVscat (p : At) (g : Gate) (r : BitVec 4) (f : VecM) (s : State) : Out :=
  s.coreRun (.vscat p g r f) { cw := true, mem := true }
    (vscatOp p.core.val p.cyc r.toNat g.span f.va.toNat f.vb.toNat f.base.toNat f.inc f.aow.toNat)

/-- BCAST (R301): An immediate is broadcast to every lane. -/
def execBcast (p : At) (g : Gate) (vd : BitVec 5) (imm : Word) (s : State) : Out :=
  s.coreRun (.bcast p g vd imm) { cw := true, mem := true }
    (constOp p.core.val p.cyc vd.toNat (fun _ => imm.toNat))

/-- LANE (R301): Each lane takes its own index. -/
def execLane (p : At) (g : Gate) (f : VecF) (s : State) : Out :=
  s.coreRun (.lane p g f) { cw := true, mem := true }
    (constOp p.core.val p.cyc f.vd.toNat (fun i => i))

/-- COREID (R301): Each lane takes the executing core's number. -/
def execCoreid (p : At) (g : Gate) (f : VecF) (s : State) : Out :=
  s.coreRun (.coreid p g f) { cw := true, mem := true }
    (constOp p.core.val p.cyc f.vd.toNat (fun _ => p.core.val))

end Sys2Proof.Machine
end

