-- ==== Sys2Proof/Machine/Dispatch.lean ====
section
/-! DEFINITION. The effect of each command: one arm per constructor of Instr. -/

namespace Sys2Proof.Machine

def exec (i : Instr) (s : State) : Host.Outcome State Fault Refusal :=
  match i with
  | .ethFrameRx mac frame fcsOk left raw => Sys2Proof.Machine.execEthFrameRx mac frame fcsOk left raw s
  | .csi2PacketRx rx vc dt payload hdrOk crcOk left raw => Sys2Proof.Machine.execCsi2PacketRx rx vc dt payload hdrOk crcOk left raw s
  | .sectorTimeout stream => Sys2Proof.Machine.execSectorTimeout stream s
  | .streamMaskWrite high value => Sys2Proof.Machine.execStreamMaskWrite high value s
  | .speculativeInsert => Sys2Proof.Machine.execSpeculativeInsert s
  | .verdictOperation => Sys2Proof.Machine.execVerdictOperation s
  | .levelMerge => Sys2Proof.Machine.execLevelMerge s
  | .hashScrubStep handles => Sys2Proof.Machine.execHashScrubStep handles s
  | .strokeBoundary heads what => Sys2Proof.Machine.execStrokeBoundary heads what s
  | .rollStepComplete rows => Sys2Proof.Machine.execRollStepComplete rows s
  | .reloadBlockComplete rows => Sys2Proof.Machine.execReloadBlockComplete rows s
  | .poseCommit => Sys2Proof.Machine.execPoseCommit s
  | .rollbackRestore bad => Sys2Proof.Machine.execRollbackRestore bad s
  | .frameBoundary => Sys2Proof.Machine.execFrameBoundary s
  | .frameRetire => Sys2Proof.Machine.execFrameRetire s
  | .enterOperational => Sys2Proof.Machine.execEnterOperational s
  | .turn p g stage level => Sys2Proof.Machine.execTurn p g stage level s
  | .release p g => Sys2Proof.Machine.execRelease p g s
  | .digopen p g point => Sys2Proof.Machine.execDigopen p g point s
  | .digclose p g => Sys2Proof.Machine.execDigclose p g s
  | .merge p g ar waited => Sys2Proof.Machine.execMerge p g ar waited s
  | .wave p g r t arrays half entry estep accum swap begin_ end_ bad feedBad => Sys2Proof.Machine.execWave p g r t arrays half entry estep accum swap begin_ end_ bad feedBad s
  | .waveLand core cyc corr bad row => Sys2Proof.Machine.execWaveLand core cyc corr bad row s
  | .fill p g array half base inc layout stride ecc bad => Sys2Proof.Machine.execFill p g array half base inc layout stride ecc bad s
  | .job p g array half afmt wfmt jobNo => Sys2Proof.Machine.execJob p g array half afmt wfmt jobNo s
  | .wake p g arrays => Sys2Proof.Machine.execWake p g arrays s
  | .split p g arrays value => Sys2Proof.Machine.execSplit p g arrays value s
  | .arrayRampStep core cyc array => Sys2Proof.Machine.execArrayRampStep core cyc array s
  | .wb p g r arrays half entry estep fmt base inc aow dig corr err => Sys2Proof.Machine.execWb p g r arrays half entry estep fmt base inc aow dig corr err s
  | .wbr p g r entry estep fmt base inc aow dig corr err => Sys2Proof.Machine.execWbr p g r entry estep fmt base inc aow dig corr err s
  | .lda p g reg imm => Sys2Proof.Machine.execLda p g reg imm s
  | .lds p g reg imm => Sys2Proof.Machine.execLds p g reg imm s
  | .adda p g reg imm => Sys2Proof.Machine.execAdda p g reg imm s
  | .setr p g reg imm => Sys2Proof.Machine.execSetr p g reg imm s
  | .win p g w lb n logP cM1 k => Sys2Proof.Machine.execWin p g w lb n logP cM1 k s
  | .feedMap p g r w base entry pass chunk estep mx err => Sys2Proof.Machine.execFeedMap p g r w base entry pass chunk estep mx err s
  | .feedDir p g r base entry stride chunk estep mx ecc => Sys2Proof.Machine.execFeedDir p g r base entry stride chunk estep mx ecc s
  | .feedLin p g r base inc mx ecc => Sys2Proof.Machine.execFeedLin p g r base inc mx ecc s
  | .feedLand core cyc => Sys2Proof.Machine.execFeedLand core cyc s
  | .add p g f => Sys2Proof.Machine.execAdd p g f s
  | .sub p g f => Sys2Proof.Machine.execSub p g f s
  | .mul p g f => Sys2Proof.Machine.execMul p g f s
  | .and p g f => Sys2Proof.Machine.execAnd p g f s
  | .or p g f => Sys2Proof.Machine.execOr p g f s
  | .xor p g f => Sys2Proof.Machine.execXor p g f s
  | .shl p g f => Sys2Proof.Machine.execShl p g f s
  | .shrl p g f => Sys2Proof.Machine.execShrl p g f s
  | .shra p g f => Sys2Proof.Machine.execShra p g f s
  | .cmp p g f => Sys2Proof.Machine.execCmp p g f s
  | .sel p g f => Sys2Proof.Machine.execSel p g f s
  | .fadd p g f => Sys2Proof.Machine.execFadd p g f s
  | .fsub p g f => Sys2Proof.Machine.execFsub p g f s
  | .fmul p g f => Sys2Proof.Machine.execFmul p g f s
  | .fma p g f => Sys2Proof.Machine.execFma p g f s
  | .fmin p g f => Sys2Proof.Machine.execFmin p g f s
  | .fmax p g f => Sys2Proof.Machine.execFmax p g f s
  | .fcmp p g f => Sys2Proof.Machine.execFcmp p g f s
  | .cvt p g f => Sys2Proof.Machine.execCvt p g f s
  | .unpk p g f => Sys2Proof.Machine.execUnpk p g f s
  | .mxb p g f => Sys2Proof.Machine.execMxb p g f s
  | .fn p g f => Sys2Proof.Machine.execFn p g f s
  | .red p g f => Sys2Proof.Machine.execRed p g f s
  | .vld p g r f ecc => Sys2Proof.Machine.execVld p g r f ecc s
  | .vst p g r f => Sys2Proof.Machine.execVst p g r f s
  | .vgath p g r f ecc => Sys2Proof.Machine.execVgath p g r f ecc s
  | .vscat p g r f => Sys2Proof.Machine.execVscat p g r f s
  | .bcast p g vd imm => Sys2Proof.Machine.execBcast p g vd imm s
  | .lane p g f => Sys2Proof.Machine.execLane p g f s
  | .coreid p g f => Sys2Proof.Machine.execCoreid p g f s
  | .desc p g base inc a0src cnt ctx bnd waited => Sys2Proof.Machine.execDesc p g base inc a0src cnt ctx bnd waited s
  | .get p g ring ar ctx bnd waited => Sys2Proof.Machine.execGet p g ring ar ctx bnd waited s
  | .putr p g ring ar ctx bnd => Sys2Proof.Machine.execPutr p g ring ar ctx bnd s
  | .putc p g ring ctx bnd waited => Sys2Proof.Machine.execPutc p g ring ctx bnd waited s
  | .drain p g ring ctx bnd => Sys2Proof.Machine.execDrain p g ring ctx bnd s
  | .programEnd crew real golden => Sys2Proof.Machine.execProgramEnd crew real golden s
  | .slotWaitExpire core => Sys2Proof.Machine.execSlotWaitExpire core s
  | .descQueueTimeout core => Sys2Proof.Machine.execDescQueueTimeout core s
  | .accessPromote core what => Sys2Proof.Machine.execAccessPromote core what s
  | .unscheduledAccess core op ecc => Sys2Proof.Machine.execUnscheduledAccess core op ecc s
  | .planeScrub crew core word corr unc => Sys2Proof.Machine.execPlaneScrub crew core word corr unc s
  | .window what => Sys2Proof.Machine.execWindow what s
  | .spread core => Sys2Proof.Machine.execSpread core s
  | .scatterBev core => Sys2Proof.Machine.execScatterBev core s
  | .copy core => Sys2Proof.Machine.execCopy core s
  | .gsOpIssue core issue => Sys2Proof.Machine.execGsOpIssue core issue s
  | .gsOpComplete core op => Sys2Proof.Machine.execGsOpComplete core op s
  | .remoteAccessArrive core op net ecc => Sys2Proof.Machine.execRemoteAccessArrive core op net ecc s
  | .creditReturn core dst entry => Sys2Proof.Machine.execCreditReturn core dst entry s
  | .bevAddArrive core op net => Sys2Proof.Machine.execBevAddArrive core op net s
  | .digestComplete => Sys2Proof.Machine.execDigestComplete s
  | .lookup ring => Sys2Proof.Machine.execLookup ring s
  | .lookupRowReturn index bad => Sys2Proof.Machine.execLookupRowReturn index bad s
  | .tableAbort table => Sys2Proof.Machine.execTableAbort table s
  | .rowWrite => Sys2Proof.Machine.execRowWrite s
  | .rowRestore => Sys2Proof.Machine.execRowRestore s
  | .settledSweep places => Sys2Proof.Machine.execSettledSweep places s
  | .adaptMerge => Sys2Proof.Machine.execAdaptMerge s
  | .adaptAbort => Sys2Proof.Machine.execAdaptAbort s
  | .updateRecord => Sys2Proof.Machine.execUpdateRecord s
  | .recArm mode => Sys2Proof.Machine.execRecArm mode s
  | .recStop => Sys2Proof.Machine.execRecStop s
  | .recAbort => Sys2Proof.Machine.execRecAbort s
  | .gsPlace => Sys2Proof.Machine.execGsPlace s
  | .gsSweep slots => Sys2Proof.Machine.execGsSweep slots s
  | .monBoundary rx cyc => Sys2Proof.Machine.execMonBoundary rx cyc s
  | .monRecord rx => Sys2Proof.Machine.execMonRecord rx s
  | .monDelivered rx got => Sys2Proof.Machine.execMonDelivered rx got s
  | .monMark rx cyc => Sys2Proof.Machine.execMonMark rx cyc s
  | .monSector rx => Sys2Proof.Machine.execMonSector rx s
  | .monGolden rx => Sys2Proof.Machine.execMonGolden rx s
  | .monPose rx => Sys2Proof.Machine.execMonPose rx s
  | .monFault rx => Sys2Proof.Machine.execMonFault rx s
  | .watchdogClose window sector => Sys2Proof.Machine.execWatchdogClose window sector s
  | .safeOkEdge match_ => Sys2Proof.Machine.execSafeOkEdge match_ s
  | .restartStopDone => Sys2Proof.Machine.execRestartStopDone s
  | .restartResetDone => Sys2Proof.Machine.execRestartResetDone s
  | .restartRestoreDone ok => Sys2Proof.Machine.execRestartRestoreDone ok s
  | .restartReseatDone => Sys2Proof.Machine.execRestartReseatDone s
  | .ptpMessageRx raw => Sys2Proof.Machine.execPtpMessageRx raw s
  | .ptpSyncTx mac raw => Sys2Proof.Machine.execPtpSyncTx mac raw s
  | .holdoverEnter raw => Sys2Proof.Machine.execHoldoverEnter raw s
  | .timeAdjust => Sys2Proof.Machine.execTimeAdjust s
  | .triggerEdge n raw => Sys2Proof.Machine.execTriggerEdge n raw s
  | .triggerPulseEnd n raw => Sys2Proof.Machine.execTriggerPulseEnd n raw s
  | .captureEdge n rise raw => Sys2Proof.Machine.execCaptureEdge n rise raw s
  | .captureRead n => Sys2Proof.Machine.execCaptureRead n s
  | .flitRx link bytes => Sys2Proof.Machine.execFlitRx link bytes s
  | .linkTrainState link ok ident reversed inverted => Sys2Proof.Machine.execLinkTrainState link ok ident reversed inverted s
  | .rgHeartbeat chip reach => Sys2Proof.Machine.execRgHeartbeat chip reach s
  | .rgTimeExchange chip t1 t2 t3 t4 => Sys2Proof.Machine.execRgTimeExchange chip t1 t2 t3 t4 s
  | .rgReady chip => Sys2Proof.Machine.execRgReady chip s
  | .rgStart stroke => Sys2Proof.Machine.execRgStart stroke s
  | .rgRestart chip stroke => Sys2Proof.Machine.execRgRestart chip stroke s
  | .rgFwdPoint chip stroke point => Sys2Proof.Machine.execRgFwdPoint chip stroke point s
  | .rgFwdVerdict chip verdict => Sys2Proof.Machine.execRgFwdVerdict chip verdict s
  | .rgTapCopy chip stroke x y z => Sys2Proof.Machine.execRgTapCopy chip stroke x y z s
  | .rgRemoteAdd chip item => Sys2Proof.Machine.execRgRemoteAdd chip item s
  | .rgPartialSum chip kind table row vals => Sys2Proof.Machine.execRgPartialSum chip kind table row vals s
  | .peerLoss chip => Sys2Proof.Machine.execPeerLoss chip s
  | .groupEvaluate => Sys2Proof.Machine.execGroupEvaluate s
  | .recordDeliver => Sys2Proof.Machine.execRecordDeliver s
  | .updateRecordFetch => Sys2Proof.Machine.execUpdateRecordFetch s
  | .ringEnable ring value => Sys2Proof.Machine.execRingEnable ring value s
  | .ringDisable ring value => Sys2Proof.Machine.execRingDisable ring value s
  | .ringConsWrite ring value => Sys2Proof.Machine.execRingConsWrite ring value s
  | .ringProdWrite value => Sys2Proof.Machine.execRingProdWrite value s
  | .msixCoalesceTimer ring => Sys2Proof.Machine.execMsixCoalesceTimer ring s
  | .irqCauseClear value => Sys2Proof.Machine.execIrqCauseClear value s
  | .nop a0 a1 a2 a3 => Sys2Proof.Machine.execNop a0 a1 a2 a3 s
  | .getAttestation a0 a1 a2 a3 => Sys2Proof.Machine.execGetAttestation a0 a1 a2 a3 s
  | .getImageInfo a0 a1 a2 a3 => Sys2Proof.Machine.execGetImageInfo a0 a1 a2 a3 s
  | .enterMaintenance a0 a1 a2 a3 => Sys2Proof.Machine.execEnterMaintenance a0 a1 a2 a3 s
  | .flashRead a0 a1 a2 a3 => Sys2Proof.Machine.execFlashRead a0 a1 a2 a3 s
  | .flashErase a0 a1 a2 a3 err => Sys2Proof.Machine.execFlashErase a0 a1 a2 a3 err s
  | .flashWrite a0 a1 a2 a3 err => Sys2Proof.Machine.execFlashWrite a0 a1 a2 a3 err s
  | .leaveMaintenance a0 a1 a2 a3 => Sys2Proof.Machine.execLeaveMaintenance a0 a1 a2 a3 s
  | .mailboxEnd => Sys2Proof.Machine.execMailboxEnd s
  | .hostInterfaceReset => Sys2Proof.Machine.execHostInterfaceReset s
  | .bar2Write addr bytes => Sys2Proof.Machine.execBar2Write addr bytes s
  | .bar2Read addr read => Sys2Proof.Machine.execBar2Read addr read s
  | .reg64LowRead requester addr size raw => Sys2Proof.Machine.execReg64LowRead requester addr size raw s
  | .counterClear addr => Sys2Proof.Machine.execCounterClear addr s
  | .complementValueWrite addr value => Sys2Proof.Machine.execComplementValueWrite addr value s
  | .complementCWrite addr value => Sys2Proof.Machine.execComplementCWrite addr value s
  | .registerWrite addr size value => Sys2Proof.Machine.execRegisterWrite addr size value s
  | .xsBurst channel corr unc victim => Sys2Proof.Machine.execXsBurst channel corr unc victim s
  | .xsPromote channel raw => Sys2Proof.Machine.execXsPromote channel raw s
  | .xsCheckWriteback channel => Sys2Proof.Machine.execXsCheckWriteback channel s
  | .xsScrub => Sys2Proof.Machine.execXsScrub s
  | .xsRetrain channel delay => Sys2Proof.Machine.execXsRetrain channel delay s
  | .xsInit fail same devicesM1 density id0 id1 delay => Sys2Proof.Machine.execXsInit fail same devicesM1 density id0 id1 delay s
  | .resetRelease chipSel chipCntM1 maintN => Sys2Proof.Machine.execResetRelease chipSel chipCntM1 maintN s
  | .boot found => Sys2Proof.Machine.execBoot found s
  | .fuseEnrol => Sys2Proof.Machine.execFuseEnrol s
  | .resetNAssert ns taken => Sys2Proof.Machine.execResetNAssert ns taken s
  | .mainPor rail => Sys2Proof.Machine.execMainPor rail s
  | .islandPor => Sys2Proof.Machine.execIslandPor s
  | .railExcursion rail => Sys2Proof.Machine.execRailExcursion rail s
  | .rootPllLoss refclk => Sys2Proof.Machine.execRootPllLoss refclk s
  | .thermalRead readings => Sys2Proof.Machine.execThermalRead readings s
  | .rawMicrosecondTick => Sys2Proof.Machine.execRawMicrosecondTick s
  | .islandPllLoss => Sys2Proof.Machine.execIslandPllLoss s
  | .railReturn rail => Sys2Proof.Machine.execRailReturn rail s
  | .pcieLinkTraining up width rate => Sys2Proof.Machine.execPcieLinkTraining up width rate s
  | .bar0BadRead addr size => Sys2Proof.Machine.execBar0BadRead addr size s
  | .rgResume chip stroke => Sys2Proof.Machine.execRgResume chip stroke s
  | .internalResetPulse => Sys2Proof.Machine.execInternalResetPulse s
  | .ptpDelayReqTx raw => Sys2Proof.Machine.execPtpDelayReqTx raw s

end Sys2Proof.Machine
end

