-- ==== Sys2Proof/Machine/Acts.lean ====
section
/-! DEFINITION. The blocks on which each command acts, as one table: what a command's frame is (the commands' own
definitions carry the same lists). -/

namespace Sys2Proof

open Machine (Writes)

/-- The blocks on which a command acts. -/
def Instr.acts : Instr → Writes
  | .ethFrameRx .. =>
    { tm := true, ig := true, gb := true, lg := true, si := true, rl := true, mem := true }
  | .csi2PacketRx .. =>
    { ig := true, gb := true, lg := true, si := true, rl := true, mem := true }
  | .sectorTimeout .. =>
    { ig := true }
  | .streamMaskWrite .. | .digestComplete | .recArm .. | .recStop =>
    { lg := true }
  | .speculativeInsert .. | .hashScrubStep .. =>
    { gb := true, mem := true }
  | .verdictOperation .. =>
    { gb := true, cw := true, mem := true }
  | .levelMerge .. =>
    { gb := true, cw := true, ag := true, mem := true }
  | .strokeBoundary .. =>
    { Writes.all with xs := false }
  | .rollStepComplete .. | .reloadBlockComplete .. =>
    { cm := true, et := true, lg := true, mem := true }
  | .poseCommit =>
    { cm := true, lg := true }
  | .rollbackRestore .. =>
    { gb := true, cm := true, cw := true, ag := true, et := true, lg := true, flt := true, mem := true }
  | .frameBoundary =>
    { Writes.all with cw := false, et := false, rl := false, hi := false, xs := false, bt := false, mem := false, mode := false, ok := false }
  | .frameRetire =>
    { tm := true, gb := true }
  | .enterOperational =>
    { Writes.all with xs := false, pm := false }
  | .turn .. | .release .. | .digopen .. | .job .. | .wake .. | .split .. | .arrayRampStep .. | .lda .. | .lds .. |
    .adda .. | .setr .. | .win .. | .feedMap .. | .feedDir .. | .feedLin .. | .feedLand .. | .add .. | .sub .. | .mul
    .. | .and .. | .or .. | .xor .. | .shl .. | .shrl .. | .shra .. | .cmp .. | .sel .. | .fadd .. | .fsub .. | .fmul
    .. | .fma .. | .fmin .. | .fmax .. | .fcmp .. | .cvt .. | .unpk .. | .mxb .. | .fn .. | .red .. | .vld .. | .vst
    .. | .vgath .. | .vscat .. | .bcast .. | .lane .. | .coreid .. | .desc .. | .get .. | .putr .. | .putc .. | .drain
    .. | .planeScrub .. | .bar2Read .. | .unscheduledAccess .. | .window .. | .spread .. | .copy .. | .remoteAccessArrive .. =>
    { cw := true, mem := true }
  | .digclose .. | .wave .. | .waveLand .. | .fill .. | .wb .. | .wbr .. =>
    { cw := true, lg := true, mem := true }
  | .merge .. | .lookup .. | .lookupRowReturn .. =>
    { cw := true, et := true, mem := true }
  | .programEnd .. | .slotWaitExpire .. | .descQueueTimeout .. | .accessPromote .. | .gsOpComplete .. | .creditReturn
    .. =>
    { cw := true }
  | .scatterBev .. =>
    { cm := true, cw := true, rl := true, mem := true }
  | .gsOpIssue .. =>
    { cw := true, rl := true }
  | .bevAddArrive .. =>
    { cm := true, cw := true }
  | .rowWrite | .rowRestore | .settledSweep .. =>
    { et := true }
  | .tableAbort .. | .adaptAbort | .complementCWrite .. =>
    { et := true, lg := true }
  | .adaptMerge | .rgPartialSum .. =>
    { et := true, rl := true }
  | .updateRecord =>
    { et := true, lg := true, hi := true }
  | .recAbort =>
    { lg := true, hi := true }
  | .gsPlace .. | .gsSweep .. | .monRecord .. | .monDelivered .. | .monMark .. | .monSector .. | .monGolden .. | .monPose
    .. | .monFault .. | .watchdogClose .. =>
    { si := true }
  | .monBoundary .. =>
    { cm := true, et := true, lg := true, si := true, flt := true, rl := true }
  | .safeOkEdge .. | .islandPllLoss =>
    { si := true, ok := true }
  | .restartStopDone =>
    { flt := true }
  | .restartResetDone =>
    { gb := true, cm := true, cw := true, ag := true, et := true, lg := true, flt := true }
  | .restartRestoreDone .. =>
    { flt := true, mem := true }
  | .restartReseatDone =>
    { gb := true, cm := true, flt := true, rl := true }
  | .ptpMessageRx .. | .ptpSyncTx .. | .holdoverEnter .. | .timeAdjust | .triggerEdge .. | .triggerPulseEnd .. |
    .captureEdge .. | .captureRead .. | .reg64LowRead .. | .ptpDelayReqTx .. =>
    { tm := true }
  | .flitRx .. | .rgHeartbeat .. | .rgReady .. | .rgStart .. | .peerLoss .. | .groupEvaluate =>
    { rl := true }
  | .linkTrainState .. | .rgTimeExchange .. =>
    { tm := true, rl := true }
  | .rgRestart .. =>
    { si := true, flt := true, rl := true }
  | .rgFwdPoint .. | .rgFwdVerdict .. =>
    { gb := true, rl := true }
  | .rgTapCopy .. =>
    { si := true, rl := true }
  | .rgRemoteAdd .. =>
    { cm := true, rl := true }
  | .recordDeliver | .updateRecordFetch | .ringEnable .. | .ringDisable .. | .ringConsWrite .. | .ringProdWrite .. |
    .msixCoalesceTimer .. | .irqCauseClear .. | .mailboxEnd | .hostInterfaceReset | .pcieLinkTraining .. =>
    { hi := true }
  | .nop .. | .getAttestation .. | .getImageInfo .. | .enterMaintenance .. | .flashRead .. | .flashErase .. |
    .flashWrite .. | .leaveMaintenance .. =>
    { hi := true, bt := true }
  | .bar2Write .. | .counterClear .. | .complementValueWrite .. | .bar0BadRead .. =>
    {}
  | .registerWrite .. =>
    { tm := true, cm := true, et := true, lg := true, hi := true, bt := true }
  | .xsBurst .. | .xsPromote .. | .xsCheckWriteback .. | .xsScrub | .xsRetrain .. | .xsInit .. =>
    { xs := true }
  | .resetRelease .. | .resetNAssert .. | .mainPor .. | .internalResetPulse =>
    Writes.all
  | .boot .. =>
    { Writes.all with tm := false, cm := false, ag := false, et := false, xs := false, pm := false }
  | .fuseEnrol =>
    { bt := true }
  | .islandPor =>
    { si := true, pm := true, ok := true }
  | .railExcursion .. | .thermalRead .. =>
    { si := true, pm := true }
  | .rootPllLoss .. | .railReturn .. =>
    { pm := true }
  | .rawMicrosecondTick =>
    { tm := true, lg := true, rl := true }
  | .rgResume .. =>
    { flt := true, rl := true }

end Sys2Proof
end

