-- ==== Sys2Proof/Safety.lean ====
section
/-! DEFINITION. What holds of the block in every run: the mode flags are consistent, and no SAFE_OK edge is made where the
manual forbids one; and the terms in which statements are made. -/

namespace Sys2Proof.Machine

/-- A device in the operational state has left reset, is not in maintenance mode, and has been placed and locked by its
boot code (R19, R415, R442, R445). -/
def Dev.modesOk (d : Dev) : Bool :=
  !d.tm.op || (!d.pm.held && !d.hi.maint && d.bt.placed && d.bt.locked)

/-- With the island PLL lost, or in maintenance mode, SAFE_OK is low and makes no edge (R340, R415). -/
def Dev.okQuiet (d : Dev) : Bool := !(d.si.pllLost || d.si.maint) || (!d.si.running && !d.si.pin)

/-- The invariant of the block. -/
def State.inv (s : State) : Bool := s.dev.modesOk && s.dev.okQuiet

/-! ### A core instruction's place -/

/-- The schedule cycle of a core instruction, counted across strokes (R284). -/
def Dev.cycleOf (d : Dev) (p : At) : Nat := d.absCyc p.core.val p.cyc

/-- A core brought to the cycle of an instruction: program-store words corrected in its fetch are counted (R308), and what
fell due by then has landed (R158, R288, R305). -/
def Dev.brought (d : Dev) (p : At) : Dev :=
  ((d.pstoreCorr p.core.val p.cyc p.corr).sync p.core.val (d.cycleOf p)).reach p.core.val p.cyc

/-- Whether a core instruction is fetched whole: its span cycle lies within its span (R284), its crew's program holds it there
(R281), no uncorrectable error is met (R308), and its bundle is legal, as are those before it (R307). -/
def Dev.fetchedWhole (d : Dev) (i : Instr) : Bool :=
  match i.coreOp with
  | some o =>
    decide (o.r ≤ o.gate.spanM1.toNat) && !o.loc.unc &&
      match d.fetched i o with
      | some b => d.legalAt o.loc.core.val o.loc.cyc b
      | none => false
  | none => false

/-- Whether a core executes an instruction: it is fetched whole, and its crew runs (R215, R217, R352). -/
def Dev.executes (d : Dev) (i : Instr) : Bool :=
  d.fetchedWhole i &&
    match i.coreOp with
    | some o => d.runs o.loc.core.val o.loc.cyc
    | none => false

/-- Whether a core executes an instruction that has a check (R170, R201): a wait of the same cycle does not hold it. -/
def Dev.executesCheck (d : Dev) (i : Instr) : Bool :=
  d.fetchedWhole i &&
    match i.coreOp with
    | some o => d.runsCheck o.loc.core.val o.loc.cyc
    | none => false

/-- Whether a core executes an instruction that names a ring and has a check (R305): no other operation of its cycle has come
before it. -/
def Dev.executesRing (d : Dev) (i : Instr) : Bool :=
  d.fetchedWhole i &&
    match i.coreOp with
    | some o => d.runsFirst o.loc.core.val o.loc.cyc
    | none => false

/-- Where a core instruction puts a result: it executes, and 256 lanes are on their way to VD, due `lat` cycles after its
issue; no register, no byte of memory and no other core changes with it. -/
def VecResult (s : State) (i : Instr) (p : At) (vd lat : Nat) (val : CoreChk → Nat → Nat) : Prop :=
  s.dev.executes i = true →
    let d := s.dev.brought p
    let c := p.core.val
    ∃ t, exec i s = .next t ∧
      (t.dev.vol c).vres = (d.vol c).vres ++
        [{ due := s.dev.cycleOf p + lat, vd := vd, lanes := (List.range 256).map (val (d.core c)) }] ∧
      (t.dev.vol c).writes = (d.vol c).writes ∧ t.dev.cw.cores = d.cw.cores ∧ t.dev.mem = d.mem ∧
      ∀ e, e ≠ c → t.dev.vol e = d.vol e

/-- A 32-bit lane as a signed number. -/
def laneInt (x : Nat) : Int := (BitVec.ofNat 32 x).toInt

/-- A signed number in 32 bits: wrapped, or with SAT clamped to the nearest end of the range (R301). -/
def satOrWrap (sat : Bool) (i : Int) : Nat :=
  (BitVec.ofInt 32 (if sat then max (-(2 ^ 31)) (min (2 ^ 31 - 1) i) else i)).toNat

/-- Lane i of VA, VB and VC. -/
def CoreChk.va (k : CoreChk) (f : VecF) (i : Nat) : Nat := lane (k.vreg f.va.toNat) i
/-- Lane i of VB. -/
def CoreChk.vb (k : CoreChk) (f : VecF) (i : Nat) : Nat := lane (k.vreg f.vb.toNat) i
/-- Lane i of VC. -/
def CoreChk.vc (k : CoreChk) (f : VecF) (i : Nat) : Nat := lane (k.vreg f.vc.toNat) i

/-! ### Address operands -/

/-- The value that a memory operand's INC gives its address register at the end of the span (R288): from the next schedule
cycle on. -/
def arUps (d : Dev) (c now base span r : Nat) (inc : Bool) : List (Nat × Nat × Word) :=
  if inc = true ∧ r + 1 = span then
    [(now + 1, base, (d.core c).arOf base + BitVec.ofNat 32 span * (d.core c).asOf base)]
  else []

/-- An access of n bytes at an engine address that lies in a plane and is powered: its offset there. -/
def Dev.planeOk (d : Dev) (c : Nat) (word : Bool) (a n off : Nat) : Prop :=
  localOff word a = some off ∧ off + n ≤ planeSize word ∧ d.poweredAll c word off n = true

/-- The broadcast of 128 bytes of the tile plane at an offset, with scale bytes from another where MX is set (R298); zeros
where its context gates it (R293). -/
def Dev.bytesFeed (d : Dev) (c land off scaleOff : Nat) (mx gated : Bool) (sec : Option SecId) : Feed :=
  if gated then { at_ := land, lanes := List.replicate 128 0, scales := [0, 0, 0, 0], sec := none }
  else
    { at_ := land, lanes := (d.planeRead c false off 128).map (fun b => b.toNat)
      scales := if mx then (d.planeRead c false scaleOff 4).map (fun b => b.toNat) else [0, 0, 0, 0], sec := sec }

/-- Whether n bytes at an offset of a plane lie in it and are powered. -/
def Dev.spanOk (d : Dev) (c : Nat) (word : Bool) (off n : Nat) : Prop :=
  off + n ≤ planeSize word ∧ d.poweredAll c word off n = true

/-- The requantisation words of n columns from number `first` on, where the format takes them (R297): in the powered word
plane at WQBASE, without an error that cannot be corrected. -/
def Dev.requantIs (d : Dev) (c fmt first n : Nat) (e : Ecc) (q : List Nat) : Prop :=
  if fmt = 1 then
    ∃ qo, d.planeOk c true ((d.core c).wqbase + BitVec.ofNat 32 (4 * first)).toNat (4 * n) qo ∧ e.unc = none ∧
      q = (List.range n).map (fun i => leAt (d.planeRead c true qo (4 * n)) (4 * i) 4)
  else q = []

/-! ### Rings and checks -/

/-- A ring operation with a check that may be tried (R305): its context does not suppress it, and its ring is in use (R168,
R304). -/
def Dev.ringReady (d : Dev) (i : Instr) (p : At) (ring ctx : Nat) (bnd : Bool) : Prop :=
  d.executesRing i = true ∧ (d.brought p).bndOff p.core.val ctx bnd = false ∧ (d.ringDesc p.core.val ring).slots ≠ 0

/-- What a waiting check leaves (R170): the crew waits for it. -/
def waits (s t : State) (p : At) (ring : Nat) (isGet : Bool) : Prop :=
  (p.core.val, p.cyc, ring, isGet) ∈ (t.dev.crew (p.core.val / 8)).wait ∧ t.dev.cw.cores = (s.dev.brought p).cw.cores

/-! ### The gather/scatter engine -/

/-- A core brought to the schedule cycle that its crew has reached, the head of its descriptor queue taken (R200). -/
def Dev.taken (d : Dev) (c : Nat) (rest : List QDesc) : Dev :=
  let d := d.syncNow c
  d.setCore c { d.core c with descq := rest }

/-- One operation of a core becomes `o'`, the others stay as they are. -/
def opBecomes (old new : CoreChk) (i : Nat) (o' : GsOp) : Prop :=
  new.opList[i]? = some o' ∧ new.opList.length = old.opList.length ∧ ∀ j, j ≠ i → new.opList[j]? = old.opList[j]?

/-- No error stands where a block or an engine reads, and no operation of an engine waits at a plane. -/
def Dev.atRest (d : Dev) : Prop :=
  d.cw.upset = [] ∧ ∀ c, c < 32 → ∀ o ∈ (d.core c).opList, opBanks c o = []

/-- At rest, with nothing due at a core and no bank held by a scheduled access. -/
def Dev.calm (d : Dev) : Prop := d.atRest ∧ ∀ c, c < 32 → d.syncNow c = d ∧ (d.vol c).occ = []

/-- The block as an engine's read at an address finds it: the plane brought to the schedule cycle reached. -/
def Dev.engTurn (d : Dev) (a : Nat) : Dev :=
  match engDec a with
  | some (2, _, _) => d
  | some (_, k, _) => d.syncNow k
  | none => d

/-- Bytes at an engine address (R203), as an engine's read sees them. -/
def Dev.engSees (d : Dev) (a n : Nat) : List Byte :=
  match engDec a with
  | some (2, _, off) => d.commonsRead off n
  | some (sp, k, off) =>
    ((d.engTurn a).planeSight k (decide (sp = 1)) off n).planeRead k (decide (sp = 1)) off n
  | none => []

/-- Whether `n` bytes at an engine address lie in one memory and are powered (R178, R179). -/
def Dev.engOn (d : Dev) (a n : Nat) : Bool :=
  match engDec a with
  | some (2, _, off) => d.commonsOnAll off n
  | some (sp, k, off) =>
    decide (off + n ≤ planeSize (decide (sp = 1))) && d.poweredAll k (decide (sp = 1)) off n
  | none => false

/-- A write of n bytes at an offset of a plane that takes effect at once: in the plane, powered, not journalled. -/
def Dev.writeOk (d : Dev) (c : Nat) (word : Bool) (off n : Nat) : Prop :=
  0 < n ∧ off + n ≤ planeSize word ∧ d.poweredAll c word off n = true ∧ d.jrnlBlocks c word off n = []

/-! ### Intake -/

/-- A stream packet that is taken in order by a synchronised, unmasked stream: it passes R49, belongs to the sweep in
progress, and starts at or beyond the expected index (R49, R51); the bindings agree with their complements (R348). -/
def Dev.pktInOrder (d : Dev) (n : Nat) (bs : List Byte) : Prop :=
  d.live = true ∧ d.lg.replaying = false ∧ d.bindsHeld = true ∧ 5 ≤ bs.length ∧ verifyPkt (d.streamCfg n) bs = none ∧
    d.ig.mask.getLsbD n = true ∧ (d.strm n).sync = true ∧ (parsePkt bs).seq = (d.strm n).w.toNat ∧
    (d.strm n).e ≤ (parsePkt bs).first

/-- What a packet taken in order leaves: one more PKT_OK, the expected index at its end, its sweep and stroke kept. -/
def pktTaken (d t : Dev) (n : Nat) (bs : List Byte) : Prop :=
  t.ctr (IG_STREAM_PKT_OK n) = ctrAdd (d.ctr (IG_STREAM_PKT_OK n)) 1 ∧
    (t.strm n).e = (parsePkt bs).first + (parsePkt bs).count ∧ (t.strm n).lastAcc = d.tm.stroke ∧
    (t.strm n).last = some (BitVec.ofNat 16 (parsePkt bs).seq) ∧ (t.strm n).w = (d.strm n).w

/-- Where an Ethernet frame goes (R38): its length, its VLAN tag and its EtherType judged. -/
def frameRoute (cfg : Word) (frame : List Byte) : FrameTo :=
  if 9216 < frame.length + 4 ∨ frame.length < 14 then .drop
  else if beAt frame 12 2 ≠ 0x8100 then routeFrame cfg (beAt frame 12 2) (frame.drop 14)
  else if fld cfg 4 1 = 0 ∨ beAt frame 16 2 = 0x8100 ∨ beAt frame 16 2 = 0x88A8 then .drop
  else routeFrame cfg (beAt frame 16 2) (frame.drop 18)

/-! ### The monitor port -/

/-- The kind of a monitor message (R313). -/
def MonMsg.kind : MonMsg → Nat
  | .boundary .. => 0
  | .record .. => 1
  | .delivered .. => 2
  | .mark .. => 3
  | .sector .. => 4
  | .golden .. => 5
  | .pose .. => 6
  | .fault .. => 7

/-- The command by which the island takes a message of a kind, with how the message came. -/
def MonMsg.taker (kind : Nat) (rx : MonRx) (cyc : Nat) : Instr :=
  match kind with
  | 0 => .monBoundary rx cyc
  | 1 => .monRecord rx
  | 2 => .monDelivered rx none
  | 3 => .monMark rx cyc
  | 4 => .monSector rx
  | 5 => .monGolden rx
  | 6 => .monPose rx
  | _ => .monFault rx

/-- The doubts of rules 1, 4, 5 and 6 about a record (R317): Bivouac's words of its tile as the island kept them. -/
def IslandSt.recordDoubts (i : IslandSt) (s : Stroke) (bs : List Byte) : List Doubt :=
  let tile := some (32 * (tileOf s).2 + (tileOf s).1)
  let compat := decide (i.par 1 0 1 = 1)
  let ws := recordWords compat bs
  let biv := ((i.biv.find? (fun x => decide (x.1 = s))).map (fun x => x.2)).getD []
  let q := i.missed biv ws
  (if i.recordOk s bs then [] else [{ rule := 1, tile := none }]) ++
  (if i.par 6 0 11 < (ws.filter (fun w => i.badCell compat w)).length then [{ rule := 4, tile := tile }] else []) ++
  (if i.par 13 0 11 < q.1 then [{ rule := 5, tile := tile }] else []) ++
  (if i.par 13 31 1 = 1 ∧ i.par 13 16 11 < q.2 then [{ rule := 6, tile := tile }] else [])

/-- The island as Bivouac comes to place a point received in stroke s (R318, R320): what starts of strokes up to s have
cleared, and the count of the points of s. -/
def IslandSt.placing (i : IslandSt) (s : Stroke) (rest : List (Stroke × Int × Int × Int)) : IslandSt :=
  let i := IslandSt.clearTo { i with tap := rest } s
  if s = i.tapAt then i else { i with tapAt := s, taps := 0 }

/-! ### Registers -/

/-- An address that is one register of a row alone: no counter, no word of the MSI-X table, no half of a pair, no register
with a rule of its own (R9, R474). -/
def Dev.plainAt (d : Dev) (a : Nat) (r : RegRow) (v : Word) : Prop :=
  regRow a = some r ∧ ctrHit a = none ∧ ¬ (0x2000 ≤ a ∧ a < 0x2400) ∧ ¬ (0x3000 ≤ a ∧ a < 0x3008) ∧
    r.cMask = 0 ∧ r.bl = 0 ∧ pairMask a = none ∧ loggedReg a = false ∧ d.regSpecial (mailbox false) a v = none ∧
    d.ringBarred a = false ∧ instOf (TB_TRIG_CFG 0) 0x20 24 (a / 32 * 32) = none

/-- What a write leaves in the register of a row (R9): RW bits written, W1C bits cleared by ones, the others kept. -/
def RegRow.written (r : RegRow) (old v : Word) : Word :=
  ((old &&& ~~~(BitVec.ofNat 32 r.rw)) ||| (v &&& BitVec.ofNat 32 r.rw)) &&& ~~~(v &&& BitVec.ofNat 32 r.w1c)

/-- An address at which the value of a complement-checked pair with the field mask lies, and its complement behind it
(R13); the host may write it. -/
def pairAt (a mask : Nat) : Prop :=
  pairMask a = some mask ∧ ctrHit a = none ∧ ctrHit (a + 4) = none ∧ 0x3008 ≤ a ∧
    ∃ q, regRow a = some q ∧ q.bl = 0 ∧ q.rw ≠ 0 ∧ q.cMask = 0

/-! ### The boot sequence -/

/-- The boot block after flash discovery, the repair of the SV pairs and the unwrapping of the identity (R435, R440 to R442). -/
def BootSt.found (b : BootSt) (l : List FlashDev) : BootSt :=
  { b with flashCap := if flashOk l then 2 ^ 20 * (l.map (fun x => x.mib)).sum else 0
           flashBoth := l.any (fun x => decide (x.port = 1)), flashDev := 2 ^ 20 * ((l.head?.map FlashDev.mib).getD 0)
           svA := b.svA ||| b.svB, svB := b.svA ||| b.svB, begun := true, idFail := b.idSeed.isNone
           idPk := (b.idSeed.map ed25519Public).getD [] }

/-- The form of the signature block (R263): its magic, its version, its last bytes. -/
def BootSt.sigForm (b : BootSt) : Prop :=
  leAt b.sigBlock 0 4 = 0x4749534C ∧ leAt b.sigBlock 4 4 = 0 ∧ leAt b.sigBlock 5365 11 = 0

/-- The device once steps 1 to 8 of R442 have passed: header, measurement and signer taken, and their registers set. -/
def Dev.afterStep8 (d : Dev) (l : List FlashDev) : Dev :=
  let b := d.bt.found l
  let d := ({ d with bt := b } : Dev).postKeys
  let d := { d with bt := { b with header := b.imgHeader, meas := b.measure, signer := signerOf b.sigBlock } }
  let d := (List.range 16).foldl (fun (d : Dev) n => d.hwN (BT_MEAS n) (leAt b.measure (4 * n) 4)) d
  d.hwN BT_IMG_SV (hdrSv b.imgHeader)

end Sys2Proof.Machine
end

