-- ==== Sys2Proof/WellFormed.lean ====
section
/-! DEFINITION. Well-formed commands: what the manual asks of a command's operands, before any state is looked at. The
meanings ask none of it of a sender; statements about encodings and completion name it. -/

namespace Sys2Proof

/-- Schedule cycles of a crew's stroke program (R273): 1,128 of the real part and 36 of the golden part. -/
def programCycles : Nat := 1164

/-- Clocks that a check may wait before it fails (R170, R201). -/
def maxWait : Nat := 64

/-- A core instruction that a bundle can hold (R307): its bundle, with it alone, is well formed for a device of three
levels; its span cycle lies within its span, its cycle within a program, and its wait within the limit. -/
def Instr.wfCore (i : Instr) : Bool :=
  match i.coreOp with
  | none => true
  | some o =>
    decide (o.r ≤ o.gate.spanM1.toNat) && decide (o.loc.cyc < programCycles) && Machine.bundleOk 3 o.word &&
      decide (i.phys.waited ≤ maxWait)

/-- The operands of a command that is no core instruction: a frame holds its two addresses and its type (R38), the tile
heads deliver a tile (R115), the scrub names granules or words of one entry of every bank (R166), a flit has 256 bytes
(R385), a read of BAR0 has a legal size and alignment (R406), a counter or a pair lies at the address (R10, R13), and all 17
sensors are read (R465). -/
def Instr.wfArgs : Instr → Bool
  | .ethFrameRx _ frame _ _ _ => decide (14 ≤ frame.length)
  | .strokeBoundary (some heads) _ => decide (heads.length = 1024)
  | .planeScrub _ _ word corr unc => (corr ++ unc).all (fun n => decide (n < if word then 256 else 64))
  | .flitRx _ bytes => decide (bytes.length = 256)
  | .reg64LowRead _ addr size _ => Machine.bar0Ok addr size
  | .counterClear addr => (Machine.ctrHit addr).isSome
  | .complementValueWrite addr _ => (Machine.pairMask addr).isSome
  | .complementCWrite addr _ => (Machine.pairMask addr).isSome
  | .thermalRead l => decide (l.length = 17)
  | _ => true

/-- A well-formed command. -/
def Instr.wf (i : Instr) : Bool := i.wfCore && i.wfArgs

end Sys2Proof
end

