-- ==== Sys2Proof/Certificates/Slice0/Obligations.lean ====
section
/-! DEFINITION. The statements for the provers. -/

open Sys2Proof Sys2Proof.Machine

/-- A step runs the command at the front of the queue. For every command c and state s, a step of s with c at the front
of its queue is exec c on s with the rest of the queue. A step of a state whose queue is empty answers that state:
this is the model's choice (log entry 2). (00_scope, 98_reader) -/
def Obligations.StepRunsFrontCommand : Prop :=
  (∀ (c : Instr) (s : State) (rest : List Instr),
      step { s with pending := c :: rest } = exec c { s with pending := rest }) ∧
    ∀ s : State, s.pending = [] → step s = .next s

/-- No command stops the block. Every command answers a next state from every state, and leaves the queue of waiting
commands as it is. (00_scope R4, 13_integrity_recovery R350) -/
def Obligations.NoCommandStopsTheBlock : Prop :=
  ∀ (c : Instr) (s : State), ∃ t, exec c s = .next t ∧ t.pending = s.pending

/-- What reset leaves. After reset no command waits, every register of BAR0 holds its reset value, every counter is
clear, the device is neither operational nor held nor in maintenance mode, SAFE_OK makes no edge, no memory byte is
listed, BOOTS has counted once (registers without a stated reset value: the model's choice, log entry 50).
(19_power_clocks_reset R457, 00_scope R10, 14_time_base R364, 16_host_pcie R407) -/
def Obligations.ResetLeaves : Prop :=
  let d := State.reset.dev
  State.reset.pending = [] ∧ (∀ a, d.rd a = regReset a) ∧ (∀ a, d.ctr a = { v := 0, ovf := false }) ∧
    d.tm.op = false ∧ d.tm.raw = 0 ∧ d.pm.held = false ∧ d.hi.maint = false ∧ d.flt.fatal = false ∧
    d.si.running = false ∧ d.si.pin = false ∧ d.flt.boots = 1 ∧ d.mem = [] ∧ d.xs.mem = []

/-- The invariant holds after reset. State.reset meets State.inv: the mode flags are consistent and SAFE_OK is quiet.
(19_power_clocks_reset R457, 16_host_pcie R415, 12_safety R340) -/
def Obligations.ResetHoldsInvariant : Prop :=
  State.reset.inv = true

/-- Every step keeps the invariant. From every state that meets State.inv (operational implies released from reset, not
in maintenance mode, placed and locked; PLL loss or maintenance mode implies that SAFE_OK is low and makes no edge),
every step answers a state that meets it. (01_sweep_to_stroke R19, 16_host_pcie R415, 18_boot_security R442,
12_safety R340) -/
def Obligations.InvariantKept : Prop :=
  ∀ s t : State, s.inv = true → step s = .next t → t.inv = true

/-- A command changes only the blocks on which it acts. For every command: time, intake, grid builder, cell memory,
crews, level merger, tables, log, island, fault controller, Regatta, host interface, store, boot block, power
manager, planes, the mode flags and SAFE_OK are each unchanged unless Instr.acts names them; beside them only what a
report may reach changes: registers and counters, events outside, free values, fault reports with the log in the
store, the monitor queue, interrupts, triggers. (00_scope R4, 13_integrity_recovery R350, 12_safety R313,
16_host_pcie R416) -/
def Obligations.CommandFrame : Prop :=
  ∀ (c : Instr) (s t : State), exec c s = .next t → t.dev = s.dev.commit c.acts t.dev

/-- Which commands change the mode. Whether the device is operational, held in reset, in maintenance mode, placed and
locked changes only through a stroke boundary, the entry to the operational state, the boot code and the resets.
(01_sweep_to_stroke R19, 16_host_pcie R415, 19_power_clocks_reset R456, 18_boot_security R442) -/
def Obligations.ModeFlagsChangeOnlyBy : Prop :=
  ∀ (c : Instr) (s t : State), exec c s = .next t →
    (match c with
      | .strokeBoundary .. | .enterOperational | .boot .. | .resetRelease .. | .resetNAssert .. | .mainPor .. |
        .internalResetPulse => False
      | _ => True) →
    t.dev.tm.op = s.dev.tm.op ∧ t.dev.pm.held = s.dev.pm.held ∧ t.dev.hi.maint = s.dev.hi.maint ∧
      t.dev.bt.placed = s.dev.bt.placed ∧ t.dev.bt.locked = s.dev.bt.locked

/-- Decoding the bundle of a core instruction gives it back. For every well-formed core instruction, with every operand
at every value that its encoding admits, decoding the bundle that holds it alone gives that instruction, with the
place and the physical outcomes that its command carries beside the bundle. (11_core_instructions R285,
11_core_instructions R289, 11_core_instructions R290, 11_core_instructions R294, 11_core_instructions R295,
11_core_instructions R297, 11_core_instructions R298, 11_core_instructions R300, 11_core_instructions R301,
11_core_instructions R304) -/
def Obligations.BundleRoundTrip : Prop :=
  ∀ (i : Instr) (o : CoreOp), i.coreOp = some o → i.wfCore = true → decodeBundle o.loc i.phys o.word = [i]

/-- Bundles written out bit by bit decode to their instructions. Words written out from the slot tables: LDA AR3 :=
0x1234 in slot A, ADD V2 := V0 + V1 in slot V, TURN of stage 2 and level 1 into context 1 in slot S, GET of ring 5
into AR4 in slot G. (11_core_instructions R289, 11_core_instructions R290, 11_core_instructions R298,
11_core_instructions R300, 11_core_instructions R304) -/
def Obligations.BundlesFromTheManual : Prop :=
  let p : At := { core := 0, cyc := 0 }
  decodeBundle p {} (2 ^ 128 * (1 + 2 ^ 4 * 3 + 2 ^ 8 * 0x1234)) = [.lda p {} 3 0x1234] ∧
    decodeBundle p {} (2 ^ 176 * (1 + 2 ^ 6 * 2 + 2 ^ 16 * 1 + 2 ^ 26 * 2)) =
      [.add p {} { vd := 2, va := 0, vb := 1, ty := 2 }] ∧
    decodeBundle p {} (2 ^ 5 * 1 + 2 ^ 9 * (2 + 2 ^ 5 * 1) + 2 ^ 30 * 1) = [.turn p { ctxFeed := 1 } 2 1] ∧
    decodeBundle p {} (2 ^ 224 * (2 + 2 ^ 4 * 5 + 2 ^ 9 * 4)) = [.get p {} 5 4 0 false 0]

/-- A crew that does not run executes nothing. While the crews are held (outside the operational state, by a recoverable
fault, in a restoration stroke or a restart), every core instruction answers the state it found.
(08_crews_determinism R215, 08_crews_determinism R217, 13_integrity_recovery R352) -/
def Obligations.HeldCrewExecutesNothing : Prop :=
  ∀ (i : Instr) (o : CoreOp) (s : State), i.coreOp = some o → s.dev.crewsRun = false → exec i s = .next s

/-- An illegal bundle stops its crew's program. A core instruction whose bundle breaks a rule of R307 changes no
register, ring or memory: its crew's program stops, and bit BUNDLE_ILLEGAL of CO_COREnn_FAULT is set; so it is with
an uncorrectable error of the program store in the bundle that the crew fetches, and bit PSTORE_UNCORR; and an
illegal bundle that comes before it has stopped the program there. (11_core_instructions R307, 11_core_instructions
R308, 11_core_instructions R309) -/
def Obligations.MalformedBundleHalts : Prop :=
  ∀ (i : Instr) (o : CoreOp) (s : State) (b : Nat), i.coreOp = some o → o.r ≤ o.gate.spanM1.toNat →
    let c := o.loc.core.val
    let k := c / 8
    let stops (bit : Nat) : Prop := ∃ t, exec i s = .next t ∧ (t.dev.crew k).halted = true ∧
      (t.dev.rd (CO_CORE_FAULT c)).getLsbD bit = true ∧ t.dev.cw.cores = s.dev.cw.cores ∧
      t.dev.cw.vol = s.dev.cw.vol ∧ t.dev.cw.seq = s.dev.cw.seq ∧ t.dev.mem = s.dev.mem
    s.dev.fetched i o = some b → s.dev.runs c o.loc.cyc = true →
    (s.dev.badBefore k o.loc.cyc = none →
      (o.loc.unc = true → stops 0) ∧
      (o.loc.unc = false → s.dev.bundleFits k (bundlesOf (s.dev.prog k)) b = false → stops 1)) ∧
    (s.dev.badBefore k o.loc.cyc ≠ none → stops 1)

/-- The integer vector operations. ADD, SUB and MUL give the exact signed result, wrapped to 32 bits or, with SAT,
clamped; AND, OR and XOR act bit by bit; SHL, SHRL and SHRA shift by bits 4 to 0 of VB; CMP gives all ones where the
signed comparison of SUB holds; SEL takes VB where VC is zero and VA elsewhere, with TYPE BF16 in the low 16 bits.
Each of 256 lanes is due in VD after 2 cycles. Nothing else changes. (11_core_instructions R301) -/
def Obligations.IntegerLanes : Prop :=
  ∀ (s : State) (p : At) (g : Gate) (f : VecF),
    VecResult s (.add p g f) p f.vd.toNat 2 (fun k i => satOrWrap f.sat (laneInt (k.va f i) + laneInt (k.vb f i))) ∧
    VecResult s (.sub p g f) p f.vd.toNat 2 (fun k i => satOrWrap f.sat (laneInt (k.va f i) - laneInt (k.vb f i))) ∧
    VecResult s (.mul p g f) p f.vd.toNat 2 (fun k i => satOrWrap f.sat (laneInt (k.va f i) * laneInt (k.vb f i))) ∧
    VecResult s (.and p g f) p f.vd.toNat 2 (fun k i => k.va f i &&& k.vb f i) ∧
    VecResult s (.or p g f) p f.vd.toNat 2 (fun k i => k.va f i ||| k.vb f i) ∧
    VecResult s (.xor p g f) p f.vd.toNat 2 (fun k i => k.va f i ^^^ k.vb f i) ∧
    VecResult s (.shl p g f) p f.vd.toNat 2 (fun k i => (k.va f i <<< (k.vb f i % 32)) % 2 ^ 32) ∧
    VecResult s (.shrl p g f) p f.vd.toNat 2 (fun k i => k.va f i >>> (k.vb f i % 32)) ∧
    VecResult s (.shra p g f) p f.vd.toNat 2 (fun k i => ((BitVec.ofNat 32 (k.va f i)).sshiftRight (k.vb f i % 32)).toNat) ∧
    VecResult s (.cmp p g f) p f.vd.toNat 2 (fun k i => if (match f.sub.toNat with
        | 0 => decide (laneInt (k.va f i) = laneInt (k.vb f i))
        | 1 => decide (laneInt (k.va f i) ≠ laneInt (k.vb f i))
        | 2 => decide (laneInt (k.va f i) < laneInt (k.vb f i))
        | _ => decide (laneInt (k.va f i) ≤ laneInt (k.vb f i))) then 2 ^ 32 - 1 else 0) ∧
    VecResult s (.sel p g f) p f.vd.toNat 2 (fun k i => if f.ty = 1 then (if k.vc f i % 2 ^ 16 = 0 then k.vb f i else k.va f i) % 2 ^ 16
        else if k.vc f i = 0 then k.vb f i else k.va f i)

/-- The floating vector operations. FADD, FSUB, FMUL, FMIN and FMAX combine VA and VB, FMA adds VC to their product with
one rounding, FCMP gives a mask, each due after 4 cycles; FN is due after 8. The lanes are those of the model's
arithmetic of R133 in the TYPE of the instruction. (11_core_instructions R301, 11_core_instructions R303,
05_matrix_arrays R133, 05_matrix_arrays R147) -/
def Obligations.FloatLanes : Prop :=
  ∀ (s : State) (p : At) (g : Gate) (f : VecF),
    VecResult s (.fadd p g f) p f.vd.toNat 4 (fun k i => (fp2 f.ty.toNat (fAdd fmtF32) (k.va f i) (k.vb f i)).1) ∧
    VecResult s (.fsub p g f) p f.vd.toNat 4 (fun k i => (fp2 f.ty.toNat (fSub fmtF32) (k.va f i) (k.vb f i)).1) ∧
    VecResult s (.fmul p g f) p f.vd.toNat 4 (fun k i => (fp2 f.ty.toNat (fMul fmtF32) (k.va f i) (k.vb f i)).1) ∧
    VecResult s (.fmin p g f) p f.vd.toNat 4 (fun k i => (fp2 f.ty.toNat (fMinMax fmtF32 false) (k.va f i) (k.vb f i)).1) ∧
    VecResult s (.fmax p g f) p f.vd.toNat 4 (fun k i => (fp2 f.ty.toNat (fMinMax fmtF32 true) (k.va f i) (k.vb f i)).1) ∧
    VecResult s (.fma p g f) p f.vd.toNat 4 (fun k i => (fp3 f.ty.toNat (k.va f i) (k.vb f i) (k.vc f i)).1) ∧
    VecResult s (.fcmp p g f) p f.vd.toNat 4 (fun k i => (fpCmp f.ty.toNat f.sub.toNat (k.va f i) (k.vb f i)).1) ∧
    VecResult s (.fn p g f) p f.vd.toNat 8 (fun k i => (fpFn f.ty.toNat f.sub.toNat (k.va f i)).1)

/-- Conversions, blocks, reductions and constants. CVT packs the converted lanes in ascending order after 4 cycles; UNPK
converts the packed elements; MXB forms 8 blocks of 32 lanes with their scales in bytes 256 to 263; BCAST, LANE and
COREID fill every lane after 2 cycles; RED puts the pairwise tree's results into the lowest lanes after 12 cycles
(the other lanes are free values, log entry 29). (11_core_instructions R301, 11_core_instructions R302,
05_matrix_arrays R148, 05_matrix_arrays R147) -/
def Obligations.ConversionsAndConstants : Prop :=
  ∀ (s : State) (p : At) (g : Gate) (f : VecF),
    VecResult s (.cvt p g f) p f.vd.toNat 4 (fun k i => (packLanes (cvtBits f.sub.toNat)
      ((List.range 256).map (fun j => (cvtLane f.ty.toNat f.sub.toNat (k.va f j)).1))).getD i 0) ∧
    VecResult s (.unpk p g f) p f.vd.toNat 4 (fun k i => (unpkElem f.ty.toNat f.sub.toNat (unpackElem (if f.sub.toNat = 1 then 16 else 8) (k.vreg f.va.toNat) i)).1) ∧
    VecResult s (.mxb p g f) p f.vd.toNat 4 (fun k i => 
      let bs := (List.range 8).map (fun b => mxBlock f.sub.toNat ((List.range 32).map (fun j => k.va f (32 * b + j))))
      (packLanes 8 (bs.flatMap (fun b => b.1) ++ bs.map (fun b => b.2.1))).getD i 0) ∧
    (∀ (vd : BitVec 5) (imm : Word), VecResult s (.bcast p g vd imm) p vd.toNat 2 (fun _ _ => imm.toNat)) ∧
    VecResult s (.lane p g f) p f.vd.toNat 2 (fun _ i => i) ∧
    VecResult s (.coreid p g f) p f.vd.toNat 2 (fun _ _ => p.core.val) ∧
    (s.dev.executes (.red p g f) = true →
      ∃ t free, exec (.red p g f) s = .next t ∧
        (t.dev.vol p.core.val).vres = ((s.dev.brought p).vol p.core.val).vres ++
          [{ due := s.dev.cycleOf p + 12, vd := f.vd.toNat
             lanes := (redLevels (redFn f.ty.toNat f.sub.toNat) (if f.sub.getLsbD 2 then 5 else 8)
               ((List.range 256).map (((s.dev.brought p).core p.core.val).va f)) {}).1 ++ free }] ∧
        t.dev.cw.cores = (s.dev.brought p).cw.cores ∧ t.dev.mem = (s.dev.brought p).mem)

/-- Vector loads and stores. VLD puts the 256 little-endian words at its address into VD after 8 cycles from the tile
plane, 6 from the word plane; VST schedules a write of VA's 256 lanes to exactly its address for the bank cycle issue
+ 2; INC steps the address register at the end of the span. The access lies in the plane and is powered; no error is
met that cannot be corrected. No byte of memory changes at the issue. (11_core_instructions R288,
11_core_instructions R301, 06_scratchpads R154, 06_scratchpads R157, 06_scratchpads R158) -/
def Obligations.VectorMemory : Prop :=
  ∀ (s : State) (p : At) (g : Gate) (r : BitVec 4) (f : VecM) (ecc : Ecc) (off : Nat),
    let c := p.core.val
    let d := s.dev.brought p
    let now := s.dev.cycleOf p
    d.planeOk c f.word ((d.core c).addr f.base.toNat r.toNat f.inc) 1024 off →
    (s.dev.executes (.vld p g r f ecc) = true → ecc.unc = none →
      ∃ t, exec (.vld p g r f ecc) s = .next t ∧
        (t.dev.vol c).vres = (d.vol c).vres ++
          [{ due := now + (if f.word then 6 else 8), vd := f.vd.toNat
             lanes := (List.range 256).map (fun i => leNat (d.planeRead c f.word (off + 4 * i) 4)) }] ∧
        (t.dev.vol c).arup = (d.vol c).arup ++ arUps d c now f.base.toNat g.span r.toNat f.inc ∧
        (t.dev.vol c).writes = (d.vol c).writes ∧ t.dev.mem = d.mem) ∧
    (s.dev.executes (.vst p g r f) = true →
      ∃ t, exec (.vst p g r f) s = .next t ∧
        (t.dev.vol c).writes = (d.vol c).writes ++
          [{ at_ := now + 2, word := f.word, off := off, aow := f.aow.toNat, vec := true
             bytes := (List.range 256).flatMap (fun i => toLE 4 (lane ((d.core c).vreg f.va.toNat) i)) }] ∧
        (t.dev.vol c).arup = (d.vol c).arup ++ arUps d c now f.base.toNat g.span r.toNat f.inc ∧
        (t.dev.vol c).vres = (d.vol c).vres ∧ t.dev.mem = d.mem)

/-- Vector gather and scatter. With all 64 addresses BASE + 4 × VB[j] in the word plane and powered, VGATH puts the 64
words into lanes 0 to 63 of VD and zero into the others after 6 cycles, and VSCAT schedules the 64 words of VA for
bank cycle issue + 2 in ascending j, each at its own address. No byte of memory changes at the issue.
(11_core_instructions R301, 06_scratchpads R157, 06_scratchpads R158) -/
def Obligations.GatherAndScatter : Prop :=
  ∀ (s : State) (p : At) (g : Gate) (r : BitVec 4) (f : VecM) (ecc : Ecc) (offs : List Nat),
    let c := p.core.val
    let d := s.dev.brought p
    let now := s.dev.cycleOf p
    (gatherOffs ((d.core c).addr f.base.toNat r.toNat f.inc) ((d.core c).vreg f.vb.toNat)).map (localOff true) =
      offs.map some →
    (∀ o ∈ offs, o + 4 ≤ planeSize true ∧ d.poweredAll c true o 4 = true) →
    (s.dev.executes (.vgath p g r f ecc) = true → ecc.unc = none →
      ∃ t, exec (.vgath p g r f ecc) s = .next t ∧
        (t.dev.vol c).vres = (d.vol c).vres ++
          [{ due := now + 6, vd := f.vd.toNat
             lanes := offs.map (fun o => leNat (d.planeRead c true o 4)) ++ List.replicate 192 0 }] ∧
        t.dev.mem = d.mem) ∧
    (s.dev.executes (.vscat p g r f) = true →
      ∃ t, exec (.vscat p g r f) s = .next t ∧
        (t.dev.vol c).writes = (d.vol c).writes ++ offs.mapIdx (fun j o =>
          { at_ := now + 2, word := true, off := o, aow := f.aow.toNat, vec := true
            bytes := toLE 4 (lane ((d.core c).vreg f.va.toNat) j) }) ∧
        t.dev.mem = d.mem)

/-- Address, stride and set-up registers. LDA and ADDA give an address register, LDS a stride register, SETR the register
WBSTEP, HSTEP or WQBASE its value from the next schedule cycle on; WIN sets a window at once. No other core, no
memory byte and no vector result changes. (11_core_instructions R288, 11_core_instructions R298) -/
def Obligations.AddressRegisters : Prop :=
  ∀ (s : State) (p : At) (g : Gate) (reg : BitVec 4) (imm : Word) (w : BitVec 3) (lb n : BitVec 13) (logP : BitVec 2)
    (cM1 : BitVec 6) (kk : BitVec 7),
    let c := p.core.val
    let d := s.dev.brought p
    let now := s.dev.cycleOf p
    let same (t : State) : Prop := t.dev.mem = d.mem ∧ (t.dev.vol c).vres = (d.vol c).vres ∧
      (t.dev.vol c).writes = (d.vol c).writes ∧ ∀ e, e ≠ c → t.dev.core e = d.core e ∧ t.dev.vol e = d.vol e
    (s.dev.executes (.lda p g reg imm) = true → ∃ t, exec (.lda p g reg imm) s = .next t ∧
      (t.dev.vol c).arup = (d.vol c).arup ++ [(now + 1, reg.toNat, imm)] ∧ t.dev.core c = d.core c ∧ same t) ∧
    (s.dev.executes (.adda p g reg imm) = true → ∃ t, exec (.adda p g reg imm) s = .next t ∧
      (t.dev.vol c).arup = (d.vol c).arup ++ [(now + 1, reg.toNat, (d.core c).arOf reg.toNat + imm)] ∧
      t.dev.core c = d.core c ∧ same t) ∧
    (s.dev.executes (.lds p g reg imm) = true → ∃ t, exec (.lds p g reg imm) s = .next t ∧
      (t.dev.vol c).arup = (d.vol c).arup ++ [(now + 1, 16 + reg.toNat, imm)] ∧ t.dev.core c = d.core c ∧ same t) ∧
    (s.dev.executes (.setr p g reg imm) = true → ∃ t, exec (.setr p g reg imm) s = .next t ∧
      (t.dev.vol c).arup = (d.vol c).arup ++ [(now + 1, 32 + min reg.toNat 2, imm)] ∧ t.dev.core c = d.core c ∧
      same t) ∧
    (∀ (k : CoreChk) (n : Nat), n < 16 → (k.setReg n imm).arOf n = imm ∧ (k.setReg (16 + n) imm).asOf n = imm) ∧
    (∀ k : CoreChk, (k.setReg 32 imm).wbstep = imm ∧ (k.setReg 33 imm).hstep = imm ∧ (k.setReg 34 imm).wqbase = imm) ∧
    (s.dev.executes (.win p g w lb n logP cM1 kk) = true → ∃ t, exec (.win p g w lb n logP cM1 kk) s = .next t ∧
      smGet (fun _ => ({} : Win)) (t.dev.core c).wins w.toNat =
        { lb := lb.toNat, n := n.toNat, logP := logP.toNat, c := cM1.toNat + 1, k := kk.toNat } ∧
      t.dev.vol c = d.vol c ∧ same t)

/-- FEED_DIR and FEED_LIN. FEED_DIR broadcasts 128 bytes of chunk c of row i from BASE with STRIDE, FEED_LIN the 128
bytes at BASE, each for issue + 8; a feed gated by its context (an entry at or above COUNT) makes the same read and
broadcasts zeros. With MX the scale bytes follow R298 (their place in a row of FEED_DIR: the model's reading, log
entry 28). No memory byte changes. (11_core_instructions R298, 11_core_instructions R293, 07_sparse_convolution R194,
08_crews_determinism R216) -/
def Obligations.DirectAndLinearFeeds : Prop :=
  ∀ (s : State) (p : At) (g : Gate) (r : BitVec 4) (base : BitVec 5) (entry : BitVec 7) (stride : BitVec 12)
    (chunk : BitVec 6) (estep inc mx : Bool) (ecc : Ecc) (o : Nat),
    let c := p.core.val
    let d := s.dev.brought p
    let now := s.dev.cycleOf p
    let k := d.core c
    let i := if estep then entry.toNat + r.toNat else entry.toNat
    let row := o + i * (16 * stride.toNat)
    let off := row + 128 * chunk.toNat
    let sc := row + mxElems (16 * stride.toNat) + 4 * chunk.toNat
    (s.dev.executes (.feedDir p g r base entry stride chunk estep mx ecc) = true → ecc.unc = none →
      localOff false (k.addr base.toNat 0 false) = some o → d.spanOk c false off 128 →
      (mx = true → d.spanOk c false sc 4) →
      ∃ t, exec (.feedDir p g r base entry stride chunk estep mx ecc) s = .next t ∧
        (t.dev.vol c).feeds = (d.vol c).feeds ++
          [d.bytesFeed c (now + 8) off sc mx (k.feedOff g.bound g.ctxFeed.toNat i) (k.secOf g.ctxFeed.toNat)] ∧
        t.dev.mem = d.mem) ∧
    (s.dev.executes (.feedLin p g r base inc mx ecc) = true → ecc.unc = none →
      localOff false (k.addr base.toNat r.toNat inc) = some o → d.spanOk c false o 128 →
      (mx = true → d.spanOk c false (o + 128) 4) →
      ∃ t, exec (.feedLin p g r base inc mx ecc) s = .next t ∧
        (t.dev.vol c).feeds = (d.vol c).feeds ++
          [d.bytesFeed c (now + 8) o (o + 128) mx (k.feedOff g.bound g.ctxFeed.toNat 0) (k.secOf g.ctxFeed.toNat)] ∧
        (t.dev.vol c).arup = (d.vol c).arup ++ arUps d c now base.toNat g.span r.toNat inc ∧ t.dev.mem = d.mem)

/-- FEED_MAP. With its map words in the powered word plane and every byte it names in the powered tile plane, FEED_MAP
reads, 6 cycles after issue, chunk c of the window row that each segment's valid map word names, by the byte
placement of R194 (with MX the scale bytes after the elements of the row), for the broadcast at issue + 14; a segment
without a valid word is zero, and a feed that its context gates is zero throughout. No memory byte changes.
(07_sparse_convolution R194, 07_sparse_convolution R195, 07_sparse_convolution R196, 11_core_instructions R298,
11_core_instructions R293) -/
def Obligations.MapFeed : Prop :=
  ∀ (s : State) (p : At) (g : Gate) (r : BitVec 4) (w : BitVec 3) (base : BitVec 5) (entry pass : BitVec 7)
    (chunk : BitVec 6) (estep mx : Bool) (map ecc : Ecc) (first : Nat),
    let c := p.core.val
    let d := s.dev.brought p
    let now := s.dev.cycleOf p
    let k := d.core c
    let win := smGet (fun _ => ({} : Win)) k.wins w.toNat
    let segs := 2 ^ win.logP
    let seg := 128 / segs
    let i := if estep then entry.toNat + r.toNat else entry.toNat
    let gated := k.feedOff g.bound g.ctxFeed.toNat i
    let rows := if gated then [] else mapRows (d.planeRead c true first (2 * segs)) pass.toNat win
    let lanes := (List.range 128).map (fun l =>
      (rows.getD (l / seg) none).map (fun n => win.byteAt w.toNat (l / seg) chunk.toNat n (l % seg)))
    let scales := if mx then [0, 32, 64, 96].map (fun l =>
        (rows.getD (l / seg) none).map (fun n => win.scaleAt w.toNat (k.winRow win w.toNat) chunk.toNat n l))
      else [none, none, none, none]
    s.dev.executes (.feedMap p g r w base entry pass chunk estep mx ⟨map, ecc⟩) = true → map.unc = none → ecc.unc = none →
    (mx = true → segs ≠ 8) →
    d.planeOk c true ((k.addr base.toNat 0 false + 2 * (win.k * i + segs * pass.toNat)) % 2 ^ 32) (2 * segs) first →
    (∀ a ∈ lanes.filterMap id ++ scales.filterMap id, a / 16 * 16 + 16 ≤ planeSize false ∧
      d.powered c false (a / 16 * 16) = true) →
    ∃ t, exec (.feedMap p g r w base entry pass chunk estep mx ⟨map, ecc⟩) s = .next t ∧
      (t.dev.vol c).reads = (d.vol c).reads ++
        [{ at_ := now + 6
           kind := if gated then .feed (now + 14) (List.replicate 128 none) (List.replicate 4 none) none
             else .feed (now + 14) lanes scales (k.secOf g.ctxFeed.toNat) }] ∧
      t.dev.mem = d.mem

/-- What lands as a broadcast. Where a core's crew runs: with one feed due in the schedule cycle it becomes the cycle's
broadcast; with two or more the broadcast is zero and FEED_CLASH is set; with none the broadcast of the cycle is what
it was. (11_core_instructions R299) -/
def Obligations.FeedsLand : Prop :=
  ∀ (s : State) (core : Fin 32) (cyc : Nat),
    let p : At := { core := core, cyc := cyc }
    let c := core.val
    let d := s.dev.brought p
    let now := s.dev.cycleOf p
    let due := (d.vol c).feeds.filter (fun f => decide (f.at_ = now))
    s.dev.runs c cyc = true →
    ∃ t, exec (.feedLand core cyc) s = .next t ∧ (t.dev.vol c).feeds.all (fun f => decide (now < f.at_)) = true ∧
      (∀ f, due = [f] → (t.dev.vol c).feedAt now = f) ∧
      (2 ≤ due.length → ((t.dev.vol c).feedAt now).lanes = List.replicate 128 0 ∧
        (t.dev.rd (CO_CORE_FAULT c)).getLsbD 2 = true) ∧
      (due = [] → (t.dev.vol c).feedAt now = (d.vol c).feedAt now)

/-- JOB, SPLIT, WAKE and ramp steps. JOB gives every target that it names a new pending job of its number and formats,
and raises ARRAY_STATE for a half of an array that is not split; SPLIT, where every array that it names is idle,
makes each of them split or whole; WAKE starts the ramp of every array named that is below level 8 and not rising; a
ramp step of a core whose crew runs raises or lowers the level by one when it is due. (11_core_instructions R295,
11_core_instructions R296, 05_matrix_arrays R140, 05_matrix_arrays R143) -/
def Obligations.ArrayTargets : Prop :=
  ∀ (s : State) (p : At) (g : Gate) (array half : BitVec 2) (afmt wfmt arrays value : BitVec 4) (no : BitVec 16)
    (i : Fin 4),
    let c := p.core.val
    let d := s.dev.brought p
    let now := s.dev.cycleOf p
    let k := d.core c
    let ts := k.targets (2 ^ array.toNat) half.toNat
    let a := (d.vol c).arr i.val
    (s.dev.executes (.job p g array half afmt wfmt no) = true → afmt.toNat < 10 → wfmt.toNat < 10 →
      ∃ t, exec (.job p g array half afmt wfmt no) s = .next t ∧
        (∀ x ∈ ts, ∀ h, x.2 = some h → ∃ j, ((t.dev.core c).tgt (tgtNo x.1 h)).pend = some j ∧ j.no = no.toNat ∧
          j.a = afmt.toNat ∧ j.w = wfmt.toNat ∧ k.jobs ≤ j.id ∧ j.id < (t.dev.core c).jobs) ∧
        ((∃ x ∈ ts, x.2 = none) → (t.dev.rd (CO_CORE_FAULT c)).getLsbD 3 = true)) ∧
    (s.dev.executes (.split p g arrays value) = true →
      (∀ n < 4, arrays.getLsbD n = true → (k.tgt (2 * n)).run = none ∧ (k.tgt (2 * n)).pend = none ∧
        (k.tgt (2 * n + 1)).run = none ∧ (k.tgt (2 * n + 1)).pend = none ∧
        ∀ w ∈ (d.vol c).waves, w.arr = n ∨ w.arr = 4 → w.due ≤ now) →
      ∃ t, exec (.split p g arrays value) s = .next t ∧ ∀ n < 4, arrays.getLsbD n = true →
        (t.dev.core c).isSplit n = value.getLsbD n) ∧
    (s.dev.executes (.wake p g arrays) = true → arrays.getLsbD i.val = true → a.level < 8 → a.rising = false →
      ∃ t, exec (.wake p g arrays) s = .next t ∧
        (t.dev.vol c).arr i.val = { a with rising := true, stepAt := now + 32 }) ∧
    (d.pm.held = false → s.dev.runs c p.cyc = true → a.rising = true → a.stepAt ≤ now →
      ∃ t, exec (.arrayRampStep p.core p.cyc i) s = .next t ∧ ((t.dev.vol c).arr i.val).level = min 8 (a.level + 1)) ∧
    (s.dev.runs c p.cyc = true → a.rising = false → 0 < a.level → a.level ≤ 8 → a.last + 64 + 32 * (9 - a.level) ≤ now →
      ∃ t, exec (.arrayRampStep p.core p.cyc i) s = .next t ∧ ((t.dev.vol c).arr i.val).level = a.level - 1)

/-- FILL. Where every target of a FILL has a pending job, no swap behind it, and its reads lie in the powered tile plane,
each target's shadow fill completes fillCycles (R129) of its weight format after the issue, and its reads after the
first stand scheduled one a cycle: 1 KiB each from BASE on, or granule G + r of 64 lines, and the block scales behind
the tile. No byte of memory changes. (05_matrix_arrays R129, 05_matrix_arrays R131, 11_core_instructions R295,
06_scratchpads R154) -/
def Obligations.FillSchedulesItsReads : Prop :=
  ∀ (s : State) (p : At) (g : Gate) (array half : BitVec 2) (base : BitVec 5) (inc layout : Bool) (stride : BitVec 7)
    (ecc : List Ecc) (off : Nat),
    let c := p.core.val
    let d := s.dev.brought p
    let now := s.dev.cycleOf p
    let k := d.core c
    let lay := b2n layout
    let st := stride.toNat + 1
    let ts := k.targets (2 ^ array.toNat) half.toNat
    s.dev.executes (.fill p g array half base inc layout stride ecc 0) = true → (∀ e ∈ ecc, e.unc = none) →
    localOff false (k.addr base.toNat 0 false) = some off →
    (∀ x ∈ ts, ∃ h j, x.2 = some h ∧ (k.tgt (tgtNo x.1 h)).pend = some j ∧ (k.tgt (tgtNo x.1 h)).swapAt = none ∧
      (lay = 1 → off / 16 % 64 + fillCount j.w lay ≤ 64) ∧
      ∀ r < fillCount j.w lay, ∀ a ∈ fillGrans off lay st r, a + 16 ≤ planeSize false ∧ d.powered c false a = true) →
    ∃ t, exec (.fill p g array half base inc layout stride ecc 0) s = .next t ∧ t.dev.mem = d.mem ∧
      ∀ x ∈ ts, ∀ h j, x.2 = some h → (k.tgt (tgtNo x.1 h)).pend = some j →
        ((t.dev.core c).tgt (tgtNo x.1 h)).fillEnd = now + fillCycles j.w ∧
        ∀ r, 0 < r → r < fillCount j.w lay →
          { at_ := now + r, kind := fillKind x.1 h off lay st r } ∈ (t.dev.vol c).reads

/-- WAVE. A forward wave without marks, on arrays at full activity whose every target runs a job of a legal format pair,
puts one wave in flight for each target, due 200 cycles after its issue, for its entry and MODE, of that job, with
the columns that the target computes from the cycle's broadcast; BEGIN with the span's first wave makes the pending
job the running one, and END with its last ends it; a transposed wave on whole arrays that run transposed jobs puts
one wave of all arrays in flight, due 208 cycles after its second issue cycle. (11_core_instructions R294,
11_core_instructions R299, 05_matrix_arrays R124, 05_matrix_arrays R126, 05_matrix_arrays R138) -/
def Obligations.WaveInFlight : Prop :=
  ∀ (s : State) (p : At) (g : Gate) (r : BitVec 4) (arrays : BitVec 4) (half : BitVec 2) (entry : BitVec 7)
    (estep accum end_ : Bool),
    let c := p.core.val
    let d := s.dev.brought p
    let now := s.dev.cycleOf p
    let k := d.core c
    let v := d.vol c
    let e := if estep then entry.toNat + r.toNat else entry.toNat
    let ready (m : BitVec 4) : Prop := ∀ i < 4, m.getLsbD i = true → (v.arr i).level = 8
    (s.dev.executes (.wave p g r false arrays half entry estep accum false false false 0 0) = true → ready arrays →
      d.runs c p.cyc = true →
      (∀ x ∈ k.targets arrays.toNat half.toNat, ∃ h j, x.2 = some h ∧ (k.tgt (tgtNo x.1 h)).run = some j ∧
        pairOk j.a j.w = true) →
      ∃ t, exec (.wave p g r false arrays half entry estep accum false false false 0 0) s = .next t ∧
        ∀ x ∈ k.targets arrays.toNat half.toNat, ∀ h j, x.2 = some h → (k.tgt (tgtNo x.1 h)).run = some j →
          ∃ w ∈ (t.dev.vol c).waves, w.due = now + 200 ∧ w.arr = x.1 ∧ w.half = h ∧ w.entry = e ∧ w.add = accum ∧
            w.jobs.map (fun y => (y.no, y.id)) = [(j.no, j.id)] ∧
            w.vals = (jobCols j.w h).map (fun col => (col, (v.waveCol x.1 j (v.feedAt now) col).1))) ∧
    (∀ (a : Fin 4) (j : Job), s.dev.executes (.wave p g 0 false (BitVec.ofNat 4 (2 ^ a.val)) 0 entry estep accum false true
        end_ 0 0) = true → ready (BitVec.ofNat 4 (2 ^ a.val)) → d.runs c p.cyc = true → k.isSplit a.val = false →
      (k.tgt (2 * a.val)).pend = some j → pairOk j.a j.w = true →
      ∃ t, exec (.wave p g 0 false (BitVec.ofNat 4 (2 ^ a.val)) 0 entry estep accum false true end_ 0 0) s = .next t ∧
        ((t.dev.core c).tgt (2 * a.val)).pend = none ∧
        ((t.dev.core c).tgt (2 * a.val)).run.map (fun x => x.no) =
          (if end_ = true ∧ g.span = 1 then none else some j.no)) ∧
    (s.dev.executes (.wave p g r true 15 0 entry estep accum false false false 0 0) = true → ready 15 →
      d.runs c p.cyc = true → r.toNat % 2 = 1 →
      (∀ a < 4, k.isSplit a = false ∧ ∃ j, (k.tgt (2 * a)).run = some j ∧ pairTransOk j.a j.w = true) →
      ∃ t, exec (.wave p g r true 15 0 entry estep accum false false false 0 0) s = .next t ∧
        ∃ w ∈ (t.dev.vol c).waves, w.due = now + 208 ∧ w.arr = 4 ∧ w.add = accum ∧
          w.entry = if estep then entry.toNat + r.toNat / 2 else entry.toNat)

/-- What a landing wave writes. A wave of an array that lands alone replaces (SET) or adds to (ADD) the columns that it
computed in its accumulator entry and leaves the entry's other columns, unless its job is aborted: then the entry
keeps every value; the entry remembers its job; no wave due by then stays in flight. (05_matrix_arrays R126,
05_matrix_arrays R135, 05_matrix_arrays R138, 05_matrix_arrays R142) -/
def Obligations.WavesLand : Prop :=
  ∀ (s : State) (core : Fin 32) (cyc : Nat) (w : Wave),
    let p : At := { core := core, cyc := cyc }
    let c := core.val
    let d := s.dev.brought p
    let now := s.dev.cycleOf p
    let key := 128 * w.arr + w.entry
    let old := smGet row0 (d.core c).acc key
    s.dev.runs c cyc = true → (d.vol c).waves.filter (fun x => decide (x.due ≤ now)) = [w] → w.arr < 4 →
    ∃ t, exec (.waveLand core cyc 0 0 false) s = .next t ∧
      (t.dev.vol c).waves = (d.vol c).waves.filter (fun x => decide (now < x.due)) ∧
      (w.jobs.any (d.core c).jobDead = true → (t.dev.core c).acc = (d.core c).acc) ∧
      (w.jobs.any (d.core c).jobDead = false → ∀ j < 64, (smGet row0 (t.dev.core c).acc key).getD j 0 =
        match w.vals.find? (fun x => decide (x.1 = j)) with
        | some x => if w.add then (accAdd (pairFp (w.jobs.headD {}).w) (old.getD j 0) x.2).1 else x.2
        | none => old.getD j 0) ∧
      (∀ h, (w.half = 0 ∧ h < 2) ∨ (0 < w.half ∧ h = w.half - 1) →
        smGet (fun _ => none) (t.dev.core c).tag (256 * w.arr + 128 * h + w.entry) = w.jobs.head?)

/-- WB and WBR. A write-back of one target, not suppressed by its context, of an entry whose job is not aborted,
schedules for issue + 4 a write of the converted values of its columns to exactly BASE plus its array's WBSTEP and
its half's HSTEP; WBR one of the row accumulator's values to BASE; INT8 takes the requantisation words at WQBASE. A
suppressed one writes nothing and counts. No memory byte changes at the issue. (11_core_instructions R297,
11_core_instructions R293, 05_matrix_arrays R137, 05_matrix_arrays R139) -/
def Obligations.WriteBacks : Prop :=
  ∀ (s : State) (p : At) (g : Gate) (r : BitVec 4) (arrays : BitVec 4) (half : BitVec 2) (entry : BitVec 7) (estep : Bool)
    (fmt : BitVec 4) (base : BitVec 5) (inc : Bool) (aow : BitVec 3) (ecc : Ecc) (a h x off : Nat) (word : Bool) (j : Job)
    (q : List Nat),
    let c := p.core.val
    let d := s.dev.brought p
    let now := s.dev.cycleOf p
    let k := d.core c
    let e := if estep then entry.toNat + r.toNat else entry.toNat
    let at0 := k.addr base.toNat r.toNat inc
    let cols := jobCols (if j.w = 8 then 8 else 0) h
    let c0 := 64 * a + if j.w = 8 then cols.headD 0 / 2 else cols.headD 0
    let bs := (wbBytes fmt.toNat q (cols.map (fun y => (smGet row0 k.acc (128 * a + e)).getD y 0))).1
    let js := smGet (fun _ => []) k.rtag e
    let n := if (js.headD {}).w = 8 then 64 else 128
    let rbs := (wbBytes fmt.toNat q ((List.range n).map (fun y => (smGet row0 k.racc e).getD y 0))).1
    (s.dev.executes (.wb p g r arrays half entry estep fmt base inc aow false 0 { ecc := ecc }) = true →
      k.targets arrays.toNat half.toNat = [(a, some h)] → k.wbOff g.bound g.ctxOut.toNat e = false →
      k.tagOf a h e = some j → k.jobDead j = false → d.requantIs c fmt.toNat c0 cols.length ecc q →
      engDec ((at0 + a * k.wbstep.toNat + (if h = 2 then k.hstep.toNat else 0)) % 2 ^ 32) = some (b2n word, x, off) →
      off + bs.length ≤ planeSize word →
      ∃ t, exec (.wb p g r arrays half entry estep fmt base inc aow false 0 { ecc := ecc }) s = .next t ∧
        (t.dev.vol c).writes = (d.vol c).writes ++
          [{ at_ := now + 4, word := word, off := off, bytes := bs, aow := aow.toNat }] ∧ t.dev.mem = d.mem) ∧
    (s.dev.executes (.wb p g r arrays half entry estep fmt base inc aow false 0 { ecc := ecc }) = true → ecc.unc = none →
      (∀ y ∈ k.targets arrays.toNat half.toNat, y.2 ≠ none) → k.wbOff g.bound g.ctxOut.toNat e = true →
      ∃ t, exec (.wb p g r arrays half entry estep fmt base inc aow false 0 { ecc := ecc }) s = .next t ∧
        (t.dev.vol c).writes = (d.vol c).writes ∧ t.dev.mem = d.mem ∧
        t.dev.ctr (CO_CTR_SUPPRESSED c) = ctrAdd (d.ctr (CO_CTR_SUPPRESSED c)) 1) ∧
    (s.dev.executes (.wbr p g r entry estep fmt base inc aow false 0 { ecc := ecc }) = true →
      k.wbOff g.bound g.ctxOut.toNat e = false → js.any k.jobDead = false → d.requantIs c fmt.toNat 0 n ecc q →
      engDec at0 = some (b2n word, x, off) → off + rbs.length ≤ planeSize word →
      ∃ t, exec (.wbr p g r entry estep fmt base inc aow false 0 { ecc := ecc }) s = .next t ∧
        (t.dev.vol c).writes = (d.vol c).writes ++
          [{ at_ := now + 4, word := word, off := off, bytes := rbs, aow := aow.toNat }] ∧ t.dev.mem = d.mem)

/-- TURN and RELEASE. TURN into an empty context binds it, from the next schedule cycle on, to the core's next queued
group of LEVEL and counts the group, or, where none is queued, to a null group and counts the null turn; into a
context that holds a group it raises SEQ_STATE. RELEASE empties its context from the next cycle on; of an empty
context it raises SEQ_STATE. (08_crews_determinism R214, 08_crews_determinism R216, 11_core_instructions R291,
11_core_instructions R292) -/
def Obligations.TurnsAndReleases : Prop :=
  ∀ (s : State) (p : At) (g : Gate) (stage : BitVec 5) (level : BitVec 2),
    let c := p.core.val
    let d := s.dev.brought p
    let now := s.dev.cycleOf p
    let x := g.ctxFeed.toNat
    let y := g.ctxOut.toNat
    (∀ gr q, s.dev.executes (.turn p g stage level) = true → d.ctxHeld c x = false →
      d.cw.seq.nextGroup c level.toNat g.gold = some (gr, q) →
      ∃ t, exec (.turn p g stage level) s = .next t ∧ t.dev.cw.seq = q ∧
        (t.dev.vol c).ctxup = (d.vol c).ctxup ++
          [(now + 1, x, { bound := true, grp := some gr, level := level.toNat })] ∧
        t.dev.ctr (CS_GROUPS (c / 8)) = ctrAdd (d.ctr (CS_GROUPS (c / 8))) 1) ∧
    (s.dev.executes (.turn p g stage level) = true → d.ctxHeld c x = false →
      d.cw.seq.nextGroup c level.toNat g.gold = none →
      ∃ t, exec (.turn p g stage level) s = .next t ∧ t.dev.cw.seq = d.cw.seq ∧
        (t.dev.vol c).ctxup = (d.vol c).ctxup ++ [(now + 1, x, { bound := true, null := true, level := level.toNat })] ∧
        t.dev.ctr (CS_NULL_TURNS (c / 8)) = ctrAdd (d.ctr (CS_NULL_TURNS (c / 8))) 1) ∧
    (s.dev.executes (.turn p g stage level) = true → d.ctxHeld c x = true →
      ∃ t, exec (.turn p g stage level) s = .next t ∧ t.dev.cw = d.cw ∧
        (t.dev.rd (CO_CORE_FAULT c)).getLsbD 4 = true) ∧
    (s.dev.executes (.release p g) = true → d.ctxHeld c y = true →
      ∃ t, exec (.release p g) s = .next t ∧ (now + 1, y, ({} : TurnCtx)) ∈ (t.dev.vol c).ctxup) ∧
    (s.dev.executes (.release p g) = true → d.ctxHeld c y = false →
      ∃ t, exec (.release p g) s = .next t ∧ t.dev.cw = d.cw ∧ (t.dev.rd (CO_CORE_FAULT c)).getLsbD 4 = true)

/-- The digest channel and the digest unit. DIGOPEN of a context that holds a group opens the closed channel for that
group at its point with an empty CRC; DIGOPEN and DIGCLOSE of a null group do nothing; DIGCLOSE of an open channel
closes it and, of a group whose digest is reported, hands its CRC and byte count to the digest unit; DIGEST_COMPLETE
takes the first digest whose last group has come out of formation and keeps the CRCs combined in ascending group
number for the checkpoint. (08_crews_determinism R226, 08_crews_determinism R227, 11_core_instructions R291,
11_core_instructions R293) -/
def Obligations.DigestChannel : Prop :=
  ∀ (s : State) (p : At) (g : Gate) (point : BitVec 8) (gr : Group) (o : DigOpen),
    let c := p.core.val
    let d := s.dev.brought p
    (s.dev.executes (.digopen p g point) = true → (d.core c).dig = none →
      ((d.core c).turn g.ctxOut.toNat).null = false → ((d.core c).turn g.ctxOut.toNat).grp = some gr →
      ∃ t, exec (.digopen p g point) s = .next t ∧ (t.dev.core c).dig = some { grp := gr, point := point.toNat } ∧
        t.dev.mem = d.mem) ∧
    (s.dev.executes (.digclose p g) = true → ((d.core c).turn g.ctxOut.toNat).null = false → (d.core c).dig = some o →
      (d.digSetting o.grp).1 = true →
      ∃ t, exec (.digclose p g) s = .next t ∧ (t.dev.core c).dig = none ∧
        ∃ a ∈ t.dev.lg.digs, a.id = o.grp.id ∧ a.point = o.point ∧ (o.grp.n, o.crc, o.len) ∈ a.groups) ∧
    (s.dev.executes (.digopen p g point) = true → ((d.core c).turn g.ctxOut.toNat).null = true →
      ∃ t, exec (.digopen p g point) s = .next t ∧ t.dev.cw.cores = d.cw.cores) ∧
    (s.dev.executes (.digclose p g) = true → ((d.core c).turn g.ctxOut.toNat).null = true →
      ∃ t, exec (.digclose p g) s = .next t ∧ t.dev.cw.cores = d.cw.cores ∧ t.dev.lg.digs = d.lg.digs) ∧
    (∀ a r, takeFirst (fun (a : DigAcc) => decide (a.need ≤ a.groups.length)) s.dev.lg.digs = some (a, r) →
      ∃ t, exec .digestComplete s = .next t ∧ t.dev.lg.digs = r ∧
        t.dev.lg.done = s.dev.lg.done ++ [{ stroke := s.dev.tm.stroke, acc := a, value := a.value }])

/-- GET, PUTR, PUTC and DRAIN. On a ring in use and not suppressed: GET of a slot that is FULL with the consumer's epoch
gives its AR the slot's engine address, and otherwise waits; PUTC marks the oldest reserved slot FULL with its epoch
where it is not FULL, and otherwise waits; PUTR reserves the slot at the head and gives its AR that slot's address;
DRAIN frees the slot at the tail and advances the tail, and a PUT that the device holds for the ring is tried again
after its cycle. (06_scratchpads R168, 06_scratchpads R169, 06_scratchpads R170, 11_core_instructions R304) -/
def Obligations.RingOperations : Prop :=
  ∀ (s : State) (p : At) (g : Gate) (ring : BitVec 5) (ar : BitVec 4) (ctx : BitVec 2) (bnd : Bool) (waited : Nat),
    let c := p.core.val
    let d := s.dev.brought p
    let now := s.dev.cycleOf p
    let n := ring.toNat
    let r := (d.core c).ring n
    let gd := d.ringDesc c n
    (s.dev.ringReady (.get p g ring ar ctx bnd waited) p n ctx.toNat bnd → d.getOk c n = true → ar ≠ 0 →
      ∃ t, exec (.get p g ring ar ctx bnd waited) s = .next t ∧
        (t.dev.vol c).arup = (d.vol c).arup ++
          [(now + 1, ar.toNat, BitVec.ofNat 32 (engAddr gd.word c (gd.base + r.tail * gd.size)))] ∧
        t.dev.cw.cores = d.cw.cores ∧ t.dev.mem = d.mem) ∧
    (s.dev.ringReady (.get p g ring ar ctx bnd waited) p n ctx.toNat bnd → d.getOk c n = false →
      ∃ t, exec (.get p g ring ar ctx bnd waited) s = .next t ∧ waits s t p n true) ∧
    (∀ slot ep rest, s.dev.ringReady (.putc p g ring ctx bnd waited) p n ctx.toNat bnd →
      r.resv = (slot, ep) :: rest → d.slotFull c n slot = false →
      ∃ t, exec (.putc p g ring ctx bnd waited) s = .next t ∧
        ((t.dev.core c).tagAt (gd.tagBase + slot)) = { full := true, epoch := ep, at_ := s.dev.tm.stroke } ∧
        ((t.dev.core c).ring n) = { r with resv := rest } ∧ t.dev.mem = d.mem) ∧
    (s.dev.ringReady (.putc p g ring ctx bnd waited) p n ctx.toNat bnd → d.putOk c n = false →
      ∃ t, exec (.putc p g ring ctx bnd waited) s = .next t ∧ waits s t p n false) ∧
    (s.dev.executes (.putr p g ring ar ctx bnd) = true → d.bndOff c ctx.toNat bnd = false → gd.slots ≠ 0 →
      ∃ t, exec (.putr p g ring ar ctx bnd) s = .next t ∧ (t.dev.core c).ring n = r.reserve gd.slots ∧
        (ar ≠ 0 → (t.dev.vol c).arup = (d.vol c).arup ++
          [(now + 1, ar.toNat, BitVec.ofNat 32 (engAddr gd.word c (gd.base + r.head * gd.size)))]) ∧
        t.dev.mem = d.mem) ∧
    (s.dev.executes (.drain p g ring ctx bnd) = true → d.bndOff c ctx.toNat bnd = false → gd.slots ≠ 0 →
      ∃ t, exec (.drain p g ring ctx bnd) s = .next t ∧
        ((t.dev.core c).tagAt (gd.tagBase + r.tail)).full = false ∧
        ((t.dev.core c).ring n).tail = (if r.tail + 1 ≥ gd.slots then 0 else r.tail + 1) ∧
        (t.dev.vol c).retry = (d.vol c).retry ++ [(now, n)] ∧ t.dev.mem = d.mem)

/-- DESC and MERGE. DESC, with room in the engine's queue and its template in the powered word plane, queues the template
(with A0 and COUNT replaced where asked) or, where R204 refuses it, raises DESC_ILLEGAL and queues nothing; with the
queue full it waits. MERGE, with no step live, starts an adaptation step of the count in bits 16 to 0 of its AR; with
one live it waits. (07_sparse_convolution R200, 07_sparse_convolution R201, 07_sparse_convolution R204,
09_embedding_tables R252, 11_core_instructions R291, 11_core_instructions R304) -/
def Obligations.DescriptorsAndMerges : Prop :=
  ∀ (s : State) (p : At) (g : Gate) (base : BitVec 5) (inc cnt : Bool) (a0src : BitVec 5) (ctx : BitVec 2) (bnd : Bool)
    (ar : BitVec 4) (waited off : Nat),
    let c := p.core.val
    let d := s.dev.brought p
    let k := d.core c
    let raw := d.planeRead c true off 32
    let b0 := if a0src = 0 then raw else patch raw 4 (toLE 4 (k.a0src a0src.toNat))
    let b := if cnt then patch b0 2 (toLE 2 (k.turn ctx.toNat).count) else b0
    let i : Instr := .desc p g base inc a0src cnt ctx bnd waited
    (s.dev.executesCheck i = true → d.bndOff c ctx.toNat bnd = false → k.descq.length < 16 → d.cw.upset = [] →
      d.planeOk c true (k.addr base.toNat 0 false) 32 off → descBad b = false → bitOf (leAt b 1 1) 2 = false →
      ∃ t, exec i s = .next t ∧ (t.dev.core c).descq = k.descq ++ [{ bytes := b }] ∧ t.dev.mem = d.mem) ∧
    (s.dev.executesCheck i = true → d.bndOff c ctx.toNat bnd = false → k.descq.length < 16 → d.cw.upset = [] →
      d.planeOk c true (k.addr base.toNat 0 false) 32 off → descBad b = true →
      ∃ t, exec i s = .next t ∧ (t.dev.core c).descq = k.descq ∧ (t.dev.rd (AG_CORE_FAULT c)).getLsbD 0 = true) ∧
    (s.dev.executesCheck i = true → d.bndOff c ctx.toNat bnd = false → 16 ≤ k.descq.length →
      ∃ t, exec i s = .next t ∧ waits s t p 32 false) ∧
    (s.dev.executesCheck (.merge p g ar waited) = true → d.adaptLive = false →
      ∃ t, exec (.merge p g ar waited) s = .next t ∧ t.dev.et.adStat = 1 ∧
        t.dev.et.adapt = some { issued := s.dev.tm.stroke, count := (k.arOf ar.toNat).toNat % 2 ^ 17 }) ∧
    (s.dev.executesCheck (.merge p g ar waited) = true → d.adaptLive = true →
      ∃ t, exec (.merge p g ar waited) s = .next t ∧ waits s t p 33 false ∧ t.dev.et.adapt = d.et.adapt)

/-- Program ends and expired waits. A crew whose program, by the spans of its bundles (with none stored, by the cycles of
the commands that stood for it: log entry 123) and the freezes so far, ends within its stroke enters the boundary
wait, which CS_WAIT counts for the rest of the stroke; one whose program holds an illegal bundle, be it all NOPs,
stops there with BUNDLE_ILLEGAL; a slot check that still fails after 64 freeze cycles no longer holds the crew,
counts and raises SLOT_UNDERRUN for a GET and SLOT_OVERRUN for a PUT, and so, with no check failing, does a PUT that
the device holds; a descriptor that has waited 64 freeze cycles raises DESC_OVERRUN. (08_crews_determinism R215,
08_crews_determinism R217, 06_scratchpads R170, 07_sparse_convolution R201, 10_program_image R273,
11_core_instructions R281) -/
def Obligations.ProgramEndsAndTimeouts : Prop :=
  ∀ (s : State) (e : CrewEnd) (real golden : Nat) (core : Fin 32) (w : Nat × Nat × Nat × Bool) (h : Nat × Nat × List Byte)
    (rest : List (Nat × Nat × List Byte)),
    let c := core.val
    let k := c / 8
    let d := s.dev
    let crew := e.crew.val
    let cr := d.crew crew
    let share := if d.prog crew = [] then real + golden
      else shareOf (d.prog crew) false + shareOf (d.prog crew) true
    let fails (w : Nat × Nat × Nat × Bool) : Bool := decide (w.1 = c) && decide (w.2.2.1 < 32) && !(d.waitOk w)
    (d.crewsRun = true → cr.waiting = false → cr.halted = false → cr.wait = [] → share + cr.frozen ≤ d.tm.len →
      e.unc = none → d.badBefore crew share = none →
      ∃ t, exec (.programEnd e real golden) s = .next t ∧ (t.dev.crew crew).waiting = true ∧
        t.dev.ctr (CS_WAIT crew) = ctrAdd (d.ctr (CS_WAIT crew)) (d.tm.len - share - cr.frozen)) ∧
    (∀ t0, d.runs (8 * crew) t0 = true → d.badBefore crew share = some t0 → e.unc = none →
      ∃ t, exec (.programEnd e real golden) s = .next t ∧ (t.dev.crew crew).halted = true ∧
        (t.dev.rd (CO_CORE_FAULT (8 * crew))).getLsbD 1 = true) ∧
    ((d.crew k).wait.find? fails = some w →
      ∃ t, exec (.slotWaitExpire core) s = .next t ∧ (∀ x ∈ (t.dev.crew k).wait, x ≠ w) ∧
        (t.dev.rd (TP_CORE_FAULT c)).getLsbD (if w.2.2.2 then 3 else 4) = true ∧
        (if w.2.2.2 then t.dev.ctr (TP_SLOT_UNDERRUN c) = ctrAdd (d.ctr (TP_SLOT_UNDERRUN c)) 1
         else t.dev.ctr (TP_SLOT_OVERRUN c) = ctrAdd (d.ctr (TP_SLOT_OVERRUN c)) 1)) ∧
    ((d.crew k).wait.find? fails = none →
      takeFirst (fun (h : Nat × Nat × List Byte) =>
        decide (h.1 = c) && d.slotFull c h.2.1 ((d.core c).ring h.2.1).head) d.cw.held = some (h, rest) →
      ∃ t, exec (.slotWaitExpire core) s = .next t ∧ t.dev.cw.held = rest ∧
        (t.dev.rd (TP_CORE_FAULT c)).getLsbD 4 = true) ∧
    ((d.crew k).wait.find? (fun w => decide (w.1 = c) && decide (w.2.2.1 = 32) && !(d.waitOk w)) = some w →
      ∃ t, exec (.descQueueTimeout core) s = .next t ∧ (∀ x ∈ (t.dev.crew k).wait, x ≠ w) ∧
        (t.dev.rd (AG_CORE_FAULT c)).getLsbD 1 = true)

/-- WINDOW, SPREAD and COPY started. With the engine at work, a descriptor of its OP at the head of the queue, and no
unscheduled access waiting at a plane: WINDOW, within the limits of R192 to R194, writes its map into the word plane,
notes ROW beside its granule group and starts the row fetches of the sites that its walk found; SPREAD starts the
writes of COUNT rows, COPY COUNT blocks of 64 bytes, cut at aligned 64-byte blocks. Each takes its descriptor off the
queue and appends one started descriptor to the core's; no byte of memory changes but WINDOW's map, beside scheduled
writes that come before the reads of the lists. (07_sparse_convolution R192, 07_sparse_convolution R193,
07_sparse_convolution R194, 07_sparse_convolution R204, 07_sparse_convolution R202) -/
def Obligations.DescriptorsStart : Prop :=
  ∀ (s : State) (c : Fin 32) (q : QDesc) (rest : List QDesc) (mx : Bool),
    let d := s.dev.taken c.val rest
    let b := q.bytes
    let count := leAt b 2 2
    let a0 := leAt b 4 4
    let p0 := leAt b 16 4
    let started (t : State) (op : Nat) (ops : List GsOp) : Prop :=
      (t.dev.core c.val).descq = rest ∧
      (t.dev.core c.val).acts = (d.core c.val).acts ++ [{ op := op, ops := ops, put := q.put }]
    s.dev.engineUp c.val = true → (s.dev.core c.val).descq = q :: rest → d.atRest →
    (∀ wo mo, leAt b 0 1 % 16 = 1 →
      let k := bits p0 0 7
      let p := 2 ^ bits p0 9 2
      let f := bits p0 11 4
      let nr := bits (leAt b 20 4) 0 13
      let sh := d.listShape (bits p0 7 2) (leAt b 1 1 % 4) k
      let words := sh.1 * count
      let wk := winWalk (wordsOf (d.engSees a0 (4 * words)) words) (bits p0 7 2) sh k p count
      localOff false (leAt b 12 4) = some wo → localOff true (leAt b 8 4) = some mo → (mx = true → p ≠ 8) →
      windowFits (wo / 1024) nr (d.fmapRow f) p k count a0 mo sh.1 = true →
      d.engOn a0 (4 * words) = true →
      (∀ x ∈ wk.tags, d.fmapFits f x.1 = true) → d.writeOk c.val true mo (2 * (count * k)) → wk.tags ≠ [] →
      ∃ t, exec (.window { core := c, mx := mx }) s = .next t ∧
        started t 1 (wk.tags.flatMap (fun x => d.rowOps f p (wo / 1024) nr (wo % 1024 / 128) x)) ∧
        smGet (fun _ => 0) (t.dev.core c.val).rowOf (8 * (wo / 1024) + wo % 1024 / 128) = d.fmapRow f ∧
        t.dev.mem = memWrite ((d.engTurn a0).syncNow c.val).mem (planeAt true c.val mo) (wk.map.flatMap (toLE 2))) ∧
    (∀ a1, leAt b 0 1 % 16 = 2 →
      let f := bits p0 0 4
      let row := d.fmapRow f
      let stride := 16 * bits p0 16 12
      let site (i : Nat) : Nat := bits (leAt (d.engSees a0 (4 * count)) (4 * i) 4) 0 23
      0 < count → count ≤ 128 → localAddr c.val (leAt b 8 4) = some a1 → engSpan a0 (4 * count) = true →
      d.engOn a0 (4 * count) = true → engSpan a1 (stride * (count - 1) + row) = true → (∀ i < count, d.fmapFits f (site i) = true) →
      ∃ t, exec (.spread c) s = .next t ∧ t.dev.mem = (d.engTurn a0).mem ∧
        started t 2 ((List.range count).flatMap (fun i => (cut64 40 (a1 + stride * i) (d.fmapAt f (site i)) row).map (fun x =>
          { src := x.1, dst := x.2.1, len := x.2.2, credit := d.creditFor c.val x.2.1 x.2.2 })))) ∧
    (leAt b 0 1 % 16 = 4 →
      let a1 := leAt b 8 4
      0 < count → engSpan a0 (64 * count) = true → engSpan a1 (64 * count) = true →
      ∃ t, exec (.copy c) s = .next t ∧ t.dev.mem = d.mem ∧
        started t 4 ((List.range count).flatMap (fun i => (cut64 4 (a0 + 64 * i) (a1 + 64 * i) 64).map (fun x =>
          { src := x.1, dst := x.2.1, len := x.2.2
            credit := if engLocal c.val a1 then none else some (bits p0 0 4, bitOf p0 4) }))))

/-- SCATTER_BEV started. On one chip, a SCATTER_BEV descriptor of a sector that is no golden sector starts one
cell-memory add per entry: to the world cell that the projection of R206 gives the site's key under the pose of V +
1, of the four lanes of the entry's row, due at V + DEPTH. (The sweep beside the header, and the rows, keys and words
being read as the descriptor starts, are the model's choices: log entries 32 and 75.) (07_sparse_convolution R205,
07_sparse_convolution R206, 07_sparse_convolution R207) -/
def Obligations.ScatterStarts : Prop :=
  ∀ (s : State) (c : Fin 32) (q : QDesc) (rest : List QDesc) (h : List Byte) (a2 : Nat),
    let d := s.dev.taken c.val rest
    let b := q.bytes
    let count := leAt b 2 2
    let l := leAt b 1 1 % 4
    let stride := 16 * bits (leAt b 16 4) 0 12
    let v : Stroke := BitVec.ofNat 48 (leAt h 0 6)
    let site (i : Nat) : Nat := bits (leAt (d.engSees (leAt b 8 4) (4 * count)) (4 * i) 4) 0 23
    s.dev.engineUp c.val = true → (s.dev.core c.val).descq = q :: rest → leAt b 0 1 % 16 = 3 →
    0 < count → count ≤ 16384 → d.calm → engSpan (leAt b 4 4) 32 = true → engSpan (leAt b 8 4) (4 * count) = true →
    d.engSees (leAt b 4 4) 32 = h → d.engOn (leAt b 4 4) 32 = true → d.engOn (leAt b 8 4) (4 * count) = true →
    (∀ i, i < count → d.engOn (a2 + stride * i) 16 = true ∧ (d.siteKey false l (site i)).2.1 = true) →
    localAddr c.val (leAt b 12 4) = some a2 → engSpan a2 (stride * (count - 1) + 16) = true →
    bitOf (leAt h 12 1) 6 = false → d.rl.countM1 = 0 →
    ∃ t, exec (.scatterBev c) s = .next t ∧ (t.dev.core c.val).descq = rest ∧ t.dev.mem = d.mem ∧
      ∃ ops, (t.dev.core c.val).acts = (d.core c.val).acts ++ [{ op := 3, ops := ops, put := q.put }] ∧
        ops.length = count ∧
        ∀ i, i < count → ∃ a, ops[i]? = some { add := some a } ∧
          (a.gx, a.gy) = d.project (d.siteKey false l (site i)).1 l (d.poseAt (sAdd v 1)) ∧
          a.at_ = sAdd v (d.rf AG_BEV_CFG 0 9) ∧
          [a.v0, a.v1, a.v2, a.v3] = (List.range 4).map (fun n => BitVec.ofNat 32 (leAt (d.engSees (a2 + stride * i) 16) (4 * n) 4))

/-- Operations issued, completed and paid for. GS_OP_ISSUE sends the first write whose credit has come and takes its
credit; else it issues the first operation not yet issued while fewer than 512 are outstanding; the clocks that have
passed with 512 outstanding are counted, and an issue that a hardware fault forces beyond them raises OPS_BOUND.
GS_OP_COMPLETE of the last operation of a descriptor with PUT marks its ring slot FULL. CREDIT_RETURN gives back a
credit of a write that its owner has applied, and above the grant raises CREDIT_OVERFLOW. BEV_ADD_ARRIVE puts an add
into the scatter buffer, or discards it as late; one whose CRC fails does not execute. (07_sparse_convolution R202,
06_scratchpads R174, 06_scratchpads R169, 07_sparse_convolution R200, 07_sparse_convolution R207) -/
def Obligations.EngineOperations : Prop :=
  ∀ (s : State) (c : Fin 32) (q : OpIssue) (i : Nat) (o : GsOp) (dst : Fin 33) (entry : Fin 16) (net : NetErr),
    let d := s.dev
    let k := d.core c.val
    let key := 16 * dst.val + entry.val
    let used (x : Dev) (key : Nat) : Nat := smGet (fun _ => 0) (x.vol c.val).cred key
    let owed (x : Dev) (key : Nat) : Nat := smGet (fun _ => 0) (x.vol c.val).owed key
    d.engineUp c.val = true →
    (∀ e, (q.forced = true → k.outstanding < 512) → k.opList.findIdx (fun o => d.mayPay c.val o) = i → k.opList[i]? = some o → o.credit = some e →
      d.grantOf (credKey o.dst e) ≠ 0 →
      ∃ t, exec (.gsOpIssue c q) s = .next t ∧ opBecomes k (t.dev.core c.val) i { o with stage := .writeNet } ∧
        used t.dev (credKey o.dst e) = used d (credKey o.dst e) + 1 ∧
        t.dev.ctr (WP_REMOTE_WR c.val) = ctrAdd (d.ctr (WP_REMOTE_WR c.val)) 1 ∧ t.dev.mem = d.mem) ∧
    ((∀ x ∈ k.opList, d.mayPay c.val x = false) → k.opList.findIdx (fun o => decide (o.stage = .idle)) = i →
      k.opList[i]? = some o → o.add = none → k.outstanding < 512 →
      ∃ t, exec (.gsOpIssue c q) s = .next t ∧
        opBecomes k (t.dev.core c.val) i (if engLocal c.val o.src then
            { o with stage := .readPlane, since := d.cw.arrivals, promoted := false }
          else { o with stage := .readNet }) ∧
        t.dev.ctr (AG_OPS c.val) = ctrAdd (d.ctr (AG_OPS c.val)) 1 ∧ t.dev.mem = d.mem) ∧
    (q.forced = false → (∀ x ∈ k.opList, d.mayPay c.val x = false) → 512 ≤ k.outstanding →
      ∃ t, exec (.gsOpIssue c q) s = .next t ∧ t.dev.cw = d.cw ∧
        t.dev.ctr (AG_OPS_FULL c.val) = ctrAdd (d.ctr (AG_OPS_FULL c.val)) q.clocks) ∧
    (q.forced = true → 512 ≤ k.outstanding →
      ∃ t, exec (.gsOpIssue c q) s = .next t ∧ t.dev.cw = d.cw ∧ (t.dev.rd (AG_CORE_FAULT c.val)).getLsbD 2 = true) ∧
    (∀ acts r sl e, k.opList[i]? = some o → o.stage = .done → opsDone k.acts i = (acts, true, some (r, sl, e)) →
      d.slotFull c.val r sl = false →
      ∃ t, exec (.gsOpComplete c i) s = .next t ∧ (t.dev.core c.val).acts = acts ∧
        t.dev.slotFull c.val r sl = true ∧
        t.dev.ctr (AG_DESC_DONE c.val) = ctrAdd (d.ctr (AG_DESC_DONE c.val)) 1 ∧ t.dev.mem = d.mem) ∧
    (0 < used d key → 0 < owed d key →
      ∃ t, exec (.creditReturn c dst entry) s = .next t ∧ used t.dev key = used d key - 1 ∧
        owed t.dev key = owed d key - 1 ∧ t.dev.cw.cores = d.cw.cores) ∧
    (used d key = 0 →
      ∃ t, exec (.creditReturn c dst entry) s = .next t ∧ t.dev.cw = d.cw ∧
        (t.dev.rd (TP_CORE_FAULT c.val)).getLsbD 6 = true) ∧
    (∀ a, k.opList[i]? = some o → o.add = some a → o.stage = .writeNet →
      (net.bad = false → sOlder a.at_ d.tm.stroke = false →
        ∃ t, exec (.bevAddArrive c i net) s = .next t ∧ t.dev.cm = { d.cm with adds := d.cm.adds ++ [a] } ∧
          opBecomes k (t.dev.core c.val) i { o with stage := .done }) ∧
      (net.bad = false → sOlder a.at_ d.tm.stroke = true →
        ∃ t, exec (.bevAddArrive c i net) s = .next t ∧ t.dev.cm = d.cm ∧
          t.dev.ctr AG_BEV_LATE = ctrAdd (d.ctr AG_BEV_LATE) 1 ∧
          (t.dev.rd (AG_CORE_FAULT c.val)).getLsbD 4 = true) ∧
      (net.bad = true →
        ∃ t, exec (.bevAddArrive c i net) s = .next t ∧ t.dev.cm = d.cm ∧
          opBecomes k (t.dev.core c.val) i { o with stage := .done } ∧
          t.dev.ctr FLT_NOC_CRC = ctrAdd (d.ctr FLT_NOC_CRC) 1))

/-- Unscheduled and remote accesses. An operation that comes first at its banks: without an error, UNSCHEDULED_ACCESS
reads its bytes from its plane, or writes exactly its bytes there, whole or by granules, and no others;
ACCESS_PROMOTE promotes a waiting access and counts the banks that it takes. REMOTE_ACCESS_ARRIVE lets an admitted
write wait at its plane or applies it to staging, stops one that no credit region admits with CREDIT_REGION at its
owner, and drops a transfer whose CRC fails. (06_scratchpads R159, 06_scratchpads R160, 06_scratchpads R161,
06_scratchpads R162, 06_scratchpads R166, 06_scratchpads R167, 06_scratchpads R172, 06_scratchpads R174,
13_integrity_recovery R347) -/
def Obligations.PlaneAccesses : Prop :=
  ∀ (s : State) (c : Fin 32) (i k off len : Nat) (word : Bool) (o : GsOp) (net : NetErr) (ecc : Ecc),
    let d := s.dev
    let ops (x : Dev) : CoreChk := x.core c.val
    let freezes (t : State) (k : Nat) (len : Nat) : Prop :=
      let taken := (d.vol k).occAt (d.absCyc k (d.crew (k / 8)).pos) word
      let n := ((spanBanks word off len).filter (fun b => taken.contains b)).eraseDups.length
      let ctr := if word then WP_PROMOTE_FREEZE k else TP_PROMOTE_FREEZE k
      t.dev.ctr ctr = ctrAdd (d.ctr ctr) n ∧ t.dev.mem = d.mem
    d.engineUp c.val = true →
    (off + len ≤ planeSize word → ∃ t, exec (.accessPromote c (.other word off len)) s = .next t ∧ freezes t c.val len) ∧
    ((ops d).opList[i]? = some o →
      (let e := d.syncNow k
       d.servedNow c.val i o = true → o.stage = .readPlane → planeOf c.val o.src = some (k, word, off) →
       off + o.len ≤ planeSize word → e.poweredAll k word off o.len = true →
       ∃ t, exec (.unscheduledAccess c i {}) s = .next t ∧ t.dev.mem = e.mem ∧
         opBecomes (ops d) (ops t.dev) i
           { o with data := e.planeRead k word off o.len, promoted := false, stage := writeStage c.val o
                    since := if writeStage c.val o = .writePlane then d.cw.arrivals else o.since }) ∧
      (let ws := opWrites c.val o
       let e := ws.foldl (fun (e : Dev) w => e.syncNow w.1) d
       d.servedNow c.val i o = true → o.stage = .writePlane → d.putHeld c.val i = false →
       (∀ w ∈ ws, e.writeOk w.1 w.2.1 w.2.2.1 w.2.2.2.length) →
       ∃ t, exec (.unscheduledAccess c i {}) s = .next t ∧ opBecomes (ops d) (ops t.dev) i { o with stage := .done } ∧
         t.dev.mem = ws.foldl (fun m w => memWrite m (planeAt w.2.1 w.1 w.2.2.1) w.2.2.2) e.mem) ∧
      (o.stage = .readPlane → o.promoted = false → planeOf c.val o.src = some (k, word, off) →
       ∃ t, exec (.accessPromote c (.op i)) s = .next t ∧ opBecomes (ops d) (ops t.dev) i { o with promoted := true } ∧
         freezes t k o.len) ∧
      (net.bad = false → o.stage = .writeNet → o.add = none → d.regionOk o = true → (∀ x, engDec o.dst ≠ some (2, 0, x)) →
       ∃ t, exec (.remoteAccessArrive c i net ecc) s = .next t ∧
         opBecomes (ops d) (ops t.dev) i
           { o with stage := .writePlane, since := d.cw.arrivals, promoted := false } ∧ t.dev.mem = d.mem) ∧
      (net.bad = false → o.stage = .writeNet → o.add = none → d.regionOk o = true → engDec o.dst = some (2, 0, off) →
       d.putHeld c.val i = false → 0x6000000 ≤ off → d.commonsOn off = true → ecc.unc = none →
       ∃ t, exec (.remoteAccessArrive c i net ecc) s = .next t ∧
         opBecomes (ops d) (ops t.dev) i { o with stage := .done } ∧
         t.dev.mem = memWrite d.mem (commonsAt off) o.data) ∧
      (∀ sp, net.bad = false → o.stage = .writeNet → o.add = none → d.regionOk o = false →
       engDec o.dst = some (sp, k, off) → sp ≠ 2 →
       ∃ t, exec (.remoteAccessArrive c i net ecc) s = .next t ∧
         opBecomes (ops d) (ops t.dev) i { o with stage := .done } ∧ t.dev.mem = d.mem ∧
         (t.dev.rd (TP_CORE_FAULT k)).getLsbD 7 = true) ∧
      (net.bad = true → o.stage = .readNet ∨ (o.stage = .writeNet ∧ o.add = none) →
       ∃ t, exec (.remoteAccessArrive c i net ecc) s = .next t ∧
         opBecomes (ops d) (ops t.dev) i { o with stage := .done } ∧ t.dev.mem = d.mem ∧
         t.dev.ctr FLT_NOC_CRC = ctrAdd (d.ctr FLT_NOC_CRC) 1))

/-- The patrol scrub of a plane. PLANE_SCRUB reads the entry at its position in every bank, past unpowered segments, and
moves on; its corrections are counted in TP_SCRUB_CORR for the tile plane and in WP CORR for the word plane; with no
unscheduled access waiting, and beside scheduled writes of earlier cycles, no byte of memory changes without an
uncorrectable error, and a granule or word that it cannot correct, in a segment that no image section loaded, is
rewritten as zero and raises UNCORR. (06_scratchpads R166, 06_scratchpads R167, 06_scratchpads R179) -/
def Obligations.PatrolScrub : Prop :=
  ∀ (s : State) (crew : Fin 4) (core : Fin 8) (word : Bool) (corr : List Nat) (e p : Nat),
    let d := s.dev
    let c := 8 * crew.val + core.val
    let v := d.vol c
    let u := eccUnit word
    let off := scrubOff word e p / u * u
    let ctr := if word then WP_CORR c else TP_SCRUB_CORR c
    let moved (t : State) : Prop :=
      (if word then (t.dev.vol c).scrubW else (t.dev.vol c).scrubT) = (e + 1) % (8 * segEntries word) ∧
      t.dev.ctr ctr = ctrAdd (d.ctr ctr) corr.length
    let e' := d.syncNow c
    d.live = true → d.atRest → d.scrubAt c word (if word then v.scrubW else v.scrubT) = some e →
    (∃ t, exec (.planeScrub crew core word corr []) s = .next t ∧ moved t ∧ t.dev.mem = e'.mem) ∧
    (d.segLoaded c word off = false → d.jrnlBlocks c word off u = [] →
      ∃ t, exec (.planeScrub crew core word corr [p]) s = .next t ∧ moved t ∧
        (t.dev.rd (TP_CORE_FAULT c)).getLsbD 0 = true ∧
        t.dev.mem = memWrite e'.mem (planeAt word c off) (zeros u))

/-- Frames and packets received. A frame that finds no room in the receive buffer, fails its FCS, or is of no supported
form changes one counter, no stream and of the intake only its buffer; a time-synchronisation frame is kept for the
time base with the time of its capture; a stream packet, from a MAC (tagged or not) or a CSI-2 receiver, goes to the
lowest-numbered stream whose binding matches it: in order it is taken, with its count, its expected index and its
sweep; a CSI-2 packet with a bad header or CRC is counted in UNBOUND. How much a buffer still holds is the model's
operand (log entry 107). (02_intake R38, 02_intake R39, 02_intake R40, 02_intake R42, 02_intake R49, 02_intake R51) -/
def Obligations.FramesAndPackets : Prop :=
  ∀ (s : State) (mac : Fin 16) (rx : Fin 8) (vc : BitVec 2) (dt : BitVec 6) (frame b : List Byte) (left raw n : Nat),
    let d := s.dev
    let up (t : State) (a : Nat) (e : Dev) : Prop :=
      t.dev.ctr a = ctrAdd (d.ctr a) 1 ∧ t.dev.ig = e.ig ∧ t.dev.gb = d.gb ∧ t.dev.tm.rxq = d.tm.rxq
    let ef := d.bufKeep mac.val left (frame.length + 4)
    let ec := d.bufKeep (16 + rx.val) left (b.length + 6)
    let route := frameRoute (d.rd (IG_MAC_CFG mac.val)) frame
    (∀ ok, d.bufFull mac.val left (frame.length + 4) = true →
      ∃ t, exec (.ethFrameRx mac frame ok left raw) s = .next t ∧ up t (IG_MAC_BUF_DROP mac.val) (d.bufKeep mac.val left 0)) ∧
    (d.bufFull mac.val left (frame.length + 4) = false →
      (∃ t, exec (.ethFrameRx mac frame false left raw) s = .next t ∧ up t (IG_MAC_FCS_ERR mac.val) ef) ∧
      (route = .drop → ∃ t, exec (.ethFrameRx mac frame true left raw) s = .next t ∧ up t (IG_MAC_UNBOUND mac.val) ef) ∧
      (route = .ptp b →
        ∃ t, exec (.ethFrameRx mac frame true left raw) s = .next t ∧ t.dev.ig = ef.ig ∧
          t.dev.tm.rxq = d.tm.rxq ++
            [(mac.val, b, d.rxRaw mac.val raw, fdiv (d.corrected (d.rxRaw mac.val raw)) (2 ^ 16))]) ∧
      (route = .stream b → d.pktInOrder n b →
        (List.range 48).find? (fun n => d.ethMatch mac.val (beAt frame 6 6) (leAt b 4 1) n) = some n →
        ∃ t, exec (.ethFrameRx mac frame true left raw) s = .next t ∧ pktTaken d t.dev n b)) ∧
    (∀ hd ok, d.bufFull (16 + rx.val) left (b.length + 6) = true →
      ∃ t, exec (.csi2PacketRx rx vc dt b hd ok left raw) s = .next t ∧
        up t (IG_CSI_BUF_DROP rx.val) (d.bufKeep (16 + rx.val) left 0)) ∧
    (d.bufFull (16 + rx.val) left (b.length + 6) = false →
      (0x10 ≤ dt.toNat → d.pktInOrder n b →
        (List.range 48).find? (fun n => d.csiMatch rx.val vc.toNat dt.toNat (leAt b 4 1) n) = some n →
        ∃ t, exec (.csi2PacketRx rx vc dt b true true left raw) s = .next t ∧ pktTaken d t.dev n b) ∧
      (∃ t, exec (.csi2PacketRx rx vc dt b false true left raw) s = .next t ∧ up t (IG_CSI_UNBOUND rx.val) ec) ∧
      (0x10 ≤ dt.toNat →
        ∃ t, exec (.csi2PacketRx rx vc dt b true false left raw) s = .next t ∧ up t (IG_CSI_UNBOUND rx.val) ec) ∧
      (dt.toNat < 0x10 → ∃ t, exec (.csi2PacketRx rx vc dt b true false left raw) s = .next t ∧ t.dev = ec))

/-- Sector timeouts and speculative inserts. SECTOR_TIMEOUT of an open sector 16 × TIMEOUT strokes after its stream's
last packet fails it with its cost so far and reason TIMEOUT. With no error in the commons, SPECULATIVE_INSERT takes
the next point of the scene in order, or else of the golden sector: out of the region of interest it is counted in
PT_RANGE (of the scene); a key that the sector holds already changes no entry of the hash; a key that is new to it
raises PEND of its PENDING entry, or places one, and the sector holds the key; without a place for it the sector is
doomed. (02_intake R54, 03_sparse_grid R76, 03_sparse_grid R77, 03_sparse_grid R78, 03_sparse_grid R79,
03_sparse_grid R69) -/
def Obligations.PointsAndTimeouts : Prop :=
  ∀ (s : State) (n : Fin 48) (o : OpenSec) (g : GPoint) (r : List GPoint) (gold : Bool) (k h : Nat)
    (sub : Nat × Nat × Nat) (x : HEnt) (tab : SMap (Option HEnt)) (st : PlaceStat),
    let d := s.dev
    let sm := d.strm n.val
    let id := g.sec
    let sec := d.gsec id
    let c := d.cfgFor gold
    let due := 16 * d.rf (IG_STREAM_SECTOR n.val) 24 8
    let took : GridSt := if gold then { d.gb with gold := r, goldTaken := d.gb.goldTaken + 1 }
      else { d.gb with inq := r, taken := d.gb.taken + 1 }
    let offered : GSec := { sec with offered := sec.offered + 1 }
    let holds : GSec := { offered with keys := insKey k sec.keys, pts := sec.pts ++ [(k, sub, g.pt)] }
    (sm.sec = some o → sm.dead ≠ some o.k → d.live = true → 0 < due → due ≤ sDiff d.tm.stroke sm.lastAcc →
      ∃ t, exec (.sectorTimeout n) s = .next t ∧ (t.dev.strm n.val) = { sm with sec := none, dead := some o.k } ∧
        t.dev.ig.verd = d.ig.verd ++
          [{ stream := n.val, sweep := sm.w, sector := o.k, reason := .timeout, cost := o.cost, near := o.near,
             last := o.ret.getD d.tm.stroke, leadIn := d.leadInAt (o.ret.getD d.tm.stroke), fwd := o.fwd }]) ∧
    (d.inqOf gold = g :: r → decide (g.pt.stream = goldStream) = gold → d.vqOf gold = [] → d.accel = true →
      d.gb.stuck = false → d.gb.upset = [] → (if gold then d.gb.goldTaken else d.gb.taken) < 64 →
      sOlder g.r d.tm.stroke = true →
      (gold = true → d.gb.inq = []) →
      (d.voxelise g.pt = none →
        ∃ t, exec .speculativeInsert s = .next t ∧ t.dev.gb = took ∧
          t.dev.ctr GB_PT_RANGE = (if gold then d.ctr GB_PT_RANGE else ctrAdd (d.ctr GB_PT_RANGE) 1)) ∧
      (d.voxelise g.pt = some (k, sub) → sec.gone = false → sec.doomed = false → sec.late = false →
        (sec.keys.contains k = true →
          ∃ t, exec .speculativeInsert s = .next t ∧ t.dev.inqOf gold = r ∧ t.dev.tabOf gold = d.tabOf gold ∧
            t.dev.gsec id = { offered with pts := sec.pts ++ [(k, sub, g.pt)] }) ∧
        (sec.keys.contains k = false → c.pendingOf (d.tabOf gold) k = some h → entAt (d.tabOf gold) h = some x →
          x.pend < 1023 →
          ∃ t, exec .speculativeInsert s = .next t ∧ t.dev.inqOf gold = r ∧ t.dev.gsec id = holds ∧
            entAt (t.dev.tabOf gold) h = some { x with pend := x.pend + 1 } ∧
            ∀ e, e ≠ h → entAt (t.dev.tabOf gold) e = entAt (d.tabOf gold) e) ∧
        (∀ a, sec.keys.contains k = false → c.pendingOf (d.tabOf gold) k = none →
          c.place [] { key := k, fn := 0, ftag := 0, live := false, pend := 1 } (d.tabOf gold) = (tab, a, st) →
          ∃ t, exec .speculativeInsert s = .next t ∧ t.dev.inqOf gold = r ∧ t.dev.tabOf gold = tab ∧
            t.dev.gsec id = if a.isSome then holds else { offered with doomed := true })))

/-- Verdict operations, level merges and the hash scrub. With no error in the commons: the verdict operation of a scene
sector of the frame in progress: not accepted, its holds are released and it counts as a rollback; accepted within
the fill limit of its priority and with targets found, it commits, with its points and new sites counted in its frame
and one commit for the level merger; above the limit it is dropped and counted; accepted without held keys it only
counts. LEVEL_MERGE takes the next commit and leaves its lists in staging. HASH_SCRUB_STEP sets USED to 0 in the LIVE
entries of the retired tag among the handles that it visits, and changes no other entry. (03_sparse_grid R80,
03_sparse_grid R81, 03_sparse_grid R82, 03_sparse_grid R89, 03_sparse_grid R91, 07_sparse_convolution R189,
07_sparse_convolution R191) -/
def Obligations.VerdictsMergesScrubs : Prop :=
  ∀ (s : State) (v : GVerd) (r : List GVerd) (c : Commit) (cs : List Commit) (handles tag at_ : Nat),
    let d := s.dev
    let sec := d.gsec v.id
    let tg := v.frame.toNat % 4
    let new := sec.keys.filter (fun k => (d.hashCfg.liveOf d.gb.tab k tg).isNone)
    let lim := d.rf (GB_FILL_LIMIT v.prio) 0 23
    let counted : FrameCnt := { d.gb.cur with offered := d.gb.cur.offered + sec.offered }
    (d.vqOf false = v :: r → d.gb.inq = [] → d.accel = true → d.planesFree = true → d.gb.stuck = false → sOlder v.v d.tm.stroke = true →
      v.frame = d.tm.frame → v.leadIn = false → sec.gone = false → sec.late = false → d.gb.upset = [] →
      (v.what ≠ 2 →
        ∃ t, exec .verdictOperation s = .next t ∧ t.dev.gb.vq = d.gb.vq.erase v ∧ t.dev.gb.commits = d.gb.commits ∧
          t.dev.ctr GB_SECT_ROLLBACK = ctrAdd (d.ctr GB_SECT_ROLLBACK) 1 ∧ t.dev.gb.cur = counted ∧
          (∀ x ∈ t.dev.gb.secs, x.id ≠ v.id) ∧
          t.dev.gb.tab = (sec.keys.foldl (fun (d : Dev) k => d.unhold false k) d).gb.tab) ∧
      (v.what = 2 → sec.doomed = false → sec.keys = [] →
        ∃ t, exec .verdictOperation s = .next t ∧ t.dev.gb.vq = d.gb.vq.erase v ∧ t.dev.gb.commits = d.gb.commits ∧
          t.dev.ctr GB_SECT_COMMIT = ctrAdd (d.ctr GB_SECT_COMMIT) 1 ∧ t.dev.gb.cur = counted ∧
          t.dev.gb.empties = d.gb.empties ++ [v]) ∧
      (v.what = 2 → sec.doomed = false → sec.keys ≠ [] → lim < d.gb.cur.sites + new.length →
        ∃ t, exec .verdictOperation s = .next t ∧ t.dev.gb.vq = d.gb.vq.erase v ∧ t.dev.gb.commits = d.gb.commits ∧
          t.dev.ctr GB_SECT_DROP = ctrAdd (d.ctr GB_SECT_DROP) 1 ∧
          t.dev.ctr GB_RET_DROP = ctrAdd (d.ctr GB_RET_DROP) v.cost ∧
          t.dev.gb.cur = { counted with drop := d.gb.cur.drop + 1 }) ∧
      (∀ tab targets st, v.what = 2 → sec.doomed = false → sec.keys ≠ [] → d.gb.cur.sites + new.length ≤ lim →
        commitTargets d.hashCfg tg new d.gb.tab [] {} = (tab, some targets, st) →
        ∃ t, exec .verdictOperation s = .next t ∧ t.dev.gb.vq = d.gb.vq.erase v ∧
          t.dev.ctr GB_SECT_COMMIT = ctrAdd (d.ctr GB_SECT_COMMIT) 1 ∧
          t.dev.gb.cur = { counted with sites := d.gb.cur.sites + new.length
                                        merged := d.gb.cur.merged + sec.pts.length, ord := d.gb.cur.ord + 1 } ∧
          ∃ x, t.dev.gb.commits = d.gb.commits ++ [x] ∧ x.id = v.id ∧ x.frame = v.frame ∧ x.ord = d.gb.cur.ord ∧
            x.v = v.v ∧ x.merged = sec.pts.length ∧ ∀ y ∈ x.sites, y.key ∈ sec.keys)) ∧
    (d.gb.commits = c :: cs → d.accel = true → d.planesFree = true → d.gb.stuck = false → d.gb.upset = [] →
      let gold := decide (c.id.stream = goldStream)
      let e : Dev := { d with gb := { d.gb with commits := cs } }
      let m := e.allLevels gold c.frame e.levels 1 c.sites
      let bytes := sectorLists c m.2
      let units := m.1.rf AG_WSET_AREA 0 20 + m.1.areaFor bytes.length
      ∃ t, exec .levelMerge s = .next t ∧ t.dev.gb.commits = cs ∧
        t.dev.ag.area = m.1.areaFor bytes.length + bytes.length / 16 ∧
        (t.dev.ag.sent.head?).map (fun h => (h.id, h.frame, h.ord)) = some (c.id, c.frame, c.ord) ∧
        memRead t.dev.mem (stagingAt (16 * units)) bytes.length = bytes) ∧
    (d.gb.scrub = some (tag, at_) → d.accel = true → d.gb.stuck = false → d.gb.upset = [] →
      let stop := min (4 * 2 ^ d.rf GB_HASH_CFG 0 5 + 4096) (at_ + max handles 1024)
      ∃ t, exec (.hashScrubStep handles) s = .next t ∧
        (∀ h, entAt t.dev.gb.tab h = (entAt d.gb.tab h).map (fun x =>
          if at_ ≤ h ∧ h < stop ∧ x.used = true ∧ x.live = true ∧ x.ftag = tag then x.release else x)) ∧
        t.dev.gb.scrub = if stop = 4 * 2 ^ d.rf GB_HASH_CFG 0 5 + 4096 then none else some (tag, stop))

/-- Strokes, frames and the entry to the operational state. STROKE_BOUNDARY of an operational device opens the stroke of
the next number where the one before ends, and the device stays operational, unless it enters maintenance mode: then
it is no longer operational, with SAFE_OK low and without edges. ENTER_OPERATIONAL of a device that may enter opens
the stroke whose number is the microsecond of corrected time, at its raw time. FRAME_BOUNDARY of a frame that is due
begins it: number, first stroke, counts, site sets, golden region, with the counts of the frame before in the LAST
registers. FRAME_RETIRE of a retirement that is due ends the previous frame and starts the scrub. (01_sweep_to_stroke
R19, 01_sweep_to_stroke R21, 01_sweep_to_stroke R25, 14_time_base R373, 16_host_pcie R415, 03_sparse_grid R91) -/
def Obligations.BoundariesAndEntry : Prop :=
  ∀ (s : State) (heads : Option (List (Word64 × Word64))) (what : BoundaryIn),
    let d := s.dev
    (d.pm.held = false → d.hi.maint = false → d.tm.op = true →
      ∃ t, exec (.strokeBoundary heads what) s = .next t ∧
        (t.dev.hi.maint = false → t.dev.tm.op = true ∧ t.dev.tm.stroke = d.tm.stroke + 1 ∧
          t.dev.tm.openRaw = d.tm.openRaw + d.tm.len) ∧
        (t.dev.hi.maint = true → t.dev.tm.op = false ∧ t.dev.si.pin = false ∧ t.dev.si.running = false)) ∧
    (let e := d.entryClock
     let st : Stroke := BitVec.ofInt 48 e.2
     d.mayEnter st = true → (d.sessionStart st).1 = true →
      ∃ t, exec .enterOperational s = .next t ∧ t.dev.tm.op = true ∧ t.dev.tm.openRaw = e.1 ∧
        t.dev.tm.stroke = (d.sessionStart st).2.1 ∧ t.dev.pm = d.pm) ∧
    (d.tm.op = true → d.tm.frameDue = true →
      ∃ t, exec .frameBoundary s = .next t ∧ t.dev.tm.frameDue = false ∧ t.dev.tm.framed = true ∧
        t.dev.tm.frame = (if d.tm.framed then d.tm.frame + 1 else 0) ∧ t.dev.tm.frameAt = d.tm.stroke ∧
        t.dev.tm.tf = d.nsAt d.tm.openRaw ∧ t.dev.gb.cur = {} ∧ t.dev.gb.prev = d.gb.cur ∧
        t.dev.gb.prevLive = d.tm.framed ∧ t.dev.gb.siteCur = [] ∧ t.dev.gb.sitePrev = d.gb.siteCur ∧
        t.dev.gb.siteGold = [] ∧ t.dev.gb.siteGoldPrev = d.gb.siteGold ∧ (t.dev.rd GB_SITES).toNat = 0 ∧
        (d.tm.framed = true → (t.dev.rd GB_COV_LAST_OFFERED).toNat = d.gb.cur.offered % 2 ^ 32) ∧ t.dev.ig.used = 0 ∧ t.dev.cm.gold = [] ∧ t.dev.mem = d.mem) ∧
    (d.tm.retireDue = true →
      ∃ t, exec .frameRetire s = .next t ∧ t.dev.tm.retireDue = false ∧
        t.dev.gb = { d.gb with prevLive := false, sitePrev := [], siteGoldPrev := []
                               scrub := some ((d.tm.frame - 1).toNat % 4, 0) } ∧
        t.dev.rd GB_SITES_PREV = 0 ∧ (t.dev.rd GB_COV_LAST_OFFERED).toNat = d.gb.prev.offered % 2 ^ 32)

/-- Roll steps, reload blocks and poses. ROLL_STEP_COMPLETE, 16 strokes after the step began and with its rows served,
moves the origin by one cell along its axis and leaves every cell of the entering column or row without accumulated
state, with the prior row of its place. RELOAD_BLOCK_COMPLETE replaces PRIOR and its flags in the 1,024 slots of its
block, keeps the rest of their contexts, and goes on to the next block or ends. POSE_COMMIT holds the pose registers
for the next boundary. (04_cell_memory R103, 04_cell_memory R111, 04_cell_memory R112, 04_cell_memory R113) -/
def Obligations.RollsReloadsPoses : Prop :=
  ∀ (s : State) (bad : List Nat) (r : RollStep) (next n : Nat) (began : Stroke) (q : Int × Int),
    let d := s.dev
    let now := d.tm.stroke
    (d.cm.roll = some r → d.cellsUp = true → 16 ≤ sDiff now r.began → d.xs.served r.reqs.1 r.reqs.2 = true → n < 1024 →
      let k : Int := if r.up then 1 else -1
      let cell := rollCell d.cm.ox d.cm.oy r n
      let p := d.priorRow r.ver r.began r.px r.py cell.1 cell.2 (bad.contains n)
      ∃ t, exec (.rollStepComplete { bad := bad }) s = .next t ∧
        t.dev.cm.ox = (if r.axisX then d.cm.ox + k else d.cm.ox) ∧
        t.dev.cm.oy = (if r.axisX then d.cm.oy else d.cm.oy + k) ∧
        t.dev.ctr CM_CTR_ROLL_STEP = ctrAdd (d.ctr CM_CTR_ROLL_STEP) 1 ∧
        t.dev.cm.ctx (slotOf cell.1 cell.2) = { prior := p.1, prDef := p.2.1, prGen := d.cm.gen3 }) ∧
    (∀ v rq, d.cm.held = none → d.et.refused = [] →
      d.cm.reload = some { next := next, flight := some (began, v, q.1, q.2), reqs := rq } → d.xs.served rq.1 rq.2 = true →
      d.cellsUp = true → 16 ≤ sDiff now began → n < 1024 →
      let slot := (blockSlots next).getD n 0
      let cell := d.cellOfSlot slot
      let p := d.priorRow v began q.1 q.2 cell.1 cell.2 (bad.contains n)
      ∃ t, exec (.reloadBlockComplete { bad := bad }) s = .next t ∧
        t.dev.cm.ctx slot = { d.cm.ctx slot with prior := p.1, prDef := p.2.1, prGen := d.cm.gen, prPend := false } ∧
        (∀ e, e ∉ blockSlots next → t.dev.cm.ctx e = d.cm.ctx e) ∧
        t.dev.cm.reload.map (fun x => x.next) = if next = 1023 then none else some (next + 1)) ∧
    (d.lg.replaying = false →
      ∃ t, exec .poseCommit s = .next t ∧ t.dev.cm = { d.cm with poseNext := some d.poseRegs })

/-- Rollback restored; phases of a restart. ROLLBACK_RESTORE drains the network and restores the journals and the
checkpoint: with no step, put or sector to carry over, the sequencer and the cores are those of the checkpoint, with
no group bound and their operations to be issued again. RESTART_STOP_DONE, RESTART_RESET_DONE, RESTART_RESTORE_DONE
and RESTART_RESEAT_DONE each carry out their phase and pass on to the next, the first once the accelerator's accesses
of the store have drained and the arrays stand at level 0; a restore whose section does not read back latches the
restart as permanent. (13_integrity_recovery R352, 13_integrity_recovery R353, 12_safety R333, 12_safety R334,
18_boot_security R445) -/
def Obligations.RollbackAndRestart : Prop :=
  ∀ s : State,
    let d := s.dev
    (d.flt.rolling = true → d.flt.restored = false → d.accel = true →
      ∃ t, exec (.rollbackRestore none) s = .next t ∧ t.dev.flt.restored = true ∧
        (d.cw.pushed = [] → d.cw.held = [] → d.cw.touched = [] → d.et.adapt = none →
          let e := d.drainNet
          t.dev.cw.seq = d.cw.ckSeq ∧ (∀ c, (t.dev.core c).acts = (d.cw.ckCores |> fun m => smGet core0 m c).rolled.acts) ∧
          (∀ c x, ((t.dev.core c).turn x).grp = none) ∧
          t.dev.mem = ((List.range 32).foldl (fun (d : Dev) c => d.journalBack c (d.vol c).jfill) e).mem)) ∧
    (d.flt.phase = .stop → d.xs.drained = true → d.cw.rampedDown = true → ∃ t, exec .restartStopDone s = .next t ∧ t.dev = { d with flt := { d.flt with phase := .reset } }) ∧
    (d.flt.phase = .stop → (d.xs.drained = false ∨ d.cw.rampedDown = false) → exec .restartStopDone s = .next s) ∧
    (d.flt.phase = .reset →
      ∃ t, exec .restartResetDone s = .next t ∧ t.dev.flt = { d.flt with phase := .restore, stopped := false, rolling := false } ∧
        t.dev.cw = { progs := d.cw.progs, table := d.cw.table } ∧ t.dev.ag = {} ∧ t.dev.et.lookups = [] ∧
        t.dev.cm.adds = [] ∧ t.dev.cm.hist = d.cm.hist ∧ t.dev.cm.pose = d.cm.pose ∧ t.dev.gb.inq = [] ∧
        t.dev.gb.commits = [] ∧ t.dev.lg.digs = [] ∧ t.dev.mem = d.mem) ∧
    (∀ es, d.flt.phase = .restore → copyEntries d.xs.mem d.xs.badIn 2048 (65536 * (d.rdLive BT_RESTART_BASE).toNat) = some es →
      ∃ t, exec (.restartRestoreDone true) s = .next t ∧ t.dev.flt = { d.flt with phase := .reseat } ∧
        t.dev.mem = (es.foldl (fun (d : Dev) e => d.placeData e.1 e.2.1 e.2.2.1 e.2.2.2) { d with mem := [] }).mem) ∧
    (d.flt.phase = .restore → d.flt.permanent = false →
      ∃ t, exec (.restartRestoreDone false) s = .next t ∧ t.dev.flt.permanent = true ∧ t.dev.flt.phase = .restore ∧
        t.dev.mem = d.mem) ∧
    (d.flt.phase = .reseat → d.rl.countM1 = 0 →
      ∃ t, exec .restartReseatDone s = .next t ∧ t.dev.flt = { d.flt with phase := .waiting, reseatAt := d.tm.stroke } ∧
        t.dev.gb = { d.gb with tab := [], gtab := [] } ∧ (t.dev.cm.ox, t.dev.cm.oy) = d.target ∧ t.dev.cm.ctxs = [] ∧
        t.dev.cm.dctx.prPend = true ∧ t.dev.cm.reload = some { next := 0 })

/-- Lookups. LOOKUP takes up the request at the tail of a request ring in use: with a defined table, 1 to 256 indices and
an issue in the stroke in progress, or of a row-by-row table within 63 strokes, the lookup is live with the version
in force, and its reads are issued as far as 2,048 at once allow; of an undefined table it raises DESC_ILLEGAL, of an
older stroke LOOKUP_STALE. LOOKUP_ROW_RETURN, of a row whose read has been issued and served, writes that row, its
shadow or the default row to exactly its place, counts it, its default, retries and shadow read, and issues the reads
that now have room; the last one ends the lookup and drains its request slot. (09_embedding_tables R239,
09_embedding_tables R241, 09_embedding_tables R242, 09_embedding_tables R243, 09_embedding_tables R257,
09_embedding_tables R258) -/
def Obligations.LookupsServed : Prop :=
  ∀ (s : State) (p : Fin 32) (i : Nat) (bad : Bool) (l : Lookup),
    let d := s.dev
    let c := d.rf (ET_REQ p.val) 0 5
    let r := d.rf (ET_REQ p.val) 5 5
    let g := d.ringDesc c r
    let slot := ((d.core c).ring r).tail
    let issue := ((d.core c).tagAt (g.tagBase + slot)).at_
    let z := d.planeTurn c g.word (g.base + slot * g.size) 1040
    let h := (z.planeSight c g.word (g.base + slot * g.size) 1040).slotBytes c r slot 1040
    let t := leAt h 0 1 % 64
    let count := leAt h 2 2
    d.accel = true → d.flt.rolling = false →
    (d.rf (ET_REQ p.val) 10 1 = 1 → g.slots ≠ 0 → d.getOk c r = true → d.cw.upset = [] →
      g.base + slot * g.size + 1040 ≤ planeSize g.word → d.poweredAll c g.word (g.base + slot * g.size) 1040 = true →
      (∀ x ∈ d.et.lookups, x.core = c → x.ring = r → x.withdrawn = true) →
      (d.tEn t = true → 0 < count → count ≤ 256 → sDiff d.tm.stroke issue ≤ 63 →
        (d.tByRow t = true ∨ issue = d.tm.stroke) →
        ∃ u, exec (.lookup p) s = .next u ∧ u.dev.mem = z.mem ∧
          u.dev.et = (Dev.issueReads { d with et := { d.et with lookups := d.et.lookups ++
            [{ table := t, putTo := if bitOf (leAt h 1 1) 0 then some (bits (leAt h 1 1) 1 5) else none, count := count,
               dest := leAt h 4 4, tag := leAt h 12 4, core := c, ring := r, slot := slot, issue := issue, ver := d.tVer t,
               idx := indices4 count (h.drop 16) }] } }).et) ∧
      (d.tEn t = false → ∃ u, exec (.lookup p) s = .next u ∧ u.dev.et = d.et ∧
        (u.dev.rd (AG_CORE_FAULT c)).getLsbD 0 = true) ∧
      (d.tEn t = true → 0 < count → count ≤ 256 → 63 < sDiff d.tm.stroke issue →
        ∃ u, exec (.lookup p) s = .next u ∧ u.dev.et = d.et ∧ (u.dev.rd ET_FAULT).getLsbD 0 = true)) ∧
    (let d0 := d.issueReads
     d0.et.lookups[i]? = some l → l.withdrawn = false → l.next < l.sent → l.table < 64 → l.core < 32 →
      d0.xs.served (l.reqs.getD l.next 0 - 1) (l.reqs.getD l.next 0) = true →
      let n := l.next
      let bd := bad || d0.rowBad l.table l.ver (l.idx.getD n 0)
      let row := d0.rowFor l.table l.ver l.issue (l.idx.getD n 0) bd
      let torn := d0.rowTorn l.table l.ver (l.idx.getD n 0) bd
      let size := d.tSize l.table
      let counted (u : State) : Prop :=
        u.dev.ctr (ET_LOOKUPS l.table) = ctrAdd (d.ctr (ET_LOOKUPS l.table)) 1 ∧
        u.dev.ctr (ET_DEFAULTS l.table) = ctrAdd (d.ctr (ET_DEFAULTS l.table)) (b2n row.2.1) ∧
        u.dev.ctr (ET_RETRIES l.table) = ctrAdd (d.ctr (ET_RETRIES l.table)) (9 * b2n torn) ∧
        u.dev.ctr (ET_SHADOW_READS l.table) = ctrAdd (d.ctr (ET_SHADOW_READS l.table)) (b2n torn)
      (∀ sp k off, engDec (l.dest + n * size) = some (sp, k, off) → sp ≠ 2 → n + 1 < l.count →
        let w := decide (sp = 1)
        let e := d0.planeTurn k w off size
        e.writeOk k w off size →
        ∃ u, exec (.lookupRowReturn i bad) s = .next u ∧ u.dev.mem = memWrite e.mem (planeAt w k off) row.1 ∧
          u.dev.et = (Dev.issueReads { d0 with et := { d0.et with
            lookups := setAt d0.et.lookups i { l with next := n + 1, defaults := l.defaults + b2n row.2.1, subst := if bd then some d.tm.stroke else l.subst } } }).et ∧
          counted u) ∧
      (l.count ≤ n + 1 → l.putTo = none → d.cw.held = [] →
        ∃ u, exec (.lookupRowReturn i bad) s = .next u ∧
          u.dev.et = (Dev.issueReads { d0 with et := { d0.et with lookups := d0.et.lookups.eraseIdx i } }).et ∧
          ((u.dev.core l.core).tagAt ((d.ringDesc l.core l.ring).tagBase + ((d.core l.core).ring l.ring).tail)).full = false ∧
          counted u))

/-- Rows written and restored, and update records. ROW_WRITE writes the next row of the oldest operation that has one by
the protocol of R244, into exactly its slot, once the slot's last write has taken effect and no aborted write of the
row waits to be restored; ROW_RESTORE writes an aborted operation's row back from its shadow; SETTLED_SWEEP sets
SETTLED in a slot whose write lies 2^20 strokes back. UPDATE_RECORD_FETCH fetches 272 bytes of ring 05 in order.
UPDATE_RECORD decides the oldest record fetched and writes its completion; a row accepted for a versioned table goes
to the copy not in force, a refused one changes no table. A base pointer that differs from its complement makes the
access device-fatal. (09_embedding_tables R244, 09_embedding_tables R250, 09_embedding_tables R251, 16_host_pcie
R412, 13_integrity_recovery R349) -/
def Obligations.RowsAndUpdates : Prop :=
  ∀ (s : State) (i : Nat) (o : UpdOp) (row : Nat) (data bs : List Byte) (rest : List (Nat × List Byte)) (dn : List Nat)
    (q : List (List Byte)),
    let d := s.dev
    let a := d.rowAt o.table 0 row
    let n := d.tSize o.table
    let old := memRead d.xs.mem a (32 + 2 * n)
    let whole (t : State) (tab : Nat) (ver : Word) (m : Mem) : Prop :=
      (d.baseHeld tab ver = true → t.dev.xs.mem = m) ∧ (d.baseHeld tab ver = false → t.dev.flt.fatal = true)
    (d.et.ops.findIdx? (fun o => !o.aborted && !o.complete && !o.todo.isEmpty) = some i → d.et.ops[i]? = some o →
      o.todo = (row, data) :: rest →
      d.unrestored o.table row = false →
      (bitOf (leAt old 10 1) 0 = true ∨ sLe (BitVec.ofNat 48 (leAt old 4 6)) d.tm.stroke = true) →
      ∃ t, exec .rowWrite s = .next t ∧ whole t o.table 0 (memWrite d.xs.mem a (slotWrite n old data o.effect)) ∧
        t.dev.et = { d.et with ops := setAt d.et.ops i { o with todo := rest, done := o.done ++ [row] } }) ∧
    (d.et.ops.findIdx? (fun o => o.aborted) = some i → d.et.ops[i]? = some o → o.done = row :: dn →
      ∃ t, exec .rowRestore s = .next t ∧ whole t o.table 0 (memWrite d.xs.mem a (slotRestore n old)) ∧
        t.dev.et.ops = if dn = [] then d.et.ops.eraseIdx i else setAt d.et.ops i { o with done := dn }) ∧
    (∀ tab r, d.et.sweep = (tab, r) → d.tEn tab = true → d.tByRow tab = true →
      let x := d.rowAt tab 0 r
      let eff := memNat d.xs.mem (x + 4) 6
      bitOf (memNat d.xs.mem (x + 10) 1) 0 = false → 2 ^ 20 ≤ subMod d.tm.stroke.toNat eff 48 →
      older eff d.tm.stroke.toNat 48 = true → (∀ y ∈ d.et.ops, y.table = tab → y.effect.toNat ≠ eff) →
      ∃ t, exec (.settledSweep 1) s = .next t ∧ t.dev.et = { d.et with sweep := d.sweepNext (tab, r) } ∧
        whole t tab 0 (memSet d.xs.mem (x + 10) (BitVec.ofNat 8 (memNat d.xs.mem (x + 10) 1 + 1)))) ∧
    ((d.ring 5).active = true → (d.ring 5).prod ≠ (d.ring 5).fetched → d.complRoom = true →
      ∃ t, exec .updateRecordFetch s = .next t ∧ (t.dev.ring 5).fetched = (d.ring 5).fetched + 1 ∧
        t.dev.hi.fetchq = d.hi.fetchq ++
          [memRead d.hi.mem (d.ringBase 5 + 272 * ((d.ring 5).fetched.toNat % d.ringSize 5)) 272]) ∧
    (d.hi.fetchq = bs :: q → (d.ring 6).active = true → (d.ring 6).used < d.ringSize 6 →
      (d.tm.op = false ∨ d.hi.decided < 4) →
      let tab := leAt bs 0 1 % 64
      ((d.updStatus bs ≠ 0 →
        ∃ t, exec .updateRecord s = .next t ∧ t.dev.hi.fetchq = q ∧ t.dev.xs.mem = d.xs.mem ∧ t.dev.et = d.et ∧
          (t.dev.ring 6).prod = (d.ring 6).prod + 1 ∧
          t.dev.ctr HI_UPD_REFUSED = ctrAdd (d.ctr HI_UPD_REFUSED) 1) ∧
       (d.updStatus bs = 0 → d.tByRow tab = false →
        ∃ t, exec .updateRecord s = .next t ∧ t.dev.hi.fetchq = q ∧
          whole t tab (d.tVer tab + 1)
            (memWrite d.xs.mem (d.rowAt tab (d.tVer tab + 1) (leAt bs 4 4)) ((bs.drop 16).take (d.tSize tab))) ∧
          (t.dev.ring 6).prod = (d.ring 6).prod + 1 ∧
          t.dev.ctr HI_UPD_ACCEPTED = ctrAdd (d.ctr HI_UPD_ACCEPTED) 1) ∧
       (d.updStatus bs = 0 → d.tByRow tab = true →
        ∃ t, exec .updateRecord s = .next t ∧ t.dev.hi.fetchq = q ∧ t.dev.xs.mem = d.xs.mem ∧
          t.dev.et.ops = d.et.ops ++ [{ table := tab, todo := [(leAt bs 4 4, (bs.drop 16).take (d.tSize tab))]
                                        effect := d.effectOf tab }] ∧
          t.dev.ctr HI_UPD_ACCEPTED = ctrAdd (d.ctr HI_UPD_ACCEPTED) 1)))

/-- Adaptation merges, ABORTs, recording sessions. ADAPT_MERGE on one chip, of a batch within its limits and without a
repeated key, makes the step's operations, each row's sum applied to the row in force at its issue and its effect
ADAPT_DELAY strokes after its issue, and counts its records; of a batch beyond them it aborts the step and sets its
fault bit, leaving no operation of it to take effect. TABLE_ABORT and ADAPT_ABORT hold their ABORT for the boundary.
REC_ARM arms a session or is rejected; REC_STOP of an active session holds for the frame boundary; REC_ABORT of a
recording leaves the ring without its entries, and with nothing to abort says so. (09_embedding_tables R247,
09_embedding_tables R250, 09_embedding_tables R253, 09_embedding_tables R254, 08_crews_determinism R232,
08_crews_determinism R234) -/
def Obligations.MergesAbortsSessions : Prop :=
  ∀ (s : State) (a : Adapt) (tab : Fin 64) (mode : BitVec 2),
    let d := s.dev
    let base := d.rf ET_MERGE_BASE 0 16 * 65536
    let b := d.gradsFrom a.count base []
    let gs := sortBy gradBefore b.1
    let tooMany := decide (d.rf ET_MERGE_SIZE 0 16 * 65536 < b.2 - base) || decide (65536 < a.count) ||
      decide (16384 < (gradSums gs []).length) || !(d.opsFit (gs.map (fun g => g.table)).eraseDups)
    let dropped (t : State) : Prop := ∀ o ∈ t.dev.et.ops, o.adapt = true → o.complete = false → o.aborted = true
    (d.et.adapt = some a → a.merged = false → d.xs.badIn base (b.2 - base) = false →
      (tooMany = false → gradDup gs = none → d.rl.countM1 = 0 →
        ∃ t, exec .adaptMerge s = .next t ∧ t.dev.et.adapt = some { a with merged := true, applied := true } ∧
          t.dev.et.adStat = 2 ∧ t.dev.ctr ET_MERGE_RECORDS = ctrAdd (d.ctr ET_MERGE_RECORDS) gs.length ∧
          t.dev.ctr ET_MERGE_ROWS = d.ctr ET_MERGE_ROWS ∧
          t.dev.xs.mem = d.xs.mem ∧
          t.dev.et.ops = (d.adaptOps a.issued ((gradSums gs []).map (fun q =>
            (q.1, q.2.1, d.newRow q.1 (d.rowFor q.1 0 a.issued q.2.1 (d.rowBad q.1 0 q.2.1)).1 q.2.2)))).et.ops) ∧
      (tooMany = true → ∃ t, exec .adaptMerge s = .next t ∧ t.dev.et.adapt = none ∧ t.dev.et.adStat = 4 ∧
        (t.dev.rd ET_FAULT).getLsbD 3 = true ∧ t.dev.xs.mem = d.xs.mem ∧ dropped t) ∧
      (tooMany = false → gradDup gs ≠ none → ∃ t, exec .adaptMerge s = .next t ∧ t.dev.et.adapt = none ∧
        t.dev.et.adStat = 4 ∧ (t.dev.rd ET_FAULT).getLsbD 2 = true ∧ t.dev.xs.mem = d.xs.mem ∧ dropped t)) ∧
    (d.lg.replaying = false →
      (∃ t, exec (.tableAbort tab) s = .next t ∧ t.dev.et = { d.et with aborts := d.et.aborts ++ [tab.val] }) ∧
      (∃ t, exec .adaptAbort s = .next t ∧ t.dev.et = { d.et with adAbort := true })) ∧
    (d.lg.state ≠ 2 →
      ∃ t, exec (.recArm mode) s = .next t ∧
        (if mode = 0 ∨ mode = 3 ∨ d.rf CS_REC_SIZE 0 16 < 16 then t.dev.lg.state = 7 ∧ t.dev.lg.mode = d.lg.mode
         else t.dev.lg = { d.lg with mode := mode.toNat, state := 1, ended := false, stopReq := false, armSet := false, abortSet := false })) ∧
    (d.lg.state = 2 → ∃ t, exec (.recArm mode) s = .next t ∧ t.dev.lg = { d.lg with armSet := true }) ∧
    (∃ t, exec .recStop s = .next t ∧ t.dev.lg = { d.lg with stopReq := true }) ∧
    (d.lg.state = 2 → d.lg.mode ≠ 2 →
      ∃ t, exec .recAbort s = .next t ∧ t.dev.lg.state = 4 ∧ t.dev.lg.lastAbort = 1 ∧ t.dev.lg.head = d.lg.head0 ∧
        t.dev.lg.stopReq = false ∧ t.dev.xs.mem = d.xs.mem) ∧
    (d.lg.state ≠ 1 → d.lg.state ≠ 2 →
      ∃ t, exec .recAbort s = .next t ∧ t.dev.lg = { d.lg with lastAbort := 2, abortSet := true, stopReq := false })

/-- What the island does with monitor messages. Of each kind the oldest message is taken. With a bad CRC it is counted
and a doubt of rule 11, lost by an overflow that doubt alone, and a BOUNDARY so lost still puts the doubts so far in
force; an uncorrectable error of the island's memory met in taking it is device-fatal. A BOUNDARY is kept, forms
Bivouac's words of the tile of the stroke before, puts the doubts so far in force, and leaves those it finds itself:
rule 9 for each crew window still open and for its own time, rules 2 and 3. A RECORD leaves exactly the doubts of
rules 1, 4, 5 and 6 that it meets, an ABSENT one a period that is not clean. A hand-over other than the switch
selected is device-fatal. A MARK closes its window, early or late with a violation. SECTOR ACCEPT tracks its sector,
without a free entry it is a violation without a track; its other events close a window, early or late with a
violation. A golden point other than its reference is a doubt of rule 7. A POSE moves the groundsheet window, and the
rows and columns that leave it await clearing. A FAULT of class 2 is counted, one of class 3 asks for the latch, one
of class 4 stops SAFE_OK. (12_safety R313, 12_safety R314, 12_safety R316, 12_safety R317, 12_safety R325, 12_safety
R326, 12_safety R327, 12_safety R330, 12_safety R320, 12_safety R339, 12_safety R322) -/
def Obligations.MonitorMessages : Prop :=
  ∀ (s : State) (m : MonMsg) (pre r : List MonMsg) (cyc n : Nat),
    let d := s.dev
    let i := d.si
    let taken (t : State) : Prop := ∃ new, t.dev.si.mq = pre ++ r ++ new
    let crews : List Doubt := (i.wins.filter (fun w => decide (4 ≤ w.1) && decide (w.1 ≤ 7))).map
      (fun _ => { rule := 9, tile := none })
    i.mq = pre ++ m :: r → (∀ x ∈ pre, x.kind ≠ m.kind) →
    (∀ rx, rx = .badCrc ∨ rx = .overflow →
      ∃ t, exec (MonMsg.taker m.kind rx cyc) s = .next t ∧ taken t ∧
        t.dev.si.doubts = (if m.kind = 0 then crews else i.doubts) ++ [{ rule := 11, tile := none }] ∧
        t.dev.si.ctr SI_MP_CRC = ctrAdd (i.ctr SI_MP_CRC) (b2n (decide (rx = .badCrc)))) ∧
    (∃ t, exec (MonMsg.taker m.kind .badMem cyc) s = .next t ∧ taken t ∧ t.dev.si.fatal = true ∧ t.dev.flt.fatal = true) ∧
    (∀ st fr first retire ox oy cov, m = .boundary st fr first retire ox oy cov →
      let bad (b : Option Bnd) : Bool := match b with
        | some b => !i.originOk b.ox b.oy ox oy
        | none => false
      ∃ t, exec (.monBoundary .whole cyc) s = .next t ∧ taken t ∧
        t.dev.si.bnds = ({ s := st, frame := fr, ox := ox, oy := oy } :: i.bnds).take 8 ∧
        t.dev.si.biv = ((match i.bnds.head? with
          | some b => [(b.s, i.bivTile b)]
          | none => []) ++ i.biv).take 4 ∧
        t.dev.si.entry = some (i.entry.getD st) ∧
        t.dev.si.doubts = crews ++
          (if i.wins.any (fun w => decide (w.1 = 0)) = true ∧ (cyc < i.winOpen 0 ∨ i.winClose 0 < cyc) then [{ rule := 9, tile := none }] else []) ++
          (if bad i.bnds.head? then [{ rule := 2, tile := none }] else []) ++
          (if retire = true ∧ cov < i.par 5 0 16 then [{ rule := 3, tile := none }] else [])) ∧
    (∀ st bs, m = .record st (some bs) false →
      ∃ t, exec (.monRecord .whole) s = .next t ∧ taken t ∧ t.dev.si.doubts = i.doubts ++ i.recordDoubts st bs ∧
        t.dev.si.perClean = (i.perClean && (i.recordDoubts st bs).isEmpty)) ∧
    (∀ st, m = .record st none false →
      ∃ t, exec (.monRecord .whole) s = .next t ∧ t.dev.si = { i with mq := pre ++ r, perClean := false }) ∧
    (∀ st src x, m = .delivered st src → i.sel.find? (fun x => decide (x.1 = st)) = some x →
      ∃ t, exec (.monDelivered .whole none) s = .next t ∧ taken t ∧ (∀ y ∈ t.dev.si.sel, y.1 ≠ st) ∧
        (x.2 ≠ src → t.dev.si.fatal = true ∧ t.dev.flt.fatal = true) ∧
        (x.2 = src → t.dev.si.fatal = i.fatal ∧ t.dev.flt = d.flt)) ∧
    (m = .mark .subSteps → i.wins.contains (9, i.now) = true →
      ∃ t, exec (.monMark .whole cyc) s = .next t ∧ taken t ∧ (9, i.now) ∉ t.dev.si.wins ∧
        (if cyc < i.winOpen 9 ∨ i.winClose 9 < cyc then
          t.dev.si.ctr (WW_VIOL 9) = ctrAdd (i.ctr (WW_VIOL 9)) 1 ∧ t.dev.si.doubts = i.doubts ++ [{ rule := 9, tile := none }]
         else t.dev.si.doubts = i.doubts)) ∧
    (∀ id fr o last v at_, m = .sector .accept id fr o last v at_ → i.tracks.length < 1024 →
      ∃ t, exec (.monSector .whole) s = .next t ∧ taken t ∧
        t.dev.si.tracks = i.tracks.filter (fun x => decide (x.id ≠ id)) ++ [{ id := id, v := v }] ∧
        (if sDiff v last < i.winOpen 1 ∨ i.winClose 1 < sDiff v last then
          t.dev.si.doubts = i.doubts ++ [{ rule := 9, tile := none }] else t.dev.si.doubts = i.doubts)) ∧
    (∀ id fr o last v at_, m = .sector .accept id fr o last v at_ → 1024 ≤ i.tracks.length →
      ∃ t, exec (.monSector .whole) s = .next t ∧ taken t ∧ t.dev.si.tracks = i.tracks ∧
        t.dev.si.doubts = i.doubts ++ [{ rule := 9, tile := none }] ∧ (t.dev.si.wwOf 1).noTrack = true) ∧
    (∀ ev n id fr o last v at_ tr, (ev, n) ∈ [(SecEv.commit, 2), (SecEv.backboneDone, 3), (SecEv.scatterCommit, 8)] →
      m = .sector ev id fr o last v at_ → i.tracks.find? (fun x => decide (x.id = id)) = some tr →
      ∃ t, exec (.monSector .whole) s = .next t ∧ taken t ∧
        t.dev.si.tracks = (i.setTrack { tr with gb := tr.gb && decide (n ≠ 2), bb := tr.bb && decide (n ≠ 3),
                                                scat := tr.scat && decide (n ≠ 8) }).tracks ∧
        t.dev.si.doubts = i.doubts ++ (if sDiff at_ tr.v < i.winOpen n ∨ i.winClose n < sDiff at_ tr.v then
          [{ rule := 9, tile := none }] else [])) ∧
    (∀ crc, m = .golden (some n) crc → bitOf (leAt i.gref 16 32) n = true →
      ∃ t, exec (.monGolden .whole) s = .next t ∧ taken t ∧ (i.gprev = 0 → n ∈ t.dev.si.gpts) ∧
        t.dev.si.doubts = i.doubts ++ (if crc = leAt i.gref (64 + 8 * n) 8 then [] else [{ rule := 7, tile := none }])) ∧
    (∀ p, m = .pose p →
      ∃ t, exec (.monPose .whole) s = .next t ∧ taken t ∧ t.dev.si.poses = ((d.tm.stroke, p) :: i.poses).take 64 ∧
        t.dev.si.wx = fdiv (targetOf p).1 2 ∧ t.dev.si.wy = fdiv (targetOf p).2 2 ∧ t.dev.si.gs = i.gs ∧
        (∀ x ∈ leaving i.wx t.dev.si.wx, (true, x) ∈ t.dev.si.await) ∧
        (∀ y ∈ leaving i.wy t.dev.si.wy, (false, y) ∈ t.dev.si.await)) ∧
    (∀ src, (m = .fault 2 src →
        ∃ t, exec (.monFault .whole) s = .next t ∧ taken t ∧ t.dev.si.recov = i.recov + 1 ∧
          t.dev.si.doubts = i.doubts ++ (if i.recov = i.par 4 0 8 then [{ rule := 10, tile := none }] else [])) ∧
      (m = .fault 3 src → src ≠ 0x25 → src ≠ 0x26 →
        ∃ t, exec (.monFault .whole) s = .next t ∧ t.dev.si = { i with mq := pre ++ r, latchReq := true }) ∧
      (m = .fault 4 src → ∃ t, exec (.monFault .whole) s = .next t ∧ taken t ∧ t.dev.si.fatal = true))

/-- Groundsheet, watchdogs, SAFE_OK. GS_PLACE puts the next tapped point into its groundsheet cell, or counts it as
outside, or, beyond 128 of a stroke of receipt, as dropped; a cell whose row or column awaits clearing is cleared by
its first point. GS_SWEEP visits its slots in turn: a cell unseen for longer than HOLD loses its counts and its
height, no other cell changes. An uncorrectable error that either meets in Bivouac's memory fails Bivouac.
WATCHDOG_CLOSE of a window still open counts a violation and a doubt of rule 9. SAFE_OK_EDGE makes an edge where Cox
may make one, with no device-fatal condition and out of reset; a mismatch of the comparators, and ISLAND_PLL_LOSS,
are device-fatal, and with the PLL lost SAFE_OK is low. (12_safety R318, 12_safety R319, 12_safety R326, 12_safety
R337, 12_safety R340) -/
def Obligations.GroundsheetAndSafeOk : Prop :=
  ∀ (s : State) (st : Stroke) (q : Int × Int × Int) (rest : List (Stroke × Int × Int × Int)) (slots : Nat) (n : Fin 12)
    (sec : SecId) (w : Nat × Stroke),
    let d := s.dev
    let i := d.si
    let c := gsCellOf (i.poseFor st) q
    let k := gsSlot c.1 c.2.1
    let j := i.placing st rest
    let hold := i.par 12 8 24
    let met (e : Nat) : Bool := decide ((e + 262144 - i.sweep) % 262144 < max slots 4)
    (i.tap = (st, q) :: rest →
      (j.taps < 128 → i.gsIn c.1 c.2.1 = true →
        ∃ t, exec .gsPlace s = .next t ∧ t.dev.si.tap = rest ∧ t.dev.si.taps = j.taps + 1 ∧
          smGet gs0 t.dev.si.gs k =
            i.gsHit (if j.gsAwaits c.1 c.2.1 then {} else smGet gs0 j.gs k) (BitVec.ofNat 32 st.toNat) c.2.2 ∧
          (∀ e, e ≠ k → smGet gs0 t.dev.si.gs e = smGet gs0 j.gs e) ∧ t.dev.si.gsAwaits c.1 c.2.1 = false ∧
          t.dev.si.bivFail = (i.bivFail || i.gsUpset.contains k) ∧ t.dev.si.gsUpset = i.gsUpset.filter (· != k) ∧
          t.dev.si.ctr SI_GS_POINTS = ctrAdd (i.ctr SI_GS_POINTS) 1) ∧
      (j.taps < 128 → i.gsIn c.1 c.2.1 = false →
        ∃ t, exec .gsPlace s = .next t ∧ t.dev.si.tap = rest ∧ t.dev.si.gs = j.gs ∧
          t.dev.si.ctr SI_GS_OUTSIDE = ctrAdd (i.ctr SI_GS_OUTSIDE) 1) ∧
      (128 ≤ j.taps → ∃ t, exec .gsPlace s = .next t ∧ t.dev.si.tap = rest ∧ t.dev.si.gs = j.gs ∧
          t.dev.si.ctr SI_GS_DROP = ctrAdd (i.ctr SI_GS_DROP) 1)) ∧
    (∃ t, exec (.gsSweep slots) s = .next t ∧ t.dev.si.bivFail = (i.bivFail || i.gsUpset.any met) ∧
      t.dev.si.gsUpset = i.gsUpset.filter (fun e => !(met e)) ∧ t.dev.si.sweep = (i.sweep + max slots 4) % 262144 ∧
      ∀ e, let x := smGet gs0 i.gs e
        let old := { x with nObst := 0, nGnd := 0, zmax := -32768 }
        let dead := decide (hold < dist32 (BitVec.ofNat 32 i.now.toNat) x.tSeen)
        (smGet gs0 t.dev.si.gs e = x ∨ (dead = true ∧ smGet gs0 t.dev.si.gs e = old)) ∧
        (e = i.sweep → dead = true → smGet gs0 t.dev.si.gs e = old)) ∧
    (n.val ≠ 2 → n.val ≠ 3 → n.val ≠ 8 → i.wins.find? (fun w => decide (w.1 = n.val)) = some w →
      ∃ t, exec (.watchdogClose n sec) s = .next t ∧ t.dev.si.wins = i.wins.filter (· != w) ∧
        t.dev.si.ctr (WW_VIOL n.val) = ctrAdd (i.ctr (WW_VIOL n.val)) 1 ∧
        t.dev.si.doubts = i.doubts ++ [{ rule := 9, tile := none }] ∧ (t.dev.si.wwOf n.val).state = 3) ∧
    (i.mayEdge d.tm.stroke = true → d.flt.fatal = false → d.pm.held = false →
      ∃ t, exec (.safeOkEdge true) s = .next t ∧ t.dev.si.pin = !i.pin ∧ t.dev.si.running = true ∧
        t.dev.si.time = i.time + 500 ∧ .safeOk (!i.pin) ∈ t.dev.out) ∧
    (∃ t, exec (.safeOkEdge false) s = .next t ∧ t.dev.si.fatal = true ∧ t.dev.si.running = false ∧ t.dev.si.pin = false ∧
      t.dev.flt.fatal = true) ∧
    (∃ t, exec .islandPllLoss s = .next t ∧ t.dev.si.pllLost = true ∧ t.dev.si.fatal = true ∧ t.dev.si.running = false ∧
      t.dev.si.pin = false ∧ t.dev.flt.fatal = true)

/-- The protocol engine. PTP_MESSAGE_RX takes the oldest message received. One that is not understood, of another domain,
or at a port without a role is dropped and counted. At the slave, a one-step Sync forms the measurement of R371 once
path delays have been measured, a two-step one waits for its Follow_Up, which forms it; an end-to-end Delay_Resp to
the request outstanding measures a path delay. A master answers an end-to-end Delay_Req. PTP_SYNC_TX of a master
sends Announce, Sync and Follow_Up once 2^LOG_SYNC s have passed since its last Sync, and before that nothing;
PTP_DELAY_REQ_TX of the slave sends its request and keeps its time. Every message goes by the transport that TB_CFG
selects: by EtherType 0x88F7, or over UDP to port 319 or 320. (The messages' layout is that of IEEE 1588, which R370
names: the model's reading, log entry 21.) (14_time_base R367, 14_time_base R370, 14_time_base R371, 14_time_base
R372) -/
def Obligations.ProtocolEngine : Prop :=
  ∀ (s : State) (mac : Nat) (port : Fin 16) (bs : List Byte) (raw rraw : Nat) (rx p t2 t3 corr diff : Int) (till : Nat)
    (rest : List (Nat × List Byte × Nat × Int)) (m : PtpMsg),
    let d := s.dev
    let q := d.tm.ptp
    let e2e := decide (d.rf TB_CFG 2 2 = 1)
    let via := d.rf TB_CFG 4 2
    let port_ (event : Bool) : Nat := if via = 0 then 0x88F7 else if event then 319 else 320
    let last := smGet (fun _ => (none : Option Nat)) q.syncAt port.val
    let every := 1200000000 / 2 ^ d.rf TB_CFG 14 3
    (d.tm.rxq = (mac, bs, rraw, rx) :: rest →
      ((parsePtp bs = none ∨ (parsePtp bs = some m ∧ (d.ptpRole mac = 0 ∨ m.domain ≠ d.rf TB_CFG 6 8))) →
        ∃ t, exec (.ptpMessageRx raw) s = .next t ∧ t.dev.tm = { d.tm with rxq := rest } ∧
          t.dev.ctr TB_PTP_DROP = ctrAdd (d.ctr TB_PTP_DROP) 1) ∧
      (parsePtp bs = some m → m.domain = d.rf TB_CFG 6 8 → d.ptpRole mac = 1 →
        (m.type = 0 → m.twoStep = false → meanOf q.delays = some p →
          ∃ t, exec (.ptpMessageRx raw) s = .next t ∧ t.dev.tm.rxq = rest ∧ t.dev.tm.measAt = rraw ∧
            t.dev.tm.meas = d.tm.meas ++ [rx - m.stamp - m.corr - p]) ∧
        (m.type = 0 → m.twoStep = true → 0 ≤ m.logInt →
          ∃ t, exec (.ptpMessageRx raw) s = .next t ∧ t.dev.tm.rxq = rest ∧ t.dev.tm.meas = d.tm.meas ∧
            t.dev.tm.ptp.sync = some (m.seq, rx, m.corr, rraw + 1200000000 * 2 ^ m.logInt.toNat)) ∧
        (m.type = 8 → q.sync = some (m.seq, t2, corr, till) → rraw ≤ till → meanOf q.delays = some p →
          ∃ t, exec (.ptpMessageRx raw) s = .next t ∧ t.dev.tm.rxq = rest ∧ t.dev.tm.ptp.sync = none ∧
            t.dev.tm.meas = d.tm.meas ++ [t2 - m.stamp - (corr + m.corr) - p]) ∧
        (m.type = 9 → e2e = true → q.req = some (m.seq, t3) → q.lastDiff = some diff →
          ∃ t, exec (.ptpMessageRx raw) s = .next t ∧ t.dev.tm.rxq = rest ∧ t.dev.tm.ptp.req = none ∧
            t.dev.tm.ptp.delays = (fdiv (diff + (m.stamp - t3 - m.corr)) 2 :: q.delays).take 8)) ∧
      (parsePtp bs = some m → m.domain = d.rf TB_CFG 6 8 → d.ptpRole mac = 2 → m.type = 1 → e2e = true →
        ∃ t, exec (.ptpMessageRx raw) s = .next t ∧ t.dev.tm = { d.tm with rxq := rest } ∧
          t.dev.out = d.out ++
            [.ptp mac via (port_ false) (d.ptpMsg mac 9 false (m.corr - (stampBytes rx).2) m.seq 0 ((stampBytes rx).1 ++ m.port))])) ∧
    (d.ptpRole port.val = 2 → (∀ b, last = some b → b + every ≤ raw) →
      ∃ t, exec (.ptpSyncTx port raw) s = .next t ∧
        t.dev.tm.ptp = { q with seqTx := (q.seqTx + 1) % 65536
                                syncAt := smSet (fun _ => none) q.syncAt port.val (some raw) } ∧
        ∃ a, t.dev.out = d.out ++ [.ptp port.val via (port_ false) a,
          .ptp port.val via (port_ true) (d.ptpMsg port.val 0 true 0 q.seqTx (-(d.rf TB_CFG 14 3 : Int)) (zeros 10)),
          .ptp port.val via (port_ false) (d.ptpMsg port.val 8 false (stampBytes (d.now16 (d.txRaw port.val raw))).2 q.seqTx
            (-(d.rf TB_CFG 14 3 : Int)) (stampBytes (d.now16 (d.txRaw port.val raw))).1)]) ∧
    (∀ b, last = some b → raw < b + every →
      ∃ t, exec (.ptpSyncTx port raw) s = .next t ∧ t.dev.tm = d.tm ∧ t.dev.out = d.out) ∧
    ((List.range 16).find? (fun m => decide (d.ptpRole m = 1)) = some mac →
      ∃ t, exec (.ptpDelayReqTx raw) s = .next t ∧
        t.dev.tm.ptp = { q with req := some (q.seqReq, d.now16 (d.txRaw mac raw)), resp := none
                                seqReq := (q.seqReq + 1) % 65536 } ∧
        t.dev.out = d.out ++ [.ptp mac via (port_ true) (if e2e then d.ptpMsg mac 1 false 0 q.seqReq 127 (zeros 10)
          else d.ptpMsg mac 2 false 0 q.seqReq 127 (zeros 20))])

/-- Holdover, adjustments and the microsecond tick. HOLDOVER_ENTER of a servo that is on, not in holdover, and without a
measurement for HOLD_MS ms enters holdover, drops LOCKED and holds −integ, within the limit of RATE, for the next
boundary. TIME_ADJUST holds ADJ_RATE and ADJ_OFFSET, or with the servo on is counted as ignored. RAW_MICROSECOND_TICK
before the operational state goes to the next microsecond of raw time; with the servo off an adjustment that is held
takes effect there: OFFSET becomes corrected time plus the step, ANCHOR the tick; with none, the three values stay.
(14_time_base R365, 14_time_base R366, 14_time_base R368, 14_time_base R369) -/
def Obligations.TimeChanges : Prop :=
  ∀ (s : State) (raw : Nat) (rate step : Int),
    let d := s.dev
    let on := decide (d.rf TB_CFG 0 1 = 1)
    let tick := (d.tm.raw / 1200 + 1) * 1200
    (on = true → d.tm.holdover = false → d.rf TB_LOCK 16 16 * 1200000 ≤ raw - d.tm.measAt →
      ∃ t, exec (.holdoverEnter raw) s = .next t ∧ t.dev.tm.holdover = true ∧ t.dev.tm.locked = false ∧
        t.dev.tm.adj = some (max (-219902325) (min 219902325 (-d.tm.integ)), 0) ∧
        t.dev.tm.offset = d.tm.offset ∧ t.dev.tm.rate = d.tm.rate ∧
        t.dev.ctr TB_HOLDOVER = ctrAdd (d.ctr TB_HOLDOVER) 1) ∧
    (on = true → ∃ t, exec .timeAdjust s = .next t ∧ t.dev.tm = d.tm ∧
      t.dev.ctr TB_ADJ_IGNORED = ctrAdd (d.ctr TB_ADJ_IGNORED) 1) ∧
    (on = false → ∃ t, exec .timeAdjust s = .next t ∧
      t.dev.tm = { d.tm with adj := some (max (-219902325) (min 219902325 (d.rdInt64 TB_ADJ_RATE_LO TB_ADJ_RATE_HI)),
        sext 96 ((d.rd TB_ADJ_OFFSET_FRAC).toNat + 2 ^ 32 * (d.rd TB_ADJ_OFFSET_LO).toNat +
          2 ^ 64 * (d.rd TB_ADJ_OFFSET_HI).toNat)) }) ∧
    (d.tm.op = false → on = false → d.lg.replaying = false →
      (d.tm.adj = some (rate, step) →
        ∃ t, exec .rawMicrosecondTick s = .next t ∧ t.dev.tm.raw = tick ∧ t.dev.tm.anchor = tick ∧ t.dev.tm.rate = rate ∧
          t.dev.tm.offset = d.corrected tick + step ∧ t.dev.tm.adj = none) ∧
      (d.tm.adj = none →
        ∃ t, exec .rawMicrosecondTick s = .next t ∧ t.dev.tm = { d.tm with raw := tick, meas := [] }))

/-- Trigger outputs and capture inputs. TRIGGER_EDGE on a 400 MHz tick: of an armed ONESHOT output, on the first tick at
or after START (or, where START had passed as the values in force began, the first of the stroke), it drives the
output high, counts the edge and turns MODE off unless MODE has been written since; of an armed STROKE or FRAME
output it does so on the first tick of the stroke; an edge carried past by a forward step counts in LATE. At another
raw time, and of an output whose event is not due, it changes nothing. TRIGGER_PULSE_END after WIDTH ns of raw time
drives the output low. CAPTURE_EDGE of a selected polarity is stored with its corrected time less the filter's, or
lost and counted where 16 are stored. CAPTURE_READ answers and removes the oldest entry, and captures its upper word
for the requester; of an emptied store its answer is a free value, of one that has held none 0. (That a START in the
past fires at once is the model's reading, log entry 85.) (14_time_base R376, 14_time_base R377, 14_time_base R378,
14_time_base R379, 14_time_base R380) -/
def Obligations.TriggersAndCaptures : Prop :=
  ∀ (s : State) (n : Fin 24) (raw : Nat) (rise : Bool) (v : Nat) (r : List (Nat × Bool)),
    let d := s.dev
    let t := d.trg n.val
    let c := d.capt n.val
    let sel := bitOf (d.rf (TB_CAP_CFG n.val) 0 2) (if rise then 0 else 1)
    let start : Int := (t.start : Int) * 2 ^ 32
    let first := raw < d.tm.openRaw + 3
    let up (u : State) : Prop := (u.dev.trg n.val).high = true ∧ (u.dev.trg n.val).armed = false ∧
      (u.dev.trg n.val).endAt = 10 * raw + 12 * t.width ∧
      u.dev.ctr (TB_FIRED n.val) = ctrAdd (d.ctr (TB_FIRED n.val)) 1 ∧
      (t.high = false → .trigRise n.val ∈ u.dev.out)
    (d.live = true → t.armed = true → raw % 3 = 0 → d.tm.openRaw ≤ raw →
      (t.mode = 1 → start ≤ d.corrected raw → first ∨ d.corrected (raw - 3) < start →
        ∃ u, exec (.triggerEdge n raw) s = .next u ∧ up u ∧ (u.dev.trg n.val).mode = 0 ∧
          u.dev.rd (TB_TRIG_CFG n.val) = (if t.wrote then d.rd (TB_TRIG_CFG n.val) else 0) ∧
          (∀ a b, d.tm.jump = some (a, b) → a < start → start ≤ b →
            u.dev.ctr (TB_LATE n.val) = ctrAdd (d.ctr (TB_LATE n.val)) 1) ∧
          (d.tm.jump = none → t.high = false → (u.dev.ctr (TB_LATE n.val)).v = (d.ctr (TB_LATE n.val)).v)) ∧
      (t.mode = 1 → d.corrected raw < start → ∃ u, exec (.triggerEdge n raw) s = .next u ∧ u.dev = d) ∧
      (t.mode = 3 ∨ t.mode = 4 → first → ∃ u, exec (.triggerEdge n raw) s = .next u ∧ up u) ∧
      (t.mode = 3 ∨ t.mode = 4 → ¬ first → ∃ u, exec (.triggerEdge n raw) s = .next u ∧ u.dev = d)) ∧
    (raw % 3 ≠ 0 → ∃ u, exec (.triggerEdge n raw) s = .next u ∧ u.dev = d) ∧
    (t.high = true → t.endAt ≤ 10 * raw →
      ∃ u, exec (.triggerPulseEnd n raw) s = .next u ∧ u.dev.trg n.val = { t with high := false } ∧
        (∀ e, e ≠ n.val → u.dev.trg e = d.trg e) ∧ u.dev.out = d.out ++ [.trigFall n.val]) ∧
    (sel = true → c.fifo.length < 16 →
      ∃ u, exec (.captureEdge n rise raw) s = .next u ∧
        (u.dev.capt n.val).fifo = c.fifo ++
          [(wrapN 64 (fdiv (d.corrected raw - (d.rf (TB_CAP_CFG n.val) 2 6 : Int) * 5 * 2 ^ 31) (2 ^ 32)), rise)] ∧
        u.dev.ctr (TB_CAPTURED n.val) = ctrAdd (d.ctr (TB_CAPTURED n.val)) 1) ∧
    (sel = true → 16 ≤ c.fifo.length →
      ∃ u, exec (.captureEdge n rise raw) s = .next u ∧ u.dev.tm = d.tm ∧
        u.dev.ctr (TB_CAP_OVF n.val) = ctrAdd (d.ctr (TB_CAP_OVF n.val)) 1) ∧
    (c.fifo = (v, rise) :: r →
      ∃ u, exec (.captureRead n) s = .next u ∧ (u.dev.capt n.val).fifo = r ∧ (u.dev.capt n.val).rise = rise ∧
        (u.dev.capt n.val).valid = true ∧
        smGet (fun _ => none) u.dev.reg.capt (captKey 0 (TB_CAP_VAL_HI n.val)) = some (BitVec.ofNat 32 (v / 2 ^ 32)) ∧
        u.dev.out = d.out ++ [.readData (toLE 4 v)]) ∧
    (c.fifo = [] →
      ∃ u x, exec (.captureRead n) s = .next u ∧ (u.dev.capt n.val).fifo = [] ∧ (u.dev.capt n.val).valid = false ∧
        u.dev.out = d.out ++ [.readData (toLE 4 x)] ∧ (c.used = false → x = 0))

/-- Links, heartbeats and groups. A DATA or HEARTBEAT flit in sequence with a good CRC goes to the buffer of its virtual
channel and is counted; one with a bad CRC is answered with one NAK and changes nothing else; a SKIP flit, and a good
one of no valid type, is discarded; a NAK has the flit kept after its ACK resent with the credits that it returned,
and counted; after 1,023 flits a SKIP flit goes out. LINK_TRAIN_STATE passes a link from state to state, from
IDENTIFY to ACTIVE where every item matches, to an error that names the first that does not; a retraining that
succeeds is ACTIVE again, one that fails starts over and its peer leaves the reachable set. RG_HEARTBEAT keeps the
sender's set and ends its silence; PEER_LOSS of a silent peer takes it out of the reachable set; GROUP_EVALUATE, four
strokes after a change, takes the group. (15_regatta R385, 15_regatta R386, 15_regatta R387, 15_regatta R388,
15_regatta R398, 15_regatta R399) -/
def Obligations.LinksAndGroups : Prop :=
  ∀ (s : State) (k : Fin 3) (bytes : List Byte) (ok rev : Bool) (id : Ident) (inv : BitVec 16) (chip : Fin 4)
    (reach : BitVec 4) (at_ : Stroke) (f : Kept),
    let d := s.dev
    let l := d.link k.val
    let vc := leAt bytes 1 1 % 4
    let cvc := leAt bytes 6 1 % 4
    let good := decide (crc64 (bytes.take 248) = leAt bytes 248 8)
    let train (n : Nat) : Prop := ∃ t, exec (.linkTrainState k ok id rev inv) s = .next t ∧ (t.dev.link k.val).state = n
    (l.state = 5 → bytes.length = 256 → good = true → (leAt bytes 0 1 = 1 ∨ leAt bytes 0 1 = 2) →
      leAt bytes 2 2 % 4096 = l.rxSeq → vc ≤ 2 → (l.buf vc).length < vcSize vc →
      (3 ≤ cvc ∨ l.cred cvc + leAt bytes 7 1 ≤ vcSize cvc) →
      ∃ t, exec (.flitRx k bytes) s = .next t ∧ (t.dev.link k.val).rxSeq = (l.rxSeq + 1) % 4096 ∧
        (t.dev.link k.val).buf vc = l.buf vc ++ [(bytes.drop 8).take 240] ∧ (t.dev.link k.val).state = 5 ∧
        t.dev.ctr (RL_FLITS_RX k.val) = ctrAdd (d.ctr (RL_FLITS_RX k.val)) 1) ∧
    (l.state = 5 → bytes.length = 256 → good = false → leAt bytes 0 1 ≠ 3 → l.nakSent = false →
      ∃ t, exec (.flitRx k bytes) s = .next t ∧
        t.dev.link k.val = { l with nakSent := true, sent := if l.sent < 1022 then l.sent + 1 else 0 } ∧
        t.dev.out = d.out ++ .flit k.val (flitBytes 4 0 0 (l.rxSeq + 4095) 0 0 []) ::
          (if l.sent < 1022 then [] else [.flit k.val (flitBytes 3 0 0 0 0 0 [])])) ∧
    (l.state = 5 → bytes.length = 256 → leAt bytes 0 1 = 3 ∨ (good = true ∧ 4 < leAt bytes 0 1) →
      ∃ t, exec (.flitRx k bytes) s = .next t ∧ t.dev.link k.val = l ∧ t.dev.out = d.out) ∧
    (l.state = 5 → bytes.length = 256 → good = true → leAt bytes 0 1 = 4 → leAt bytes 7 1 = 0 → 3 ≤ cvc →
      l.replay = [f] → afterAck (leAt bytes 4 2 % 4096) f.seq = true → f.again < 15 → l.txq = [] → l.sent < 1022 →
      ∃ t, exec (.flitRx k bytes) s = .next t ∧ (t.dev.link k.val).state = 5 ∧
        (t.dev.link k.val).replay = [{ f with again := f.again + 1 }] ∧
        t.dev.out = d.out ++ [.flit k.val (flitBytes f.type f.vc f.seq (l.rxSeq + 4095) f.cvc f.cr f.payload)] ∧
        t.dev.ctr (RL_REPLAY k.val) = ctrAdd (d.ctr (RL_REPLAY k.val)) 1) ∧
    (ok = true → (l.state = 1 → train 2) ∧ (l.state = 2 → train 3) ∧ (l.state = 3 → train 4) ∧ (l.state = 6 → train 5)) ∧
    (ok = true → l.state = 4 → d.bt.meas ≠ [] →
      (d.identBad k.val id = none → train 5) ∧
      (∀ c, d.identBad k.val id = some c → ∃ t, exec (.linkTrainState k ok id rev inv) s = .next t ∧
        (t.dev.link k.val).error = true ∧ (t.dev.link k.val).cause = c ∧ (t.dev.link k.val).state = 4)) ∧
    (ok = false → l.state = 6 → ∃ t, exec (.linkTrainState k ok id rev inv) s = .next t ∧
      (t.dev.link k.val).state = 1 ∧ bitOf t.dev.rl.reach (linkPeer d.rl.chip k.val) = false) ∧
    (d.rl.countM1 ≠ 0 → chip.val < d.chips → chip.val ≠ d.rl.chip →
      ∃ t, exec (.rgHeartbeat chip reach) s = .next t ∧ smGet (fun _ => 0) t.dev.rl.silent chip.val = 0 ∧
        smGet (fun _ => 0) t.dev.rl.views chip.val = reach.toNat) ∧
    (d.rl.countM1 ≠ 0 → d.tm.op = true → 8 ≤ smGet (fun _ => 0) d.rl.silent chip.val →
      ∃ t, exec (.peerLoss chip) s = .next t ∧ bitOf t.dev.rl.reach chip.val = false) ∧
    (d.rl.changedAt = some at_ → d.live = true → 4 ≤ sDiff d.tm.stroke at_ →
      ∃ t, exec .groupEvaluate s = .next t ∧ t.dev.rl.group = d.groupOf ∧ t.dev.rl.changedAt = none ∧
        t.dev.rl.majority = decide (d.chips < 2 * (membersOf d.groupOf).length))

/-- What other chips send. In a configuration of several chips: a time exchange with chip 0 echoes t2 and forms a
measurement, and chip 0 answers an echo; chip 0 keeps who is ready, the others take the stroke of START; a restart
named by another chip is counted and waits for its boundary; a resumption is taken. A forwarded point or verdict
counts FWD_DELAY strokes later, or makes its part late; a tapped point joins the tap of the island; a remote add or
its header joins the scatter buffer; a partial sum joins the step, or, after the stroke before its effect, aborts it
with ROW_LATE. (15_regatta R389, 15_regatta R390, 15_regatta R392, 15_regatta R393, 15_regatta R395, 15_regatta R397,
09_embedding_tables R255) -/
def Obligations.MessagesOfOtherChips : Prop :=
  ∀ (s : State) (chip : Fin 4) (at_ : Stroke) (t1 t2 t3 t4 x y z : Int) (pt : Point) (g : GVerd) (a : CellAdd) (e : AddExp)
    (ad : Adapt) (tab : Fin 64) (row : Nat) (vals : List Nat),
    let d := s.dev
    d.rl.countM1 ≠ 0 →
    (d.rl.chip ≠ 0 → ∃ t p, exec (.rgTimeExchange 0 t1 t2 t3 t4) s = .next t ∧
      t.dev.rl.delays = (fdiv (t4 - t1 - (t3 - t2)) 2 :: d.rl.delays).take 8 ∧ meanOf t.dev.rl.delays = some p ∧
      t.dev.tm.meas = d.tm.meas ++ [t2 - t1 - p] ∧
      ((d.link (linkOf d.rl.chip 0)).state = 5 → .rg 0 8 [wrapN 80 t2] ∈ t.dev.out)) ∧
    (d.rl.chip = 0 → (d.link (linkOf 0 chip.val)).state = 5 →
      ∃ t, exec (.rgTimeExchange chip t1 t2 t3 t4) s = .next t ∧ t.dev.tm = d.tm ∧
        .rg chip.val 7 [wrapN 80 t4] ∈ t.dev.out) ∧
    (d.rl.chip = 0 → ∃ t, exec (.rgReady chip) s = .next t ∧ chip.val ∈ t.dev.rl.ready) ∧
    (d.rl.chip ≠ 0 → d.tm.op = false → ∃ t, exec (.rgStart at_) s = .next t ∧ t.dev.rl.startAt = some at_) ∧
    (d.live = true → d.si.permanent = false → d.flt.phase = .idle →
      ({ d.si with requests := d.si.requests ++ [d.si.time] } : IslandSt).inWindow ≤ d.si.par 3 0 4 →
      ∃ t, exec (.rgRestart chip at_) s = .next t ∧ t.dev.flt.phase = .requested ∧ t.dev.flt.restartAt = some at_ ∧
        t.dev.si.ctr SI_RESTARTS = ctrAdd (d.si.ctr SI_RESTARTS) 1) ∧
    (∀ b, d.live = true → d.si.permanent = false → d.flt.phase = .requested → d.flt.restartAt = some b →
      ({ d.si with requests := d.si.requests ++ [d.si.time] } : IslandSt).inWindow ≤ d.si.par 3 0 4 →
      ∃ t, exec (.rgRestart chip at_) s = .next t ∧ t.dev.flt.phase = .requested ∧
        t.dev.flt.restartAt = some (if sLe b at_ then b else at_)) ∧
    (d.flt.restarting = true →
      (d.rl.chip ≠ 0 → ∃ t, exec (.rgResume chip at_) s = .next t ∧ t.dev.flt = { d.flt with resumeAt := some at_ }) ∧
      (d.rl.chip = 0 → ∃ t, exec (.rgResume chip at_) s = .next t ∧
        (chip.val ∈ t.dev.rl.reseated ∨ (t.dev.rl.reseated = [] ∧ t.dev.flt.resumeAt.isSome = true)))) ∧
    (d.tm.op = true →
      (let due := sAdd at_ d.fwdDelay
       let id : SecId := ⟨pt.stream, BitVec.ofNat 16 pt.sweep, pt.sector⟩
       ∃ t, exec (.rgFwdPoint chip at_ pt) s = .next t ∧
        (if sLe due d.tm.stroke = true then t.dev.gb.inq = d.gb.inq ∧ (t.dev.gsec id).late = true
         else t.dev.gb.secs = d.gb.secs ∧
          (if pt.stream = goldStream then ({ r := due, pt := pt } : GPoint) ∈ t.dev.gb.gold ∧ t.dev.gb.inq = d.gb.inq
           else ({ r := due, pt := pt } : GPoint) ∈ t.dev.gb.inq ∧ t.dev.gb.gold = d.gb.gold))) ∧
      (let due := sAdd g.v d.fwdDelay
       ∃ t, exec (.rgFwdVerdict chip g) s = .next t ∧
        (if sLe due d.tm.stroke = true then t.dev.gb.vq = d.gb.vq ++ [{ g with v := d.tm.stroke, what := 0 }]
         else t.dev.rl.verds = d.rl.verds ++ [{ g with v := due }] ∧ t.dev.gb = d.gb)) ∧
      (∃ t, exec (.rgTapCopy chip at_ x y z) s = .next t ∧ t.dev.si.tap = d.si.tap ++ [(at_, x, y, z)] ∧
        t.dev.ctr RL_TAP_COPIES = ctrAdd (d.ctr RL_TAP_COPIES) 1)) ∧
    (d.accel = true →
      (∃ t, exec (.rgRemoteAdd chip (.add a)) s = .next t ∧
        (if sOlder a.at_ d.tm.stroke = true then t.dev.cm = d.cm ∧ t.dev.ctr AG_BEV_LATE = ctrAdd (d.ctr AG_BEV_LATE) 1
         else t.dev.cm = { d.cm with adds := d.cm.adds ++ [{ a with from_ := chip.val }] })) ∧
      (sOlder e.at_ d.tm.stroke = false → ∃ t, exec (.rgRemoteAdd chip (.header e)) s = .next t ∧
        t.dev.cm = { d.cm with exps := d.cm.exps ++ [{ e with from_ := chip.val }] }) ∧
      (d.et.adapt = some ad → d.rf ET_CFG 8 8 - 1 < sDiff d.tm.stroke ad.issued →
        ∃ t, exec (.rgPartialSum chip 0 tab row vals) s = .next t ∧ t.dev.et.adapt = none ∧ t.dev.et.adStat = 4 ∧
          (∀ o ∈ t.dev.et.ops, o.adapt = true → o.aborted = true) ∧ (t.dev.rd ET_FAULT).getLsbD 1 = true ∧
          t.dev.ctr ET_ROW_LATE_CTR = ctrAdd (d.ctr ET_ROW_LATE_CTR) 1) ∧
      (d.et.adapt = some ad → sDiff d.tm.stroke ad.issued ≤ d.rf ET_CFG 8 8 - 1 → ad.applied = false →
        ∃ t, exec (.rgPartialSum chip 0 tab row vals) s = .next t ∧
          t.dev.et = { d.et with adapt := some { ad with sums := ad.sums ++ [(tab.val, row, chip.val, vals)] } }))

/-- Rings, coalescing, causes and the link of the host interface. RING_ENABLE of a ring that is neither enabled nor
locked, with LOG2_SIZE 4 to 16, enables and locks it and zeroes its indices; any other LOG2_SIZE leaves it as it was;
QMASK of rings 04 to 06 reads 0; RING_DISABLE clears EN and waits for the boundary. CONS past PROD and PROD that
moves back or too far are counted in ERR and ignored, otherwise taken. RECORD_DELIVER writes the oldest record into
slot PROD mod SIZE of a ring with room and then its status block; a full ring loses it. The coalescing timer sends or
makes pending the message of its ring; IRQ_CAUSE_CLEAR clears the bits named; HOST_INTERFACE_RESET empties the host
interface alone; PCIE_LINK_TRAINING sets the link's fields, up only with a partner in FLIT mode, and the function's
configuration: an entry to D3hot resets the host interface, and messages no longer masked are sent. (That MSI-X
Enable and Function Mask gate the messages is taken from PCI Express, log entry 161.) (16_host_pcie R404,
16_host_pcie R407, 16_host_pcie R408, 16_host_pcie R409, 16_host_pcie R416, 16_host_pcie R402, 20_address_map R479) -/
def Obligations.HostRings : Prop :=
  ∀ (s : State) (rr : Fin 7) (v : Word) (st : Stroke) (m : Nat) (bs : List Byte) (rest : List (Stroke × Nat × List Byte))
    (link : LinkEv) (width : BitVec 2) (rate : BitVec 3),
    let d := s.dev
    let r := d.ring rr.val
    let others (t : State) : Prop := ∀ e, e ≠ rr.val → t.dev.ring e = d.ring e
    (r.en = false → r.locked = false → ∃ t, exec (.ringEnable rr v) s = .next t ∧ others t ∧
      (4 ≤ fld v 1 5 → fld v 1 5 ≤ 16 → t.dev.ring rr.val =
        { r with en := true, locked := true, prod := 0, cons := 0, fetched := 0, lost := 0, last := 0 }) ∧
      (4 ≤ rr.val → fld (t.dev.rd (HI_RING_CFG rr.val)) 6 4 = 0) ∧
      (fld v 1 5 < 4 ∨ 16 < fld v 1 5 → t.dev.ring rr.val = r)) ∧
    (∃ t, exec (.ringDisable rr v) s = .next t ∧ others t ∧
      t.dev.ring rr.val = if r.en = true then { r with en := false, clr := true } else r) ∧
    (rr.val ≠ 5 → ∃ t, exec (.ringConsWrite rr v) s = .next t ∧ others t ∧
      (if (v - r.cons).toNat > (r.prod - r.cons).toNat
       then t.dev.ring rr.val = r ∧ t.dev.ctr (HI_RING_ERR rr.val) = ctrAdd (d.ctr (HI_RING_ERR rr.val)) 1
       else t.dev.ring rr.val = { r with cons := v })) ∧
    (∃ t, exec (.ringProdWrite v) s = .next t ∧
      (let q := d.ring 5
       if (v - q.prod).toNat > 2 ^ d.rf (HI_RING_CFG 5) 1 5 ∨ (v - q.fetched).toNat > 2 ^ d.rf (HI_RING_CFG 5) 1 5
       then t.dev.ring 5 = q ∧ t.dev.ctr (HI_RING_ERR 5) = ctrAdd (d.ctr (HI_RING_ERR 5)) 1
       else t.dev.ring 5 = { q with prod := v })) ∧
    (d.hi.outq = (st, m, bs) :: rest → rr.val < 4 → bitOf m rr.val = true → r.active = true →
      (∀ e, e < 4 → e ≠ rr.val → (bitOf m e = true → (d.ring e).active = false)) →
      let size := 2 ^ d.rf (HI_RING_CFG rr.val) 1 5
      ∃ t, exec .recordDeliver s = .next t ∧ t.dev.hi.outq = rest ∧ (t.dev.ring rr.val).cons = r.cons ∧
        (if (r.prod - r.cons).toNat < size then
           (t.dev.ring rr.val).prod = r.prod + 1 ∧ (t.dev.ring rr.val).last = st ∧
           t.dev.hi.mem = memWrite (memWrite d.hi.mem (d.ringBase rr.val + bs.length * (r.prod.toNat % size)) bs)
             (d.rdAddr (HI_RING_STAT_LO rr.val) (HI_RING_STAT_HI rr.val))
             (({ r with prod := r.prod + 1, last := st } : RingSt).block (r.prod + 1))
         else t.dev.hi.mem = d.hi.mem ∧ t.dev.ring rr.val = { r with lost := r.lost + 1 } ∧
           t.dev.ctr (HI_RING_LOST rr.val) = ctrAdd (d.ctr (HI_RING_LOST rr.val)) 1)) ∧
    (r.timer = true → r.unsig ≠ 0 →
      let w (k : Nat) : Word := smGet msixReset d.hi.msix (4 * ringVector rr.val + k)
      ∃ t, exec (.msixCoalesceTimer rr) s = .next t ∧ others t ∧
        t.dev.ring rr.val = { r with unsig := 0, timer := false } ∧
        (if fld (w 3) 0 1 = 1 ∨ d.hi.pci.sends = false then t.dev.out = d.out ∧
           t.dev.hi.pba = d.hi.pba ||| BitVec.ofNat 64 (2 ^ ringVector rr.val)
         else t.dev.hi.pba = d.hi.pba ∧
           t.dev.out = d.out ++ [.msix (ringVector rr.val) ((w 0).toNat + 2 ^ 32 * (w 1).toNat) (w 2)])) ∧
    (d.pm.held = false → ∃ t, exec (.irqCauseClear v) s = .next t ∧
      t.dev.hi = { d.hi with cause := d.hi.cause &&& ~~~v } ∧ t.dev.out = d.out) ∧
    (∃ t, exec .hostInterfaceReset s = .next t ∧
      t.dev.hi = { d.hi with rings := [], outq := [], fetchq := [], mbx := {}, msix := [], pba := 0, cause := 0, pci := {} } ∧
      (∀ e, e < 7 → fld (t.dev.rd (HI_RING_CFG e)) 0 1 = 0) ∧
      (∀ a, (∀ e, e < 7 → a ≠ HI_RING_CFG e) → t.dev.rd a = d.rd a) ∧ t.dev.tm = d.tm ∧ t.dev.mem = d.mem) ∧
    (d.pm.held = false → let up := link.up && link.flit
      ∃ t, exec (.pcieLinkTraining link width rate) s = .next t ∧ t.dev.hi.linkUp = up ∧ t.dev.hi.pci = link.cfg ∧
      t.dev.hi.width = (if up = true then width.toNat else 0) ∧
      t.dev.hi.rate = (if up = true then min 5 rate.toNat else 0) ∧
      (link.cfg.d3hot = true → d.hi.pci.d3hot = false → t.dev.hi.rings = [] ∧ t.dev.hi.mbx = {} ∧ t.dev.hi.msix = []) ∧
      (∀ n, n < 64 → link.cfg.sends = true → fld (smGet msixReset d.hi.msix (4 * n + 3)) 0 1 = 0 →
        t.dev.hi.pba.getLsbD n = false) ∧
      (up = true → d.hi.due13 = true → t.dev.hi.due13 = false ∧ t.dev.hi.cause.getLsbD 13 = true))

/-- Mailbox commands. A mailbox command while none runs writes its four arguments, sets STATE to BUSY and keeps its code;
while one runs it is counted and ignored. Each command, in the state and with the arguments that it demands, has its
effect: GET_ATTESTATION writes the signed report and RES0 512, GET_IMAGE_INFO the measurement and the header,
ENTER_MAINTENANCE asks for maintenance mode and stays BUSY, FLASH_READ copies flash to the buffer, FLASH_ERASE sets
64 KiB to all ones, FLASH_WRITE programs what reads back, each of the three in maintenance mode with a protection
set-up that agrees with its complements (one that does not is device-fatal); otherwise it ends BAD_STATE (4), RANGE
(5), BAD_CMD (3) or FLASH_ERR (6). MAILBOX_END shows the result, sends vector 3 and, after LEAVE_MAINTENANCE, makes a
reset due. (16_host_pcie R414, 16_host_pcie R415, 18_boot_security R448, 18_boot_security R436, 13_integrity_recovery
R349) -/
def Obligations.Mailbox : Prop :=
  ∀ (s : State) (a0 a1 a2 a3 : Word) (err : Bool),
    let d := s.dev
    let buf := a0.toNat + 2 ^ 32 * a1.toNat
    let off := a2.toNat
    let n := a3.toNat
    let ends (c : Instr) (code : Nat) (res : Option Nat) (P : Dev → Prop) : Prop := ∃ t, exec c s = .next t ∧
      t.dev.hi.mbx.state = 1 ∧ t.dev.hi.mbx.cmd = code ∧ t.dev.hi.mbx.result = res ∧
      t.dev.rd (HI_MBX_ARG 0) = a0 ∧ t.dev.rd (HI_MBX_ARG 1) = a1 ∧ t.dev.rd (HI_MBX_ARG 2) = a2 ∧
      t.dev.rd (HI_MBX_ARG 3) = a3 ∧ t.dev.tm = d.tm ∧ t.dev.mem = d.mem ∧ P t.dev
    let same (e : Dev) : Prop := e.hi.mem = d.hi.mem ∧ e.bt = d.bt ∧ e.hi.maintReq = d.hi.maintReq
    let buffer (bs : List Byte) (e : Dev) : Prop := e.hi.mem = memWrite d.hi.mem buf bs ∧ e.bt = d.bt
    let flash (o : Nat) (bs : List Byte) (e : Dev) : Prop :=
      e.bt = d.bt.flashWrite o bs ∧ e.hi.mem = d.hi.mem
    d.pm.held = false →
    (d.hi.mbx.state ≠ 1 →
      ends (.nop a0 a1 a2 a3) 1 (some 2) same ∧
      (d.tm.op = true ∨ d.hi.maint = true → d.bt.idFail = false → buf % 4096 = 0 →
        ends (.getAttestation a0 a1 a2 a3) 2 (some 2) (fun e =>
          buffer (d.attestation (memRead d.hi.mem buf 32)) e ∧ e.hi.mbx.res0 = 512)) ∧
      (d.tm.op = false → d.hi.maint = false → ends (.getAttestation a0 a1 a2 a3) 2 (some 4) same) ∧
      (d.tm.op = true → d.hi.maint = false →
        (buf % 4096 = 0 → ends (.getImageInfo a0 a1 a2 a3) 3 (some 2)
          (buffer ((d.bt.meas ++ zeros 64).take 64 ++ (d.bt.header ++ zeros 256).take 256))) ∧
        (buf % 4096 ≠ 0 → ends (.getImageInfo a0 a1 a2 a3) 3 (some 5) same) ∧
        (a2 = 0x544E494D → ends (.enterMaintenance a0 a1 a2 a3) 4 none (fun e =>
          e.hi.maintReq = true ∧ e.hi.maint = false ∧ e.hi.mem = d.hi.mem)) ∧
        (a2 ≠ 0x544E494D → ends (.enterMaintenance a0 a1 a2 a3) 4 (some 3) same)) ∧
      (d.hi.maint = true →
        (d.protHeld = false → ∀ c ∈ [Instr.flashRead a0 a1 a2 a3, .flashErase a0 a1 a2 a3 err, .flashWrite a0 a1 a2 a3 err],
          ∃ t, exec c s = .next t ∧ t.dev.flt.fatal = true) ∧
        (d.protHeld = true → buf % 4096 = 0 → 1 ≤ n → n ≤ 65536 → off + n ≤ d.bt.flashCap →
          ends (.flashRead a0 a1 a2 a3) 5 (some 2) (buffer (d.bt.flashRead off n))) ∧
        (d.protHeld = true → off % 65536 = 0 → off + 65536 ≤ d.bt.flashCap →
          ends (.flashErase a0 a1 a2 a3 false) 6 (some 2) (flash off (List.replicate 65536 0xFF))) ∧
        (d.protHeld = true → off % 65536 ≠ 0 ∨ d.bt.flashCap < off + 65536 → ends (.flashErase a0 a1 a2 a3 err) 6 (some 5) same) ∧
        (d.protHeld = true → buf % 4096 = 0 → off % 256 = 0 → n % 256 = 0 → n ≤ 4096 → off + n ≤ d.bt.flashCap →
          programBytes (d.bt.flashRead off n) (memRead d.hi.mem buf n) = memRead d.hi.mem buf n →
          ends (.flashWrite a0 a1 a2 a3 false) 7 (some 2) (flash off (memRead d.hi.mem buf n))) ∧
        (a2 = 0x544E494D → ends (.leaveMaintenance a0 a1 a2 a3) 8 (some 2) same) ∧
        (a2 ≠ 0x544E494D → ends (.leaveMaintenance a0 a1 a2 a3) 8 (some 3) same)) ∧
      (d.hi.maint = false →
        ends (.flashRead a0 a1 a2 a3) 5 (some 4) same ∧ ends (.flashErase a0 a1 a2 a3 err) 6 (some 4) same ∧
        ends (.flashWrite a0 a1 a2 a3 err) 7 (some 4) same ∧ ends (.leaveMaintenance a0 a1 a2 a3) 8 (some 4) same)) ∧
    (d.hi.mbx.state = 1 →
      (∀ c ∈ [Instr.nop a0 a1 a2 a3, .getAttestation a0 a1 a2 a3, .flashErase a0 a1 a2 a3 err], ∃ t, exec c s = .next t ∧
        t.dev.hi = d.hi ∧ t.dev.bt = d.bt ∧ t.dev.ctr HI_MBX_IGNORED = ctrAdd (d.ctr HI_MBX_IGNORED) 1) ∧
      (∀ r, d.hi.mbx.result = some r → ∃ t, exec .mailboxEnd s = .next t ∧ t.dev.hi.mbx.state = r ∧
        t.dev.hi.mbx.result = none ∧ t.dev.hi.cause.getLsbD 3 = true ∧
        (t.dev.hi.leave = true ↔ d.hi.leave = true ∨ (d.hi.mbx.cmd = 8 ∧ r = 2))))

/-- Writes of registers. An aligned write of 4 or 8 bytes to plain registers writes their RW bits and clears their W1C
bits, and no other register; a write of bad size or alignment, or where nothing lies, is counted and discarded; a BL
register takes no write and, once locked, counts it. A pair: its value waits, and reads keep the old one; a
complement that matches accepts it without applying it, one that does not is counted and discards it.
STREAM_MASK_WRITE sets a half of the mask register, which the next boundary applies. COUNTER_CLEAR zeroes one
counter. (00_scope R9, 00_scope R10, 00_scope R13, 02_intake R44, 16_host_pcie R406, 20_address_map R473,
20_address_map R474) -/
def Obligations.RegisterAccess : Prop :=
  ∀ (s : State) (a : Nat) (v : Word64) (r q : RegRow) (val w : Word) (mask : Nat) (b o size : Nat) (high : Bool),
    let d := s.dev
    let lo : Word := BitVec.ofNat 32 v.toNat
    let hi : Word := BitVec.ofNat 32 (v.toNat / 2 ^ 32)
    let m : Word := BitVec.ofNat 32 mask
    let pendOf (e : Dev) (k : Nat) : Option Word := smGet (fun _ => none) e.reg.pend k
    d.pm.held = false →
    (d.plainAt a r lo → a % 4 = 0 → a < 2 ^ 28 → ∃ t, exec (.registerWrite a 4 v) s = .next t ∧
      t.dev.rd a = r.written (d.rd a) lo ∧ ∀ e, e ≠ a → t.dev.rd e = d.rd e) ∧
    (d.plainAt a r lo → d.plainAt (a + 4) q hi → a % 8 = 0 → a < 2 ^ 28 → ∃ t, exec (.registerWrite a 8 v) s = .next t ∧
      t.dev.rd a = r.written (d.rd a) lo ∧ t.dev.rd (a + 4) = q.written (d.rd (a + 4)) hi ∧
      ∀ e, e ≠ a → e ≠ a + 4 → t.dev.rd e = d.rd e) ∧
    ((size ≠ 4 ∧ size ≠ 8) ∨ a % size ≠ 0 ∨ (regRow a = none ∧ ctrHit a = none ∧ size = 4 ∧ a < 2 ^ 28 ∧ 0x3008 ≤ a) →
      ∃ t, exec (.registerWrite a size v) s = .next t ∧ t.dev.ctr HI_BAR0_BAD = ctrAdd (d.ctr HI_BAR0_BAD) 1 ∧
        ∀ e, t.dev.rd e = d.rd e) ∧
    (regRow a = some r → ctrHit a = none → 0x3008 ≤ a → r.cMask = 0 → r.bl ≠ 0 → a % 4 = 0 → a < 2 ^ 28 →
      ∃ t, exec (.registerWrite a 4 v) s = .next t ∧
        t.dev.ctr BT_BL_IGNORED = ctrAdd (d.ctr BT_BL_IGNORED) (if d.bt.locked = true then 1 else 0) ∧
        ∀ e, t.dev.rd e = d.rd e) ∧
    (pairAt a mask → d.lg.replaying = false →
      (∃ t, exec (.complementValueWrite a val) s = .next t ∧ pendOf t.dev a = some val ∧
        (∀ e, t.dev.rd e = d.rd e ∧ t.dev.rdLive e = d.rdLive e) ∧ ∀ e, e ≠ a → pendOf t.dev e = pendOf d e) ∧
      (pendOf d a = some w →
        ∃ t, exec (.complementCWrite a val) s = .next t ∧ pendOf t.dev a = none ∧
          (∀ e, t.dev.rdLive e = d.rdLive e) ∧
          (if (w ^^^ val) &&& m = m then t.dev.rd a = w &&& m ∧ a ∈ t.dev.reg.acc ∧ ∀ e, e ≠ a → t.dev.rd e = d.rd e
           else (∀ e, t.dev.rd e = d.rd e) ∧ t.dev.reg.acc = d.reg.acc ∧
             t.dev.ctr FLT_CMPL_WRITE = ctrAdd (d.ctr FLT_CMPL_WRITE) 1))) ∧
    (d.lg.replaying = false → ∃ t, exec (.streamMaskWrite high val) s = .next t ∧ t.dev.ig.mask = d.ig.mask ∧
      (if high = true then t.dev.rd IG_STREAM_MASK_HI = (d.rd IG_STREAM_MASK_HI &&& 0xFFFF0000) ||| (val &&& 0xFFFF) ∧
         t.dev.rd IG_STREAM_MASK_LO = d.rd IG_STREAM_MASK_LO
       else t.dev.rd IG_STREAM_MASK_LO = val ∧ t.dev.rd IG_STREAM_MASK_HI = d.rd IG_STREAM_MASK_HI)) ∧
    (ctrHit a = some (b, o) → islandAddr a = false → ∃ t, exec (.counterClear a) s = .next t ∧ t.dev.ctr b = {} ∧
      (∀ e, e ≠ b → t.dev.ctr e = d.ctr e) ∧ ∀ e, t.dev.rd e = d.rd e)

/-- Reads of BAR0, accesses to BAR2. A 4-byte read of the low word of a 64-bit value answers it and captures the high
word for its requester, whose next read of that word answers the captured one, once. A read of bad size or alignment
answers all ones and is counted; one where nothing lies answers zero and is counted. A BAR2 read answers plane
memory, commons, flash and store bytes whatever errors are corrected on the way, of a tile plane all but the granules
that an uncorrectable error meets, and zeros with one BAR2_DENIED where nothing is mapped; a BAR2 write within one
protection window of the store takes effect, any other is counted and discarded, and a protection set-up that differs
from its complement is device-fatal. (00_scope R7, 16_host_pcie R406, 18_boot_security R446, 20_address_map R473,
20_address_map R480, 18_boot_security R435, 06_scratchpads R167, 13_integrity_recovery R349) -/
def Obligations.HostReads : Prop :=
  ∀ (s : State) (req a raw size len : Nat) (w : Word) (bs : List Byte) (errs : List CmnErr),
    let d := s.dev
    let captured (e : Dev) (k : Nat) : Option Word := smGet (fun _ => none) e.reg.capt (captKey req k)
    let answers (c : Instr) (x : List Byte) : Prop := ∃ t, exec c s = .next t ∧ t.dev.out = d.out ++ [.readData x]
    d.pm.held = false →
    (a % 4 = 0 → a < 2 ^ 28 → instOf (TB_CAP_VAL_LO 0) 0x20 24 a = none → instOf (TB_CAP_VAL_HI 0) 0x20 24 a = none →
      (captured d a = none → d.readWord raw a = some w → capOf a = 1 →
        ∃ t, exec (.reg64LowRead req a 4 raw) s = .next t ∧ t.dev.out = d.out ++ [.readData (toLE 4 w.toNat)] ∧
          captured t.dev (a + 4) = d.readWord raw (a + 4) ∧ ∀ e, t.dev.rd e = d.rd e) ∧
      (captured d a = some w → ∃ t, exec (.reg64LowRead req a 4 raw) s = .next t ∧
        t.dev.out = d.out ++ [.readData (toLE 4 w.toNat)] ∧ captured t.dev a = none)) ∧
    ((size ≠ 4 ∧ size ≠ 8) ∨ a % size ≠ 0 →
      answers (.bar0BadRead a size) (List.replicate size 0xFF) ∧ answers (.reg64LowRead req a size raw) (List.replicate size 0xFF)) ∧
    (a % 8 = 0 → a < 2 ^ 28 → d.readWord 0 a = none → d.readWord 0 (a + 4) = none →
      ∃ t, exec (.bar0BadRead a 8) s = .next t ∧ t.dev.out = d.out ++ [.readData (zeros 8)] ∧
        t.dev.ctr HI_BAR0_BAD = ctrAdd (d.ctr HI_BAR0_BAD) 1) ∧
    (a + len ≤ 0x10000000 → (∀ i, i < len → d.powered ((a + i) / 0x800000) false ((a + i) % 0x800000) = true) →
      ((∀ e ∈ errs, e.unc = false) → answers (.bar2Read a { len := len, errs := errs }) (memRead d.mem a len)) ∧
      ∃ t x, exec (.bar2Read a { len := len, errs := errs }) s = .next t ∧ t.dev.out = d.out ++ [.readData x] ∧ x.length = len ∧
        ∀ i, i < len → (∀ e ∈ errs, e.unc = true → (a + i) / 16 ≠ e.off / 16) → x[i]? = (memRead d.mem a len)[i]?) ∧
    (0x10000000 ≤ a → a + len ≤ 0x14000000 →
      (∀ i, i < len → d.powered ((a + i - 0x10000000) / 0x200000) true ((a + i) % 0x200000) = true) →
      (∀ e ∈ errs, e.unc = false) → answers (.bar2Read a { len := len, errs := errs }) (memRead d.mem a len)) ∧
    (0x20000000 ≤ a → a + len ≤ 0x27000000 → (∀ i, i < len → d.commonsOn (a + i - 0x20000000) = true) →
      (∀ e ∈ errs, e.unc = false) → answers (.bar2Read a { len := len, errs := errs })
        ((List.range len).map (fun i => (d.commonsRead (a + i - 0x20000000) 1).headD 0))) ∧
    (0x40000000 ≤ a → a + len ≤ 0x80000000 → a - 0x40000000 + len ≤ d.bt.flashCap →
      answers (.bar2Read a { len := len, errs := errs })
        ((List.range len).map (fun i => memGet d.bt.flash (d.bt.flashKey (a + i - 0x40000000))))) ∧
    (0x100000000 ≤ a → a + len ≤ 0x200000000 → d.xs.ready = true → a - 0x100000000 + len ≤ d.xs.cap →
      answers (.bar2Read a { len := len, errs := errs }) (memRead d.xs.mem (a - 0x100000000) len)) ∧
    (0x14000000 ≤ a → a + len ≤ 0x20000000 → 0 < len → ∃ t, exec (.bar2Read a { len := len, errs := errs }) s = .next t ∧
      t.dev.out = d.out ++ [.readData (zeros len)] ∧ t.dev.ctr HI_BAR2_DENIED = ctrAdd (d.ctr HI_BAR2_DENIED) 1) ∧
    (bs ≠ [] → d.protHeld = false → ∃ t, exec (.bar2Write a bs) s = .next t ∧ t.dev.flt.fatal = true) ∧
    (bs ≠ [] → d.protHeld = true →
      (let o := a - 0x100000000
       if 0x100000000 ≤ a ∧ d.xs.ready = true ∧ o + bs.length ≤ d.xs.cap ∧ d.inProt o (o + bs.length) = true
       then ∃ t, exec (.bar2Write a bs) s = .next t ∧ t.dev.xs.mem = memWrite d.xs.mem o bs ∧
         t.dev.ctr HI_BAR2_DENIED = d.ctr HI_BAR2_DENIED ∧ t.dev.mem = d.mem
       else ∃ t, exec (.bar2Write a bs) s = .next t ∧ t.dev.xs = d.xs ∧ t.dev.mem = d.mem ∧ t.dev.bt = d.bt ∧
         t.dev.ctr HI_BAR2_DENIED = ctrAdd (d.ctr HI_BAR2_DENIED) 1))

/-- The channels of the external store. XS_INIT of a store that is neither ready nor in error takes the devices found and
sets READY, or GEOM_ERR where a channel failed, the channels differ or the devices are not supported, and each
channel's status. XS_BURST serves a request of the highest class among those that wait, merges what goes on in its
row, counts corrections among the bursts that it reads, keeps an uncorrectable burst as bad, and changes no data.
XS_PROMOTE puts requests that have waited 8 µs in the top class; XS_SCRUB queues the next device row of each channel
in the lowest class; XS_CHECK_WRITEBACK writes back the check burst changed longest; XS_RETRAIN stores the delay in
use. The strobe delay is the centre found with the signed DQS_TRIM added; that the sum wraps in 6 bits is the model's
choice, log entry 134. (17_external_store R426, 17_external_store R427, 17_external_store R428, 17_external_store
R429, 17_external_store R430, 17_external_store R432) -/
def Obligations.StoreControllers : Prop :=
  ∀ (s : State) (ch : Fin 32) (corr : Nat) (unc : Bool) (victim raw : Nat) (delay : BitVec 6) (fail : BitVec 32) (same : Bool)
    (two : BitVec 1) (density : BitVec 2) (id0 id1 : List (BitVec 8)) (ds : List (BitVec 6)) (pre post : List ChkBurst) (b : ChkBurst),
    let d := s.dev
    let c := d.xsChan ch.val
    let strobe (centre : Nat) := wrapN 6 ((centre : Int) + sext 6 (d.rf (XS_CH_CFG ch.val) 0 6))
    let others (t : State) : Prop := ∀ e, e ≠ ch.val → t.dev.xsChan e = d.xsChan e
    (d.pm.held = false → d.xs.ready = false → d.xs.geomErr = false →
      ∃ t, exec (.xsInit fail same two density id0 id1 ds) s = .next t ∧
        (t.dev.xs.ready = true ↔ fail = 0 ∧ same = true ∧ ¬ (two = 1 ∧ density = 3)) ∧
        t.dev.xs.geomErr = !t.dev.xs.ready ∧ t.dev.xs.mem = d.xs.mem ∧
        t.dev.xs.devicesM1 = two.toNat ∧ t.dev.xs.density = density.toNat ∧
        fld (t.dev.rd (XS_CH_STATUS ch.val)) 0 6 = strobe (ds.getD ch.val 0).toNat ∧
        bitOf (t.dev.rd (XS_CH_STATUS ch.val)).toNat 7 = fail.getLsbD ch.val ∧
        fld (t.dev.rd (XS_CH_STATUS ch.val)) 8 8 = (id0.getD ch.val 0).toNat) ∧
    (∀ r rest, d.xs.ready = true → nextReq c.reqs = some (r, rest) →
      let m := mergeReqs r.off r.rank r.write rest.length r.len rest
      let lo := r.off / 32 * 32
      let hi := (r.off + m.1 + 31) / 32 * 32
      let reads := readBursts r.write r.off m.1 lo hi
      let good := reads.countP (fun o => d.xs.badIn (xsAddr ch.val o) 32) = 0
      (∀ q ∈ c.reqs, r.rank ≤ q.rank) ∧ r ∈ c.reqs ∧
      ∃ t, exec (.xsBurst ch corr unc victim) s = .next t ∧ others t ∧ t.dev.xs.mem = d.xs.mem ∧
        (t.dev.xsChan ch.val).reqs = m.2 ∧ m.2.length < c.reqs.length ∧ (t.dev.xsChan ch.val).scrub = c.scrub ∧
        t.dev.ctr (XS_CORR ch.val) = ctrAdd (d.ctr (XS_CORR ch.val)) (min corr reads.length) ∧
        (unc = false → t.dev.xs.bad = d.xs.bad.eraseDups) ∧
        (unc = false → good → t.dev.ctr (XS_UNCORR ch.val) = d.ctr (XS_UNCORR ch.val)) ∧
        (∀ o more, unc = true → reads = o :: more → xsAddr ch.val o / 32 ∈ t.dev.xs.bad)) ∧
    (∃ t, exec (.xsPromote ch raw) s = .next t ∧ others t ∧ (t.dev.xsChan ch.val).reqs.length = c.reqs.length ∧
      ∀ (i : Nat) (r : XsReq), c.reqs[i]? = some r → ∃ r' : XsReq, (t.dev.xsChan ch.val).reqs[i]? = some r' ∧
        (if r.at_ + 9600 ≤ raw then r' = { r with top := true } ∧ r'.rank = 1 else r' = r)) ∧
    (c.cache = pre ++ b :: post → b.changed = true → (∀ x ∈ pre, x.changed = true → b.at_ ≤ x.at_) →
      (∀ x ∈ post, x.changed = true → b.at_ < x.at_) →
      ∃ t, exec (.xsCheckWriteback ch) s = .next t ∧ others t ∧ (t.dev.xsChan ch.val).reqs = c.reqs ∧
        (t.dev.xsChan ch.val).cache.length = c.cache.length ∧ { b with changed := false } ∈ (t.dev.xsChan ch.val).cache ∧
        b ∉ (t.dev.xsChan ch.val).cache ∧ (∀ x ∈ c.cache, x.idx ≠ b.idx → x ∈ (t.dev.xsChan ch.val).cache) ∧
        t.dev.ctr (XS_WR_BURSTS ch.val) = ctrAdd (d.ctr (XS_WR_BURSTS ch.val)) 1) ∧
    (d.xs.ready = true → ∃ t, exec .xsScrub s = .next t ∧
      (t.dev.xsChan ch.val).reqs = c.reqs ++
        [{ cls := 5, off := 2048 * c.scrub, len := 2048, write := false, at_ := d.tm.raw, id := d.xs.next + 1 }] ∧
      (t.dev.xsChan ch.val).scrub = (c.scrub + 1) % (d.xs.chData / 2048) ∧ t.dev.xs.mem = d.xs.mem) ∧
    (d.xs.ready = true → ∃ t, exec (.xsRetrain ch delay) s = .next t ∧ t.dev.xs = d.xs ∧
      fld (t.dev.rd (XS_CH_STATUS ch.val)) 0 6 = strobe delay.toNat ∧
      fld (t.dev.rd (XS_CH_STATUS ch.val)) 6 26 = fld (d.rd (XS_CH_STATUS ch.val)) 6 26 ∧
      (∀ e, e ≠ XS_CH_STATUS ch.val → t.dev.rd e = d.rd e) ∧
      t.dev.ctr (XS_RETRAIN ch.val) = ctrAdd (d.ctr (XS_RETRAIN ch.val)) 1)

/-- Resets, rails, clocks and temperature. RESET_N of 100 ns or more, or of 40 ns and more where it is taken, the main
power-on reset and the internal pulse each hold the device with their CAUSE; they keep the store's data, but for the
loss of VDDIO, fuses, flash and what R456 names, and reset every other register, the arrays ramping down but for the
main power-on reset, which keeps the island's registers and counters. RESET_RELEASE of a device that is held, with
the rails in range that its cause asks for, samples the straps, counts BOOTS, locks the PLL and starts the links in
use. ISLAND_POR resets the island alone. A lost main supply, a lost PLL and two reads at TSHUT, of one sensor or of
two, are device-fatal; in reset a rail's fall is not. (19_power_clocks_reset R452, 19_power_clocks_reset R455,
19_power_clocks_reset R456, 19_power_clocks_reset R457, 19_power_clocks_reset R458, 19_power_clocks_reset R460,
19_power_clocks_reset R469, 12_safety R338, 15_regatta R382) -/
def Obligations.ResetsAndPower : Prop :=
  ∀ (s : State) (sel cnt : BitVec 2) (maintN taken refclk : Bool) (ns : Nat) (rail : Fin 6) (l : List Int) (j : Fin 4),
    let d := s.dev
    let may : Prop := d.pm.cause = 2 ∨ d.pm.rails = 0x3F ∨ (d.pm.cause = 0 ∧ d.pm.rails = 0x3B)
    let shut : Int := (d.rf PM_THERM_CFG 18 11 : Nat)
    let kept (t : State) : Prop := t.dev.xs.mem = d.xs.mem ∧ ∀ b ∈ d.xs.bad, b ∈ t.dev.xs.bad
    let reset (cause : Nat) (por : Bool) (t : State) : Prop :=
      t.dev.pm.held = true ∧ t.dev.pm.cause = cause ∧ t.dev.tm = {} ∧ t.dev.ig = {} ∧ t.dev.gb = {} ∧ t.dev.cm = {} ∧
      t.dev.cw = (if por = true then {} else { vol := d.cw.ramps }) ∧ t.dev.ag = {} ∧ t.dev.et = {} ∧ t.dev.rl = {} ∧ t.dev.mem = [] ∧ t.dev.hi = { mem := d.hi.mem } ∧
      t.dev.xs.ready = false ∧ t.dev.xs.chans = [] ∧ t.dev.flt = { boots := d.flt.boots } ∧
      t.dev.bt = { fuse := d.bt.fuse, svA := d.bt.svA, svB := d.bt.svB, flash := d.bt.flash } ∧
      (∀ a, (if por = true then islandAddr a else recRegs.contains a) = false → t.dev.rd a = regReset a) ∧
      (∀ a, (if por = true then islandAddr a else recRegs.contains a) = true → t.dev.rd a = d.rd a) ∧
      (∀ a, t.dev.ctr a = if por = true ∧ islandAddr a = true then d.ctr a else {})
    (∃ t, exec (.resetNAssert ns taken) s = .next t ∧
      (if 100 ≤ ns ∨ (40 ≤ ns ∧ taken = true) then reset 1 false t ∧ kept t ∧ t.dev.si = {} ∧ t.dev.lg.session = d.lg.session
       else t = s)) ∧
    (∃ t, exec (.mainPor rail) s = .next t ∧
      (if rail.val = 0 ∨ rail.val = 1 ∨ rail.val = 3
       then reset 0 true t ∧ (if rail.val = 3 then t.dev.xs = {} else kept t) ∧ t.dev.pm.rails.getLsbD rail.val = false ∧ t.dev.si.thr = d.si.thr ∧ t.dev.lg = {} ∧
         t.dev.si.running = false ∧ t.dev.si.pin = false ∧ t.dev.si.tested = false
       else t = s)) ∧
    (∃ t, exec .internalResetPulse s = .next t ∧ (if d.hi.leave = true then reset 2 false t ∧ kept t else t = s)) ∧
    (d.pm.held = true → may → ∃ t, exec (.resetRelease sel cnt maintN) s = .next t ∧
      t.dev.pm = { d.pm with held := false, rootLock := true, refclk := true, chipSel := sel.toNat,
                             chipCntM1 := cnt.toNat, maintN := maintN } ∧
      t.dev.cw = {} ∧ t.dev.rl.chip = sel.toNat ∧ t.dev.rl.countM1 = cnt.toNat ∧ t.dev.flt = { d.flt with boots := d.flt.boots + 1 } ∧
      (j.val ≤ cnt.toNat → sel.toNat ≤ cnt.toNat → j.val ≠ sel.toNat → t.dev.link (linkOf sel.toNat j.val) = { state := 1 })) ∧
    (d.pm.held = false ∨ ¬ may → ∃ t, exec (.resetRelease sel cnt maintN) s = .next t ∧ t = s) ∧
    (∃ t, exec .islandPor s = .next t ∧ t.dev.si = { portOpen := !d.bt.locked } ∧ t.dev.pm.rails.getLsbD 2 = false ∧
      (∀ a, t.dev.rd a = if islandAddr a = true then regReset a else d.rd a) ∧
      (∀ a, t.dev.ctr a = if islandAddr a = true then {} else d.ctr a) ∧ t.dev.tm = d.tm ∧ t.dev.mem = d.mem) ∧
    (∃ t, exec (.railExcursion rail) s = .next t ∧ t.dev.pm.rails.getLsbD rail.val = false ∧
      (rail.val ≤ 1 → d.pm.held = false → t.dev.flt.fatal = true) ∧
      (rail.val = 2 → d.pm.held = false → t.dev.si.fatal = true) ∧ (d.pm.held = true → t.dev.si.fatal = d.si.fatal) ∧
      (3 ≤ rail.val → t.dev.flt = d.flt ∧ t.dev.ctr PM_RAIL_WARN = ctrAdd (d.ctr PM_RAIL_WARN) 1)) ∧
    (∃ t, exec (.railReturn rail) s = .next t ∧ t.dev.pm.rails.getLsbD rail.val = true ∧
      (∀ e, e ≠ rail.val → t.dev.pm.rails.getLsbD e = d.pm.rails.getLsbD e) ∧ t.dev.si = d.si) ∧
    (d.pm.held = false → ∃ t, exec (.rootPllLoss refclk) s = .next t ∧ t.dev.pm.rootLock = false ∧
      t.dev.pm.refclk = (d.pm.refclk && !refclk) ∧ t.dev.flt.fatal = true) ∧
    (d.pm.held = false → l.length = 17 → ∃ t, exec (.thermalRead l) s = .next t ∧
      (∀ n x, l[n]? = some x → t.dev.rd (PM_THERM_TEMP n) = BitVec.ofNat 32 (wrapN 12 x) ∧
        t.dev.pm.atShut.getLsbD n = decide (shut ≤ x)) ∧
      (∀ n x m, n < 16 → l[n]? = some x → shut ≤ x → m < 16 → d.pm.atShut.getLsbD m = true →
        t.dev.flt.fatal = true) ∧
      ((∀ x ∈ l, x < shut) → t.dev.flt = d.flt))

/-- The boot sequence, step by step, and the enrolment. After the release from reset BOOT runs the steps of R442 in
order, and the first that fails stops it in maintenance mode, locked, with no image placed, and with the reason of
that step: the fuses, MAINT_N, the flash devices, the header, the layout, the form of the signature block, the
signer, the signatures, the security version, the store's geometry, a section's digest, a rule of the image, the
restart copy or the windows. While the store is neither ready nor in error nothing is placed. Where every step passes
the chip is placed and locked. The key store has worked in every case, the sections before a bad digest have been
placed, and a stopped boot leaves SAFE_OK low for good. FUSE_ENROL in the operational state programs the signer and
CLOSED into an open device, changes fuse bits from 0 to 1 only, and raises MIN_SV to the image's security version.
What the key store unwraps, and which SFDP tables are valid, are constants of the configuration that nothing
constrains. (18_boot_security R438, 18_boot_security R439, 18_boot_security R440, 18_boot_security R442,
18_boot_security R444, 18_boot_security R445, 18_boot_security R446, 18_boot_security R447, 10_program_image R260,
10_program_image R263) -/
def Obligations.BootSequence : Prop :=
  ∀ (s : State) (l : List FlashDev),
    let d := s.dev
    let b := d.bt.found l
    let stops (reason entry : Nat) : Prop := ∃ t, exec (.boot l) s = .next t ∧ t.dev.bt.state = 3 ∧
      t.dev.bt.reason = reason ∧ t.dev.bt.entry = entry ∧ t.dev.hi.maint = true ∧ t.dev.bt.locked = true ∧
      t.dev.bt.placed = false ∧ t.dev.rd BT_LOCK = 1 ∧ t.dev.bt.idFail = d.bt.idSeed.isNone ∧
      t.dev.si.running = false ∧ t.dev.si.pin = false ∧ t.dev.si.maint = true ∧ (d.hi.linkUp = false → t.dev.hi.due13 = true)
    let e := d.afterStep8 l
    let p := e.findLog.placeAll (placeOrder b.dir) (b.badDigest (placeOrder b.dir))
    (d.pm.held = false → d.tm.op = false → d.pm.rootLock = true → d.si.pllLost = false → d.bt.placed = false → d.bt.state = 0 →
      (d.bt.fusesOk = false → stops 0x16 0x7FF) ∧
      (d.bt.fusesOk = true → d.pm.maintN = false → stops 0x20 0x7FF) ∧
      (d.bt.fusesOk = true → d.pm.maintN = true → flashOk l = false → stops 0x13 0x7FF) ∧
      (d.bt.fusesOk = true → d.pm.maintN = true → flashOk l = true →
        (hdrOk b.imgHeader d.rl.chip d.rl.countM1 = false → stops 0x01 0x7FF) ∧
        (hdrOk b.imgHeader d.rl.chip d.rl.countM1 = true → b.layoutOk = false → stops 0x02 0x7FF) ∧
        (hdrOk b.imgHeader d.rl.chip d.rl.countM1 = true → b.layoutOk = true → ¬ b.sigForm → stops 0x04 0x7FF) ∧
        (hdrOk b.imgHeader d.rl.chip d.rl.countM1 = true → b.layoutOk = true → b.sigForm →
          (b.signerOk (leNat (signerOf b.sigBlock)) = false → stops 0x11 0x7FF) ∧
          (b.signerOk (leNat (signerOf b.sigBlock)) = true → sigsOk b.sigBlock b.measure = false → stops 0x04 0x7FF) ∧
          (b.signerOk (leNat (signerOf b.sigBlock)) = true → sigsOk b.sigBlock b.measure = true →
            (hdrSv b.imgHeader < b.minSv ∨ 64 < hdrSv b.imgHeader → stops 0x12 0x7FF) ∧
            (b.minSv ≤ hdrSv b.imgHeader → hdrSv b.imgHeader ≤ 64 →
              (d.xs.geomErr = true → stops 0x14 0x7FF) ∧
              (d.xs.geomErr = false → d.xs.ready = false → ∃ t, exec (.boot l) s = .next t ∧ t.dev.bt = e.bt ∧
                t.dev.bt.placed = false ∧ t.dev.hi.maint = d.hi.maint ∧ t.dev.mem = d.mem) ∧
              (d.xs.geomErr = false → d.xs.ready = true →
                (∀ x, b.badDigest (placeOrder b.dir) = some x → stops 0x03 x.idx ∧
                  ∃ t, exec (.boot l) s = .next t ∧ t.dev.mem = p.mem) ∧
                (b.badDigest (placeOrder b.dir) = none →
                  (∀ r n, p.imageFault = some (r, n) → stops r n) ∧
                  (p.imageFault = none → p.writeCopy = none → stops 0x15 0x7FF) ∧
                  (∀ c, p.imageFault = none → p.writeCopy = some c →
                    (16 < c.protSetup.length → stops 0x15 0x7FF) ∧
                    (c.protSetup.length ≤ 16 → ∃ t, exec (.boot l) s = .next t ∧ t.dev.bt.placed = true ∧
                      t.dev.bt.locked = true ∧ t.dev.bt.state = 0 ∧ t.dev.hi.maint = d.hi.maint ∧
                      t.dev.si.portOpen = false ∧ t.dev.bt.header = b.imgHeader ∧ t.dev.bt.meas = b.measure ∧
                      t.dev.mem = p.mem))))))))) ∧
    (d.tm.op = true → d.bt.signer.length = 64 → hdrSv d.bt.header ≤ 64 → ∃ t, exec .fuseEnrol s = .next t ∧
      t.dev.bt.minSv = max d.bt.minSv (hdrSv d.bt.header) ∧
      (memRead d.bt.fuse fuseKey 128 = zeros 128 → memRead d.bt.fuse fuseClosed 8 = zeros 8 →
        t.dev.bt.closed = true ∧ t.dev.bt.keyHash = leNat d.bt.signer) ∧
      (∀ a, memGet t.dev.bt.fuse a ||| memGet d.bt.fuse a = memGet t.dev.bt.fuse a) ∧
      (d.bt.closed = true → t.dev.bt.fuse = d.bt.fuse) ∧
      t.dev.bt.flash = d.bt.flash ∧ t.dev.tm = d.tm ∧ t.dev.mem = d.mem)

/-- Saturating counters. A SAT counter counts events; at all-ones it stops and sets its overflow bit, and from then on
its two words read all-ones and its overflow bit reads 1, whatever is counted. COUNTER_CLEAR sets it to zero and
clears the overflow bit, and an event counted after it makes it 1. No other counter changes. (00_scope R10) -/
def Obligations.SaturatingCounters : Prop :=
  ∀ (s : State) (a n raw : Nat),
    let d := s.dev
    let c := d.ctr a
    let e := d.bump a n
    let full : Ctr := { v := 2 ^ 64 - 1, ovf := true }
    (1 ≤ n → c.v + n < 2 ^ 64 - 1 → e.ctr a = { v := c.v + n, ovf := c.ovf }) ∧
    (1 ≤ n → 2 ^ 64 - 1 ≤ c.v + n → e.ctr a = full) ∧
    (c = full → e.ctr a = full) ∧
    (∀ k, k ≠ a → e.ctr k = d.ctr k) ∧
    (c = full → ctrHit a = some (a, 0) → ctrHit (a + 4) = some (a, 4) → ctrHit (a + 8) = some (a, 8) → 0x3008 ≤ a →
      d.readWord raw a = some 0xFFFFFFFF ∧ d.readWord raw (a + 4) = some 0xFFFFFFFF ∧
      ∃ w : Word, d.readWord raw (a + 8) = some w ∧ w.getLsbD 1 = true) ∧
    (ctrHit a = some (a, 0) → islandAddr a = false → ∃ t, exec (.counterClear a) s = .next t ∧
      t.dev.ctr a = { v := 0, ovf := false } ∧ (t.dev.bump a 1).ctr a = { v := 1, ovf := false })

/-- Serial-number comparison. older(v, c, n) holds exactly where (c − v) mod 2^n is neither 0 nor more than 2^(n−1); a
value exactly 2^(n−1) from the reference is older. Stroke numbers are compared so with n = 48. (00_scope R15) -/
def Obligations.SerialNumbers : Prop :=
  ∀ (v c n : Nat) (x y : Stroke),
    (older v c n = true ↔ ((c : Int) - v) % ((2 ^ n : Nat) : Int) ≠ 0 ∧
      ((c : Int) - v) % ((2 ^ n : Nat) : Int) ≤ ((2 ^ (n - 1) : Nat) : Int)) ∧
    (1 ≤ n → older (c + 2 ^ (n - 1)) c n = true ∧ older c (c + 2 ^ (n - 1)) n = true) ∧
    (sOlder x y = true ↔ x ≠ y ∧ (y - x).toNat ≤ 2 ^ 47)
end

