-- ==== Sys2Proof/Laws/SMap.lean ====
section
/-! SUPPORT. Laws of sparse maps and byte memories: what a read finds after a write, and that every operation keeps the
canonical form. -/

namespace Sys2Proof.Machine

variable {α : Type}

@[simp] theorem smGet_nil (d : Nat → α) (k : Nat) : smGet d [] k = d k := rfl

theorem smGet_smErase_same (d : Nat → α) (m : SMap α) (k : Nat) : smGet d (smErase m k) k = d k := by
  induction m with
  | nil => rfl
  | cons p r ih =>
    obtain ⟨j, x⟩ := p
    by_cases h : j = k
    · subst h; simpa [smErase] using ih
    · have : (j != k) = true := by simp [h]
      simp only [smErase, List.filter_cons, this, if_true, smGet, if_neg (Ne.symm h)]
      exact ih

theorem smGet_smErase_ne (d : Nat → α) (m : SMap α) {j k : Nat} (h : j ≠ k) :
    smGet d (smErase m k) j = smGet d m j := by
  induction m with
  | nil => rfl
  | cons p r ih =>
    obtain ⟨i, x⟩ := p
    by_cases hi : i = k
    · subst hi
      simp only [smErase, List.filter_cons, bne_self_eq_false, Bool.false_eq_true, if_false, smGet, if_neg h]
      exact ih
    · have : (i != k) = true := by simp [hi]
      simp only [smErase, List.filter_cons, this, if_true, smGet]
      split
      · rfl
      · exact ih

theorem smGet_smInsert_same (d : Nat → α) (m : SMap α) (k : Nat) (v : α) (h : ∀ p ∈ m, p.1 ≠ k) :
    smGet d (smInsert m k v) k = v := by
  induction m with
  | nil => simp [smInsert, smGet]
  | cons p r ih =>
    obtain ⟨j, x⟩ := p
    have hj : j ≠ k := h (j, x) (by simp)
    simp only [smInsert]
    split
    · simp [smGet]
    · simp only [smGet, if_neg (Ne.symm hj)]
      exact ih (fun q hq => h q (by simp [hq]))

theorem smGet_smInsert_ne (d : Nat → α) (m : SMap α) {j k : Nat} (v : α) (h : j ≠ k) :
    smGet d (smInsert m k v) j = smGet d m j := by
  induction m with
  | nil => simp [smInsert, smGet, h]
  | cons p r ih =>
    obtain ⟨i, x⟩ := p
    simp only [smInsert]
    split
    · simp [smGet, h]
    · simp only [smGet, ih]

theorem mem_smErase_ne {m : SMap α} {k : Nat} {p : Nat × α} (h : p ∈ smErase m k) : p.1 ≠ k := by
  simpa using (List.mem_filter.mp h).2

variable [DecidableEq α]

/-- A read of the key that was set. -/
@[simp] theorem smGet_smSet_same (d : Nat → α) (m : SMap α) (k : Nat) (v : α) : smGet d (smSet d m k v) k = v := by
  unfold smSet
  split
  · next h => rw [smGet_smErase_same, h]
  · exact smGet_smInsert_same d _ k v (fun _ hp => mem_smErase_ne hp)

/-- A read of another key. -/
theorem smGet_smSet_ne (d : Nat → α) (m : SMap α) {j k : Nat} (v : α) (h : j ≠ k) :
    smGet d (smSet d m k v) j = smGet d m j := by
  unfold smSet
  split
  · exact smGet_smErase_ne d m h
  · rw [smGet_smInsert_ne d _ v h, smGet_smErase_ne d m h]

/-- A read of any key. -/
theorem smGet_smSet (d : Nat → α) (m : SMap α) (j k : Nat) (v : α) :
    smGet d (smSet d m k v) j = if j = k then v else smGet d m j := by
  split
  · next h => subst h; simp
  · next h => exact smGet_smSet_ne d m v h

/-! ### The canonical form -/

theorem smWf_filter (d : Nat → α) (m : SMap α) (q : Nat × α → Bool) (h : smWf d m = true) :
    smWf d (m.filter q) = true := by
  induction m with
  | nil => rfl
  | cons p r ih =>
    obtain ⟨j, x⟩ := p
    simp only [smWf, Bool.and_eq_true, List.all_eq_true, decide_eq_true_eq] at h
    obtain ⟨⟨h1, h2⟩, h3⟩ := h
    rw [List.filter_cons]
    split
    · simp only [smWf, Bool.and_eq_true, List.all_eq_true, decide_eq_true_eq]
      exact ⟨⟨h1, fun q' hq => h2 q' (List.mem_filter.mp hq).1⟩, ih h3⟩
    · exact ih h3

omit [DecidableEq α] in
theorem mem_smInsert {m : SMap α} {k : Nat} {v : α} {p : Nat × α} (h : p ∈ smInsert m k v) :
    p = (k, v) ∨ p ∈ m := by
  induction m with
  | nil => simpa [smInsert] using h
  | cons q r ih =>
    obtain ⟨j, x⟩ := q
    simp only [smInsert] at h
    split at h
    · simpa using h
    · rcases List.mem_cons.mp h with h | h
      · exact Or.inr (by simp [h])
      · rcases ih h with h | h
        · exact Or.inl h
        · exact Or.inr (by simp [h])

theorem smWf_smInsert (d : Nat → α) (m : SMap α) (k : Nat) (v : α) (hv : v ≠ d k) (hk : ∀ p ∈ m, p.1 ≠ k)
    (h : smWf d m = true) : smWf d (smInsert m k v) = true := by
  induction m with
  | nil => simp [smInsert, smWf, hv]
  | cons p r ih =>
    obtain ⟨j, x⟩ := p
    simp only [smWf, Bool.and_eq_true, List.all_eq_true, decide_eq_true_eq] at h
    obtain ⟨⟨h1, h2⟩, h3⟩ := h
    have hj : j ≠ k := hk (j, x) (by simp)
    simp only [smInsert]
    split
    · next hlt =>
      simp only [smWf, Bool.and_eq_true, List.all_eq_true, decide_eq_true_eq, List.mem_cons]
      refine ⟨⟨hv, ?_⟩, ⟨h1, h2⟩, h3⟩
      rintro q (rfl | hq)
      · exact hlt
      · exact lt_trans hlt (h2 q hq)
    · next hlt =>
      simp only [smWf, Bool.and_eq_true, List.all_eq_true, decide_eq_true_eq]
      refine ⟨⟨h1, ?_⟩, ih (fun q hq => hk q (by simp [hq])) h3⟩
      intro q hq
      rcases mem_smInsert hq with rfl | hq
      · show j < k
        omega
      · exact h2 q hq

/-- Setting a key keeps the canonical form. -/
theorem smWf_smSet (d : Nat → α) (m : SMap α) (k : Nat) (v : α) (h : smWf d m = true) :
    smWf d (smSet d m k v) = true := by
  unfold smSet
  split
  · exact smWf_filter d m _ h
  · next hv => exact smWf_smInsert d _ k v hv (fun _ hp => mem_smErase_ne hp) (smWf_filter d m _ h)

/-! ### Byte memories -/

@[simp] theorem memGet_memSet_same (m : Mem) (a : Nat) (b : Byte) : memGet (memSet m a b) a = b := by
  simp [memGet, memSet]

theorem memGet_memSet_ne (m : Mem) {a c : Nat} (b : Byte) (h : c ≠ a) : memGet (memSet m a b) c = memGet m c :=
  smGet_smSet_ne _ m b h

/-- A write leaves every byte outside its range. -/
theorem memGet_memWrite_out (m : Mem) (a c : Nat) (bs : List Byte) (h : c < a ∨ a + bs.length ≤ c) :
    memGet (memWrite m a bs) c = memGet m c := by
  induction bs generalizing m a with
  | nil => rfl
  | cons b r ih =>
    simp only [List.length_cons] at h
    simp only [memWrite]
    rw [ih _ _ (by omega), memGet_memSet_ne _ _ (by omega)]

/-- A write's own bytes. -/
theorem memGet_memWrite_in (m : Mem) (a i : Nat) (bs : List Byte) (h : i < bs.length) :
    memGet (memWrite m a bs) (a + i) = bs[i] := by
  induction bs generalizing m a i with
  | nil => simp at h
  | cons b r ih =>
    simp only [memWrite]
    cases i with
    | zero => rw [memGet_memWrite_out _ _ _ _ (by omega)]; simp
    | succ n =>
      have := ih (memSet m a b) (a + 1) n (by simpa using h)
      rw [show a + (n + 1) = a + 1 + n by omega, this]; simp

theorem memRead_congr (m m' : Mem) (a n : Nat) (h : ∀ i, i < n → memGet m (a + i) = memGet m' (a + i)) :
    memRead m a n = memRead m' a n := by
  induction n generalizing a with
  | zero => rfl
  | succ n ih =>
    simp only [memRead]
    rw [ih (a + 1) (fun i hi => by rw [show a + 1 + i = a + (i + 1) by omega]; exact h _ (by omega))]
    have := h 0 (by omega)
    simp only [Nat.add_zero] at this
    rw [this]

@[simp] theorem memRead_length (m : Mem) (a n : Nat) : (memRead m a n).length = n := by
  induction n generalizing a with
  | zero => rfl
  | succ n ih => simp [memRead, ih]

/-- A read of what was just written. -/
theorem memRead_memWrite (m : Mem) (a : Nat) (bs : List Byte) : memRead (memWrite m a bs) a bs.length = bs := by
  induction bs generalizing m a with
  | nil => rfl
  | cons b r ih =>
    simp only [List.length_cons, memRead, memWrite]
    rw [ih, memGet_memWrite_out _ _ _ _ (by omega)]; simp

@[simp] theorem Memory.wf_nil : Memory.wf [] = true := rfl

theorem Memory.wf_memSet (m : Mem) (a : Nat) (b : Byte) (h : Memory.wf m = true) : Memory.wf (memSet m a b) = true :=
  smWf_smSet _ m a b h

theorem Memory.wf_memWrite (m : Mem) (a : Nat) (bs : List Byte) (h : Memory.wf m = true) :
    Memory.wf (memWrite m a bs) = true := by
  induction bs generalizing m a with
  | nil => exact h
  | cons b r ih => exact ih _ _ (Memory.wf_memSet m a b h)

theorem Memory.wf_memClear (m : Mem) (lo n : Nat) (h : Memory.wf m = true) : Memory.wf (memClear m lo n) = true :=
  smWf_filter _ m _ h

/-- What a cleared range reads as. -/
theorem memGet_memClear (m : Mem) (lo n c : Nat) :
    memGet (memClear m lo n) c = if lo ≤ c ∧ c < lo + n then 0 else memGet m c := by
  induction m with
  | nil => simp [memClear, memGet, smGet, memDefault]
  | cons p r ih =>
    obtain ⟨j, x⟩ := p
    simp only [memGet, memClear] at ih ⊢
    rw [List.filter_cons]
    by_cases hj : j < lo ∨ lo + n ≤ j
    · have : (decide (j < lo) || decide (lo + n ≤ j)) = true := by simpa using hj
      simp only [this, if_true, smGet, ih]
      by_cases hc : c = j
      · subst hc; rw [if_pos rfl, if_neg (by omega)]; simp
      · simp [hc]
    · have : (decide (j < lo) || decide (lo + n ≤ j)) = false := by simpa using hj
      simp only [this, Bool.false_eq_true, if_false, smGet, ih]
      by_cases hc : c = j
      · subst hc; rw [if_pos (by omega), if_pos (by omega)]
      · simp [hc]

end Sys2Proof.Machine
end

