-- ==== Sys2Proof/Laws/State.lean ====
section
/-! SUPPORT. Projections of the named updates of the device: for each update, what every other part of the state reads. -/

namespace Sys2Proof.Machine

/-! ### hw -/

@[simp] theorem Dev.hw_reg_pend (d : Dev) (a : Nat) (v : Word) : (d.hw a v).reg.pend = d.reg.pend := rfl
@[simp] theorem Dev.hw_reg_live (d : Dev) (a : Nat) (v : Word) : (d.hw a v).reg.live = d.reg.live := rfl
@[simp] theorem Dev.hw_reg_comp (d : Dev) (a : Nat) (v : Word) : (d.hw a v).reg.comp = d.reg.comp := rfl
@[simp] theorem Dev.hw_reg_ctrs (d : Dev) (a : Nat) (v : Word) : (d.hw a v).reg.ctrs = d.reg.ctrs := rfl
@[simp] theorem Dev.hw_reg_capt (d : Dev) (a : Nat) (v : Word) : (d.hw a v).reg.capt = d.reg.capt := rfl
@[simp] theorem Dev.hw_reg_acc (d : Dev) (a : Nat) (v : Word) : (d.hw a v).reg.acc = d.reg.acc := rfl
@[simp] theorem Dev.hw_tm (d : Dev) (a : Nat) (v : Word) : (d.hw a v).tm = d.tm := rfl
@[simp] theorem Dev.hw_ig (d : Dev) (a : Nat) (v : Word) : (d.hw a v).ig = d.ig := rfl
@[simp] theorem Dev.hw_gb (d : Dev) (a : Nat) (v : Word) : (d.hw a v).gb = d.gb := rfl
@[simp] theorem Dev.hw_cm (d : Dev) (a : Nat) (v : Word) : (d.hw a v).cm = d.cm := rfl
@[simp] theorem Dev.hw_cw (d : Dev) (a : Nat) (v : Word) : (d.hw a v).cw = d.cw := rfl
@[simp] theorem Dev.hw_ag (d : Dev) (a : Nat) (v : Word) : (d.hw a v).ag = d.ag := rfl
@[simp] theorem Dev.hw_et (d : Dev) (a : Nat) (v : Word) : (d.hw a v).et = d.et := rfl
@[simp] theorem Dev.hw_lg (d : Dev) (a : Nat) (v : Word) : (d.hw a v).lg = d.lg := rfl
@[simp] theorem Dev.hw_si (d : Dev) (a : Nat) (v : Word) : (d.hw a v).si = d.si := rfl
@[simp] theorem Dev.hw_flt (d : Dev) (a : Nat) (v : Word) : (d.hw a v).flt = d.flt := rfl
@[simp] theorem Dev.hw_rl (d : Dev) (a : Nat) (v : Word) : (d.hw a v).rl = d.rl := rfl
@[simp] theorem Dev.hw_hi (d : Dev) (a : Nat) (v : Word) : (d.hw a v).hi = d.hi := rfl
@[simp] theorem Dev.hw_xs (d : Dev) (a : Nat) (v : Word) : (d.hw a v).xs = d.xs := rfl
@[simp] theorem Dev.hw_bt (d : Dev) (a : Nat) (v : Word) : (d.hw a v).bt = d.bt := rfl
@[simp] theorem Dev.hw_pm (d : Dev) (a : Nat) (v : Word) : (d.hw a v).pm = d.pm := rfl
@[simp] theorem Dev.hw_mem (d : Dev) (a : Nat) (v : Word) : (d.hw a v).mem = d.mem := rfl
@[simp] theorem Dev.hw_out (d : Dev) (a : Nat) (v : Word) : (d.hw a v).out = d.out := rfl
@[simp] theorem Dev.hw_free (d : Dev) (a : Nat) (v : Word) : (d.hw a v).free = d.free := rfl

/-! ### hwN -/

@[simp] theorem Dev.hwN_reg_pend (d : Dev) (a v : Nat) : (d.hwN a v).reg.pend = d.reg.pend := rfl
@[simp] theorem Dev.hwN_reg_live (d : Dev) (a v : Nat) : (d.hwN a v).reg.live = d.reg.live := rfl
@[simp] theorem Dev.hwN_reg_comp (d : Dev) (a v : Nat) : (d.hwN a v).reg.comp = d.reg.comp := rfl
@[simp] theorem Dev.hwN_reg_ctrs (d : Dev) (a v : Nat) : (d.hwN a v).reg.ctrs = d.reg.ctrs := rfl
@[simp] theorem Dev.hwN_reg_capt (d : Dev) (a v : Nat) : (d.hwN a v).reg.capt = d.reg.capt := rfl
@[simp] theorem Dev.hwN_reg_acc (d : Dev) (a v : Nat) : (d.hwN a v).reg.acc = d.reg.acc := rfl
@[simp] theorem Dev.hwN_tm (d : Dev) (a v : Nat) : (d.hwN a v).tm = d.tm := rfl
@[simp] theorem Dev.hwN_ig (d : Dev) (a v : Nat) : (d.hwN a v).ig = d.ig := rfl
@[simp] theorem Dev.hwN_gb (d : Dev) (a v : Nat) : (d.hwN a v).gb = d.gb := rfl
@[simp] theorem Dev.hwN_cm (d : Dev) (a v : Nat) : (d.hwN a v).cm = d.cm := rfl
@[simp] theorem Dev.hwN_cw (d : Dev) (a v : Nat) : (d.hwN a v).cw = d.cw := rfl
@[simp] theorem Dev.hwN_ag (d : Dev) (a v : Nat) : (d.hwN a v).ag = d.ag := rfl
@[simp] theorem Dev.hwN_et (d : Dev) (a v : Nat) : (d.hwN a v).et = d.et := rfl
@[simp] theorem Dev.hwN_lg (d : Dev) (a v : Nat) : (d.hwN a v).lg = d.lg := rfl
@[simp] theorem Dev.hwN_si (d : Dev) (a v : Nat) : (d.hwN a v).si = d.si := rfl
@[simp] theorem Dev.hwN_flt (d : Dev) (a v : Nat) : (d.hwN a v).flt = d.flt := rfl
@[simp] theorem Dev.hwN_rl (d : Dev) (a v : Nat) : (d.hwN a v).rl = d.rl := rfl
@[simp] theorem Dev.hwN_hi (d : Dev) (a v : Nat) : (d.hwN a v).hi = d.hi := rfl
@[simp] theorem Dev.hwN_xs (d : Dev) (a v : Nat) : (d.hwN a v).xs = d.xs := rfl
@[simp] theorem Dev.hwN_bt (d : Dev) (a v : Nat) : (d.hwN a v).bt = d.bt := rfl
@[simp] theorem Dev.hwN_pm (d : Dev) (a v : Nat) : (d.hwN a v).pm = d.pm := rfl
@[simp] theorem Dev.hwN_mem (d : Dev) (a v : Nat) : (d.hwN a v).mem = d.mem := rfl
@[simp] theorem Dev.hwN_out (d : Dev) (a v : Nat) : (d.hwN a v).out = d.out := rfl
@[simp] theorem Dev.hwN_free (d : Dev) (a v : Nat) : (d.hwN a v).free = d.free := rfl

/-! ### hwOr -/

@[simp] theorem Dev.hwOr_reg_pend (d : Dev) (a m : Nat) : (d.hwOr a m).reg.pend = d.reg.pend := rfl
@[simp] theorem Dev.hwOr_reg_live (d : Dev) (a m : Nat) : (d.hwOr a m).reg.live = d.reg.live := rfl
@[simp] theorem Dev.hwOr_reg_comp (d : Dev) (a m : Nat) : (d.hwOr a m).reg.comp = d.reg.comp := rfl
@[simp] theorem Dev.hwOr_reg_ctrs (d : Dev) (a m : Nat) : (d.hwOr a m).reg.ctrs = d.reg.ctrs := rfl
@[simp] theorem Dev.hwOr_reg_capt (d : Dev) (a m : Nat) : (d.hwOr a m).reg.capt = d.reg.capt := rfl
@[simp] theorem Dev.hwOr_reg_acc (d : Dev) (a m : Nat) : (d.hwOr a m).reg.acc = d.reg.acc := rfl
@[simp] theorem Dev.hwOr_tm (d : Dev) (a m : Nat) : (d.hwOr a m).tm = d.tm := rfl
@[simp] theorem Dev.hwOr_ig (d : Dev) (a m : Nat) : (d.hwOr a m).ig = d.ig := rfl
@[simp] theorem Dev.hwOr_gb (d : Dev) (a m : Nat) : (d.hwOr a m).gb = d.gb := rfl
@[simp] theorem Dev.hwOr_cm (d : Dev) (a m : Nat) : (d.hwOr a m).cm = d.cm := rfl
@[simp] theorem Dev.hwOr_cw (d : Dev) (a m : Nat) : (d.hwOr a m).cw = d.cw := rfl
@[simp] theorem Dev.hwOr_ag (d : Dev) (a m : Nat) : (d.hwOr a m).ag = d.ag := rfl
@[simp] theorem Dev.hwOr_et (d : Dev) (a m : Nat) : (d.hwOr a m).et = d.et := rfl
@[simp] theorem Dev.hwOr_lg (d : Dev) (a m : Nat) : (d.hwOr a m).lg = d.lg := rfl
@[simp] theorem Dev.hwOr_si (d : Dev) (a m : Nat) : (d.hwOr a m).si = d.si := rfl
@[simp] theorem Dev.hwOr_flt (d : Dev) (a m : Nat) : (d.hwOr a m).flt = d.flt := rfl
@[simp] theorem Dev.hwOr_rl (d : Dev) (a m : Nat) : (d.hwOr a m).rl = d.rl := rfl
@[simp] theorem Dev.hwOr_hi (d : Dev) (a m : Nat) : (d.hwOr a m).hi = d.hi := rfl
@[simp] theorem Dev.hwOr_xs (d : Dev) (a m : Nat) : (d.hwOr a m).xs = d.xs := rfl
@[simp] theorem Dev.hwOr_bt (d : Dev) (a m : Nat) : (d.hwOr a m).bt = d.bt := rfl
@[simp] theorem Dev.hwOr_pm (d : Dev) (a m : Nat) : (d.hwOr a m).pm = d.pm := rfl
@[simp] theorem Dev.hwOr_mem (d : Dev) (a m : Nat) : (d.hwOr a m).mem = d.mem := rfl
@[simp] theorem Dev.hwOr_out (d : Dev) (a m : Nat) : (d.hwOr a m).out = d.out := rfl
@[simp] theorem Dev.hwOr_free (d : Dev) (a m : Nat) : (d.hwOr a m).free = d.free := rfl

/-! ### hwPair -/

@[simp] theorem Dev.hwPair_reg_pend (d : Dev) (a : Nat) (v : Word) : (d.hwPair a v).reg.pend = d.reg.pend := rfl
@[simp] theorem Dev.hwPair_reg_ctrs (d : Dev) (a : Nat) (v : Word) : (d.hwPair a v).reg.ctrs = d.reg.ctrs := rfl
@[simp] theorem Dev.hwPair_reg_capt (d : Dev) (a : Nat) (v : Word) : (d.hwPair a v).reg.capt = d.reg.capt := rfl
@[simp] theorem Dev.hwPair_reg_acc (d : Dev) (a : Nat) (v : Word) : (d.hwPair a v).reg.acc = d.reg.acc := rfl
@[simp] theorem Dev.hwPair_tm (d : Dev) (a : Nat) (v : Word) : (d.hwPair a v).tm = d.tm := rfl
@[simp] theorem Dev.hwPair_ig (d : Dev) (a : Nat) (v : Word) : (d.hwPair a v).ig = d.ig := rfl
@[simp] theorem Dev.hwPair_gb (d : Dev) (a : Nat) (v : Word) : (d.hwPair a v).gb = d.gb := rfl
@[simp] theorem Dev.hwPair_cm (d : Dev) (a : Nat) (v : Word) : (d.hwPair a v).cm = d.cm := rfl
@[simp] theorem Dev.hwPair_cw (d : Dev) (a : Nat) (v : Word) : (d.hwPair a v).cw = d.cw := rfl
@[simp] theorem Dev.hwPair_ag (d : Dev) (a : Nat) (v : Word) : (d.hwPair a v).ag = d.ag := rfl
@[simp] theorem Dev.hwPair_et (d : Dev) (a : Nat) (v : Word) : (d.hwPair a v).et = d.et := rfl
@[simp] theorem Dev.hwPair_lg (d : Dev) (a : Nat) (v : Word) : (d.hwPair a v).lg = d.lg := rfl
@[simp] theorem Dev.hwPair_si (d : Dev) (a : Nat) (v : Word) : (d.hwPair a v).si = d.si := rfl
@[simp] theorem Dev.hwPair_flt (d : Dev) (a : Nat) (v : Word) : (d.hwPair a v).flt = d.flt := rfl
@[simp] theorem Dev.hwPair_rl (d : Dev) (a : Nat) (v : Word) : (d.hwPair a v).rl = d.rl := rfl
@[simp] theorem Dev.hwPair_hi (d : Dev) (a : Nat) (v : Word) : (d.hwPair a v).hi = d.hi := rfl
@[simp] theorem Dev.hwPair_xs (d : Dev) (a : Nat) (v : Word) : (d.hwPair a v).xs = d.xs := rfl
@[simp] theorem Dev.hwPair_bt (d : Dev) (a : Nat) (v : Word) : (d.hwPair a v).bt = d.bt := rfl
@[simp] theorem Dev.hwPair_pm (d : Dev) (a : Nat) (v : Word) : (d.hwPair a v).pm = d.pm := rfl
@[simp] theorem Dev.hwPair_mem (d : Dev) (a : Nat) (v : Word) : (d.hwPair a v).mem = d.mem := rfl
@[simp] theorem Dev.hwPair_out (d : Dev) (a : Nat) (v : Word) : (d.hwPair a v).out = d.out := rfl
@[simp] theorem Dev.hwPair_free (d : Dev) (a : Nat) (v : Word) : (d.hwPair a v).free = d.free := rfl

/-! ### setComp -/

@[simp] theorem Dev.setComp_reg_regs (d : Dev) (a : Nat) (v : Word) : (d.setComp a v).reg.regs = d.reg.regs := rfl
@[simp] theorem Dev.setComp_reg_pend (d : Dev) (a : Nat) (v : Word) : (d.setComp a v).reg.pend = d.reg.pend := rfl
@[simp] theorem Dev.setComp_reg_live (d : Dev) (a : Nat) (v : Word) : (d.setComp a v).reg.live = d.reg.live := rfl
@[simp] theorem Dev.setComp_reg_ctrs (d : Dev) (a : Nat) (v : Word) : (d.setComp a v).reg.ctrs = d.reg.ctrs := rfl
@[simp] theorem Dev.setComp_reg_capt (d : Dev) (a : Nat) (v : Word) : (d.setComp a v).reg.capt = d.reg.capt := rfl
@[simp] theorem Dev.setComp_reg_acc (d : Dev) (a : Nat) (v : Word) : (d.setComp a v).reg.acc = d.reg.acc := rfl
@[simp] theorem Dev.setComp_tm (d : Dev) (a : Nat) (v : Word) : (d.setComp a v).tm = d.tm := rfl
@[simp] theorem Dev.setComp_ig (d : Dev) (a : Nat) (v : Word) : (d.setComp a v).ig = d.ig := rfl
@[simp] theorem Dev.setComp_gb (d : Dev) (a : Nat) (v : Word) : (d.setComp a v).gb = d.gb := rfl
@[simp] theorem Dev.setComp_cm (d : Dev) (a : Nat) (v : Word) : (d.setComp a v).cm = d.cm := rfl
@[simp] theorem Dev.setComp_cw (d : Dev) (a : Nat) (v : Word) : (d.setComp a v).cw = d.cw := rfl
@[simp] theorem Dev.setComp_ag (d : Dev) (a : Nat) (v : Word) : (d.setComp a v).ag = d.ag := rfl
@[simp] theorem Dev.setComp_et (d : Dev) (a : Nat) (v : Word) : (d.setComp a v).et = d.et := rfl
@[simp] theorem Dev.setComp_lg (d : Dev) (a : Nat) (v : Word) : (d.setComp a v).lg = d.lg := rfl
@[simp] theorem Dev.setComp_si (d : Dev) (a : Nat) (v : Word) : (d.setComp a v).si = d.si := rfl
@[simp] theorem Dev.setComp_flt (d : Dev) (a : Nat) (v : Word) : (d.setComp a v).flt = d.flt := rfl
@[simp] theorem Dev.setComp_rl (d : Dev) (a : Nat) (v : Word) : (d.setComp a v).rl = d.rl := rfl
@[simp] theorem Dev.setComp_hi (d : Dev) (a : Nat) (v : Word) : (d.setComp a v).hi = d.hi := rfl
@[simp] theorem Dev.setComp_xs (d : Dev) (a : Nat) (v : Word) : (d.setComp a v).xs = d.xs := rfl
@[simp] theorem Dev.setComp_bt (d : Dev) (a : Nat) (v : Word) : (d.setComp a v).bt = d.bt := rfl
@[simp] theorem Dev.setComp_pm (d : Dev) (a : Nat) (v : Word) : (d.setComp a v).pm = d.pm := rfl
@[simp] theorem Dev.setComp_mem (d : Dev) (a : Nat) (v : Word) : (d.setComp a v).mem = d.mem := rfl
@[simp] theorem Dev.setComp_out (d : Dev) (a : Nat) (v : Word) : (d.setComp a v).out = d.out := rfl
@[simp] theorem Dev.setComp_free (d : Dev) (a : Nat) (v : Word) : (d.setComp a v).free = d.free := rfl

/-! ### setCapt4 -/

@[simp] theorem Dev.setCapt4_reg_regs (d : Dev) (req a : Nat) (v : Option Word) : (d.setCapt4 req a v).reg.regs = d.reg.regs := rfl
@[simp] theorem Dev.setCapt4_reg_pend (d : Dev) (req a : Nat) (v : Option Word) : (d.setCapt4 req a v).reg.pend = d.reg.pend := rfl
@[simp] theorem Dev.setCapt4_reg_live (d : Dev) (req a : Nat) (v : Option Word) : (d.setCapt4 req a v).reg.live = d.reg.live := rfl
@[simp] theorem Dev.setCapt4_reg_comp (d : Dev) (req a : Nat) (v : Option Word) : (d.setCapt4 req a v).reg.comp = d.reg.comp := rfl
@[simp] theorem Dev.setCapt4_reg_ctrs (d : Dev) (req a : Nat) (v : Option Word) : (d.setCapt4 req a v).reg.ctrs = d.reg.ctrs := rfl
@[simp] theorem Dev.setCapt4_reg_acc (d : Dev) (req a : Nat) (v : Option Word) : (d.setCapt4 req a v).reg.acc = d.reg.acc := rfl
@[simp] theorem Dev.setCapt4_tm (d : Dev) (req a : Nat) (v : Option Word) : (d.setCapt4 req a v).tm = d.tm := rfl
@[simp] theorem Dev.setCapt4_ig (d : Dev) (req a : Nat) (v : Option Word) : (d.setCapt4 req a v).ig = d.ig := rfl
@[simp] theorem Dev.setCapt4_gb (d : Dev) (req a : Nat) (v : Option Word) : (d.setCapt4 req a v).gb = d.gb := rfl
@[simp] theorem Dev.setCapt4_cm (d : Dev) (req a : Nat) (v : Option Word) : (d.setCapt4 req a v).cm = d.cm := rfl
@[simp] theorem Dev.setCapt4_cw (d : Dev) (req a : Nat) (v : Option Word) : (d.setCapt4 req a v).cw = d.cw := rfl
@[simp] theorem Dev.setCapt4_ag (d : Dev) (req a : Nat) (v : Option Word) : (d.setCapt4 req a v).ag = d.ag := rfl
@[simp] theorem Dev.setCapt4_et (d : Dev) (req a : Nat) (v : Option Word) : (d.setCapt4 req a v).et = d.et := rfl
@[simp] theorem Dev.setCapt4_lg (d : Dev) (req a : Nat) (v : Option Word) : (d.setCapt4 req a v).lg = d.lg := rfl
@[simp] theorem Dev.setCapt4_si (d : Dev) (req a : Nat) (v : Option Word) : (d.setCapt4 req a v).si = d.si := rfl
@[simp] theorem Dev.setCapt4_flt (d : Dev) (req a : Nat) (v : Option Word) : (d.setCapt4 req a v).flt = d.flt := rfl
@[simp] theorem Dev.setCapt4_rl (d : Dev) (req a : Nat) (v : Option Word) : (d.setCapt4 req a v).rl = d.rl := rfl
@[simp] theorem Dev.setCapt4_hi (d : Dev) (req a : Nat) (v : Option Word) : (d.setCapt4 req a v).hi = d.hi := rfl
@[simp] theorem Dev.setCapt4_xs (d : Dev) (req a : Nat) (v : Option Word) : (d.setCapt4 req a v).xs = d.xs := rfl
@[simp] theorem Dev.setCapt4_bt (d : Dev) (req a : Nat) (v : Option Word) : (d.setCapt4 req a v).bt = d.bt := rfl
@[simp] theorem Dev.setCapt4_pm (d : Dev) (req a : Nat) (v : Option Word) : (d.setCapt4 req a v).pm = d.pm := rfl
@[simp] theorem Dev.setCapt4_mem (d : Dev) (req a : Nat) (v : Option Word) : (d.setCapt4 req a v).mem = d.mem := rfl
@[simp] theorem Dev.setCapt4_out (d : Dev) (req a : Nat) (v : Option Word) : (d.setCapt4 req a v).out = d.out := rfl
@[simp] theorem Dev.setCapt4_free (d : Dev) (req a : Nat) (v : Option Word) : (d.setCapt4 req a v).free = d.free := rfl

/-! ### bump -/

@[simp] theorem Dev.bump_reg_regs (d : Dev) (a n : Nat) : (d.bump a n).reg.regs = d.reg.regs := rfl
@[simp] theorem Dev.bump_reg_pend (d : Dev) (a n : Nat) : (d.bump a n).reg.pend = d.reg.pend := rfl
@[simp] theorem Dev.bump_reg_live (d : Dev) (a n : Nat) : (d.bump a n).reg.live = d.reg.live := rfl
@[simp] theorem Dev.bump_reg_comp (d : Dev) (a n : Nat) : (d.bump a n).reg.comp = d.reg.comp := rfl
@[simp] theorem Dev.bump_reg_capt (d : Dev) (a n : Nat) : (d.bump a n).reg.capt = d.reg.capt := rfl
@[simp] theorem Dev.bump_reg_acc (d : Dev) (a n : Nat) : (d.bump a n).reg.acc = d.reg.acc := rfl
@[simp] theorem Dev.bump_tm (d : Dev) (a n : Nat) : (d.bump a n).tm = d.tm := rfl
@[simp] theorem Dev.bump_ig (d : Dev) (a n : Nat) : (d.bump a n).ig = d.ig := rfl
@[simp] theorem Dev.bump_gb (d : Dev) (a n : Nat) : (d.bump a n).gb = d.gb := rfl
@[simp] theorem Dev.bump_cm (d : Dev) (a n : Nat) : (d.bump a n).cm = d.cm := rfl
@[simp] theorem Dev.bump_cw (d : Dev) (a n : Nat) : (d.bump a n).cw = d.cw := rfl
@[simp] theorem Dev.bump_ag (d : Dev) (a n : Nat) : (d.bump a n).ag = d.ag := rfl
@[simp] theorem Dev.bump_et (d : Dev) (a n : Nat) : (d.bump a n).et = d.et := rfl
@[simp] theorem Dev.bump_lg (d : Dev) (a n : Nat) : (d.bump a n).lg = d.lg := rfl
@[simp] theorem Dev.bump_si (d : Dev) (a n : Nat) : (d.bump a n).si = d.si := rfl
@[simp] theorem Dev.bump_flt (d : Dev) (a n : Nat) : (d.bump a n).flt = d.flt := rfl
@[simp] theorem Dev.bump_rl (d : Dev) (a n : Nat) : (d.bump a n).rl = d.rl := rfl
@[simp] theorem Dev.bump_hi (d : Dev) (a n : Nat) : (d.bump a n).hi = d.hi := rfl
@[simp] theorem Dev.bump_xs (d : Dev) (a n : Nat) : (d.bump a n).xs = d.xs := rfl
@[simp] theorem Dev.bump_bt (d : Dev) (a n : Nat) : (d.bump a n).bt = d.bt := rfl
@[simp] theorem Dev.bump_pm (d : Dev) (a n : Nat) : (d.bump a n).pm = d.pm := rfl
@[simp] theorem Dev.bump_mem (d : Dev) (a n : Nat) : (d.bump a n).mem = d.mem := rfl
@[simp] theorem Dev.bump_out (d : Dev) (a n : Nat) : (d.bump a n).out = d.out := rfl
@[simp] theorem Dev.bump_free (d : Dev) (a n : Nat) : (d.bump a n).free = d.free := rfl

/-! ### ctrClear -/

@[simp] theorem Dev.ctrClear_reg_regs (d : Dev) (a : Nat) : (d.ctrClear a).reg.regs = d.reg.regs := rfl
@[simp] theorem Dev.ctrClear_reg_pend (d : Dev) (a : Nat) : (d.ctrClear a).reg.pend = d.reg.pend := rfl
@[simp] theorem Dev.ctrClear_reg_live (d : Dev) (a : Nat) : (d.ctrClear a).reg.live = d.reg.live := rfl
@[simp] theorem Dev.ctrClear_reg_comp (d : Dev) (a : Nat) : (d.ctrClear a).reg.comp = d.reg.comp := rfl
@[simp] theorem Dev.ctrClear_reg_capt (d : Dev) (a : Nat) : (d.ctrClear a).reg.capt = d.reg.capt := rfl
@[simp] theorem Dev.ctrClear_reg_acc (d : Dev) (a : Nat) : (d.ctrClear a).reg.acc = d.reg.acc := rfl
@[simp] theorem Dev.ctrClear_tm (d : Dev) (a : Nat) : (d.ctrClear a).tm = d.tm := rfl
@[simp] theorem Dev.ctrClear_ig (d : Dev) (a : Nat) : (d.ctrClear a).ig = d.ig := rfl
@[simp] theorem Dev.ctrClear_gb (d : Dev) (a : Nat) : (d.ctrClear a).gb = d.gb := rfl
@[simp] theorem Dev.ctrClear_cm (d : Dev) (a : Nat) : (d.ctrClear a).cm = d.cm := rfl
@[simp] theorem Dev.ctrClear_cw (d : Dev) (a : Nat) : (d.ctrClear a).cw = d.cw := rfl
@[simp] theorem Dev.ctrClear_ag (d : Dev) (a : Nat) : (d.ctrClear a).ag = d.ag := rfl
@[simp] theorem Dev.ctrClear_et (d : Dev) (a : Nat) : (d.ctrClear a).et = d.et := rfl
@[simp] theorem Dev.ctrClear_lg (d : Dev) (a : Nat) : (d.ctrClear a).lg = d.lg := rfl
@[simp] theorem Dev.ctrClear_si (d : Dev) (a : Nat) : (d.ctrClear a).si = d.si := rfl
@[simp] theorem Dev.ctrClear_flt (d : Dev) (a : Nat) : (d.ctrClear a).flt = d.flt := rfl
@[simp] theorem Dev.ctrClear_rl (d : Dev) (a : Nat) : (d.ctrClear a).rl = d.rl := rfl
@[simp] theorem Dev.ctrClear_hi (d : Dev) (a : Nat) : (d.ctrClear a).hi = d.hi := rfl
@[simp] theorem Dev.ctrClear_xs (d : Dev) (a : Nat) : (d.ctrClear a).xs = d.xs := rfl
@[simp] theorem Dev.ctrClear_bt (d : Dev) (a : Nat) : (d.ctrClear a).bt = d.bt := rfl
@[simp] theorem Dev.ctrClear_pm (d : Dev) (a : Nat) : (d.ctrClear a).pm = d.pm := rfl
@[simp] theorem Dev.ctrClear_mem (d : Dev) (a : Nat) : (d.ctrClear a).mem = d.mem := rfl
@[simp] theorem Dev.ctrClear_out (d : Dev) (a : Nat) : (d.ctrClear a).out = d.out := rfl
@[simp] theorem Dev.ctrClear_free (d : Dev) (a : Nat) : (d.ctrClear a).free = d.free := rfl

/-! ### emit -/

@[simp] theorem Dev.emit_reg (d : Dev) (e : OutEvent) : (d.emit e).reg = d.reg := rfl
@[simp] theorem Dev.emit_tm (d : Dev) (e : OutEvent) : (d.emit e).tm = d.tm := rfl
@[simp] theorem Dev.emit_ig (d : Dev) (e : OutEvent) : (d.emit e).ig = d.ig := rfl
@[simp] theorem Dev.emit_gb (d : Dev) (e : OutEvent) : (d.emit e).gb = d.gb := rfl
@[simp] theorem Dev.emit_cm (d : Dev) (e : OutEvent) : (d.emit e).cm = d.cm := rfl
@[simp] theorem Dev.emit_cw (d : Dev) (e : OutEvent) : (d.emit e).cw = d.cw := rfl
@[simp] theorem Dev.emit_ag (d : Dev) (e : OutEvent) : (d.emit e).ag = d.ag := rfl
@[simp] theorem Dev.emit_et (d : Dev) (e : OutEvent) : (d.emit e).et = d.et := rfl
@[simp] theorem Dev.emit_lg (d : Dev) (e : OutEvent) : (d.emit e).lg = d.lg := rfl
@[simp] theorem Dev.emit_si (d : Dev) (e : OutEvent) : (d.emit e).si = d.si := rfl
@[simp] theorem Dev.emit_flt (d : Dev) (e : OutEvent) : (d.emit e).flt = d.flt := rfl
@[simp] theorem Dev.emit_rl (d : Dev) (e : OutEvent) : (d.emit e).rl = d.rl := rfl
@[simp] theorem Dev.emit_hi (d : Dev) (e : OutEvent) : (d.emit e).hi = d.hi := rfl
@[simp] theorem Dev.emit_xs (d : Dev) (e : OutEvent) : (d.emit e).xs = d.xs := rfl
@[simp] theorem Dev.emit_bt (d : Dev) (e : OutEvent) : (d.emit e).bt = d.bt := rfl
@[simp] theorem Dev.emit_pm (d : Dev) (e : OutEvent) : (d.emit e).pm = d.pm := rfl
@[simp] theorem Dev.emit_mem (d : Dev) (e : OutEvent) : (d.emit e).mem = d.mem := rfl
@[simp] theorem Dev.emit_free (d : Dev) (e : OutEvent) : (d.emit e).free = d.free := rfl

/-! ### setCore -/

@[simp] theorem Dev.setCore_reg (d : Dev) (c : Nat) (x : CoreChk) : (d.setCore c x).reg = d.reg := rfl
@[simp] theorem Dev.setCore_tm (d : Dev) (c : Nat) (x : CoreChk) : (d.setCore c x).tm = d.tm := rfl
@[simp] theorem Dev.setCore_ig (d : Dev) (c : Nat) (x : CoreChk) : (d.setCore c x).ig = d.ig := rfl
@[simp] theorem Dev.setCore_gb (d : Dev) (c : Nat) (x : CoreChk) : (d.setCore c x).gb = d.gb := rfl
@[simp] theorem Dev.setCore_cm (d : Dev) (c : Nat) (x : CoreChk) : (d.setCore c x).cm = d.cm := rfl
@[simp] theorem Dev.setCore_cw_seq (d : Dev) (c : Nat) (x : CoreChk) : (d.setCore c x).cw.seq = d.cw.seq := rfl
@[simp] theorem Dev.setCore_cw_ckSeq (d : Dev) (c : Nat) (x : CoreChk) : (d.setCore c x).cw.ckSeq = d.cw.ckSeq := rfl
@[simp] theorem Dev.setCore_cw_ckCores (d : Dev) (c : Nat) (x : CoreChk) : (d.setCore c x).cw.ckCores = d.cw.ckCores := rfl
@[simp] theorem Dev.setCore_cw_vol (d : Dev) (c : Nat) (x : CoreChk) : (d.setCore c x).cw.vol = d.cw.vol := rfl
@[simp] theorem Dev.setCore_cw_crews (d : Dev) (c : Nat) (x : CoreChk) : (d.setCore c x).cw.crews = d.cw.crews := rfl
@[simp] theorem Dev.setCore_cw_arrivals (d : Dev) (c : Nat) (x : CoreChk) : (d.setCore c x).cw.arrivals = d.cw.arrivals := rfl
@[simp] theorem Dev.setCore_cw_progs (d : Dev) (c : Nat) (x : CoreChk) : (d.setCore c x).cw.progs = d.cw.progs := rfl
@[simp] theorem Dev.setCore_cw_table (d : Dev) (c : Nat) (x : CoreChk) : (d.setCore c x).cw.table = d.cw.table := rfl
@[simp] theorem Dev.setCore_cw_held (d : Dev) (c : Nat) (x : CoreChk) : (d.setCore c x).cw.held = d.cw.held := rfl
@[simp] theorem Dev.setCore_cw_pushed (d : Dev) (c : Nat) (x : CoreChk) : (d.setCore c x).cw.pushed = d.cw.pushed := rfl
@[simp] theorem Dev.setCore_cw_touched (d : Dev) (c : Nat) (x : CoreChk) : (d.setCore c x).cw.touched = d.cw.touched := rfl
@[simp] theorem Dev.setCore_cw_upset (d : Dev) (c : Nat) (x : CoreChk) : (d.setCore c x).cw.upset = d.cw.upset := rfl
@[simp] theorem Dev.setCore_ag (d : Dev) (c : Nat) (x : CoreChk) : (d.setCore c x).ag = d.ag := rfl
@[simp] theorem Dev.setCore_et (d : Dev) (c : Nat) (x : CoreChk) : (d.setCore c x).et = d.et := rfl
@[simp] theorem Dev.setCore_lg (d : Dev) (c : Nat) (x : CoreChk) : (d.setCore c x).lg = d.lg := rfl
@[simp] theorem Dev.setCore_si (d : Dev) (c : Nat) (x : CoreChk) : (d.setCore c x).si = d.si := rfl
@[simp] theorem Dev.setCore_flt (d : Dev) (c : Nat) (x : CoreChk) : (d.setCore c x).flt = d.flt := rfl
@[simp] theorem Dev.setCore_rl (d : Dev) (c : Nat) (x : CoreChk) : (d.setCore c x).rl = d.rl := rfl
@[simp] theorem Dev.setCore_hi (d : Dev) (c : Nat) (x : CoreChk) : (d.setCore c x).hi = d.hi := rfl
@[simp] theorem Dev.setCore_xs (d : Dev) (c : Nat) (x : CoreChk) : (d.setCore c x).xs = d.xs := rfl
@[simp] theorem Dev.setCore_bt (d : Dev) (c : Nat) (x : CoreChk) : (d.setCore c x).bt = d.bt := rfl
@[simp] theorem Dev.setCore_pm (d : Dev) (c : Nat) (x : CoreChk) : (d.setCore c x).pm = d.pm := rfl
@[simp] theorem Dev.setCore_mem (d : Dev) (c : Nat) (x : CoreChk) : (d.setCore c x).mem = d.mem := rfl
@[simp] theorem Dev.setCore_out (d : Dev) (c : Nat) (x : CoreChk) : (d.setCore c x).out = d.out := rfl
@[simp] theorem Dev.setCore_free (d : Dev) (c : Nat) (x : CoreChk) : (d.setCore c x).free = d.free := rfl

/-! ### setVol -/

@[simp] theorem Dev.setVol_reg (d : Dev) (c : Nat) (x : CoreVol) : (d.setVol c x).reg = d.reg := rfl
@[simp] theorem Dev.setVol_tm (d : Dev) (c : Nat) (x : CoreVol) : (d.setVol c x).tm = d.tm := rfl
@[simp] theorem Dev.setVol_ig (d : Dev) (c : Nat) (x : CoreVol) : (d.setVol c x).ig = d.ig := rfl
@[simp] theorem Dev.setVol_gb (d : Dev) (c : Nat) (x : CoreVol) : (d.setVol c x).gb = d.gb := rfl
@[simp] theorem Dev.setVol_cm (d : Dev) (c : Nat) (x : CoreVol) : (d.setVol c x).cm = d.cm := rfl
@[simp] theorem Dev.setVol_cw_seq (d : Dev) (c : Nat) (x : CoreVol) : (d.setVol c x).cw.seq = d.cw.seq := rfl
@[simp] theorem Dev.setVol_cw_cores (d : Dev) (c : Nat) (x : CoreVol) : (d.setVol c x).cw.cores = d.cw.cores := rfl
@[simp] theorem Dev.setVol_cw_ckSeq (d : Dev) (c : Nat) (x : CoreVol) : (d.setVol c x).cw.ckSeq = d.cw.ckSeq := rfl
@[simp] theorem Dev.setVol_cw_ckCores (d : Dev) (c : Nat) (x : CoreVol) : (d.setVol c x).cw.ckCores = d.cw.ckCores := rfl
@[simp] theorem Dev.setVol_cw_crews (d : Dev) (c : Nat) (x : CoreVol) : (d.setVol c x).cw.crews = d.cw.crews := rfl
@[simp] theorem Dev.setVol_cw_arrivals (d : Dev) (c : Nat) (x : CoreVol) : (d.setVol c x).cw.arrivals = d.cw.arrivals := rfl
@[simp] theorem Dev.setVol_cw_progs (d : Dev) (c : Nat) (x : CoreVol) : (d.setVol c x).cw.progs = d.cw.progs := rfl
@[simp] theorem Dev.setVol_cw_table (d : Dev) (c : Nat) (x : CoreVol) : (d.setVol c x).cw.table = d.cw.table := rfl
@[simp] theorem Dev.setVol_cw_held (d : Dev) (c : Nat) (x : CoreVol) : (d.setVol c x).cw.held = d.cw.held := rfl
@[simp] theorem Dev.setVol_cw_pushed (d : Dev) (c : Nat) (x : CoreVol) : (d.setVol c x).cw.pushed = d.cw.pushed := rfl
@[simp] theorem Dev.setVol_cw_touched (d : Dev) (c : Nat) (x : CoreVol) : (d.setVol c x).cw.touched = d.cw.touched := rfl
@[simp] theorem Dev.setVol_cw_upset (d : Dev) (c : Nat) (x : CoreVol) : (d.setVol c x).cw.upset = d.cw.upset := rfl
@[simp] theorem Dev.setVol_ag (d : Dev) (c : Nat) (x : CoreVol) : (d.setVol c x).ag = d.ag := rfl
@[simp] theorem Dev.setVol_et (d : Dev) (c : Nat) (x : CoreVol) : (d.setVol c x).et = d.et := rfl
@[simp] theorem Dev.setVol_lg (d : Dev) (c : Nat) (x : CoreVol) : (d.setVol c x).lg = d.lg := rfl
@[simp] theorem Dev.setVol_si (d : Dev) (c : Nat) (x : CoreVol) : (d.setVol c x).si = d.si := rfl
@[simp] theorem Dev.setVol_flt (d : Dev) (c : Nat) (x : CoreVol) : (d.setVol c x).flt = d.flt := rfl
@[simp] theorem Dev.setVol_rl (d : Dev) (c : Nat) (x : CoreVol) : (d.setVol c x).rl = d.rl := rfl
@[simp] theorem Dev.setVol_hi (d : Dev) (c : Nat) (x : CoreVol) : (d.setVol c x).hi = d.hi := rfl
@[simp] theorem Dev.setVol_xs (d : Dev) (c : Nat) (x : CoreVol) : (d.setVol c x).xs = d.xs := rfl
@[simp] theorem Dev.setVol_bt (d : Dev) (c : Nat) (x : CoreVol) : (d.setVol c x).bt = d.bt := rfl
@[simp] theorem Dev.setVol_pm (d : Dev) (c : Nat) (x : CoreVol) : (d.setVol c x).pm = d.pm := rfl
@[simp] theorem Dev.setVol_mem (d : Dev) (c : Nat) (x : CoreVol) : (d.setVol c x).mem = d.mem := rfl
@[simp] theorem Dev.setVol_out (d : Dev) (c : Nat) (x : CoreVol) : (d.setVol c x).out = d.out := rfl
@[simp] theorem Dev.setVol_free (d : Dev) (c : Nat) (x : CoreVol) : (d.setVol c x).free = d.free := rfl

/-! ### setCrew -/

@[simp] theorem Dev.setCrew_reg (d : Dev) (k : Nat) (x : CrewVol) : (d.setCrew k x).reg = d.reg := rfl
@[simp] theorem Dev.setCrew_tm (d : Dev) (k : Nat) (x : CrewVol) : (d.setCrew k x).tm = d.tm := rfl
@[simp] theorem Dev.setCrew_ig (d : Dev) (k : Nat) (x : CrewVol) : (d.setCrew k x).ig = d.ig := rfl
@[simp] theorem Dev.setCrew_gb (d : Dev) (k : Nat) (x : CrewVol) : (d.setCrew k x).gb = d.gb := rfl
@[simp] theorem Dev.setCrew_cm (d : Dev) (k : Nat) (x : CrewVol) : (d.setCrew k x).cm = d.cm := rfl
@[simp] theorem Dev.setCrew_cw_seq (d : Dev) (k : Nat) (x : CrewVol) : (d.setCrew k x).cw.seq = d.cw.seq := rfl
@[simp] theorem Dev.setCrew_cw_cores (d : Dev) (k : Nat) (x : CrewVol) : (d.setCrew k x).cw.cores = d.cw.cores := rfl
@[simp] theorem Dev.setCrew_cw_ckSeq (d : Dev) (k : Nat) (x : CrewVol) : (d.setCrew k x).cw.ckSeq = d.cw.ckSeq := rfl
@[simp] theorem Dev.setCrew_cw_ckCores (d : Dev) (k : Nat) (x : CrewVol) : (d.setCrew k x).cw.ckCores = d.cw.ckCores := rfl
@[simp] theorem Dev.setCrew_cw_vol (d : Dev) (k : Nat) (x : CrewVol) : (d.setCrew k x).cw.vol = d.cw.vol := rfl
@[simp] theorem Dev.setCrew_cw_arrivals (d : Dev) (k : Nat) (x : CrewVol) : (d.setCrew k x).cw.arrivals = d.cw.arrivals := rfl
@[simp] theorem Dev.setCrew_cw_progs (d : Dev) (k : Nat) (x : CrewVol) : (d.setCrew k x).cw.progs = d.cw.progs := rfl
@[simp] theorem Dev.setCrew_cw_table (d : Dev) (k : Nat) (x : CrewVol) : (d.setCrew k x).cw.table = d.cw.table := rfl
@[simp] theorem Dev.setCrew_cw_held (d : Dev) (k : Nat) (x : CrewVol) : (d.setCrew k x).cw.held = d.cw.held := rfl
@[simp] theorem Dev.setCrew_cw_pushed (d : Dev) (k : Nat) (x : CrewVol) : (d.setCrew k x).cw.pushed = d.cw.pushed := rfl
@[simp] theorem Dev.setCrew_cw_touched (d : Dev) (k : Nat) (x : CrewVol) : (d.setCrew k x).cw.touched = d.cw.touched := rfl
@[simp] theorem Dev.setCrew_cw_upset (d : Dev) (k : Nat) (x : CrewVol) : (d.setCrew k x).cw.upset = d.cw.upset := rfl
@[simp] theorem Dev.setCrew_ag (d : Dev) (k : Nat) (x : CrewVol) : (d.setCrew k x).ag = d.ag := rfl
@[simp] theorem Dev.setCrew_et (d : Dev) (k : Nat) (x : CrewVol) : (d.setCrew k x).et = d.et := rfl
@[simp] theorem Dev.setCrew_lg (d : Dev) (k : Nat) (x : CrewVol) : (d.setCrew k x).lg = d.lg := rfl
@[simp] theorem Dev.setCrew_si (d : Dev) (k : Nat) (x : CrewVol) : (d.setCrew k x).si = d.si := rfl
@[simp] theorem Dev.setCrew_flt (d : Dev) (k : Nat) (x : CrewVol) : (d.setCrew k x).flt = d.flt := rfl
@[simp] theorem Dev.setCrew_rl (d : Dev) (k : Nat) (x : CrewVol) : (d.setCrew k x).rl = d.rl := rfl
@[simp] theorem Dev.setCrew_hi (d : Dev) (k : Nat) (x : CrewVol) : (d.setCrew k x).hi = d.hi := rfl
@[simp] theorem Dev.setCrew_xs (d : Dev) (k : Nat) (x : CrewVol) : (d.setCrew k x).xs = d.xs := rfl
@[simp] theorem Dev.setCrew_bt (d : Dev) (k : Nat) (x : CrewVol) : (d.setCrew k x).bt = d.bt := rfl
@[simp] theorem Dev.setCrew_pm (d : Dev) (k : Nat) (x : CrewVol) : (d.setCrew k x).pm = d.pm := rfl
@[simp] theorem Dev.setCrew_mem (d : Dev) (k : Nat) (x : CrewVol) : (d.setCrew k x).mem = d.mem := rfl
@[simp] theorem Dev.setCrew_out (d : Dev) (k : Nat) (x : CrewVol) : (d.setCrew k x).out = d.out := rfl
@[simp] theorem Dev.setCrew_free (d : Dev) (k : Nat) (x : CrewVol) : (d.setCrew k x).free = d.free := rfl

/-! ### setLink -/

@[simp] theorem Dev.setLink_reg (d : Dev) (k : Nat) (x : LinkSt) : (d.setLink k x).reg = d.reg := rfl
@[simp] theorem Dev.setLink_tm (d : Dev) (k : Nat) (x : LinkSt) : (d.setLink k x).tm = d.tm := rfl
@[simp] theorem Dev.setLink_ig (d : Dev) (k : Nat) (x : LinkSt) : (d.setLink k x).ig = d.ig := rfl
@[simp] theorem Dev.setLink_gb (d : Dev) (k : Nat) (x : LinkSt) : (d.setLink k x).gb = d.gb := rfl
@[simp] theorem Dev.setLink_cm (d : Dev) (k : Nat) (x : LinkSt) : (d.setLink k x).cm = d.cm := rfl
@[simp] theorem Dev.setLink_cw (d : Dev) (k : Nat) (x : LinkSt) : (d.setLink k x).cw = d.cw := rfl
@[simp] theorem Dev.setLink_ag (d : Dev) (k : Nat) (x : LinkSt) : (d.setLink k x).ag = d.ag := rfl
@[simp] theorem Dev.setLink_et (d : Dev) (k : Nat) (x : LinkSt) : (d.setLink k x).et = d.et := rfl
@[simp] theorem Dev.setLink_lg (d : Dev) (k : Nat) (x : LinkSt) : (d.setLink k x).lg = d.lg := rfl
@[simp] theorem Dev.setLink_si (d : Dev) (k : Nat) (x : LinkSt) : (d.setLink k x).si = d.si := rfl
@[simp] theorem Dev.setLink_flt (d : Dev) (k : Nat) (x : LinkSt) : (d.setLink k x).flt = d.flt := rfl
@[simp] theorem Dev.setLink_rl_chip (d : Dev) (k : Nat) (x : LinkSt) : (d.setLink k x).rl.chip = d.rl.chip := rfl
@[simp] theorem Dev.setLink_rl_countM1 (d : Dev) (k : Nat) (x : LinkSt) : (d.setLink k x).rl.countM1 = d.rl.countM1 := rfl
@[simp] theorem Dev.setLink_rl_ready (d : Dev) (k : Nat) (x : LinkSt) : (d.setLink k x).rl.ready = d.rl.ready := rfl
@[simp] theorem Dev.setLink_rl_readySent (d : Dev) (k : Nat) (x : LinkSt) : (d.setLink k x).rl.readySent = d.rl.readySent := rfl
@[simp] theorem Dev.setLink_rl_startAt (d : Dev) (k : Nat) (x : LinkSt) : (d.setLink k x).rl.startAt = d.rl.startAt := rfl
@[simp] theorem Dev.setLink_rl_reach (d : Dev) (k : Nat) (x : LinkSt) : (d.setLink k x).rl.reach = d.rl.reach := rfl
@[simp] theorem Dev.setLink_rl_views (d : Dev) (k : Nat) (x : LinkSt) : (d.setLink k x).rl.views = d.rl.views := rfl
@[simp] theorem Dev.setLink_rl_silent (d : Dev) (k : Nat) (x : LinkSt) : (d.setLink k x).rl.silent = d.rl.silent := rfl
@[simp] theorem Dev.setLink_rl_group (d : Dev) (k : Nat) (x : LinkSt) : (d.setLink k x).rl.group = d.rl.group := rfl
@[simp] theorem Dev.setLink_rl_majority (d : Dev) (k : Nat) (x : LinkSt) : (d.setLink k x).rl.majority = d.rl.majority := rfl
@[simp] theorem Dev.setLink_rl_takeover (d : Dev) (k : Nat) (x : LinkSt) : (d.setLink k x).rl.takeover = d.rl.takeover := rfl
@[simp] theorem Dev.setLink_rl_lost (d : Dev) (k : Nat) (x : LinkSt) : (d.setLink k x).rl.lost = d.rl.lost := rfl
@[simp] theorem Dev.setLink_rl_changedAt (d : Dev) (k : Nat) (x : LinkSt) : (d.setLink k x).rl.changedAt = d.rl.changedAt := rfl
@[simp] theorem Dev.setLink_rl_parts (d : Dev) (k : Nat) (x : LinkSt) : (d.setLink k x).rl.parts = d.rl.parts := rfl
@[simp] theorem Dev.setLink_rl_verds (d : Dev) (k : Nat) (x : LinkSt) : (d.setLink k x).rl.verds = d.rl.verds := rfl
@[simp] theorem Dev.setLink_rl_delays (d : Dev) (k : Nat) (x : LinkSt) : (d.setLink k x).rl.delays = d.rl.delays := rfl
@[simp] theorem Dev.setLink_rl_reseated (d : Dev) (k : Nat) (x : LinkSt) : (d.setLink k x).rl.reseated = d.rl.reseated := rfl
@[simp] theorem Dev.setLink_hi (d : Dev) (k : Nat) (x : LinkSt) : (d.setLink k x).hi = d.hi := rfl
@[simp] theorem Dev.setLink_xs (d : Dev) (k : Nat) (x : LinkSt) : (d.setLink k x).xs = d.xs := rfl
@[simp] theorem Dev.setLink_bt (d : Dev) (k : Nat) (x : LinkSt) : (d.setLink k x).bt = d.bt := rfl
@[simp] theorem Dev.setLink_pm (d : Dev) (k : Nat) (x : LinkSt) : (d.setLink k x).pm = d.pm := rfl
@[simp] theorem Dev.setLink_mem (d : Dev) (k : Nat) (x : LinkSt) : (d.setLink k x).mem = d.mem := rfl
@[simp] theorem Dev.setLink_out (d : Dev) (k : Nat) (x : LinkSt) : (d.setLink k x).out = d.out := rfl
@[simp] theorem Dev.setLink_free (d : Dev) (k : Nat) (x : LinkSt) : (d.setLink k x).free = d.free := rfl

/-! ### setRing -/

@[simp] theorem Dev.setRing_reg (d : Dev) (k : Nat) (x : RingSt) : (d.setRing k x).reg = d.reg := rfl
@[simp] theorem Dev.setRing_tm (d : Dev) (k : Nat) (x : RingSt) : (d.setRing k x).tm = d.tm := rfl
@[simp] theorem Dev.setRing_ig (d : Dev) (k : Nat) (x : RingSt) : (d.setRing k x).ig = d.ig := rfl
@[simp] theorem Dev.setRing_gb (d : Dev) (k : Nat) (x : RingSt) : (d.setRing k x).gb = d.gb := rfl
@[simp] theorem Dev.setRing_cm (d : Dev) (k : Nat) (x : RingSt) : (d.setRing k x).cm = d.cm := rfl
@[simp] theorem Dev.setRing_cw (d : Dev) (k : Nat) (x : RingSt) : (d.setRing k x).cw = d.cw := rfl
@[simp] theorem Dev.setRing_ag (d : Dev) (k : Nat) (x : RingSt) : (d.setRing k x).ag = d.ag := rfl
@[simp] theorem Dev.setRing_et (d : Dev) (k : Nat) (x : RingSt) : (d.setRing k x).et = d.et := rfl
@[simp] theorem Dev.setRing_lg (d : Dev) (k : Nat) (x : RingSt) : (d.setRing k x).lg = d.lg := rfl
@[simp] theorem Dev.setRing_si (d : Dev) (k : Nat) (x : RingSt) : (d.setRing k x).si = d.si := rfl
@[simp] theorem Dev.setRing_flt (d : Dev) (k : Nat) (x : RingSt) : (d.setRing k x).flt = d.flt := rfl
@[simp] theorem Dev.setRing_rl (d : Dev) (k : Nat) (x : RingSt) : (d.setRing k x).rl = d.rl := rfl
@[simp] theorem Dev.setRing_hi_linkUp (d : Dev) (k : Nat) (x : RingSt) : (d.setRing k x).hi.linkUp = d.hi.linkUp := rfl
@[simp] theorem Dev.setRing_hi_pci (d : Dev) (k : Nat) (x : RingSt) : (d.setRing k x).hi.pci = d.hi.pci := rfl
@[simp] theorem Dev.setRing_hi_width (d : Dev) (k : Nat) (x : RingSt) : (d.setRing k x).hi.width = d.hi.width := rfl
@[simp] theorem Dev.setRing_hi_rate (d : Dev) (k : Nat) (x : RingSt) : (d.setRing k x).hi.rate = d.hi.rate := rfl
@[simp] theorem Dev.setRing_hi_maint (d : Dev) (k : Nat) (x : RingSt) : (d.setRing k x).hi.maint = d.hi.maint := rfl
@[simp] theorem Dev.setRing_hi_maintReq (d : Dev) (k : Nat) (x : RingSt) : (d.setRing k x).hi.maintReq = d.hi.maintReq := rfl
@[simp] theorem Dev.setRing_hi_outq (d : Dev) (k : Nat) (x : RingSt) : (d.setRing k x).hi.outq = d.hi.outq := rfl
@[simp] theorem Dev.setRing_hi_fetchq (d : Dev) (k : Nat) (x : RingSt) : (d.setRing k x).hi.fetchq = d.hi.fetchq := rfl
@[simp] theorem Dev.setRing_hi_decided (d : Dev) (k : Nat) (x : RingSt) : (d.setRing k x).hi.decided = d.hi.decided := rfl
@[simp] theorem Dev.setRing_hi_mbx (d : Dev) (k : Nat) (x : RingSt) : (d.setRing k x).hi.mbx = d.hi.mbx := rfl
@[simp] theorem Dev.setRing_hi_msix (d : Dev) (k : Nat) (x : RingSt) : (d.setRing k x).hi.msix = d.hi.msix := rfl
@[simp] theorem Dev.setRing_hi_pba (d : Dev) (k : Nat) (x : RingSt) : (d.setRing k x).hi.pba = d.hi.pba := rfl
@[simp] theorem Dev.setRing_hi_cause (d : Dev) (k : Nat) (x : RingSt) : (d.setRing k x).hi.cause = d.hi.cause := rfl
@[simp] theorem Dev.setRing_hi_mem (d : Dev) (k : Nat) (x : RingSt) : (d.setRing k x).hi.mem = d.hi.mem := rfl
@[simp] theorem Dev.setRing_hi_leave (d : Dev) (k : Nat) (x : RingSt) : (d.setRing k x).hi.leave = d.hi.leave := rfl
@[simp] theorem Dev.setRing_hi_due13 (d : Dev) (k : Nat) (x : RingSt) : (d.setRing k x).hi.due13 = d.hi.due13 := rfl
@[simp] theorem Dev.setRing_hi_siAt (d : Dev) (k : Nat) (x : RingSt) : (d.setRing k x).hi.siAt = d.hi.siAt := rfl
@[simp] theorem Dev.setRing_xs (d : Dev) (k : Nat) (x : RingSt) : (d.setRing k x).xs = d.xs := rfl
@[simp] theorem Dev.setRing_bt (d : Dev) (k : Nat) (x : RingSt) : (d.setRing k x).bt = d.bt := rfl
@[simp] theorem Dev.setRing_pm (d : Dev) (k : Nat) (x : RingSt) : (d.setRing k x).pm = d.pm := rfl
@[simp] theorem Dev.setRing_mem (d : Dev) (k : Nat) (x : RingSt) : (d.setRing k x).mem = d.mem := rfl
@[simp] theorem Dev.setRing_out (d : Dev) (k : Nat) (x : RingSt) : (d.setRing k x).out = d.out := rfl
@[simp] theorem Dev.setRing_free (d : Dev) (k : Nat) (x : RingSt) : (d.setRing k x).free = d.free := rfl

/-! ### setXsChan -/

@[simp] theorem Dev.setXsChan_reg (d : Dev) (k : Nat) (x : XsChan) : (d.setXsChan k x).reg = d.reg := rfl
@[simp] theorem Dev.setXsChan_tm (d : Dev) (k : Nat) (x : XsChan) : (d.setXsChan k x).tm = d.tm := rfl
@[simp] theorem Dev.setXsChan_ig (d : Dev) (k : Nat) (x : XsChan) : (d.setXsChan k x).ig = d.ig := rfl
@[simp] theorem Dev.setXsChan_gb (d : Dev) (k : Nat) (x : XsChan) : (d.setXsChan k x).gb = d.gb := rfl
@[simp] theorem Dev.setXsChan_cm (d : Dev) (k : Nat) (x : XsChan) : (d.setXsChan k x).cm = d.cm := rfl
@[simp] theorem Dev.setXsChan_cw (d : Dev) (k : Nat) (x : XsChan) : (d.setXsChan k x).cw = d.cw := rfl
@[simp] theorem Dev.setXsChan_ag (d : Dev) (k : Nat) (x : XsChan) : (d.setXsChan k x).ag = d.ag := rfl
@[simp] theorem Dev.setXsChan_et (d : Dev) (k : Nat) (x : XsChan) : (d.setXsChan k x).et = d.et := rfl
@[simp] theorem Dev.setXsChan_lg (d : Dev) (k : Nat) (x : XsChan) : (d.setXsChan k x).lg = d.lg := rfl
@[simp] theorem Dev.setXsChan_si (d : Dev) (k : Nat) (x : XsChan) : (d.setXsChan k x).si = d.si := rfl
@[simp] theorem Dev.setXsChan_flt (d : Dev) (k : Nat) (x : XsChan) : (d.setXsChan k x).flt = d.flt := rfl
@[simp] theorem Dev.setXsChan_rl (d : Dev) (k : Nat) (x : XsChan) : (d.setXsChan k x).rl = d.rl := rfl
@[simp] theorem Dev.setXsChan_hi (d : Dev) (k : Nat) (x : XsChan) : (d.setXsChan k x).hi = d.hi := rfl
@[simp] theorem Dev.setXsChan_xs_mem (d : Dev) (k : Nat) (x : XsChan) : (d.setXsChan k x).xs.mem = d.xs.mem := rfl
@[simp] theorem Dev.setXsChan_xs_ready (d : Dev) (k : Nat) (x : XsChan) : (d.setXsChan k x).xs.ready = d.xs.ready := rfl
@[simp] theorem Dev.setXsChan_xs_geomErr (d : Dev) (k : Nat) (x : XsChan) : (d.setXsChan k x).xs.geomErr = d.xs.geomErr := rfl
@[simp] theorem Dev.setXsChan_xs_devicesM1 (d : Dev) (k : Nat) (x : XsChan) : (d.setXsChan k x).xs.devicesM1 = d.xs.devicesM1 := rfl
@[simp] theorem Dev.setXsChan_xs_density (d : Dev) (k : Nat) (x : XsChan) : (d.setXsChan k x).xs.density = d.xs.density := rfl
@[simp] theorem Dev.setXsChan_xs_next (d : Dev) (k : Nat) (x : XsChan) : (d.setXsChan k x).xs.next = d.xs.next := rfl
@[simp] theorem Dev.setXsChan_xs_bad (d : Dev) (k : Nat) (x : XsChan) : (d.setXsChan k x).xs.bad = d.xs.bad := rfl
@[simp] theorem Dev.setXsChan_bt (d : Dev) (k : Nat) (x : XsChan) : (d.setXsChan k x).bt = d.bt := rfl
@[simp] theorem Dev.setXsChan_pm (d : Dev) (k : Nat) (x : XsChan) : (d.setXsChan k x).pm = d.pm := rfl
@[simp] theorem Dev.setXsChan_mem (d : Dev) (k : Nat) (x : XsChan) : (d.setXsChan k x).mem = d.mem := rfl
@[simp] theorem Dev.setXsChan_out (d : Dev) (k : Nat) (x : XsChan) : (d.setXsChan k x).out = d.out := rfl
@[simp] theorem Dev.setXsChan_free (d : Dev) (k : Nat) (x : XsChan) : (d.setXsChan k x).free = d.free := rfl

end Sys2Proof.Machine
end

