-- ==== Sys2Proof/Laws/Ops.lean ====
section
/-! SUPPORT. What each shared operation can do: counters, registers, monitor messages, interrupts, reports, and the commit
of a command's blocks. -/

namespace Sys2Proof.Machine

/-! ### Registers and counters -/

@[simp] theorem Dev.rd_hw_same (d : Dev) (a : Nat) (v : Word) : (d.hw a v).rd a = v := by simp [Dev.rd, Dev.hw]

theorem Dev.rd_hw_ne (d : Dev) {a b : Nat} (v : Word) (h : b ≠ a) : (d.hw a v).rd b = d.rd b := by
  simp [Dev.rd, Dev.hw, smGet_smSet_ne _ _ _ h]

@[simp] theorem Dev.ctr_bump_same (d : Dev) (a n : Nat) : (d.bump a n).ctr a = ctrAdd (d.ctr a) n := by
  simp [Dev.ctr, Dev.bump]

theorem Dev.ctr_bump_ne (d : Dev) {a b : Nat} (n : Nat) (h : b ≠ a) : (d.bump a n).ctr b = d.ctr b := by
  simp [Dev.ctr, Dev.bump, smGet_smSet_ne _ _ _ h]

@[simp] theorem Dev.rd_bump (d : Dev) (a n b : Nat) : (d.bump a n).rd b = d.rd b := rfl
@[simp] theorem Dev.rf_bump (d : Dev) (a n b lo len : Nat) : (d.bump a n).rf b lo len = d.rf b lo len := rfl

/-! ### Cores, crews, volatile parts -/

@[simp] theorem Dev.core_setCore_same (d : Dev) (c : Nat) (x : CoreChk) : (d.setCore c x).core c = x := by
  simp [Dev.core, Dev.setCore]

theorem Dev.core_setCore_ne (d : Dev) {c e : Nat} (x : CoreChk) (h : e ≠ c) : (d.setCore c x).core e = d.core e := by
  simp [Dev.core, Dev.setCore, smGet_smSet_ne _ _ _ h]

@[simp] theorem Dev.vol_setVol_same (d : Dev) (c : Nat) (x : CoreVol) : (d.setVol c x).vol c = x := by
  simp [Dev.vol, Dev.setVol]

theorem Dev.vol_setVol_ne (d : Dev) {c e : Nat} (x : CoreVol) (h : e ≠ c) : (d.setVol c x).vol e = d.vol e := by
  simp [Dev.vol, Dev.setVol, smGet_smSet_ne _ _ _ h]

@[simp] theorem Dev.crew_setCrew_same (d : Dev) (k : Nat) (x : CrewVol) : (d.setCrew k x).crew k = x := by
  simp [Dev.crew, Dev.setCrew]

theorem Dev.crew_setCrew_ne (d : Dev) {k e : Nat} (x : CrewVol) (h : e ≠ k) : (d.setCrew k x).crew e = d.crew e := by
  simp [Dev.crew, Dev.setCrew, smGet_smSet_ne _ _ _ h]

@[simp] theorem Dev.core_setVol (d : Dev) (c e : Nat) (x : CoreVol) : (d.setVol c x).core e = d.core e := rfl
@[simp] theorem Dev.core_setCrew (d : Dev) (k e : Nat) (x : CrewVol) : (d.setCrew k x).core e = d.core e := rfl
@[simp] theorem Dev.vol_setCore (d : Dev) (c e : Nat) (x : CoreChk) : (d.setCore c x).vol e = d.vol e := rfl
@[simp] theorem Dev.vol_setCrew (d : Dev) (k e : Nat) (x : CrewVol) : (d.setCrew k x).vol e = d.vol e := rfl
@[simp] theorem Dev.crew_setCore (d : Dev) (c e : Nat) (x : CoreChk) : (d.setCore c x).crew e = d.crew e := rfl
@[simp] theorem Dev.crew_setVol (d : Dev) (c e : Nat) (x : CoreVol) : (d.setVol c x).crew e = d.crew e := rfl
@[simp] theorem Dev.core_bump (d : Dev) (a n e : Nat) : (d.bump a n).core e = d.core e := rfl
@[simp] theorem Dev.vol_bump (d : Dev) (a n e : Nat) : (d.bump a n).vol e = d.vol e := rfl
@[simp] theorem Dev.crew_bump (d : Dev) (a n e : Nat) : (d.bump a n).crew e = d.crew e := rfl

/-! ### Folds -/

/-- A part of the state that no step of a fold changes. -/
theorem foldl_proj {α β γ : Type} (f : β → α → β) (g : β → γ) (h : ∀ x y, g (f x y) = g x) (l : List α) (b : β) :
    g (l.foldl f b) = g b := by
  induction l generalizing b with
  | nil => rfl
  | cons a r ih => rw [List.foldl_cons, ih, h]

/-! ### Monitor messages, interrupts -/

@[simp] theorem Dev.mon_reg (d : Dev) (m : MonMsg) : (d.mon m).reg = d.reg := by
  unfold Dev.mon; split <;> rfl
@[simp] theorem Dev.mon_tm (d : Dev) (m : MonMsg) : (d.mon m).tm = d.tm := by
  unfold Dev.mon; split <;> rfl
@[simp] theorem Dev.mon_ig (d : Dev) (m : MonMsg) : (d.mon m).ig = d.ig := by
  unfold Dev.mon; split <;> rfl
@[simp] theorem Dev.mon_gb (d : Dev) (m : MonMsg) : (d.mon m).gb = d.gb := by
  unfold Dev.mon; split <;> rfl
@[simp] theorem Dev.mon_cm (d : Dev) (m : MonMsg) : (d.mon m).cm = d.cm := by
  unfold Dev.mon; split <;> rfl
@[simp] theorem Dev.mon_cw (d : Dev) (m : MonMsg) : (d.mon m).cw = d.cw := by
  unfold Dev.mon; split <;> rfl
@[simp] theorem Dev.mon_ag (d : Dev) (m : MonMsg) : (d.mon m).ag = d.ag := by
  unfold Dev.mon; split <;> rfl
@[simp] theorem Dev.mon_et (d : Dev) (m : MonMsg) : (d.mon m).et = d.et := by
  unfold Dev.mon; split <;> rfl
@[simp] theorem Dev.mon_lg (d : Dev) (m : MonMsg) : (d.mon m).lg = d.lg := by
  unfold Dev.mon; split <;> rfl
@[simp] theorem Dev.mon_si_thr (d : Dev) (m : MonMsg) : (d.mon m).si.thr = d.si.thr := by
  unfold Dev.mon; split <;> rfl
@[simp] theorem Dev.mon_si_thrC (d : Dev) (m : MonMsg) : (d.mon m).si.thrC = d.si.thrC := by
  unfold Dev.mon; split <;> rfl
@[simp] theorem Dev.mon_si_gref (d : Dev) (m : MonMsg) : (d.mon m).si.gref = d.si.gref := by
  unfold Dev.mon; split <;> rfl
@[simp] theorem Dev.mon_si_portOpen (d : Dev) (m : MonMsg) : (d.mon m).si.portOpen = d.si.portOpen := by
  unfold Dev.mon; split <;> rfl
@[simp] theorem Dev.mon_si_tap (d : Dev) (m : MonMsg) : (d.mon m).si.tap = d.si.tap := by
  unfold Dev.mon; split <;> rfl
@[simp] theorem Dev.mon_si_tapAt (d : Dev) (m : MonMsg) : (d.mon m).si.tapAt = d.si.tapAt := by
  unfold Dev.mon; split <;> rfl
@[simp] theorem Dev.mon_si_taps (d : Dev) (m : MonMsg) : (d.mon m).si.taps = d.si.taps := by
  unfold Dev.mon; split <;> rfl
@[simp] theorem Dev.mon_si_poses (d : Dev) (m : MonMsg) : (d.mon m).si.poses = d.si.poses := by
  unfold Dev.mon; split <;> rfl
@[simp] theorem Dev.mon_si_gs (d : Dev) (m : MonMsg) : (d.mon m).si.gs = d.si.gs := by
  unfold Dev.mon; split <;> rfl
@[simp] theorem Dev.mon_si_wx (d : Dev) (m : MonMsg) : (d.mon m).si.wx = d.si.wx := by
  unfold Dev.mon; split <;> rfl
@[simp] theorem Dev.mon_si_wy (d : Dev) (m : MonMsg) : (d.mon m).si.wy = d.si.wy := by
  unfold Dev.mon; split <;> rfl
@[simp] theorem Dev.mon_si_await (d : Dev) (m : MonMsg) : (d.mon m).si.await = d.si.await := by
  unfold Dev.mon; split <;> rfl
@[simp] theorem Dev.mon_si_fresh (d : Dev) (m : MonMsg) : (d.mon m).si.fresh = d.si.fresh := by
  unfold Dev.mon; split <;> rfl
@[simp] theorem Dev.mon_si_gsUpset (d : Dev) (m : MonMsg) : (d.mon m).si.gsUpset = d.si.gsUpset := by
  unfold Dev.mon; split <;> rfl
@[simp] theorem Dev.mon_si_gsAt (d : Dev) (m : MonMsg) : (d.mon m).si.gsAt = d.si.gsAt := by
  unfold Dev.mon; split <;> rfl
@[simp] theorem Dev.mon_si_sweep (d : Dev) (m : MonMsg) : (d.mon m).si.sweep = d.si.sweep := by
  unfold Dev.mon; split <;> rfl
@[simp] theorem Dev.mon_si_bnds (d : Dev) (m : MonMsg) : (d.mon m).si.bnds = d.si.bnds := by
  unfold Dev.mon; split <;> rfl
@[simp] theorem Dev.mon_si_entry (d : Dev) (m : MonMsg) : (d.mon m).si.entry = d.si.entry := by
  unfold Dev.mon; split <;> rfl
@[simp] theorem Dev.mon_si_biv (d : Dev) (m : MonMsg) : (d.mon m).si.biv = d.si.biv := by
  unfold Dev.mon; split <;> rfl
@[simp] theorem Dev.mon_si_doubts (d : Dev) (m : MonMsg) : (d.mon m).si.doubts = d.si.doubts := by
  unfold Dev.mon; split <;> rfl
@[simp] theorem Dev.mon_si_serveAll (d : Dev) (m : MonMsg) : (d.mon m).si.serveAll = d.si.serveAll := by
  unfold Dev.mon; split <;> rfl
@[simp] theorem Dev.mon_si_serve (d : Dev) (m : MonMsg) : (d.mon m).si.serve = d.si.serve := by
  unfold Dev.mon; split <;> rfl
@[simp] theorem Dev.mon_si_latched (d : Dev) (m : MonMsg) : (d.mon m).si.latched = d.si.latched := by
  unfold Dev.mon; split <;> rfl
@[simp] theorem Dev.mon_si_permanent (d : Dev) (m : MonMsg) : (d.mon m).si.permanent = d.si.permanent := by
  unfold Dev.mon; split <;> rfl
@[simp] theorem Dev.mon_si_bivFail (d : Dev) (m : MonMsg) : (d.mon m).si.bivFail = d.si.bivFail := by
  unfold Dev.mon; split <;> rfl
@[simp] theorem Dev.mon_si_fatal (d : Dev) (m : MonMsg) : (d.mon m).si.fatal = d.si.fatal := by
  unfold Dev.mon; split <;> rfl
@[simp] theorem Dev.mon_si_cause (d : Dev) (m : MonMsg) : (d.mon m).si.cause = d.si.cause := by
  unfold Dev.mon; split <;> rfl
@[simp] theorem Dev.mon_si_restarting (d : Dev) (m : MonMsg) : (d.mon m).si.restarting = d.si.restarting := by
  unfold Dev.mon; split <;> rfl
@[simp] theorem Dev.mon_si_hist (d : Dev) (m : MonMsg) : (d.mon m).si.hist = d.si.hist := by
  unfold Dev.mon; split <;> rfl
@[simp] theorem Dev.mon_si_perDoubt (d : Dev) (m : MonMsg) : (d.mon m).si.perDoubt = d.si.perDoubt := by
  unfold Dev.mon; split <;> rfl
@[simp] theorem Dev.mon_si_perClean (d : Dev) (m : MonMsg) : (d.mon m).si.perClean = d.si.perClean := by
  unfold Dev.mon; split <;> rfl
@[simp] theorem Dev.mon_si_clean (d : Dev) (m : MonMsg) : (d.mon m).si.clean = d.si.clean := by
  unfold Dev.mon; split <;> rfl
@[simp] theorem Dev.mon_si_recov (d : Dev) (m : MonMsg) : (d.mon m).si.recov = d.si.recov := by
  unfold Dev.mon; split <;> rfl
@[simp] theorem Dev.mon_si_requests (d : Dev) (m : MonMsg) : (d.mon m).si.requests = d.si.requests := by
  unfold Dev.mon; split <;> rfl
@[simp] theorem Dev.mon_si_time (d : Dev) (m : MonMsg) : (d.mon m).si.time = d.si.time := by
  unfold Dev.mon; split <;> rfl
@[simp] theorem Dev.mon_si_lastRule (d : Dev) (m : MonMsg) : (d.mon m).si.lastRule = d.si.lastRule := by
  unfold Dev.mon; split <;> rfl
@[simp] theorem Dev.mon_si_lastTile (d : Dev) (m : MonMsg) : (d.mon m).si.lastTile = d.si.lastTile := by
  unfold Dev.mon; split <;> rfl
@[simp] theorem Dev.mon_si_lastAll (d : Dev) (m : MonMsg) : (d.mon m).si.lastAll = d.si.lastAll := by
  unfold Dev.mon; split <;> rfl
@[simp] theorem Dev.mon_si_lastStroke (d : Dev) (m : MonMsg) : (d.mon m).si.lastStroke = d.si.lastStroke := by
  unfold Dev.mon; split <;> rfl
@[simp] theorem Dev.mon_si_tracks (d : Dev) (m : MonMsg) : (d.mon m).si.tracks = d.si.tracks := by
  unfold Dev.mon; split <;> rfl
@[simp] theorem Dev.mon_si_ww (d : Dev) (m : MonMsg) : (d.mon m).si.ww = d.si.ww := by
  unfold Dev.mon; split <;> rfl
@[simp] theorem Dev.mon_si_cnt (d : Dev) (m : MonMsg) : (d.mon m).si.cnt = d.si.cnt := by
  unfold Dev.mon; split <;> rfl
@[simp] theorem Dev.mon_si_wins (d : Dev) (m : MonMsg) : (d.mon m).si.wins = d.si.wins := by
  unfold Dev.mon; split <;> rfl
@[simp] theorem Dev.mon_si_gpts (d : Dev) (m : MonMsg) : (d.mon m).si.gpts = d.si.gpts := by
  unfold Dev.mon; split <;> rfl
@[simp] theorem Dev.mon_si_gcrc (d : Dev) (m : MonMsg) : (d.mon m).si.gcrc = d.si.gcrc := by
  unfold Dev.mon; split <;> rfl
@[simp] theorem Dev.mon_si_gprev (d : Dev) (m : MonMsg) : (d.mon m).si.gprev = d.si.gprev := by
  unfold Dev.mon; split <;> rfl
@[simp] theorem Dev.mon_si_verdictAt (d : Dev) (m : MonMsg) : (d.mon m).si.verdictAt = d.si.verdictAt := by
  unfold Dev.mon; split <;> rfl
@[simp] theorem Dev.mon_si_thOk (d : Dev) (m : MonMsg) : (d.mon m).si.thOk = d.si.thOk := by
  unfold Dev.mon; split <;> rfl
@[simp] theorem Dev.mon_si_muted (d : Dev) (m : MonMsg) : (d.mon m).si.muted = d.si.muted := by
  unfold Dev.mon; split <;> rfl
@[simp] theorem Dev.mon_si_latchReq (d : Dev) (m : MonMsg) : (d.mon m).si.latchReq = d.si.latchReq := by
  unfold Dev.mon; split <;> rfl
@[simp] theorem Dev.mon_si_permReq (d : Dev) (m : MonMsg) : (d.mon m).si.permReq = d.si.permReq := by
  unfold Dev.mon; split <;> rfl
@[simp] theorem Dev.mon_si_firstFailed (d : Dev) (m : MonMsg) : (d.mon m).si.firstFailed = d.si.firstFailed := by
  unfold Dev.mon; split <;> rfl
@[simp] theorem Dev.mon_si_sel (d : Dev) (m : MonMsg) : (d.mon m).si.sel = d.si.sel := by
  unfold Dev.mon; split <;> rfl
@[simp] theorem Dev.mon_si_tested (d : Dev) (m : MonMsg) : (d.mon m).si.tested = d.si.tested := by
  unfold Dev.mon; split <;> rfl
@[simp] theorem Dev.mon_si_running (d : Dev) (m : MonMsg) : (d.mon m).si.running = d.si.running := by
  unfold Dev.mon; split <;> rfl
@[simp] theorem Dev.mon_si_pin (d : Dev) (m : MonMsg) : (d.mon m).si.pin = d.si.pin := by
  unfold Dev.mon; split <;> rfl
@[simp] theorem Dev.mon_si_maint (d : Dev) (m : MonMsg) : (d.mon m).si.maint = d.si.maint := by
  unfold Dev.mon; split <;> rfl
@[simp] theorem Dev.mon_si_pllLost (d : Dev) (m : MonMsg) : (d.mon m).si.pllLost = d.si.pllLost := by
  unfold Dev.mon; split <;> rfl
@[simp] theorem Dev.mon_flt (d : Dev) (m : MonMsg) : (d.mon m).flt = d.flt := by
  unfold Dev.mon; split <;> rfl
@[simp] theorem Dev.mon_rl (d : Dev) (m : MonMsg) : (d.mon m).rl = d.rl := by
  unfold Dev.mon; split <;> rfl
@[simp] theorem Dev.mon_hi (d : Dev) (m : MonMsg) : (d.mon m).hi = d.hi := by
  unfold Dev.mon; split <;> rfl
@[simp] theorem Dev.mon_xs (d : Dev) (m : MonMsg) : (d.mon m).xs = d.xs := by
  unfold Dev.mon; split <;> rfl
@[simp] theorem Dev.mon_bt (d : Dev) (m : MonMsg) : (d.mon m).bt = d.bt := by
  unfold Dev.mon; split <;> rfl
@[simp] theorem Dev.mon_pm (d : Dev) (m : MonMsg) : (d.mon m).pm = d.pm := by
  unfold Dev.mon; split <;> rfl
@[simp] theorem Dev.mon_mem (d : Dev) (m : MonMsg) : (d.mon m).mem = d.mem := by
  unfold Dev.mon; split <;> rfl
@[simp] theorem Dev.mon_out (d : Dev) (m : MonMsg) : (d.mon m).out = d.out := by
  unfold Dev.mon; split <;> rfl
@[simp] theorem Dev.mon_free (d : Dev) (m : MonMsg) : (d.mon m).free = d.free := by
  unfold Dev.mon; split <;> rfl

@[simp] theorem Dev.msixSend_reg (d : Dev) (v : Nat) : (d.msixSend v).reg = d.reg := by
  unfold Dev.msixSend; dsimp only; split <;> rfl
@[simp] theorem Dev.msixSend_tm (d : Dev) (v : Nat) : (d.msixSend v).tm = d.tm := by
  unfold Dev.msixSend; dsimp only; split <;> rfl
@[simp] theorem Dev.msixSend_ig (d : Dev) (v : Nat) : (d.msixSend v).ig = d.ig := by
  unfold Dev.msixSend; dsimp only; split <;> rfl
@[simp] theorem Dev.msixSend_gb (d : Dev) (v : Nat) : (d.msixSend v).gb = d.gb := by
  unfold Dev.msixSend; dsimp only; split <;> rfl
@[simp] theorem Dev.msixSend_cm (d : Dev) (v : Nat) : (d.msixSend v).cm = d.cm := by
  unfold Dev.msixSend; dsimp only; split <;> rfl
@[simp] theorem Dev.msixSend_cw (d : Dev) (v : Nat) : (d.msixSend v).cw = d.cw := by
  unfold Dev.msixSend; dsimp only; split <;> rfl
@[simp] theorem Dev.msixSend_ag (d : Dev) (v : Nat) : (d.msixSend v).ag = d.ag := by
  unfold Dev.msixSend; dsimp only; split <;> rfl
@[simp] theorem Dev.msixSend_et (d : Dev) (v : Nat) : (d.msixSend v).et = d.et := by
  unfold Dev.msixSend; dsimp only; split <;> rfl
@[simp] theorem Dev.msixSend_lg (d : Dev) (v : Nat) : (d.msixSend v).lg = d.lg := by
  unfold Dev.msixSend; dsimp only; split <;> rfl
@[simp] theorem Dev.msixSend_si (d : Dev) (v : Nat) : (d.msixSend v).si = d.si := by
  unfold Dev.msixSend; dsimp only; split <;> rfl
@[simp] theorem Dev.msixSend_flt (d : Dev) (v : Nat) : (d.msixSend v).flt = d.flt := by
  unfold Dev.msixSend; dsimp only; split <;> rfl
@[simp] theorem Dev.msixSend_rl (d : Dev) (v : Nat) : (d.msixSend v).rl = d.rl := by
  unfold Dev.msixSend; dsimp only; split <;> rfl
@[simp] theorem Dev.msixSend_hi_linkUp (d : Dev) (v : Nat) : (d.msixSend v).hi.linkUp = d.hi.linkUp := by
  unfold Dev.msixSend; dsimp only; split <;> rfl
@[simp] theorem Dev.msixSend_hi_pci (d : Dev) (v : Nat) : (d.msixSend v).hi.pci = d.hi.pci := by
  unfold Dev.msixSend; dsimp only; split <;> rfl
@[simp] theorem Dev.msixSend_hi_width (d : Dev) (v : Nat) : (d.msixSend v).hi.width = d.hi.width := by
  unfold Dev.msixSend; dsimp only; split <;> rfl
@[simp] theorem Dev.msixSend_hi_rate (d : Dev) (v : Nat) : (d.msixSend v).hi.rate = d.hi.rate := by
  unfold Dev.msixSend; dsimp only; split <;> rfl
@[simp] theorem Dev.msixSend_hi_maint (d : Dev) (v : Nat) : (d.msixSend v).hi.maint = d.hi.maint := by
  unfold Dev.msixSend; dsimp only; split <;> rfl
@[simp] theorem Dev.msixSend_hi_maintReq (d : Dev) (v : Nat) : (d.msixSend v).hi.maintReq = d.hi.maintReq := by
  unfold Dev.msixSend; dsimp only; split <;> rfl
@[simp] theorem Dev.msixSend_hi_rings (d : Dev) (v : Nat) : (d.msixSend v).hi.rings = d.hi.rings := by
  unfold Dev.msixSend; dsimp only; split <;> rfl
@[simp] theorem Dev.msixSend_hi_outq (d : Dev) (v : Nat) : (d.msixSend v).hi.outq = d.hi.outq := by
  unfold Dev.msixSend; dsimp only; split <;> rfl
@[simp] theorem Dev.msixSend_hi_fetchq (d : Dev) (v : Nat) : (d.msixSend v).hi.fetchq = d.hi.fetchq := by
  unfold Dev.msixSend; dsimp only; split <;> rfl
@[simp] theorem Dev.msixSend_hi_decided (d : Dev) (v : Nat) : (d.msixSend v).hi.decided = d.hi.decided := by
  unfold Dev.msixSend; dsimp only; split <;> rfl
@[simp] theorem Dev.msixSend_hi_mbx (d : Dev) (v : Nat) : (d.msixSend v).hi.mbx = d.hi.mbx := by
  unfold Dev.msixSend; dsimp only; split <;> rfl
@[simp] theorem Dev.msixSend_hi_msix (d : Dev) (v : Nat) : (d.msixSend v).hi.msix = d.hi.msix := by
  unfold Dev.msixSend; dsimp only; split <;> rfl
@[simp] theorem Dev.msixSend_hi_cause (d : Dev) (v : Nat) : (d.msixSend v).hi.cause = d.hi.cause := by
  unfold Dev.msixSend; dsimp only; split <;> rfl
@[simp] theorem Dev.msixSend_hi_mem (d : Dev) (v : Nat) : (d.msixSend v).hi.mem = d.hi.mem := by
  unfold Dev.msixSend; dsimp only; split <;> rfl
@[simp] theorem Dev.msixSend_hi_leave (d : Dev) (v : Nat) : (d.msixSend v).hi.leave = d.hi.leave := by
  unfold Dev.msixSend; dsimp only; split <;> rfl
@[simp] theorem Dev.msixSend_hi_due13 (d : Dev) (v : Nat) : (d.msixSend v).hi.due13 = d.hi.due13 := by
  unfold Dev.msixSend; dsimp only; split <;> rfl
@[simp] theorem Dev.msixSend_hi_siAt (d : Dev) (v : Nat) : (d.msixSend v).hi.siAt = d.hi.siAt := by
  unfold Dev.msixSend; dsimp only; split <;> rfl
@[simp] theorem Dev.msixSend_xs (d : Dev) (v : Nat) : (d.msixSend v).xs = d.xs := by
  unfold Dev.msixSend; dsimp only; split <;> rfl
@[simp] theorem Dev.msixSend_bt (d : Dev) (v : Nat) : (d.msixSend v).bt = d.bt := by
  unfold Dev.msixSend; dsimp only; split <;> rfl
@[simp] theorem Dev.msixSend_pm (d : Dev) (v : Nat) : (d.msixSend v).pm = d.pm := by
  unfold Dev.msixSend; dsimp only; split <;> rfl
@[simp] theorem Dev.msixSend_mem (d : Dev) (v : Nat) : (d.msixSend v).mem = d.mem := by
  unfold Dev.msixSend; dsimp only; split <;> rfl
@[simp] theorem Dev.msixSend_free (d : Dev) (v : Nat) : (d.msixSend v).free = d.free := by
  unfold Dev.msixSend; dsimp only; split <;> rfl

@[simp] theorem Dev.irq_reg (d : Dev) (v : Nat) : (d.irq v).reg = d.reg := by
  simp [Dev.irq]
@[simp] theorem Dev.irq_tm (d : Dev) (v : Nat) : (d.irq v).tm = d.tm := by
  simp [Dev.irq]
@[simp] theorem Dev.irq_ig (d : Dev) (v : Nat) : (d.irq v).ig = d.ig := by
  simp [Dev.irq]
@[simp] theorem Dev.irq_gb (d : Dev) (v : Nat) : (d.irq v).gb = d.gb := by
  simp [Dev.irq]
@[simp] theorem Dev.irq_cm (d : Dev) (v : Nat) : (d.irq v).cm = d.cm := by
  simp [Dev.irq]
@[simp] theorem Dev.irq_cw (d : Dev) (v : Nat) : (d.irq v).cw = d.cw := by
  simp [Dev.irq]
@[simp] theorem Dev.irq_ag (d : Dev) (v : Nat) : (d.irq v).ag = d.ag := by
  simp [Dev.irq]
@[simp] theorem Dev.irq_et (d : Dev) (v : Nat) : (d.irq v).et = d.et := by
  simp [Dev.irq]
@[simp] theorem Dev.irq_lg (d : Dev) (v : Nat) : (d.irq v).lg = d.lg := by
  simp [Dev.irq]
@[simp] theorem Dev.irq_si (d : Dev) (v : Nat) : (d.irq v).si = d.si := by
  simp [Dev.irq]
@[simp] theorem Dev.irq_flt (d : Dev) (v : Nat) : (d.irq v).flt = d.flt := by
  simp [Dev.irq]
@[simp] theorem Dev.irq_rl (d : Dev) (v : Nat) : (d.irq v).rl = d.rl := by
  simp [Dev.irq]
@[simp] theorem Dev.irq_hi_linkUp (d : Dev) (v : Nat) : (d.irq v).hi.linkUp = d.hi.linkUp := by
  simp [Dev.irq]
@[simp] theorem Dev.irq_hi_pci (d : Dev) (v : Nat) : (d.irq v).hi.pci = d.hi.pci := by
  simp [Dev.irq]
@[simp] theorem Dev.irq_hi_width (d : Dev) (v : Nat) : (d.irq v).hi.width = d.hi.width := by
  simp [Dev.irq]
@[simp] theorem Dev.irq_hi_rate (d : Dev) (v : Nat) : (d.irq v).hi.rate = d.hi.rate := by
  simp [Dev.irq]
@[simp] theorem Dev.irq_hi_maint (d : Dev) (v : Nat) : (d.irq v).hi.maint = d.hi.maint := by
  simp [Dev.irq]
@[simp] theorem Dev.irq_hi_maintReq (d : Dev) (v : Nat) : (d.irq v).hi.maintReq = d.hi.maintReq := by
  simp [Dev.irq]
@[simp] theorem Dev.irq_hi_rings (d : Dev) (v : Nat) : (d.irq v).hi.rings = d.hi.rings := by
  simp [Dev.irq]
@[simp] theorem Dev.irq_hi_outq (d : Dev) (v : Nat) : (d.irq v).hi.outq = d.hi.outq := by
  simp [Dev.irq]
@[simp] theorem Dev.irq_hi_fetchq (d : Dev) (v : Nat) : (d.irq v).hi.fetchq = d.hi.fetchq := by
  simp [Dev.irq]
@[simp] theorem Dev.irq_hi_decided (d : Dev) (v : Nat) : (d.irq v).hi.decided = d.hi.decided := by
  simp [Dev.irq]
@[simp] theorem Dev.irq_hi_mbx (d : Dev) (v : Nat) : (d.irq v).hi.mbx = d.hi.mbx := by
  simp [Dev.irq]
@[simp] theorem Dev.irq_hi_msix (d : Dev) (v : Nat) : (d.irq v).hi.msix = d.hi.msix := by
  simp [Dev.irq]
@[simp] theorem Dev.irq_hi_mem (d : Dev) (v : Nat) : (d.irq v).hi.mem = d.hi.mem := by
  simp [Dev.irq]
@[simp] theorem Dev.irq_hi_leave (d : Dev) (v : Nat) : (d.irq v).hi.leave = d.hi.leave := by
  simp [Dev.irq]
@[simp] theorem Dev.irq_hi_due13 (d : Dev) (v : Nat) : (d.irq v).hi.due13 = d.hi.due13 := by
  simp [Dev.irq]
@[simp] theorem Dev.irq_hi_siAt (d : Dev) (v : Nat) : (d.irq v).hi.siAt = d.hi.siAt := by
  simp [Dev.irq]
@[simp] theorem Dev.irq_xs (d : Dev) (v : Nat) : (d.irq v).xs = d.xs := by
  simp [Dev.irq]
@[simp] theorem Dev.irq_bt (d : Dev) (v : Nat) : (d.irq v).bt = d.bt := by
  simp [Dev.irq]
@[simp] theorem Dev.irq_pm (d : Dev) (v : Nat) : (d.irq v).pm = d.pm := by
  simp [Dev.irq]
@[simp] theorem Dev.irq_mem (d : Dev) (v : Nat) : (d.irq v).mem = d.mem := by
  simp [Dev.irq]
@[simp] theorem Dev.irq_free (d : Dev) (v : Nat) : (d.irq v).free = d.free := by
  simp [Dev.irq]

/-! ### The store's requests -/

@[simp] theorem StoreSt.put_mem (x : StoreSt) (a : Nat) (bs : List Byte) : (x.put a bs).mem = memWrite x.mem a bs := rfl
@[simp] theorem StoreSt.put_ready (x : StoreSt) (a : Nat) (bs : List Byte) : (x.put a bs).ready = x.ready := rfl
@[simp] theorem StoreSt.put_geomErr (x : StoreSt) (a : Nat) (bs : List Byte) : (x.put a bs).geomErr = x.geomErr := rfl
@[simp] theorem StoreSt.put_devicesM1 (x : StoreSt) (a : Nat) (bs : List Byte) : (x.put a bs).devicesM1 = x.devicesM1 := rfl
@[simp] theorem StoreSt.put_density (x : StoreSt) (a : Nat) (bs : List Byte) : (x.put a bs).density = x.density := rfl
@[simp] theorem StoreSt.put_chans (x : StoreSt) (a : Nat) (bs : List Byte) : (x.put a bs).chans = x.chans := rfl
@[simp] theorem StoreSt.put_next (x : StoreSt) (a : Nat) (bs : List Byte) : (x.put a bs).next = x.next := rfl

@[simp] theorem Dev.storeReq_reg (d : Dev) (cls : Nat) (w : Bool) (a n : Nat) (k : Bool) : (d.storeReq cls w a n k).reg = d.reg := by
  unfold Dev.storeReq; split <;> [(refine (foldl_proj _ (fun (x : Dev) => x.reg) ?_ _ _).trans rfl; intros; rfl); rfl]
@[simp] theorem Dev.storeReq_tm (d : Dev) (cls : Nat) (w : Bool) (a n : Nat) (k : Bool) : (d.storeReq cls w a n k).tm = d.tm := by
  unfold Dev.storeReq; split <;> [(refine (foldl_proj _ (fun (x : Dev) => x.tm) ?_ _ _).trans rfl; intros; rfl); rfl]
@[simp] theorem Dev.storeReq_ig (d : Dev) (cls : Nat) (w : Bool) (a n : Nat) (k : Bool) : (d.storeReq cls w a n k).ig = d.ig := by
  unfold Dev.storeReq; split <;> [(refine (foldl_proj _ (fun (x : Dev) => x.ig) ?_ _ _).trans rfl; intros; rfl); rfl]
@[simp] theorem Dev.storeReq_gb (d : Dev) (cls : Nat) (w : Bool) (a n : Nat) (k : Bool) : (d.storeReq cls w a n k).gb = d.gb := by
  unfold Dev.storeReq; split <;> [(refine (foldl_proj _ (fun (x : Dev) => x.gb) ?_ _ _).trans rfl; intros; rfl); rfl]
@[simp] theorem Dev.storeReq_cm (d : Dev) (cls : Nat) (w : Bool) (a n : Nat) (k : Bool) : (d.storeReq cls w a n k).cm = d.cm := by
  unfold Dev.storeReq; split <;> [(refine (foldl_proj _ (fun (x : Dev) => x.cm) ?_ _ _).trans rfl; intros; rfl); rfl]
@[simp] theorem Dev.storeReq_cw (d : Dev) (cls : Nat) (w : Bool) (a n : Nat) (k : Bool) : (d.storeReq cls w a n k).cw = d.cw := by
  unfold Dev.storeReq; split <;> [(refine (foldl_proj _ (fun (x : Dev) => x.cw) ?_ _ _).trans rfl; intros; rfl); rfl]
@[simp] theorem Dev.storeReq_ag (d : Dev) (cls : Nat) (w : Bool) (a n : Nat) (k : Bool) : (d.storeReq cls w a n k).ag = d.ag := by
  unfold Dev.storeReq; split <;> [(refine (foldl_proj _ (fun (x : Dev) => x.ag) ?_ _ _).trans rfl; intros; rfl); rfl]
@[simp] theorem Dev.storeReq_et (d : Dev) (cls : Nat) (w : Bool) (a n : Nat) (k : Bool) : (d.storeReq cls w a n k).et = d.et := by
  unfold Dev.storeReq; split <;> [(refine (foldl_proj _ (fun (x : Dev) => x.et) ?_ _ _).trans rfl; intros; rfl); rfl]
@[simp] theorem Dev.storeReq_lg (d : Dev) (cls : Nat) (w : Bool) (a n : Nat) (k : Bool) : (d.storeReq cls w a n k).lg = d.lg := by
  unfold Dev.storeReq; split <;> [(refine (foldl_proj _ (fun (x : Dev) => x.lg) ?_ _ _).trans rfl; intros; rfl); rfl]
@[simp] theorem Dev.storeReq_si (d : Dev) (cls : Nat) (w : Bool) (a n : Nat) (k : Bool) : (d.storeReq cls w a n k).si = d.si := by
  unfold Dev.storeReq; split <;> [(refine (foldl_proj _ (fun (x : Dev) => x.si) ?_ _ _).trans rfl; intros; rfl); rfl]
@[simp] theorem Dev.storeReq_flt (d : Dev) (cls : Nat) (w : Bool) (a n : Nat) (k : Bool) : (d.storeReq cls w a n k).flt = d.flt := by
  unfold Dev.storeReq; split <;> [(refine (foldl_proj _ (fun (x : Dev) => x.flt) ?_ _ _).trans rfl; intros; rfl); rfl]
@[simp] theorem Dev.storeReq_rl (d : Dev) (cls : Nat) (w : Bool) (a n : Nat) (k : Bool) : (d.storeReq cls w a n k).rl = d.rl := by
  unfold Dev.storeReq; split <;> [(refine (foldl_proj _ (fun (x : Dev) => x.rl) ?_ _ _).trans rfl; intros; rfl); rfl]
@[simp] theorem Dev.storeReq_hi (d : Dev) (cls : Nat) (w : Bool) (a n : Nat) (k : Bool) : (d.storeReq cls w a n k).hi = d.hi := by
  unfold Dev.storeReq; split <;> [(refine (foldl_proj _ (fun (x : Dev) => x.hi) ?_ _ _).trans rfl; intros; rfl); rfl]
@[simp] theorem Dev.storeReq_xs_mem (d : Dev) (cls : Nat) (w : Bool) (a n : Nat) (k : Bool) : (d.storeReq cls w a n k).xs.mem = d.xs.mem := by
  unfold Dev.storeReq; split <;> [(refine (foldl_proj _ (fun (x : Dev) => x.xs.mem) ?_ _ _).trans rfl; intros; rfl); rfl]
@[simp] theorem Dev.storeReq_xs_ready (d : Dev) (cls : Nat) (w : Bool) (a n : Nat) (k : Bool) : (d.storeReq cls w a n k).xs.ready = d.xs.ready := by
  unfold Dev.storeReq; split <;> [(refine (foldl_proj _ (fun (x : Dev) => x.xs.ready) ?_ _ _).trans rfl; intros; rfl); rfl]
@[simp] theorem Dev.storeReq_xs_geomErr (d : Dev) (cls : Nat) (w : Bool) (a n : Nat) (k : Bool) : (d.storeReq cls w a n k).xs.geomErr = d.xs.geomErr := by
  unfold Dev.storeReq; split <;> [(refine (foldl_proj _ (fun (x : Dev) => x.xs.geomErr) ?_ _ _).trans rfl; intros; rfl); rfl]
@[simp] theorem Dev.storeReq_xs_devicesM1 (d : Dev) (cls : Nat) (w : Bool) (a n : Nat) (k : Bool) : (d.storeReq cls w a n k).xs.devicesM1 = d.xs.devicesM1 := by
  unfold Dev.storeReq; split <;> [(refine (foldl_proj _ (fun (x : Dev) => x.xs.devicesM1) ?_ _ _).trans rfl; intros; rfl); rfl]
@[simp] theorem Dev.storeReq_xs_density (d : Dev) (cls : Nat) (w : Bool) (a n : Nat) (k : Bool) : (d.storeReq cls w a n k).xs.density = d.xs.density := by
  unfold Dev.storeReq; split <;> [(refine (foldl_proj _ (fun (x : Dev) => x.xs.density) ?_ _ _).trans rfl; intros; rfl); rfl]
@[simp] theorem Dev.storeReq_xs_bad (d : Dev) (cls : Nat) (w : Bool) (a n : Nat) (k : Bool) : (d.storeReq cls w a n k).xs.bad = d.xs.bad := by
  unfold Dev.storeReq; split <;> [(refine (foldl_proj _ (fun (x : Dev) => x.xs.bad) ?_ _ _).trans rfl; intros; rfl); rfl]
@[simp] theorem Dev.storeReq_bt (d : Dev) (cls : Nat) (w : Bool) (a n : Nat) (k : Bool) : (d.storeReq cls w a n k).bt = d.bt := by
  unfold Dev.storeReq; split <;> [(refine (foldl_proj _ (fun (x : Dev) => x.bt) ?_ _ _).trans rfl; intros; rfl); rfl]
@[simp] theorem Dev.storeReq_pm (d : Dev) (cls : Nat) (w : Bool) (a n : Nat) (k : Bool) : (d.storeReq cls w a n k).pm = d.pm := by
  unfold Dev.storeReq; split <;> [(refine (foldl_proj _ (fun (x : Dev) => x.pm) ?_ _ _).trans rfl; intros; rfl); rfl]
@[simp] theorem Dev.storeReq_mem (d : Dev) (cls : Nat) (w : Bool) (a n : Nat) (k : Bool) : (d.storeReq cls w a n k).mem = d.mem := by
  unfold Dev.storeReq; split <;> [(refine (foldl_proj _ (fun (x : Dev) => x.mem) ?_ _ _).trans rfl; intros; rfl); rfl]
@[simp] theorem Dev.storeReq_out (d : Dev) (cls : Nat) (w : Bool) (a n : Nat) (k : Bool) : (d.storeReq cls w a n k).out = d.out := by
  unfold Dev.storeReq; split <;> [(refine (foldl_proj _ (fun (x : Dev) => x.out) ?_ _ _).trans rfl; intros; rfl); rfl]
@[simp] theorem Dev.storeReq_free (d : Dev) (cls : Nat) (w : Bool) (a n : Nat) (k : Bool) : (d.storeReq cls w a n k).free = d.free := by
  unfold Dev.storeReq; split <;> [(refine (foldl_proj _ (fun (x : Dev) => x.free) ?_ _ _).trans rfl; intros; rfl); rfl]

/-! ### The fault log and reports -/

@[simp] theorem Dev.fltLog_reg_pend (d : Dev) (r : FltRep) (a : Nat) (s : Stroke) (fr : BitVec 32) (tm n : Nat) (co : Bool) : (d.fltLog r a s fr tm n co).reg.pend = d.reg.pend := by
  unfold Dev.fltLog; dsimp only; split <;> split <;> simp
@[simp] theorem Dev.fltLog_reg_live (d : Dev) (r : FltRep) (a : Nat) (s : Stroke) (fr : BitVec 32) (tm n : Nat) (co : Bool) : (d.fltLog r a s fr tm n co).reg.live = d.reg.live := by
  unfold Dev.fltLog; dsimp only; split <;> split <;> simp
@[simp] theorem Dev.fltLog_reg_comp (d : Dev) (r : FltRep) (a : Nat) (s : Stroke) (fr : BitVec 32) (tm n : Nat) (co : Bool) : (d.fltLog r a s fr tm n co).reg.comp = d.reg.comp := by
  unfold Dev.fltLog; dsimp only; split <;> split <;> simp
@[simp] theorem Dev.fltLog_reg_capt (d : Dev) (r : FltRep) (a : Nat) (s : Stroke) (fr : BitVec 32) (tm n : Nat) (co : Bool) : (d.fltLog r a s fr tm n co).reg.capt = d.reg.capt := by
  unfold Dev.fltLog; dsimp only; split <;> split <;> simp
@[simp] theorem Dev.fltLog_reg_acc (d : Dev) (r : FltRep) (a : Nat) (s : Stroke) (fr : BitVec 32) (tm n : Nat) (co : Bool) : (d.fltLog r a s fr tm n co).reg.acc = d.reg.acc := by
  unfold Dev.fltLog; dsimp only; split <;> split <;> simp
@[simp] theorem Dev.fltLog_tm (d : Dev) (r : FltRep) (a : Nat) (s : Stroke) (fr : BitVec 32) (tm n : Nat) (co : Bool) : (d.fltLog r a s fr tm n co).tm = d.tm := by
  unfold Dev.fltLog; dsimp only; split <;> split <;> simp
@[simp] theorem Dev.fltLog_ig (d : Dev) (r : FltRep) (a : Nat) (s : Stroke) (fr : BitVec 32) (tm n : Nat) (co : Bool) : (d.fltLog r a s fr tm n co).ig = d.ig := by
  unfold Dev.fltLog; dsimp only; split <;> split <;> simp
@[simp] theorem Dev.fltLog_gb (d : Dev) (r : FltRep) (a : Nat) (s : Stroke) (fr : BitVec 32) (tm n : Nat) (co : Bool) : (d.fltLog r a s fr tm n co).gb = d.gb := by
  unfold Dev.fltLog; dsimp only; split <;> split <;> simp
@[simp] theorem Dev.fltLog_cm (d : Dev) (r : FltRep) (a : Nat) (s : Stroke) (fr : BitVec 32) (tm n : Nat) (co : Bool) : (d.fltLog r a s fr tm n co).cm = d.cm := by
  unfold Dev.fltLog; dsimp only; split <;> split <;> simp
@[simp] theorem Dev.fltLog_cw (d : Dev) (r : FltRep) (a : Nat) (s : Stroke) (fr : BitVec 32) (tm n : Nat) (co : Bool) : (d.fltLog r a s fr tm n co).cw = d.cw := by
  unfold Dev.fltLog; dsimp only; split <;> split <;> simp
@[simp] theorem Dev.fltLog_ag (d : Dev) (r : FltRep) (a : Nat) (s : Stroke) (fr : BitVec 32) (tm n : Nat) (co : Bool) : (d.fltLog r a s fr tm n co).ag = d.ag := by
  unfold Dev.fltLog; dsimp only; split <;> split <;> simp
@[simp] theorem Dev.fltLog_et (d : Dev) (r : FltRep) (a : Nat) (s : Stroke) (fr : BitVec 32) (tm n : Nat) (co : Bool) : (d.fltLog r a s fr tm n co).et = d.et := by
  unfold Dev.fltLog; dsimp only; split <;> split <;> simp
@[simp] theorem Dev.fltLog_lg (d : Dev) (r : FltRep) (a : Nat) (s : Stroke) (fr : BitVec 32) (tm n : Nat) (co : Bool) : (d.fltLog r a s fr tm n co).lg = d.lg := by
  unfold Dev.fltLog; dsimp only; split <;> split <;> simp
@[simp] theorem Dev.fltLog_si (d : Dev) (r : FltRep) (a : Nat) (s : Stroke) (fr : BitVec 32) (tm n : Nat) (co : Bool) : (d.fltLog r a s fr tm n co).si = d.si := by
  unfold Dev.fltLog; dsimp only; split <;> split <;> simp
@[simp] theorem Dev.fltLog_flt_reps (d : Dev) (r : FltRep) (a : Nat) (s : Stroke) (fr : BitVec 32) (tm n : Nat) (co : Bool) : (d.fltLog r a s fr tm n co).flt.reps = d.flt.reps := by
  unfold Dev.fltLog; dsimp only; split <;> split <;> simp
@[simp] theorem Dev.fltLog_flt_stopped (d : Dev) (r : FltRep) (a : Nat) (s : Stroke) (fr : BitVec 32) (tm n : Nat) (co : Bool) : (d.fltLog r a s fr tm n co).flt.stopped = d.flt.stopped := by
  unfold Dev.fltLog; dsimp only; split <;> split <;> simp
@[simp] theorem Dev.fltLog_flt_rolling (d : Dev) (r : FltRep) (a : Nat) (s : Stroke) (fr : BitVec 32) (tm n : Nat) (co : Bool) : (d.fltLog r a s fr tm n co).flt.rolling = d.flt.rolling := by
  unfold Dev.fltLog; dsimp only; split <;> split <;> simp
@[simp] theorem Dev.fltLog_flt_restored (d : Dev) (r : FltRep) (a : Nat) (s : Stroke) (fr : BitVec 32) (tm n : Nat) (co : Bool) : (d.fltLog r a s fr tm n co).flt.restored = d.flt.restored := by
  unfold Dev.fltLog; dsimp only; split <;> split <;> simp
@[simp] theorem Dev.fltLog_flt_rbStroke (d : Dev) (r : FltRep) (a : Nat) (s : Stroke) (fr : BitVec 32) (tm n : Nat) (co : Bool) : (d.fltLog r a s fr tm n co).flt.rbStroke = d.flt.rbStroke := by
  unfold Dev.fltLog; dsimp only; split <;> split <;> simp
@[simp] theorem Dev.fltLog_flt_resumed (d : Dev) (r : FltRep) (a : Nat) (s : Stroke) (fr : BitVec 32) (tm n : Nat) (co : Bool) : (d.fltLog r a s fr tm n co).flt.resumed = d.flt.resumed := by
  unfold Dev.fltLog; dsimp only; split <;> split <;> simp
@[simp] theorem Dev.fltLog_flt_phase (d : Dev) (r : FltRep) (a : Nat) (s : Stroke) (fr : BitVec 32) (tm n : Nat) (co : Bool) : (d.fltLog r a s fr tm n co).flt.phase = d.flt.phase := by
  unfold Dev.fltLog; dsimp only; split <;> split <;> simp
@[simp] theorem Dev.fltLog_flt_restartAt (d : Dev) (r : FltRep) (a : Nat) (s : Stroke) (fr : BitVec 32) (tm n : Nat) (co : Bool) : (d.fltLog r a s fr tm n co).flt.restartAt = d.flt.restartAt := by
  unfold Dev.fltLog; dsimp only; split <;> split <;> simp
@[simp] theorem Dev.fltLog_flt_resumeAt (d : Dev) (r : FltRep) (a : Nat) (s : Stroke) (fr : BitVec 32) (tm n : Nat) (co : Bool) : (d.fltLog r a s fr tm n co).flt.resumeAt = d.flt.resumeAt := by
  unfold Dev.fltLog; dsimp only; split <;> split <;> simp
@[simp] theorem Dev.fltLog_flt_reseatAt (d : Dev) (r : FltRep) (a : Nat) (s : Stroke) (fr : BitVec 32) (tm n : Nat) (co : Bool) : (d.fltLog r a s fr tm n co).flt.reseatAt = d.flt.reseatAt := by
  unfold Dev.fltLog; dsimp only; split <;> split <;> simp
@[simp] theorem Dev.fltLog_flt_fatal (d : Dev) (r : FltRep) (a : Nat) (s : Stroke) (fr : BitVec 32) (tm n : Nat) (co : Bool) : (d.fltLog r a s fr tm n co).flt.fatal = d.flt.fatal := by
  unfold Dev.fltLog; dsimp only; split <;> split <;> simp
@[simp] theorem Dev.fltLog_flt_permanent (d : Dev) (r : FltRep) (a : Nat) (s : Stroke) (fr : BitVec 32) (tm n : Nat) (co : Bool) : (d.fltLog r a s fr tm n co).flt.permanent = d.flt.permanent := by
  unfold Dev.fltLog; dsimp only; split <;> split <;> simp
@[simp] theorem Dev.fltLog_flt_boots (d : Dev) (r : FltRep) (a : Nat) (s : Stroke) (fr : BitVec 32) (tm n : Nat) (co : Bool) : (d.fltLog r a s fr tm n co).flt.boots = d.flt.boots := by
  unfold Dev.fltLog; dsimp only; split <;> split <;> simp
@[simp] theorem Dev.fltLog_flt_coal (d : Dev) (r : FltRep) (a : Nat) (s : Stroke) (fr : BitVec 32) (tm n : Nat) (co : Bool) : (d.fltLog r a s fr tm n co).flt.coal = d.flt.coal := by
  unfold Dev.fltLog; dsimp only; split <;> split <;> simp
@[simp] theorem Dev.fltLog_rl (d : Dev) (r : FltRep) (a : Nat) (s : Stroke) (fr : BitVec 32) (tm n : Nat) (co : Bool) : (d.fltLog r a s fr tm n co).rl = d.rl := by
  unfold Dev.fltLog; dsimp only; split <;> split <;> simp
@[simp] theorem Dev.fltLog_hi_linkUp (d : Dev) (r : FltRep) (a : Nat) (s : Stroke) (fr : BitVec 32) (tm n : Nat) (co : Bool) : (d.fltLog r a s fr tm n co).hi.linkUp = d.hi.linkUp := by
  unfold Dev.fltLog; dsimp only; split <;> split <;> simp
@[simp] theorem Dev.fltLog_hi_pci (d : Dev) (r : FltRep) (a : Nat) (s : Stroke) (fr : BitVec 32) (tm n : Nat) (co : Bool) : (d.fltLog r a s fr tm n co).hi.pci = d.hi.pci := by
  unfold Dev.fltLog; dsimp only; split <;> split <;> simp
@[simp] theorem Dev.fltLog_hi_width (d : Dev) (r : FltRep) (a : Nat) (s : Stroke) (fr : BitVec 32) (tm n : Nat) (co : Bool) : (d.fltLog r a s fr tm n co).hi.width = d.hi.width := by
  unfold Dev.fltLog; dsimp only; split <;> split <;> simp
@[simp] theorem Dev.fltLog_hi_rate (d : Dev) (r : FltRep) (a : Nat) (s : Stroke) (fr : BitVec 32) (tm n : Nat) (co : Bool) : (d.fltLog r a s fr tm n co).hi.rate = d.hi.rate := by
  unfold Dev.fltLog; dsimp only; split <;> split <;> simp
@[simp] theorem Dev.fltLog_hi_maint (d : Dev) (r : FltRep) (a : Nat) (s : Stroke) (fr : BitVec 32) (tm n : Nat) (co : Bool) : (d.fltLog r a s fr tm n co).hi.maint = d.hi.maint := by
  unfold Dev.fltLog; dsimp only; split <;> split <;> simp
@[simp] theorem Dev.fltLog_hi_maintReq (d : Dev) (r : FltRep) (a : Nat) (s : Stroke) (fr : BitVec 32) (tm n : Nat) (co : Bool) : (d.fltLog r a s fr tm n co).hi.maintReq = d.hi.maintReq := by
  unfold Dev.fltLog; dsimp only; split <;> split <;> simp
@[simp] theorem Dev.fltLog_hi_rings (d : Dev) (r : FltRep) (a : Nat) (s : Stroke) (fr : BitVec 32) (tm n : Nat) (co : Bool) : (d.fltLog r a s fr tm n co).hi.rings = d.hi.rings := by
  unfold Dev.fltLog; dsimp only; split <;> split <;> simp
@[simp] theorem Dev.fltLog_hi_outq (d : Dev) (r : FltRep) (a : Nat) (s : Stroke) (fr : BitVec 32) (tm n : Nat) (co : Bool) : (d.fltLog r a s fr tm n co).hi.outq = d.hi.outq := by
  unfold Dev.fltLog; dsimp only; split <;> split <;> simp
@[simp] theorem Dev.fltLog_hi_fetchq (d : Dev) (r : FltRep) (a : Nat) (s : Stroke) (fr : BitVec 32) (tm n : Nat) (co : Bool) : (d.fltLog r a s fr tm n co).hi.fetchq = d.hi.fetchq := by
  unfold Dev.fltLog; dsimp only; split <;> split <;> simp
@[simp] theorem Dev.fltLog_hi_decided (d : Dev) (r : FltRep) (a : Nat) (s : Stroke) (fr : BitVec 32) (tm n : Nat) (co : Bool) : (d.fltLog r a s fr tm n co).hi.decided = d.hi.decided := by
  unfold Dev.fltLog; dsimp only; split <;> split <;> simp
@[simp] theorem Dev.fltLog_hi_mbx (d : Dev) (r : FltRep) (a : Nat) (s : Stroke) (fr : BitVec 32) (tm n : Nat) (co : Bool) : (d.fltLog r a s fr tm n co).hi.mbx = d.hi.mbx := by
  unfold Dev.fltLog; dsimp only; split <;> split <;> simp
@[simp] theorem Dev.fltLog_hi_msix (d : Dev) (r : FltRep) (a : Nat) (s : Stroke) (fr : BitVec 32) (tm n : Nat) (co : Bool) : (d.fltLog r a s fr tm n co).hi.msix = d.hi.msix := by
  unfold Dev.fltLog; dsimp only; split <;> split <;> simp
@[simp] theorem Dev.fltLog_hi_mem (d : Dev) (r : FltRep) (a : Nat) (s : Stroke) (fr : BitVec 32) (tm n : Nat) (co : Bool) : (d.fltLog r a s fr tm n co).hi.mem = d.hi.mem := by
  unfold Dev.fltLog; dsimp only; split <;> split <;> simp
@[simp] theorem Dev.fltLog_hi_leave (d : Dev) (r : FltRep) (a : Nat) (s : Stroke) (fr : BitVec 32) (tm n : Nat) (co : Bool) : (d.fltLog r a s fr tm n co).hi.leave = d.hi.leave := by
  unfold Dev.fltLog; dsimp only; split <;> split <;> simp
@[simp] theorem Dev.fltLog_hi_due13 (d : Dev) (r : FltRep) (a : Nat) (s : Stroke) (fr : BitVec 32) (tm n : Nat) (co : Bool) : (d.fltLog r a s fr tm n co).hi.due13 = d.hi.due13 := by
  unfold Dev.fltLog; dsimp only; split <;> split <;> simp
@[simp] theorem Dev.fltLog_hi_siAt (d : Dev) (r : FltRep) (a : Nat) (s : Stroke) (fr : BitVec 32) (tm n : Nat) (co : Bool) : (d.fltLog r a s fr tm n co).hi.siAt = d.hi.siAt := by
  unfold Dev.fltLog; dsimp only; split <;> split <;> simp
@[simp] theorem Dev.fltLog_xs_ready (d : Dev) (r : FltRep) (a : Nat) (s : Stroke) (fr : BitVec 32) (tm n : Nat) (co : Bool) : (d.fltLog r a s fr tm n co).xs.ready = d.xs.ready := by
  unfold Dev.fltLog; dsimp only; split <;> split <;> simp
@[simp] theorem Dev.fltLog_xs_geomErr (d : Dev) (r : FltRep) (a : Nat) (s : Stroke) (fr : BitVec 32) (tm n : Nat) (co : Bool) : (d.fltLog r a s fr tm n co).xs.geomErr = d.xs.geomErr := by
  unfold Dev.fltLog; dsimp only; split <;> split <;> simp
@[simp] theorem Dev.fltLog_xs_devicesM1 (d : Dev) (r : FltRep) (a : Nat) (s : Stroke) (fr : BitVec 32) (tm n : Nat) (co : Bool) : (d.fltLog r a s fr tm n co).xs.devicesM1 = d.xs.devicesM1 := by
  unfold Dev.fltLog; dsimp only; split <;> split <;> simp
@[simp] theorem Dev.fltLog_xs_density (d : Dev) (r : FltRep) (a : Nat) (s : Stroke) (fr : BitVec 32) (tm n : Nat) (co : Bool) : (d.fltLog r a s fr tm n co).xs.density = d.xs.density := by
  unfold Dev.fltLog; dsimp only; split <;> split <;> simp
@[simp] theorem Dev.fltLog_bt (d : Dev) (r : FltRep) (a : Nat) (s : Stroke) (fr : BitVec 32) (tm n : Nat) (co : Bool) : (d.fltLog r a s fr tm n co).bt = d.bt := by
  unfold Dev.fltLog; dsimp only; split <;> split <;> simp
@[simp] theorem Dev.fltLog_pm (d : Dev) (r : FltRep) (a : Nat) (s : Stroke) (fr : BitVec 32) (tm n : Nat) (co : Bool) : (d.fltLog r a s fr tm n co).pm = d.pm := by
  unfold Dev.fltLog; dsimp only; split <;> split <;> simp
@[simp] theorem Dev.fltLog_mem (d : Dev) (r : FltRep) (a : Nat) (s : Stroke) (fr : BitVec 32) (tm n : Nat) (co : Bool) : (d.fltLog r a s fr tm n co).mem = d.mem := by
  unfold Dev.fltLog; dsimp only; split <;> split <;> simp
@[simp] theorem Dev.fltLog_free (d : Dev) (r : FltRep) (a : Nat) (s : Stroke) (fr : BitVec 32) (tm n : Nat) (co : Bool) : (d.fltLog r a s fr tm n co).free = d.free := by
  unfold Dev.fltLog; dsimp only; split <;> split <;> simp

@[simp] theorem Dev.deviceFatal_reg_pend (d : Dev) (r : FltRep) : (d.deviceFatal r).reg.pend = d.reg.pend := by
  unfold Dev.deviceFatal; dsimp only; split <;> simp
@[simp] theorem Dev.deviceFatal_reg_live (d : Dev) (r : FltRep) : (d.deviceFatal r).reg.live = d.reg.live := by
  unfold Dev.deviceFatal; dsimp only; split <;> simp
@[simp] theorem Dev.deviceFatal_reg_comp (d : Dev) (r : FltRep) : (d.deviceFatal r).reg.comp = d.reg.comp := by
  unfold Dev.deviceFatal; dsimp only; split <;> simp
@[simp] theorem Dev.deviceFatal_reg_capt (d : Dev) (r : FltRep) : (d.deviceFatal r).reg.capt = d.reg.capt := by
  unfold Dev.deviceFatal; dsimp only; split <;> simp
@[simp] theorem Dev.deviceFatal_reg_acc (d : Dev) (r : FltRep) : (d.deviceFatal r).reg.acc = d.reg.acc := by
  unfold Dev.deviceFatal; dsimp only; split <;> simp
@[simp] theorem Dev.deviceFatal_tm_raw (d : Dev) (r : FltRep) : (d.deviceFatal r).tm.raw = d.tm.raw := by
  unfold Dev.deviceFatal; dsimp only; split <;> simp
@[simp] theorem Dev.deviceFatal_tm_offset (d : Dev) (r : FltRep) : (d.deviceFatal r).tm.offset = d.tm.offset := by
  unfold Dev.deviceFatal; dsimp only; split <;> simp
@[simp] theorem Dev.deviceFatal_tm_rate (d : Dev) (r : FltRep) : (d.deviceFatal r).tm.rate = d.tm.rate := by
  unfold Dev.deviceFatal; dsimp only; split <;> simp
@[simp] theorem Dev.deviceFatal_tm_anchor (d : Dev) (r : FltRep) : (d.deviceFatal r).tm.anchor = d.tm.anchor := by
  unfold Dev.deviceFatal; dsimp only; split <;> simp
@[simp] theorem Dev.deviceFatal_tm_integ (d : Dev) (r : FltRep) : (d.deviceFatal r).tm.integ = d.tm.integ := by
  unfold Dev.deviceFatal; dsimp only; split <;> simp
@[simp] theorem Dev.deviceFatal_tm_lastM (d : Dev) (r : FltRep) : (d.deviceFatal r).tm.lastM = d.tm.lastM := by
  unfold Dev.deviceFatal; dsimp only; split <;> simp
@[simp] theorem Dev.deviceFatal_tm_meas (d : Dev) (r : FltRep) : (d.deviceFatal r).tm.meas = d.tm.meas := by
  unfold Dev.deviceFatal; dsimp only; split <;> simp
@[simp] theorem Dev.deviceFatal_tm_lockCnt (d : Dev) (r : FltRep) : (d.deviceFatal r).tm.lockCnt = d.tm.lockCnt := by
  unfold Dev.deviceFatal; dsimp only; split <;> simp
@[simp] theorem Dev.deviceFatal_tm_locked (d : Dev) (r : FltRep) : (d.deviceFatal r).tm.locked = d.tm.locked := by
  unfold Dev.deviceFatal; dsimp only; split <;> simp
@[simp] theorem Dev.deviceFatal_tm_holdover (d : Dev) (r : FltRep) : (d.deviceFatal r).tm.holdover = d.tm.holdover := by
  unfold Dev.deviceFatal; dsimp only; split <;> simp
@[simp] theorem Dev.deviceFatal_tm_aligned (d : Dev) (r : FltRep) : (d.deviceFatal r).tm.aligned = d.tm.aligned := by
  unfold Dev.deviceFatal; dsimp only; split <;> simp
@[simp] theorem Dev.deviceFatal_tm_measAt (d : Dev) (r : FltRep) : (d.deviceFatal r).tm.measAt = d.tm.measAt := by
  unfold Dev.deviceFatal; dsimp only; split <;> simp
@[simp] theorem Dev.deviceFatal_tm_strokeOff (d : Dev) (r : FltRep) : (d.deviceFatal r).tm.strokeOff = d.tm.strokeOff := by
  unfold Dev.deviceFatal; dsimp only; split <;> simp
@[simp] theorem Dev.deviceFatal_tm_adj (d : Dev) (r : FltRep) : (d.deviceFatal r).tm.adj = d.tm.adj := by
  unfold Dev.deviceFatal; dsimp only; split <;> simp
@[simp] theorem Dev.deviceFatal_tm_jump (d : Dev) (r : FltRep) : (d.deviceFatal r).tm.jump = d.tm.jump := by
  unfold Dev.deviceFatal; dsimp only; split <;> simp
@[simp] theorem Dev.deviceFatal_tm_ptp (d : Dev) (r : FltRep) : (d.deviceFatal r).tm.ptp = d.tm.ptp := by
  unfold Dev.deviceFatal; dsimp only; split <;> simp
@[simp] theorem Dev.deviceFatal_tm_rxq (d : Dev) (r : FltRep) : (d.deviceFatal r).tm.rxq = d.tm.rxq := by
  unfold Dev.deviceFatal; dsimp only; split <;> simp
@[simp] theorem Dev.deviceFatal_tm_capt (d : Dev) (r : FltRep) : (d.deviceFatal r).tm.capt = d.tm.capt := by
  unfold Dev.deviceFatal; dsimp only; split <;> simp
@[simp] theorem Dev.deviceFatal_tm_op (d : Dev) (r : FltRep) : (d.deviceFatal r).tm.op = d.tm.op := by
  unfold Dev.deviceFatal; dsimp only; split <;> simp
@[simp] theorem Dev.deviceFatal_tm_stroke (d : Dev) (r : FltRep) : (d.deviceFatal r).tm.stroke = d.tm.stroke := by
  unfold Dev.deviceFatal; dsimp only; split <;> simp
@[simp] theorem Dev.deviceFatal_tm_len (d : Dev) (r : FltRep) : (d.deviceFatal r).tm.len = d.tm.len := by
  unfold Dev.deviceFatal; dsimp only; split <;> simp
@[simp] theorem Dev.deviceFatal_tm_openRaw (d : Dev) (r : FltRep) : (d.deviceFatal r).tm.openRaw = d.tm.openRaw := by
  unfold Dev.deviceFatal; dsimp only; split <;> simp
@[simp] theorem Dev.deviceFatal_tm_frame (d : Dev) (r : FltRep) : (d.deviceFatal r).tm.frame = d.tm.frame := by
  unfold Dev.deviceFatal; dsimp only; split <;> simp
@[simp] theorem Dev.deviceFatal_tm_framed (d : Dev) (r : FltRep) : (d.deviceFatal r).tm.framed = d.tm.framed := by
  unfold Dev.deviceFatal; dsimp only; split <;> simp
@[simp] theorem Dev.deviceFatal_tm_frameAt (d : Dev) (r : FltRep) : (d.deviceFatal r).tm.frameAt = d.tm.frameAt := by
  unfold Dev.deviceFatal; dsimp only; split <;> simp
@[simp] theorem Dev.deviceFatal_tm_tf (d : Dev) (r : FltRep) : (d.deviceFatal r).tm.tf = d.tm.tf := by
  unfold Dev.deviceFatal; dsimp only; split <;> simp
@[simp] theorem Dev.deviceFatal_tm_tfPrev (d : Dev) (r : FltRep) : (d.deviceFatal r).tm.tfPrev = d.tm.tfPrev := by
  unfold Dev.deviceFatal; dsimp only; split <;> simp
@[simp] theorem Dev.deviceFatal_tm_frameDue (d : Dev) (r : FltRep) : (d.deviceFatal r).tm.frameDue = d.tm.frameDue := by
  unfold Dev.deviceFatal; dsimp only; split <;> simp
@[simp] theorem Dev.deviceFatal_tm_retireDue (d : Dev) (r : FltRep) : (d.deviceFatal r).tm.retireDue = d.tm.retireDue := by
  unfold Dev.deviceFatal; dsimp only; split <;> simp
@[simp] theorem Dev.deviceFatal_ig (d : Dev) (r : FltRep) : (d.deviceFatal r).ig = d.ig := by
  unfold Dev.deviceFatal; dsimp only; split <;> simp
@[simp] theorem Dev.deviceFatal_gb (d : Dev) (r : FltRep) : (d.deviceFatal r).gb = d.gb := by
  unfold Dev.deviceFatal; dsimp only; split <;> simp
@[simp] theorem Dev.deviceFatal_cm (d : Dev) (r : FltRep) : (d.deviceFatal r).cm = d.cm := by
  unfold Dev.deviceFatal; dsimp only; split <;> simp
@[simp] theorem Dev.deviceFatal_cw (d : Dev) (r : FltRep) : (d.deviceFatal r).cw = d.cw := by
  unfold Dev.deviceFatal; dsimp only; split <;> simp
@[simp] theorem Dev.deviceFatal_ag (d : Dev) (r : FltRep) : (d.deviceFatal r).ag = d.ag := by
  unfold Dev.deviceFatal; dsimp only; split <;> simp
@[simp] theorem Dev.deviceFatal_et (d : Dev) (r : FltRep) : (d.deviceFatal r).et = d.et := by
  unfold Dev.deviceFatal; dsimp only; split <;> simp
@[simp] theorem Dev.deviceFatal_lg (d : Dev) (r : FltRep) : (d.deviceFatal r).lg = d.lg := by
  unfold Dev.deviceFatal; dsimp only; split <;> simp
@[simp] theorem Dev.deviceFatal_si_thr (d : Dev) (r : FltRep) : (d.deviceFatal r).si.thr = d.si.thr := by
  unfold Dev.deviceFatal; dsimp only; split <;> simp
@[simp] theorem Dev.deviceFatal_si_thrC (d : Dev) (r : FltRep) : (d.deviceFatal r).si.thrC = d.si.thrC := by
  unfold Dev.deviceFatal; dsimp only; split <;> simp
@[simp] theorem Dev.deviceFatal_si_gref (d : Dev) (r : FltRep) : (d.deviceFatal r).si.gref = d.si.gref := by
  unfold Dev.deviceFatal; dsimp only; split <;> simp
@[simp] theorem Dev.deviceFatal_si_portOpen (d : Dev) (r : FltRep) : (d.deviceFatal r).si.portOpen = d.si.portOpen := by
  unfold Dev.deviceFatal; dsimp only; split <;> simp
@[simp] theorem Dev.deviceFatal_si_tap (d : Dev) (r : FltRep) : (d.deviceFatal r).si.tap = d.si.tap := by
  unfold Dev.deviceFatal; dsimp only; split <;> simp
@[simp] theorem Dev.deviceFatal_si_tapAt (d : Dev) (r : FltRep) : (d.deviceFatal r).si.tapAt = d.si.tapAt := by
  unfold Dev.deviceFatal; dsimp only; split <;> simp
@[simp] theorem Dev.deviceFatal_si_taps (d : Dev) (r : FltRep) : (d.deviceFatal r).si.taps = d.si.taps := by
  unfold Dev.deviceFatal; dsimp only; split <;> simp
@[simp] theorem Dev.deviceFatal_si_poses (d : Dev) (r : FltRep) : (d.deviceFatal r).si.poses = d.si.poses := by
  unfold Dev.deviceFatal; dsimp only; split <;> simp
@[simp] theorem Dev.deviceFatal_si_gs (d : Dev) (r : FltRep) : (d.deviceFatal r).si.gs = d.si.gs := by
  unfold Dev.deviceFatal; dsimp only; split <;> simp
@[simp] theorem Dev.deviceFatal_si_wx (d : Dev) (r : FltRep) : (d.deviceFatal r).si.wx = d.si.wx := by
  unfold Dev.deviceFatal; dsimp only; split <;> simp
@[simp] theorem Dev.deviceFatal_si_wy (d : Dev) (r : FltRep) : (d.deviceFatal r).si.wy = d.si.wy := by
  unfold Dev.deviceFatal; dsimp only; split <;> simp
@[simp] theorem Dev.deviceFatal_si_await (d : Dev) (r : FltRep) : (d.deviceFatal r).si.await = d.si.await := by
  unfold Dev.deviceFatal; dsimp only; split <;> simp
@[simp] theorem Dev.deviceFatal_si_fresh (d : Dev) (r : FltRep) : (d.deviceFatal r).si.fresh = d.si.fresh := by
  unfold Dev.deviceFatal; dsimp only; split <;> simp
@[simp] theorem Dev.deviceFatal_si_gsUpset (d : Dev) (r : FltRep) : (d.deviceFatal r).si.gsUpset = d.si.gsUpset := by
  unfold Dev.deviceFatal; dsimp only; split <;> simp
@[simp] theorem Dev.deviceFatal_si_gsAt (d : Dev) (r : FltRep) : (d.deviceFatal r).si.gsAt = d.si.gsAt := by
  unfold Dev.deviceFatal; dsimp only; split <;> simp
@[simp] theorem Dev.deviceFatal_si_sweep (d : Dev) (r : FltRep) : (d.deviceFatal r).si.sweep = d.si.sweep := by
  unfold Dev.deviceFatal; dsimp only; split <;> simp
@[simp] theorem Dev.deviceFatal_si_bnds (d : Dev) (r : FltRep) : (d.deviceFatal r).si.bnds = d.si.bnds := by
  unfold Dev.deviceFatal; dsimp only; split <;> simp
@[simp] theorem Dev.deviceFatal_si_entry (d : Dev) (r : FltRep) : (d.deviceFatal r).si.entry = d.si.entry := by
  unfold Dev.deviceFatal; dsimp only; split <;> simp
@[simp] theorem Dev.deviceFatal_si_biv (d : Dev) (r : FltRep) : (d.deviceFatal r).si.biv = d.si.biv := by
  unfold Dev.deviceFatal; dsimp only; split <;> simp
@[simp] theorem Dev.deviceFatal_si_doubts (d : Dev) (r : FltRep) : (d.deviceFatal r).si.doubts = d.si.doubts := by
  unfold Dev.deviceFatal; dsimp only; split <;> simp
@[simp] theorem Dev.deviceFatal_si_serveAll (d : Dev) (r : FltRep) : (d.deviceFatal r).si.serveAll = d.si.serveAll := by
  unfold Dev.deviceFatal; dsimp only; split <;> simp
@[simp] theorem Dev.deviceFatal_si_serve (d : Dev) (r : FltRep) : (d.deviceFatal r).si.serve = d.si.serve := by
  unfold Dev.deviceFatal; dsimp only; split <;> simp
@[simp] theorem Dev.deviceFatal_si_latched (d : Dev) (r : FltRep) : (d.deviceFatal r).si.latched = d.si.latched := by
  unfold Dev.deviceFatal; dsimp only; split <;> simp
@[simp] theorem Dev.deviceFatal_si_permanent (d : Dev) (r : FltRep) : (d.deviceFatal r).si.permanent = d.si.permanent := by
  unfold Dev.deviceFatal; dsimp only; split <;> simp
@[simp] theorem Dev.deviceFatal_si_bivFail (d : Dev) (r : FltRep) : (d.deviceFatal r).si.bivFail = d.si.bivFail := by
  unfold Dev.deviceFatal; dsimp only; split <;> simp
@[simp] theorem Dev.deviceFatal_si_fatal (d : Dev) (r : FltRep) : (d.deviceFatal r).si.fatal = d.si.fatal := by
  unfold Dev.deviceFatal; dsimp only; split <;> simp
@[simp] theorem Dev.deviceFatal_si_cause (d : Dev) (r : FltRep) : (d.deviceFatal r).si.cause = d.si.cause := by
  unfold Dev.deviceFatal; dsimp only; split <;> simp
@[simp] theorem Dev.deviceFatal_si_restarting (d : Dev) (r : FltRep) : (d.deviceFatal r).si.restarting = d.si.restarting := by
  unfold Dev.deviceFatal; dsimp only; split <;> simp
@[simp] theorem Dev.deviceFatal_si_hist (d : Dev) (r : FltRep) : (d.deviceFatal r).si.hist = d.si.hist := by
  unfold Dev.deviceFatal; dsimp only; split <;> simp
@[simp] theorem Dev.deviceFatal_si_perDoubt (d : Dev) (r : FltRep) : (d.deviceFatal r).si.perDoubt = d.si.perDoubt := by
  unfold Dev.deviceFatal; dsimp only; split <;> simp
@[simp] theorem Dev.deviceFatal_si_perClean (d : Dev) (r : FltRep) : (d.deviceFatal r).si.perClean = d.si.perClean := by
  unfold Dev.deviceFatal; dsimp only; split <;> simp
@[simp] theorem Dev.deviceFatal_si_clean (d : Dev) (r : FltRep) : (d.deviceFatal r).si.clean = d.si.clean := by
  unfold Dev.deviceFatal; dsimp only; split <;> simp
@[simp] theorem Dev.deviceFatal_si_recov (d : Dev) (r : FltRep) : (d.deviceFatal r).si.recov = d.si.recov := by
  unfold Dev.deviceFatal; dsimp only; split <;> simp
@[simp] theorem Dev.deviceFatal_si_requests (d : Dev) (r : FltRep) : (d.deviceFatal r).si.requests = d.si.requests := by
  unfold Dev.deviceFatal; dsimp only; split <;> simp
@[simp] theorem Dev.deviceFatal_si_time (d : Dev) (r : FltRep) : (d.deviceFatal r).si.time = d.si.time := by
  unfold Dev.deviceFatal; dsimp only; split <;> simp
@[simp] theorem Dev.deviceFatal_si_lastRule (d : Dev) (r : FltRep) : (d.deviceFatal r).si.lastRule = d.si.lastRule := by
  unfold Dev.deviceFatal; dsimp only; split <;> simp
@[simp] theorem Dev.deviceFatal_si_lastTile (d : Dev) (r : FltRep) : (d.deviceFatal r).si.lastTile = d.si.lastTile := by
  unfold Dev.deviceFatal; dsimp only; split <;> simp
@[simp] theorem Dev.deviceFatal_si_lastAll (d : Dev) (r : FltRep) : (d.deviceFatal r).si.lastAll = d.si.lastAll := by
  unfold Dev.deviceFatal; dsimp only; split <;> simp
@[simp] theorem Dev.deviceFatal_si_lastStroke (d : Dev) (r : FltRep) : (d.deviceFatal r).si.lastStroke = d.si.lastStroke := by
  unfold Dev.deviceFatal; dsimp only; split <;> simp
@[simp] theorem Dev.deviceFatal_si_tracks (d : Dev) (r : FltRep) : (d.deviceFatal r).si.tracks = d.si.tracks := by
  unfold Dev.deviceFatal; dsimp only; split <;> simp
@[simp] theorem Dev.deviceFatal_si_ww (d : Dev) (r : FltRep) : (d.deviceFatal r).si.ww = d.si.ww := by
  unfold Dev.deviceFatal; dsimp only; split <;> simp
@[simp] theorem Dev.deviceFatal_si_cnt (d : Dev) (r : FltRep) : (d.deviceFatal r).si.cnt = d.si.cnt := by
  unfold Dev.deviceFatal; dsimp only; split <;> simp
@[simp] theorem Dev.deviceFatal_si_wins (d : Dev) (r : FltRep) : (d.deviceFatal r).si.wins = d.si.wins := by
  unfold Dev.deviceFatal; dsimp only; split <;> simp
@[simp] theorem Dev.deviceFatal_si_gpts (d : Dev) (r : FltRep) : (d.deviceFatal r).si.gpts = d.si.gpts := by
  unfold Dev.deviceFatal; dsimp only; split <;> simp
@[simp] theorem Dev.deviceFatal_si_gcrc (d : Dev) (r : FltRep) : (d.deviceFatal r).si.gcrc = d.si.gcrc := by
  unfold Dev.deviceFatal; dsimp only; split <;> simp
@[simp] theorem Dev.deviceFatal_si_gprev (d : Dev) (r : FltRep) : (d.deviceFatal r).si.gprev = d.si.gprev := by
  unfold Dev.deviceFatal; dsimp only; split <;> simp
@[simp] theorem Dev.deviceFatal_si_verdictAt (d : Dev) (r : FltRep) : (d.deviceFatal r).si.verdictAt = d.si.verdictAt := by
  unfold Dev.deviceFatal; dsimp only; split <;> simp
@[simp] theorem Dev.deviceFatal_si_thOk (d : Dev) (r : FltRep) : (d.deviceFatal r).si.thOk = d.si.thOk := by
  unfold Dev.deviceFatal; dsimp only; split <;> simp
@[simp] theorem Dev.deviceFatal_si_muted (d : Dev) (r : FltRep) : (d.deviceFatal r).si.muted = d.si.muted := by
  unfold Dev.deviceFatal; dsimp only; split <;> simp
@[simp] theorem Dev.deviceFatal_si_latchReq (d : Dev) (r : FltRep) : (d.deviceFatal r).si.latchReq = d.si.latchReq := by
  unfold Dev.deviceFatal; dsimp only; split <;> simp
@[simp] theorem Dev.deviceFatal_si_permReq (d : Dev) (r : FltRep) : (d.deviceFatal r).si.permReq = d.si.permReq := by
  unfold Dev.deviceFatal; dsimp only; split <;> simp
@[simp] theorem Dev.deviceFatal_si_firstFailed (d : Dev) (r : FltRep) : (d.deviceFatal r).si.firstFailed = d.si.firstFailed := by
  unfold Dev.deviceFatal; dsimp only; split <;> simp
@[simp] theorem Dev.deviceFatal_si_sel (d : Dev) (r : FltRep) : (d.deviceFatal r).si.sel = d.si.sel := by
  unfold Dev.deviceFatal; dsimp only; split <;> simp
@[simp] theorem Dev.deviceFatal_si_tested (d : Dev) (r : FltRep) : (d.deviceFatal r).si.tested = d.si.tested := by
  unfold Dev.deviceFatal; dsimp only; split <;> simp
@[simp] theorem Dev.deviceFatal_si_running (d : Dev) (r : FltRep) : (d.deviceFatal r).si.running = d.si.running := by
  unfold Dev.deviceFatal; dsimp only; split <;> simp
@[simp] theorem Dev.deviceFatal_si_pin (d : Dev) (r : FltRep) : (d.deviceFatal r).si.pin = d.si.pin := by
  unfold Dev.deviceFatal; dsimp only; split <;> simp
@[simp] theorem Dev.deviceFatal_si_maint (d : Dev) (r : FltRep) : (d.deviceFatal r).si.maint = d.si.maint := by
  unfold Dev.deviceFatal; dsimp only; split <;> simp
@[simp] theorem Dev.deviceFatal_si_pllLost (d : Dev) (r : FltRep) : (d.deviceFatal r).si.pllLost = d.si.pllLost := by
  unfold Dev.deviceFatal; dsimp only; split <;> simp
@[simp] theorem Dev.deviceFatal_flt_reps (d : Dev) (r : FltRep) : (d.deviceFatal r).flt.reps = d.flt.reps := by
  unfold Dev.deviceFatal; dsimp only; split <;> simp
@[simp] theorem Dev.deviceFatal_flt_stopped (d : Dev) (r : FltRep) : (d.deviceFatal r).flt.stopped = d.flt.stopped := by
  unfold Dev.deviceFatal; dsimp only; split <;> simp
@[simp] theorem Dev.deviceFatal_flt_rolling (d : Dev) (r : FltRep) : (d.deviceFatal r).flt.rolling = d.flt.rolling := by
  unfold Dev.deviceFatal; dsimp only; split <;> simp
@[simp] theorem Dev.deviceFatal_flt_restored (d : Dev) (r : FltRep) : (d.deviceFatal r).flt.restored = d.flt.restored := by
  unfold Dev.deviceFatal; dsimp only; split <;> simp
@[simp] theorem Dev.deviceFatal_flt_rbStroke (d : Dev) (r : FltRep) : (d.deviceFatal r).flt.rbStroke = d.flt.rbStroke := by
  unfold Dev.deviceFatal; dsimp only; split <;> simp
@[simp] theorem Dev.deviceFatal_flt_resumed (d : Dev) (r : FltRep) : (d.deviceFatal r).flt.resumed = d.flt.resumed := by
  unfold Dev.deviceFatal; dsimp only; split <;> simp
@[simp] theorem Dev.deviceFatal_flt_phase (d : Dev) (r : FltRep) : (d.deviceFatal r).flt.phase = d.flt.phase := by
  unfold Dev.deviceFatal; dsimp only; split <;> simp
@[simp] theorem Dev.deviceFatal_flt_restartAt (d : Dev) (r : FltRep) : (d.deviceFatal r).flt.restartAt = d.flt.restartAt := by
  unfold Dev.deviceFatal; dsimp only; split <;> simp
@[simp] theorem Dev.deviceFatal_flt_resumeAt (d : Dev) (r : FltRep) : (d.deviceFatal r).flt.resumeAt = d.flt.resumeAt := by
  unfold Dev.deviceFatal; dsimp only; split <;> simp
@[simp] theorem Dev.deviceFatal_flt_reseatAt (d : Dev) (r : FltRep) : (d.deviceFatal r).flt.reseatAt = d.flt.reseatAt := by
  unfold Dev.deviceFatal; dsimp only; split <;> simp
@[simp] theorem Dev.deviceFatal_flt_permanent (d : Dev) (r : FltRep) : (d.deviceFatal r).flt.permanent = d.flt.permanent := by
  unfold Dev.deviceFatal; dsimp only; split <;> simp
@[simp] theorem Dev.deviceFatal_flt_boots (d : Dev) (r : FltRep) : (d.deviceFatal r).flt.boots = d.flt.boots := by
  unfold Dev.deviceFatal; dsimp only; split <;> simp
@[simp] theorem Dev.deviceFatal_flt_coal (d : Dev) (r : FltRep) : (d.deviceFatal r).flt.coal = d.flt.coal := by
  unfold Dev.deviceFatal; dsimp only; split <;> simp
@[simp] theorem Dev.deviceFatal_rl (d : Dev) (r : FltRep) : (d.deviceFatal r).rl = d.rl := by
  unfold Dev.deviceFatal; dsimp only; split <;> simp
@[simp] theorem Dev.deviceFatal_hi_linkUp (d : Dev) (r : FltRep) : (d.deviceFatal r).hi.linkUp = d.hi.linkUp := by
  unfold Dev.deviceFatal; dsimp only; split <;> simp
@[simp] theorem Dev.deviceFatal_hi_pci (d : Dev) (r : FltRep) : (d.deviceFatal r).hi.pci = d.hi.pci := by
  unfold Dev.deviceFatal; dsimp only; split <;> simp
@[simp] theorem Dev.deviceFatal_hi_width (d : Dev) (r : FltRep) : (d.deviceFatal r).hi.width = d.hi.width := by
  unfold Dev.deviceFatal; dsimp only; split <;> simp
@[simp] theorem Dev.deviceFatal_hi_rate (d : Dev) (r : FltRep) : (d.deviceFatal r).hi.rate = d.hi.rate := by
  unfold Dev.deviceFatal; dsimp only; split <;> simp
@[simp] theorem Dev.deviceFatal_hi_maint (d : Dev) (r : FltRep) : (d.deviceFatal r).hi.maint = d.hi.maint := by
  unfold Dev.deviceFatal; dsimp only; split <;> simp
@[simp] theorem Dev.deviceFatal_hi_maintReq (d : Dev) (r : FltRep) : (d.deviceFatal r).hi.maintReq = d.hi.maintReq := by
  unfold Dev.deviceFatal; dsimp only; split <;> simp
@[simp] theorem Dev.deviceFatal_hi_rings (d : Dev) (r : FltRep) : (d.deviceFatal r).hi.rings = d.hi.rings := by
  unfold Dev.deviceFatal; dsimp only; split <;> simp
@[simp] theorem Dev.deviceFatal_hi_outq (d : Dev) (r : FltRep) : (d.deviceFatal r).hi.outq = d.hi.outq := by
  unfold Dev.deviceFatal; dsimp only; split <;> simp
@[simp] theorem Dev.deviceFatal_hi_fetchq (d : Dev) (r : FltRep) : (d.deviceFatal r).hi.fetchq = d.hi.fetchq := by
  unfold Dev.deviceFatal; dsimp only; split <;> simp
@[simp] theorem Dev.deviceFatal_hi_decided (d : Dev) (r : FltRep) : (d.deviceFatal r).hi.decided = d.hi.decided := by
  unfold Dev.deviceFatal; dsimp only; split <;> simp
@[simp] theorem Dev.deviceFatal_hi_mbx (d : Dev) (r : FltRep) : (d.deviceFatal r).hi.mbx = d.hi.mbx := by
  unfold Dev.deviceFatal; dsimp only; split <;> simp
@[simp] theorem Dev.deviceFatal_hi_msix (d : Dev) (r : FltRep) : (d.deviceFatal r).hi.msix = d.hi.msix := by
  unfold Dev.deviceFatal; dsimp only; split <;> simp
@[simp] theorem Dev.deviceFatal_hi_mem (d : Dev) (r : FltRep) : (d.deviceFatal r).hi.mem = d.hi.mem := by
  unfold Dev.deviceFatal; dsimp only; split <;> simp
@[simp] theorem Dev.deviceFatal_hi_leave (d : Dev) (r : FltRep) : (d.deviceFatal r).hi.leave = d.hi.leave := by
  unfold Dev.deviceFatal; dsimp only; split <;> simp
@[simp] theorem Dev.deviceFatal_hi_due13 (d : Dev) (r : FltRep) : (d.deviceFatal r).hi.due13 = d.hi.due13 := by
  unfold Dev.deviceFatal; dsimp only; split <;> simp
@[simp] theorem Dev.deviceFatal_hi_siAt (d : Dev) (r : FltRep) : (d.deviceFatal r).hi.siAt = d.hi.siAt := by
  unfold Dev.deviceFatal; dsimp only; split <;> simp
@[simp] theorem Dev.deviceFatal_xs_ready (d : Dev) (r : FltRep) : (d.deviceFatal r).xs.ready = d.xs.ready := by
  unfold Dev.deviceFatal; dsimp only; split <;> simp
@[simp] theorem Dev.deviceFatal_xs_geomErr (d : Dev) (r : FltRep) : (d.deviceFatal r).xs.geomErr = d.xs.geomErr := by
  unfold Dev.deviceFatal; dsimp only; split <;> simp
@[simp] theorem Dev.deviceFatal_xs_devicesM1 (d : Dev) (r : FltRep) : (d.deviceFatal r).xs.devicesM1 = d.xs.devicesM1 := by
  unfold Dev.deviceFatal; dsimp only; split <;> simp
@[simp] theorem Dev.deviceFatal_xs_density (d : Dev) (r : FltRep) : (d.deviceFatal r).xs.density = d.xs.density := by
  unfold Dev.deviceFatal; dsimp only; split <;> simp
@[simp] theorem Dev.deviceFatal_bt (d : Dev) (r : FltRep) : (d.deviceFatal r).bt = d.bt := by
  unfold Dev.deviceFatal; dsimp only; split <;> simp
@[simp] theorem Dev.deviceFatal_pm (d : Dev) (r : FltRep) : (d.deviceFatal r).pm = d.pm := by
  unfold Dev.deviceFatal; dsimp only; split <;> simp
@[simp] theorem Dev.deviceFatal_mem (d : Dev) (r : FltRep) : (d.deviceFatal r).mem = d.mem := by
  unfold Dev.deviceFatal; dsimp only; split <;> simp
@[simp] theorem Dev.deviceFatal_free (d : Dev) (r : FltRep) : (d.deviceFatal r).free = d.free := by
  unfold Dev.deviceFatal; dsimp only; split <;> simp

@[simp] theorem Dev.report_reg_pend (d : Dev) (r : FltRep) : (d.report r).reg.pend = d.reg.pend := by
  unfold Dev.report; split <;> (try dsimp only) <;> (try split) <;> simp
@[simp] theorem Dev.report_reg_live (d : Dev) (r : FltRep) : (d.report r).reg.live = d.reg.live := by
  unfold Dev.report; split <;> (try dsimp only) <;> (try split) <;> simp
@[simp] theorem Dev.report_reg_comp (d : Dev) (r : FltRep) : (d.report r).reg.comp = d.reg.comp := by
  unfold Dev.report; split <;> (try dsimp only) <;> (try split) <;> simp
@[simp] theorem Dev.report_reg_capt (d : Dev) (r : FltRep) : (d.report r).reg.capt = d.reg.capt := by
  unfold Dev.report; split <;> (try dsimp only) <;> (try split) <;> simp
@[simp] theorem Dev.report_reg_acc (d : Dev) (r : FltRep) : (d.report r).reg.acc = d.reg.acc := by
  unfold Dev.report; split <;> (try dsimp only) <;> (try split) <;> simp
@[simp] theorem Dev.report_tm_raw (d : Dev) (r : FltRep) : (d.report r).tm.raw = d.tm.raw := by
  unfold Dev.report; split <;> (try dsimp only) <;> (try split) <;> simp
@[simp] theorem Dev.report_tm_offset (d : Dev) (r : FltRep) : (d.report r).tm.offset = d.tm.offset := by
  unfold Dev.report; split <;> (try dsimp only) <;> (try split) <;> simp
@[simp] theorem Dev.report_tm_rate (d : Dev) (r : FltRep) : (d.report r).tm.rate = d.tm.rate := by
  unfold Dev.report; split <;> (try dsimp only) <;> (try split) <;> simp
@[simp] theorem Dev.report_tm_anchor (d : Dev) (r : FltRep) : (d.report r).tm.anchor = d.tm.anchor := by
  unfold Dev.report; split <;> (try dsimp only) <;> (try split) <;> simp
@[simp] theorem Dev.report_tm_integ (d : Dev) (r : FltRep) : (d.report r).tm.integ = d.tm.integ := by
  unfold Dev.report; split <;> (try dsimp only) <;> (try split) <;> simp
@[simp] theorem Dev.report_tm_lastM (d : Dev) (r : FltRep) : (d.report r).tm.lastM = d.tm.lastM := by
  unfold Dev.report; split <;> (try dsimp only) <;> (try split) <;> simp
@[simp] theorem Dev.report_tm_meas (d : Dev) (r : FltRep) : (d.report r).tm.meas = d.tm.meas := by
  unfold Dev.report; split <;> (try dsimp only) <;> (try split) <;> simp
@[simp] theorem Dev.report_tm_lockCnt (d : Dev) (r : FltRep) : (d.report r).tm.lockCnt = d.tm.lockCnt := by
  unfold Dev.report; split <;> (try dsimp only) <;> (try split) <;> simp
@[simp] theorem Dev.report_tm_locked (d : Dev) (r : FltRep) : (d.report r).tm.locked = d.tm.locked := by
  unfold Dev.report; split <;> (try dsimp only) <;> (try split) <;> simp
@[simp] theorem Dev.report_tm_holdover (d : Dev) (r : FltRep) : (d.report r).tm.holdover = d.tm.holdover := by
  unfold Dev.report; split <;> (try dsimp only) <;> (try split) <;> simp
@[simp] theorem Dev.report_tm_aligned (d : Dev) (r : FltRep) : (d.report r).tm.aligned = d.tm.aligned := by
  unfold Dev.report; split <;> (try dsimp only) <;> (try split) <;> simp
@[simp] theorem Dev.report_tm_measAt (d : Dev) (r : FltRep) : (d.report r).tm.measAt = d.tm.measAt := by
  unfold Dev.report; split <;> (try dsimp only) <;> (try split) <;> simp
@[simp] theorem Dev.report_tm_strokeOff (d : Dev) (r : FltRep) : (d.report r).tm.strokeOff = d.tm.strokeOff := by
  unfold Dev.report; split <;> (try dsimp only) <;> (try split) <;> simp
@[simp] theorem Dev.report_tm_adj (d : Dev) (r : FltRep) : (d.report r).tm.adj = d.tm.adj := by
  unfold Dev.report; split <;> (try dsimp only) <;> (try split) <;> simp
@[simp] theorem Dev.report_tm_jump (d : Dev) (r : FltRep) : (d.report r).tm.jump = d.tm.jump := by
  unfold Dev.report; split <;> (try dsimp only) <;> (try split) <;> simp
@[simp] theorem Dev.report_tm_ptp (d : Dev) (r : FltRep) : (d.report r).tm.ptp = d.tm.ptp := by
  unfold Dev.report; split <;> (try dsimp only) <;> (try split) <;> simp
@[simp] theorem Dev.report_tm_rxq (d : Dev) (r : FltRep) : (d.report r).tm.rxq = d.tm.rxq := by
  unfold Dev.report; split <;> (try dsimp only) <;> (try split) <;> simp
@[simp] theorem Dev.report_tm_capt (d : Dev) (r : FltRep) : (d.report r).tm.capt = d.tm.capt := by
  unfold Dev.report; split <;> (try dsimp only) <;> (try split) <;> simp
@[simp] theorem Dev.report_tm_op (d : Dev) (r : FltRep) : (d.report r).tm.op = d.tm.op := by
  unfold Dev.report; split <;> (try dsimp only) <;> (try split) <;> simp
@[simp] theorem Dev.report_tm_stroke (d : Dev) (r : FltRep) : (d.report r).tm.stroke = d.tm.stroke := by
  unfold Dev.report; split <;> (try dsimp only) <;> (try split) <;> simp
@[simp] theorem Dev.report_tm_len (d : Dev) (r : FltRep) : (d.report r).tm.len = d.tm.len := by
  unfold Dev.report; split <;> (try dsimp only) <;> (try split) <;> simp
@[simp] theorem Dev.report_tm_openRaw (d : Dev) (r : FltRep) : (d.report r).tm.openRaw = d.tm.openRaw := by
  unfold Dev.report; split <;> (try dsimp only) <;> (try split) <;> simp
@[simp] theorem Dev.report_tm_frame (d : Dev) (r : FltRep) : (d.report r).tm.frame = d.tm.frame := by
  unfold Dev.report; split <;> (try dsimp only) <;> (try split) <;> simp
@[simp] theorem Dev.report_tm_framed (d : Dev) (r : FltRep) : (d.report r).tm.framed = d.tm.framed := by
  unfold Dev.report; split <;> (try dsimp only) <;> (try split) <;> simp
@[simp] theorem Dev.report_tm_frameAt (d : Dev) (r : FltRep) : (d.report r).tm.frameAt = d.tm.frameAt := by
  unfold Dev.report; split <;> (try dsimp only) <;> (try split) <;> simp
@[simp] theorem Dev.report_tm_tf (d : Dev) (r : FltRep) : (d.report r).tm.tf = d.tm.tf := by
  unfold Dev.report; split <;> (try dsimp only) <;> (try split) <;> simp
@[simp] theorem Dev.report_tm_tfPrev (d : Dev) (r : FltRep) : (d.report r).tm.tfPrev = d.tm.tfPrev := by
  unfold Dev.report; split <;> (try dsimp only) <;> (try split) <;> simp
@[simp] theorem Dev.report_tm_frameDue (d : Dev) (r : FltRep) : (d.report r).tm.frameDue = d.tm.frameDue := by
  unfold Dev.report; split <;> (try dsimp only) <;> (try split) <;> simp
@[simp] theorem Dev.report_tm_retireDue (d : Dev) (r : FltRep) : (d.report r).tm.retireDue = d.tm.retireDue := by
  unfold Dev.report; split <;> (try dsimp only) <;> (try split) <;> simp
@[simp] theorem Dev.report_ig (d : Dev) (r : FltRep) : (d.report r).ig = d.ig := by
  unfold Dev.report; split <;> (try dsimp only) <;> (try split) <;> simp
@[simp] theorem Dev.report_gb (d : Dev) (r : FltRep) : (d.report r).gb = d.gb := by
  unfold Dev.report; split <;> (try dsimp only) <;> (try split) <;> simp
@[simp] theorem Dev.report_cm (d : Dev) (r : FltRep) : (d.report r).cm = d.cm := by
  unfold Dev.report; split <;> (try dsimp only) <;> (try split) <;> simp
@[simp] theorem Dev.report_cw (d : Dev) (r : FltRep) : (d.report r).cw = d.cw := by
  unfold Dev.report; split <;> (try dsimp only) <;> (try split) <;> simp
@[simp] theorem Dev.report_ag (d : Dev) (r : FltRep) : (d.report r).ag = d.ag := by
  unfold Dev.report; split <;> (try dsimp only) <;> (try split) <;> simp
@[simp] theorem Dev.report_et (d : Dev) (r : FltRep) : (d.report r).et = d.et := by
  unfold Dev.report; split <;> (try dsimp only) <;> (try split) <;> simp
@[simp] theorem Dev.report_lg (d : Dev) (r : FltRep) : (d.report r).lg = d.lg := by
  unfold Dev.report; split <;> (try dsimp only) <;> (try split) <;> simp
@[simp] theorem Dev.report_si_thr (d : Dev) (r : FltRep) : (d.report r).si.thr = d.si.thr := by
  unfold Dev.report; split <;> (try dsimp only) <;> (try split) <;> simp
@[simp] theorem Dev.report_si_thrC (d : Dev) (r : FltRep) : (d.report r).si.thrC = d.si.thrC := by
  unfold Dev.report; split <;> (try dsimp only) <;> (try split) <;> simp
@[simp] theorem Dev.report_si_gref (d : Dev) (r : FltRep) : (d.report r).si.gref = d.si.gref := by
  unfold Dev.report; split <;> (try dsimp only) <;> (try split) <;> simp
@[simp] theorem Dev.report_si_portOpen (d : Dev) (r : FltRep) : (d.report r).si.portOpen = d.si.portOpen := by
  unfold Dev.report; split <;> (try dsimp only) <;> (try split) <;> simp
@[simp] theorem Dev.report_si_tap (d : Dev) (r : FltRep) : (d.report r).si.tap = d.si.tap := by
  unfold Dev.report; split <;> (try dsimp only) <;> (try split) <;> simp
@[simp] theorem Dev.report_si_tapAt (d : Dev) (r : FltRep) : (d.report r).si.tapAt = d.si.tapAt := by
  unfold Dev.report; split <;> (try dsimp only) <;> (try split) <;> simp
@[simp] theorem Dev.report_si_taps (d : Dev) (r : FltRep) : (d.report r).si.taps = d.si.taps := by
  unfold Dev.report; split <;> (try dsimp only) <;> (try split) <;> simp
@[simp] theorem Dev.report_si_poses (d : Dev) (r : FltRep) : (d.report r).si.poses = d.si.poses := by
  unfold Dev.report; split <;> (try dsimp only) <;> (try split) <;> simp
@[simp] theorem Dev.report_si_gs (d : Dev) (r : FltRep) : (d.report r).si.gs = d.si.gs := by
  unfold Dev.report; split <;> (try dsimp only) <;> (try split) <;> simp
@[simp] theorem Dev.report_si_wx (d : Dev) (r : FltRep) : (d.report r).si.wx = d.si.wx := by
  unfold Dev.report; split <;> (try dsimp only) <;> (try split) <;> simp
@[simp] theorem Dev.report_si_wy (d : Dev) (r : FltRep) : (d.report r).si.wy = d.si.wy := by
  unfold Dev.report; split <;> (try dsimp only) <;> (try split) <;> simp
@[simp] theorem Dev.report_si_await (d : Dev) (r : FltRep) : (d.report r).si.await = d.si.await := by
  unfold Dev.report; split <;> (try dsimp only) <;> (try split) <;> simp
@[simp] theorem Dev.report_si_fresh (d : Dev) (r : FltRep) : (d.report r).si.fresh = d.si.fresh := by
  unfold Dev.report; split <;> (try dsimp only) <;> (try split) <;> simp
@[simp] theorem Dev.report_si_gsUpset (d : Dev) (r : FltRep) : (d.report r).si.gsUpset = d.si.gsUpset := by
  unfold Dev.report; split <;> (try dsimp only) <;> (try split) <;> simp
@[simp] theorem Dev.report_si_gsAt (d : Dev) (r : FltRep) : (d.report r).si.gsAt = d.si.gsAt := by
  unfold Dev.report; split <;> (try dsimp only) <;> (try split) <;> simp
@[simp] theorem Dev.report_si_sweep (d : Dev) (r : FltRep) : (d.report r).si.sweep = d.si.sweep := by
  unfold Dev.report; split <;> (try dsimp only) <;> (try split) <;> simp
@[simp] theorem Dev.report_si_bnds (d : Dev) (r : FltRep) : (d.report r).si.bnds = d.si.bnds := by
  unfold Dev.report; split <;> (try dsimp only) <;> (try split) <;> simp
@[simp] theorem Dev.report_si_entry (d : Dev) (r : FltRep) : (d.report r).si.entry = d.si.entry := by
  unfold Dev.report; split <;> (try dsimp only) <;> (try split) <;> simp
@[simp] theorem Dev.report_si_biv (d : Dev) (r : FltRep) : (d.report r).si.biv = d.si.biv := by
  unfold Dev.report; split <;> (try dsimp only) <;> (try split) <;> simp
@[simp] theorem Dev.report_si_doubts (d : Dev) (r : FltRep) : (d.report r).si.doubts = d.si.doubts := by
  unfold Dev.report; split <;> (try dsimp only) <;> (try split) <;> simp
@[simp] theorem Dev.report_si_serveAll (d : Dev) (r : FltRep) : (d.report r).si.serveAll = d.si.serveAll := by
  unfold Dev.report; split <;> (try dsimp only) <;> (try split) <;> simp
@[simp] theorem Dev.report_si_serve (d : Dev) (r : FltRep) : (d.report r).si.serve = d.si.serve := by
  unfold Dev.report; split <;> (try dsimp only) <;> (try split) <;> simp
@[simp] theorem Dev.report_si_latched (d : Dev) (r : FltRep) : (d.report r).si.latched = d.si.latched := by
  unfold Dev.report; split <;> (try dsimp only) <;> (try split) <;> simp
@[simp] theorem Dev.report_si_permanent (d : Dev) (r : FltRep) : (d.report r).si.permanent = d.si.permanent := by
  unfold Dev.report; split <;> (try dsimp only) <;> (try split) <;> simp
@[simp] theorem Dev.report_si_bivFail (d : Dev) (r : FltRep) : (d.report r).si.bivFail = d.si.bivFail := by
  unfold Dev.report; split <;> (try dsimp only) <;> (try split) <;> simp
@[simp] theorem Dev.report_si_fatal (d : Dev) (r : FltRep) : (d.report r).si.fatal = d.si.fatal := by
  unfold Dev.report; split <;> (try dsimp only) <;> (try split) <;> simp
@[simp] theorem Dev.report_si_cause (d : Dev) (r : FltRep) : (d.report r).si.cause = d.si.cause := by
  unfold Dev.report; split <;> (try dsimp only) <;> (try split) <;> simp
@[simp] theorem Dev.report_si_restarting (d : Dev) (r : FltRep) : (d.report r).si.restarting = d.si.restarting := by
  unfold Dev.report; split <;> (try dsimp only) <;> (try split) <;> simp
@[simp] theorem Dev.report_si_hist (d : Dev) (r : FltRep) : (d.report r).si.hist = d.si.hist := by
  unfold Dev.report; split <;> (try dsimp only) <;> (try split) <;> simp
@[simp] theorem Dev.report_si_perDoubt (d : Dev) (r : FltRep) : (d.report r).si.perDoubt = d.si.perDoubt := by
  unfold Dev.report; split <;> (try dsimp only) <;> (try split) <;> simp
@[simp] theorem Dev.report_si_perClean (d : Dev) (r : FltRep) : (d.report r).si.perClean = d.si.perClean := by
  unfold Dev.report; split <;> (try dsimp only) <;> (try split) <;> simp
@[simp] theorem Dev.report_si_clean (d : Dev) (r : FltRep) : (d.report r).si.clean = d.si.clean := by
  unfold Dev.report; split <;> (try dsimp only) <;> (try split) <;> simp
@[simp] theorem Dev.report_si_recov (d : Dev) (r : FltRep) : (d.report r).si.recov = d.si.recov := by
  unfold Dev.report; split <;> (try dsimp only) <;> (try split) <;> simp
@[simp] theorem Dev.report_si_requests (d : Dev) (r : FltRep) : (d.report r).si.requests = d.si.requests := by
  unfold Dev.report; split <;> (try dsimp only) <;> (try split) <;> simp
@[simp] theorem Dev.report_si_time (d : Dev) (r : FltRep) : (d.report r).si.time = d.si.time := by
  unfold Dev.report; split <;> (try dsimp only) <;> (try split) <;> simp
@[simp] theorem Dev.report_si_lastRule (d : Dev) (r : FltRep) : (d.report r).si.lastRule = d.si.lastRule := by
  unfold Dev.report; split <;> (try dsimp only) <;> (try split) <;> simp
@[simp] theorem Dev.report_si_lastTile (d : Dev) (r : FltRep) : (d.report r).si.lastTile = d.si.lastTile := by
  unfold Dev.report; split <;> (try dsimp only) <;> (try split) <;> simp
@[simp] theorem Dev.report_si_lastAll (d : Dev) (r : FltRep) : (d.report r).si.lastAll = d.si.lastAll := by
  unfold Dev.report; split <;> (try dsimp only) <;> (try split) <;> simp
@[simp] theorem Dev.report_si_lastStroke (d : Dev) (r : FltRep) : (d.report r).si.lastStroke = d.si.lastStroke := by
  unfold Dev.report; split <;> (try dsimp only) <;> (try split) <;> simp
@[simp] theorem Dev.report_si_tracks (d : Dev) (r : FltRep) : (d.report r).si.tracks = d.si.tracks := by
  unfold Dev.report; split <;> (try dsimp only) <;> (try split) <;> simp
@[simp] theorem Dev.report_si_ww (d : Dev) (r : FltRep) : (d.report r).si.ww = d.si.ww := by
  unfold Dev.report; split <;> (try dsimp only) <;> (try split) <;> simp
@[simp] theorem Dev.report_si_cnt (d : Dev) (r : FltRep) : (d.report r).si.cnt = d.si.cnt := by
  unfold Dev.report; split <;> (try dsimp only) <;> (try split) <;> simp
@[simp] theorem Dev.report_si_wins (d : Dev) (r : FltRep) : (d.report r).si.wins = d.si.wins := by
  unfold Dev.report; split <;> (try dsimp only) <;> (try split) <;> simp
@[simp] theorem Dev.report_si_gpts (d : Dev) (r : FltRep) : (d.report r).si.gpts = d.si.gpts := by
  unfold Dev.report; split <;> (try dsimp only) <;> (try split) <;> simp
@[simp] theorem Dev.report_si_gcrc (d : Dev) (r : FltRep) : (d.report r).si.gcrc = d.si.gcrc := by
  unfold Dev.report; split <;> (try dsimp only) <;> (try split) <;> simp
@[simp] theorem Dev.report_si_gprev (d : Dev) (r : FltRep) : (d.report r).si.gprev = d.si.gprev := by
  unfold Dev.report; split <;> (try dsimp only) <;> (try split) <;> simp
@[simp] theorem Dev.report_si_verdictAt (d : Dev) (r : FltRep) : (d.report r).si.verdictAt = d.si.verdictAt := by
  unfold Dev.report; split <;> (try dsimp only) <;> (try split) <;> simp
@[simp] theorem Dev.report_si_thOk (d : Dev) (r : FltRep) : (d.report r).si.thOk = d.si.thOk := by
  unfold Dev.report; split <;> (try dsimp only) <;> (try split) <;> simp
@[simp] theorem Dev.report_si_muted (d : Dev) (r : FltRep) : (d.report r).si.muted = d.si.muted := by
  unfold Dev.report; split <;> (try dsimp only) <;> (try split) <;> simp
@[simp] theorem Dev.report_si_latchReq (d : Dev) (r : FltRep) : (d.report r).si.latchReq = d.si.latchReq := by
  unfold Dev.report; split <;> (try dsimp only) <;> (try split) <;> simp
@[simp] theorem Dev.report_si_permReq (d : Dev) (r : FltRep) : (d.report r).si.permReq = d.si.permReq := by
  unfold Dev.report; split <;> (try dsimp only) <;> (try split) <;> simp
@[simp] theorem Dev.report_si_firstFailed (d : Dev) (r : FltRep) : (d.report r).si.firstFailed = d.si.firstFailed := by
  unfold Dev.report; split <;> (try dsimp only) <;> (try split) <;> simp
@[simp] theorem Dev.report_si_sel (d : Dev) (r : FltRep) : (d.report r).si.sel = d.si.sel := by
  unfold Dev.report; split <;> (try dsimp only) <;> (try split) <;> simp
@[simp] theorem Dev.report_si_tested (d : Dev) (r : FltRep) : (d.report r).si.tested = d.si.tested := by
  unfold Dev.report; split <;> (try dsimp only) <;> (try split) <;> simp
@[simp] theorem Dev.report_si_running (d : Dev) (r : FltRep) : (d.report r).si.running = d.si.running := by
  unfold Dev.report; split <;> (try dsimp only) <;> (try split) <;> simp
@[simp] theorem Dev.report_si_pin (d : Dev) (r : FltRep) : (d.report r).si.pin = d.si.pin := by
  unfold Dev.report; split <;> (try dsimp only) <;> (try split) <;> simp
@[simp] theorem Dev.report_si_maint (d : Dev) (r : FltRep) : (d.report r).si.maint = d.si.maint := by
  unfold Dev.report; split <;> (try dsimp only) <;> (try split) <;> simp
@[simp] theorem Dev.report_si_pllLost (d : Dev) (r : FltRep) : (d.report r).si.pllLost = d.si.pllLost := by
  unfold Dev.report; split <;> (try dsimp only) <;> (try split) <;> simp
@[simp] theorem Dev.report_flt_rolling (d : Dev) (r : FltRep) : (d.report r).flt.rolling = d.flt.rolling := by
  unfold Dev.report; split <;> (try dsimp only) <;> (try split) <;> simp
@[simp] theorem Dev.report_flt_restored (d : Dev) (r : FltRep) : (d.report r).flt.restored = d.flt.restored := by
  unfold Dev.report; split <;> (try dsimp only) <;> (try split) <;> simp
@[simp] theorem Dev.report_flt_rbStroke (d : Dev) (r : FltRep) : (d.report r).flt.rbStroke = d.flt.rbStroke := by
  unfold Dev.report; split <;> (try dsimp only) <;> (try split) <;> simp
@[simp] theorem Dev.report_flt_resumed (d : Dev) (r : FltRep) : (d.report r).flt.resumed = d.flt.resumed := by
  unfold Dev.report; split <;> (try dsimp only) <;> (try split) <;> simp
@[simp] theorem Dev.report_flt_phase (d : Dev) (r : FltRep) : (d.report r).flt.phase = d.flt.phase := by
  unfold Dev.report; split <;> (try dsimp only) <;> (try split) <;> simp
@[simp] theorem Dev.report_flt_restartAt (d : Dev) (r : FltRep) : (d.report r).flt.restartAt = d.flt.restartAt := by
  unfold Dev.report; split <;> (try dsimp only) <;> (try split) <;> simp
@[simp] theorem Dev.report_flt_resumeAt (d : Dev) (r : FltRep) : (d.report r).flt.resumeAt = d.flt.resumeAt := by
  unfold Dev.report; split <;> (try dsimp only) <;> (try split) <;> simp
@[simp] theorem Dev.report_flt_reseatAt (d : Dev) (r : FltRep) : (d.report r).flt.reseatAt = d.flt.reseatAt := by
  unfold Dev.report; split <;> (try dsimp only) <;> (try split) <;> simp
@[simp] theorem Dev.report_flt_permanent (d : Dev) (r : FltRep) : (d.report r).flt.permanent = d.flt.permanent := by
  unfold Dev.report; split <;> (try dsimp only) <;> (try split) <;> simp
@[simp] theorem Dev.report_flt_boots (d : Dev) (r : FltRep) : (d.report r).flt.boots = d.flt.boots := by
  unfold Dev.report; split <;> (try dsimp only) <;> (try split) <;> simp
@[simp] theorem Dev.report_rl (d : Dev) (r : FltRep) : (d.report r).rl = d.rl := by
  unfold Dev.report; split <;> (try dsimp only) <;> (try split) <;> simp
@[simp] theorem Dev.report_hi_linkUp (d : Dev) (r : FltRep) : (d.report r).hi.linkUp = d.hi.linkUp := by
  unfold Dev.report; split <;> (try dsimp only) <;> (try split) <;> simp
@[simp] theorem Dev.report_hi_pci (d : Dev) (r : FltRep) : (d.report r).hi.pci = d.hi.pci := by
  unfold Dev.report; split <;> (try dsimp only) <;> (try split) <;> simp
@[simp] theorem Dev.report_hi_width (d : Dev) (r : FltRep) : (d.report r).hi.width = d.hi.width := by
  unfold Dev.report; split <;> (try dsimp only) <;> (try split) <;> simp
@[simp] theorem Dev.report_hi_rate (d : Dev) (r : FltRep) : (d.report r).hi.rate = d.hi.rate := by
  unfold Dev.report; split <;> (try dsimp only) <;> (try split) <;> simp
@[simp] theorem Dev.report_hi_maint (d : Dev) (r : FltRep) : (d.report r).hi.maint = d.hi.maint := by
  unfold Dev.report; split <;> (try dsimp only) <;> (try split) <;> simp
@[simp] theorem Dev.report_hi_maintReq (d : Dev) (r : FltRep) : (d.report r).hi.maintReq = d.hi.maintReq := by
  unfold Dev.report; split <;> (try dsimp only) <;> (try split) <;> simp
@[simp] theorem Dev.report_hi_rings (d : Dev) (r : FltRep) : (d.report r).hi.rings = d.hi.rings := by
  unfold Dev.report; split <;> (try dsimp only) <;> (try split) <;> simp
@[simp] theorem Dev.report_hi_outq (d : Dev) (r : FltRep) : (d.report r).hi.outq = d.hi.outq := by
  unfold Dev.report; split <;> (try dsimp only) <;> (try split) <;> simp
@[simp] theorem Dev.report_hi_fetchq (d : Dev) (r : FltRep) : (d.report r).hi.fetchq = d.hi.fetchq := by
  unfold Dev.report; split <;> (try dsimp only) <;> (try split) <;> simp
@[simp] theorem Dev.report_hi_decided (d : Dev) (r : FltRep) : (d.report r).hi.decided = d.hi.decided := by
  unfold Dev.report; split <;> (try dsimp only) <;> (try split) <;> simp
@[simp] theorem Dev.report_hi_mbx (d : Dev) (r : FltRep) : (d.report r).hi.mbx = d.hi.mbx := by
  unfold Dev.report; split <;> (try dsimp only) <;> (try split) <;> simp
@[simp] theorem Dev.report_hi_msix (d : Dev) (r : FltRep) : (d.report r).hi.msix = d.hi.msix := by
  unfold Dev.report; split <;> (try dsimp only) <;> (try split) <;> simp
@[simp] theorem Dev.report_hi_mem (d : Dev) (r : FltRep) : (d.report r).hi.mem = d.hi.mem := by
  unfold Dev.report; split <;> (try dsimp only) <;> (try split) <;> simp
@[simp] theorem Dev.report_hi_leave (d : Dev) (r : FltRep) : (d.report r).hi.leave = d.hi.leave := by
  unfold Dev.report; split <;> (try dsimp only) <;> (try split) <;> simp
@[simp] theorem Dev.report_hi_due13 (d : Dev) (r : FltRep) : (d.report r).hi.due13 = d.hi.due13 := by
  unfold Dev.report; split <;> (try dsimp only) <;> (try split) <;> simp
@[simp] theorem Dev.report_hi_siAt (d : Dev) (r : FltRep) : (d.report r).hi.siAt = d.hi.siAt := by
  unfold Dev.report; split <;> (try dsimp only) <;> (try split) <;> simp
@[simp] theorem Dev.report_xs_ready (d : Dev) (r : FltRep) : (d.report r).xs.ready = d.xs.ready := by
  unfold Dev.report; split <;> (try dsimp only) <;> (try split) <;> simp
@[simp] theorem Dev.report_xs_geomErr (d : Dev) (r : FltRep) : (d.report r).xs.geomErr = d.xs.geomErr := by
  unfold Dev.report; split <;> (try dsimp only) <;> (try split) <;> simp
@[simp] theorem Dev.report_xs_devicesM1 (d : Dev) (r : FltRep) : (d.report r).xs.devicesM1 = d.xs.devicesM1 := by
  unfold Dev.report; split <;> (try dsimp only) <;> (try split) <;> simp
@[simp] theorem Dev.report_xs_density (d : Dev) (r : FltRep) : (d.report r).xs.density = d.xs.density := by
  unfold Dev.report; split <;> (try dsimp only) <;> (try split) <;> simp
@[simp] theorem Dev.report_bt (d : Dev) (r : FltRep) : (d.report r).bt = d.bt := by
  unfold Dev.report; split <;> (try dsimp only) <;> (try split) <;> simp
@[simp] theorem Dev.report_pm (d : Dev) (r : FltRep) : (d.report r).pm = d.pm := by
  unfold Dev.report; split <;> (try dsimp only) <;> (try split) <;> simp
@[simp] theorem Dev.report_mem (d : Dev) (r : FltRep) : (d.report r).mem = d.mem := by
  unfold Dev.report; split <;> (try dsimp only) <;> (try split) <;> simp
@[simp] theorem Dev.report_free (d : Dev) (r : FltRep) : (d.report r).free = d.free := by
  unfold Dev.report; split <;> (try dsimp only) <;> (try split) <;> simp

@[simp] theorem Dev.core_report (d : Dev) (r : FltRep) (c : Nat) : (d.report r).core c = d.core c := by simp [Dev.core]
@[simp] theorem Dev.vol_report (d : Dev) (r : FltRep) (c : Nat) : (d.report r).vol c = d.vol c := by simp [Dev.vol]
@[simp] theorem Dev.crew_report (d : Dev) (r : FltRep) (c : Nat) : (d.report r).crew c = d.crew c := by simp [Dev.crew]

/-! ### The commit -/

@[simp] theorem pick_true {α : Type} (a b : α) : pick true a b = b := rfl
@[simp] theorem pick_false {α : Type} (a b : α) : pick false a b = a := rfl

@[simp] theorem Dev.commit_reg (w : Writes) (old new : Dev) : (Dev.commit w old new).reg = new.reg := by
  unfold Dev.commit; dsimp only; split <;> split <;> rfl
@[simp] theorem Dev.commit_ig (w : Writes) (old new : Dev) : (Dev.commit w old new).ig = pick w.ig old.ig new.ig := by
  unfold Dev.commit; dsimp only; split <;> split <;> rfl
@[simp] theorem Dev.commit_gb (w : Writes) (old new : Dev) : (Dev.commit w old new).gb = pick w.gb old.gb new.gb := by
  unfold Dev.commit; dsimp only; split <;> split <;> rfl
@[simp] theorem Dev.commit_cm (w : Writes) (old new : Dev) : (Dev.commit w old new).cm = pick w.cm old.cm new.cm := by
  unfold Dev.commit; dsimp only; split <;> split <;> rfl
@[simp] theorem Dev.commit_cw (w : Writes) (old new : Dev) : (Dev.commit w old new).cw = pick w.cw old.cw new.cw := by
  unfold Dev.commit; dsimp only; split <;> split <;> rfl
@[simp] theorem Dev.commit_ag (w : Writes) (old new : Dev) : (Dev.commit w old new).ag = pick w.ag old.ag new.ag := by
  unfold Dev.commit; dsimp only; split <;> split <;> rfl
@[simp] theorem Dev.commit_et (w : Writes) (old new : Dev) : (Dev.commit w old new).et = pick w.et old.et new.et := by
  unfold Dev.commit; dsimp only; split <;> split <;> rfl
@[simp] theorem Dev.commit_lg (w : Writes) (old new : Dev) : (Dev.commit w old new).lg = pick w.lg old.lg new.lg := by
  unfold Dev.commit; dsimp only; split <;> split <;> rfl
@[simp] theorem Dev.commit_flt (w : Writes) (old new : Dev) : (Dev.commit w old new).flt = pick w.flt (old.flt.side new.flt) new.flt := by
  unfold Dev.commit; dsimp only; split <;> split <;> rfl
@[simp] theorem Dev.commit_rl (w : Writes) (old new : Dev) : (Dev.commit w old new).rl = pick w.rl old.rl new.rl := by
  unfold Dev.commit; dsimp only; split <;> split <;> rfl
@[simp] theorem Dev.commit_xs (w : Writes) (old new : Dev) : (Dev.commit w old new).xs = pick w.xs (old.xs.side new.xs) new.xs := by
  unfold Dev.commit; dsimp only; split <;> split <;> rfl
@[simp] theorem Dev.commit_mem (w : Writes) (old new : Dev) : (Dev.commit w old new).mem = pick w.mem old.mem new.mem := by
  unfold Dev.commit; dsimp only; split <;> split <;> rfl
@[simp] theorem Dev.commit_out (w : Writes) (old new : Dev) : (Dev.commit w old new).out = new.out := by
  unfold Dev.commit; dsimp only; split <;> split <;> rfl
@[simp] theorem Dev.commit_free (w : Writes) (old new : Dev) : (Dev.commit w old new).free = new.free := by
  unfold Dev.commit; dsimp only; split <;> split <;> rfl
@[simp] theorem Dev.commit_tm_raw (w : Writes) (old new : Dev) :
    (Dev.commit w old new).tm.raw = (pick w.tm old.tm new.tm).raw := by
  obtain ⟨⟩ := w; rename_i a b c d e f g h i j k l m n o p q r
  cases q <;> cases r <;> cases a <;> rfl
@[simp] theorem Dev.commit_tm_offset (w : Writes) (old new : Dev) :
    (Dev.commit w old new).tm.offset = (pick w.tm old.tm new.tm).offset := by
  obtain ⟨⟩ := w; rename_i a b c d e f g h i j k l m n o p q r
  cases q <;> cases r <;> cases a <;> rfl
@[simp] theorem Dev.commit_tm_rate (w : Writes) (old new : Dev) :
    (Dev.commit w old new).tm.rate = (pick w.tm old.tm new.tm).rate := by
  obtain ⟨⟩ := w; rename_i a b c d e f g h i j k l m n o p q r
  cases q <;> cases r <;> cases a <;> rfl
@[simp] theorem Dev.commit_tm_anchor (w : Writes) (old new : Dev) :
    (Dev.commit w old new).tm.anchor = (pick w.tm old.tm new.tm).anchor := by
  obtain ⟨⟩ := w; rename_i a b c d e f g h i j k l m n o p q r
  cases q <;> cases r <;> cases a <;> rfl
@[simp] theorem Dev.commit_tm_integ (w : Writes) (old new : Dev) :
    (Dev.commit w old new).tm.integ = (pick w.tm old.tm new.tm).integ := by
  obtain ⟨⟩ := w; rename_i a b c d e f g h i j k l m n o p q r
  cases q <;> cases r <;> cases a <;> rfl
@[simp] theorem Dev.commit_tm_lastM (w : Writes) (old new : Dev) :
    (Dev.commit w old new).tm.lastM = (pick w.tm old.tm new.tm).lastM := by
  obtain ⟨⟩ := w; rename_i a b c d e f g h i j k l m n o p q r
  cases q <;> cases r <;> cases a <;> rfl
@[simp] theorem Dev.commit_tm_meas (w : Writes) (old new : Dev) :
    (Dev.commit w old new).tm.meas = (pick w.tm old.tm new.tm).meas := by
  obtain ⟨⟩ := w; rename_i a b c d e f g h i j k l m n o p q r
  cases q <;> cases r <;> cases a <;> rfl
@[simp] theorem Dev.commit_tm_lockCnt (w : Writes) (old new : Dev) :
    (Dev.commit w old new).tm.lockCnt = (pick w.tm old.tm new.tm).lockCnt := by
  obtain ⟨⟩ := w; rename_i a b c d e f g h i j k l m n o p q r
  cases q <;> cases r <;> cases a <;> rfl
@[simp] theorem Dev.commit_tm_locked (w : Writes) (old new : Dev) :
    (Dev.commit w old new).tm.locked = (pick w.tm old.tm new.tm).locked := by
  obtain ⟨⟩ := w; rename_i a b c d e f g h i j k l m n o p q r
  cases q <;> cases r <;> cases a <;> rfl
@[simp] theorem Dev.commit_tm_holdover (w : Writes) (old new : Dev) :
    (Dev.commit w old new).tm.holdover = (pick w.tm old.tm new.tm).holdover := by
  obtain ⟨⟩ := w; rename_i a b c d e f g h i j k l m n o p q r
  cases q <;> cases r <;> cases a <;> rfl
@[simp] theorem Dev.commit_tm_aligned (w : Writes) (old new : Dev) :
    (Dev.commit w old new).tm.aligned = (pick w.tm old.tm new.tm).aligned := by
  obtain ⟨⟩ := w; rename_i a b c d e f g h i j k l m n o p q r
  cases q <;> cases r <;> cases a <;> rfl
@[simp] theorem Dev.commit_tm_measAt (w : Writes) (old new : Dev) :
    (Dev.commit w old new).tm.measAt = (pick w.tm old.tm new.tm).measAt := by
  obtain ⟨⟩ := w; rename_i a b c d e f g h i j k l m n o p q r
  cases q <;> cases r <;> cases a <;> rfl
@[simp] theorem Dev.commit_tm_strokeOff (w : Writes) (old new : Dev) :
    (Dev.commit w old new).tm.strokeOff = (pick w.tm old.tm new.tm).strokeOff := by
  obtain ⟨⟩ := w; rename_i a b c d e f g h i j k l m n o p q r
  cases q <;> cases r <;> cases a <;> rfl
@[simp] theorem Dev.commit_tm_adj (w : Writes) (old new : Dev) :
    (Dev.commit w old new).tm.adj = (pick w.tm old.tm new.tm).adj := by
  obtain ⟨⟩ := w; rename_i a b c d e f g h i j k l m n o p q r
  cases q <;> cases r <;> cases a <;> rfl
@[simp] theorem Dev.commit_tm_jump (w : Writes) (old new : Dev) :
    (Dev.commit w old new).tm.jump = (pick w.tm old.tm new.tm).jump := by
  obtain ⟨⟩ := w; rename_i a b c d e f g h i j k l m n o p q r
  cases q <;> cases r <;> cases a <;> rfl
@[simp] theorem Dev.commit_tm_ptp (w : Writes) (old new : Dev) :
    (Dev.commit w old new).tm.ptp = (pick w.tm old.tm new.tm).ptp := by
  obtain ⟨⟩ := w; rename_i a b c d e f g h i j k l m n o p q r
  cases q <;> cases r <;> cases a <;> rfl
@[simp] theorem Dev.commit_tm_rxq (w : Writes) (old new : Dev) :
    (Dev.commit w old new).tm.rxq = (pick w.tm old.tm new.tm).rxq := by
  obtain ⟨⟩ := w; rename_i a b c d e f g h i j k l m n o p q r
  cases q <;> cases r <;> cases a <;> rfl
@[simp] theorem Dev.commit_tm_trig (w : Writes) (old new : Dev) :
    (Dev.commit w old new).tm.trig = new.tm.trig := by
  obtain ⟨⟩ := w; rename_i a b c d e f g h i j k l m n o p q r
  cases q <;> cases r <;> cases a <;> rfl
@[simp] theorem Dev.commit_tm_capt (w : Writes) (old new : Dev) :
    (Dev.commit w old new).tm.capt = (pick w.tm old.tm new.tm).capt := by
  obtain ⟨⟩ := w; rename_i a b c d e f g h i j k l m n o p q r
  cases q <;> cases r <;> cases a <;> rfl
@[simp] theorem Dev.commit_tm_op (w : Writes) (old new : Dev) :
    (Dev.commit w old new).tm.op = pick w.mode old.tm.op (pick w.tm old.tm new.tm).op := by
  obtain ⟨⟩ := w; rename_i a b c d e f g h i j k l m n o p q r
  cases q <;> cases r <;> cases a <;> rfl
@[simp] theorem Dev.commit_tm_stroke (w : Writes) (old new : Dev) :
    (Dev.commit w old new).tm.stroke = (pick w.tm old.tm new.tm).stroke := by
  obtain ⟨⟩ := w; rename_i a b c d e f g h i j k l m n o p q r
  cases q <;> cases r <;> cases a <;> rfl
@[simp] theorem Dev.commit_tm_len (w : Writes) (old new : Dev) :
    (Dev.commit w old new).tm.len = (pick w.tm old.tm new.tm).len := by
  obtain ⟨⟩ := w; rename_i a b c d e f g h i j k l m n o p q r
  cases q <;> cases r <;> cases a <;> rfl
@[simp] theorem Dev.commit_tm_openRaw (w : Writes) (old new : Dev) :
    (Dev.commit w old new).tm.openRaw = (pick w.tm old.tm new.tm).openRaw := by
  obtain ⟨⟩ := w; rename_i a b c d e f g h i j k l m n o p q r
  cases q <;> cases r <;> cases a <;> rfl
@[simp] theorem Dev.commit_tm_frame (w : Writes) (old new : Dev) :
    (Dev.commit w old new).tm.frame = (pick w.tm old.tm new.tm).frame := by
  obtain ⟨⟩ := w; rename_i a b c d e f g h i j k l m n o p q r
  cases q <;> cases r <;> cases a <;> rfl
@[simp] theorem Dev.commit_tm_framed (w : Writes) (old new : Dev) :
    (Dev.commit w old new).tm.framed = (pick w.tm old.tm new.tm).framed := by
  obtain ⟨⟩ := w; rename_i a b c d e f g h i j k l m n o p q r
  cases q <;> cases r <;> cases a <;> rfl
@[simp] theorem Dev.commit_tm_frameAt (w : Writes) (old new : Dev) :
    (Dev.commit w old new).tm.frameAt = (pick w.tm old.tm new.tm).frameAt := by
  obtain ⟨⟩ := w; rename_i a b c d e f g h i j k l m n o p q r
  cases q <;> cases r <;> cases a <;> rfl
@[simp] theorem Dev.commit_tm_tf (w : Writes) (old new : Dev) :
    (Dev.commit w old new).tm.tf = (pick w.tm old.tm new.tm).tf := by
  obtain ⟨⟩ := w; rename_i a b c d e f g h i j k l m n o p q r
  cases q <;> cases r <;> cases a <;> rfl
@[simp] theorem Dev.commit_tm_tfPrev (w : Writes) (old new : Dev) :
    (Dev.commit w old new).tm.tfPrev = (pick w.tm old.tm new.tm).tfPrev := by
  obtain ⟨⟩ := w; rename_i a b c d e f g h i j k l m n o p q r
  cases q <;> cases r <;> cases a <;> rfl
@[simp] theorem Dev.commit_tm_frameDue (w : Writes) (old new : Dev) :
    (Dev.commit w old new).tm.frameDue = (pick w.tm old.tm new.tm).frameDue := by
  obtain ⟨⟩ := w; rename_i a b c d e f g h i j k l m n o p q r
  cases q <;> cases r <;> cases a <;> rfl
@[simp] theorem Dev.commit_tm_retireDue (w : Writes) (old new : Dev) :
    (Dev.commit w old new).tm.retireDue = (pick w.tm old.tm new.tm).retireDue := by
  obtain ⟨⟩ := w; rename_i a b c d e f g h i j k l m n o p q r
  cases q <;> cases r <;> cases a <;> rfl
@[simp] theorem Dev.commit_si_thr (w : Writes) (old new : Dev) :
    (Dev.commit w old new).si.thr = (pick w.si old.si new.si).thr := by
  obtain ⟨⟩ := w; rename_i a b c d e f g h i j k l m n o p q r
  cases q <;> cases r <;> cases i <;> rfl
@[simp] theorem Dev.commit_si_thrC (w : Writes) (old new : Dev) :
    (Dev.commit w old new).si.thrC = (pick w.si old.si new.si).thrC := by
  obtain ⟨⟩ := w; rename_i a b c d e f g h i j k l m n o p q r
  cases q <;> cases r <;> cases i <;> rfl
@[simp] theorem Dev.commit_si_gref (w : Writes) (old new : Dev) :
    (Dev.commit w old new).si.gref = (pick w.si old.si new.si).gref := by
  obtain ⟨⟩ := w; rename_i a b c d e f g h i j k l m n o p q r
  cases q <;> cases r <;> cases i <;> rfl
@[simp] theorem Dev.commit_si_portOpen (w : Writes) (old new : Dev) :
    (Dev.commit w old new).si.portOpen = (pick w.si old.si new.si).portOpen := by
  obtain ⟨⟩ := w; rename_i a b c d e f g h i j k l m n o p q r
  cases q <;> cases r <;> cases i <;> rfl
@[simp] theorem Dev.commit_si_mq (w : Writes) (old new : Dev) :
    (Dev.commit w old new).si.mq = new.si.mq := by
  obtain ⟨⟩ := w; rename_i a b c d e f g h i j k l m n o p q r
  cases q <;> cases r <;> cases i <;> rfl
@[simp] theorem Dev.commit_si_tap (w : Writes) (old new : Dev) :
    (Dev.commit w old new).si.tap = (pick w.si old.si new.si).tap := by
  obtain ⟨⟩ := w; rename_i a b c d e f g h i j k l m n o p q r
  cases q <;> cases r <;> cases i <;> rfl
@[simp] theorem Dev.commit_si_tapAt (w : Writes) (old new : Dev) :
    (Dev.commit w old new).si.tapAt = (pick w.si old.si new.si).tapAt := by
  obtain ⟨⟩ := w; rename_i a b c d e f g h i j k l m n o p q r
  cases q <;> cases r <;> cases i <;> rfl
@[simp] theorem Dev.commit_si_taps (w : Writes) (old new : Dev) :
    (Dev.commit w old new).si.taps = (pick w.si old.si new.si).taps := by
  obtain ⟨⟩ := w; rename_i a b c d e f g h i j k l m n o p q r
  cases q <;> cases r <;> cases i <;> rfl
@[simp] theorem Dev.commit_si_poses (w : Writes) (old new : Dev) :
    (Dev.commit w old new).si.poses = (pick w.si old.si new.si).poses := by
  obtain ⟨⟩ := w; rename_i a b c d e f g h i j k l m n o p q r
  cases q <;> cases r <;> cases i <;> rfl
@[simp] theorem Dev.commit_si_gs (w : Writes) (old new : Dev) :
    (Dev.commit w old new).si.gs = (pick w.si old.si new.si).gs := by
  obtain ⟨⟩ := w; rename_i a b c d e f g h i j k l m n o p q r
  cases q <;> cases r <;> cases i <;> rfl
@[simp] theorem Dev.commit_si_wx (w : Writes) (old new : Dev) :
    (Dev.commit w old new).si.wx = (pick w.si old.si new.si).wx := by
  obtain ⟨⟩ := w; rename_i a b c d e f g h i j k l m n o p q r
  cases q <;> cases r <;> cases i <;> rfl
@[simp] theorem Dev.commit_si_wy (w : Writes) (old new : Dev) :
    (Dev.commit w old new).si.wy = (pick w.si old.si new.si).wy := by
  obtain ⟨⟩ := w; rename_i a b c d e f g h i j k l m n o p q r
  cases q <;> cases r <;> cases i <;> rfl
@[simp] theorem Dev.commit_si_await (w : Writes) (old new : Dev) :
    (Dev.commit w old new).si.await = (pick w.si old.si new.si).await := by
  obtain ⟨⟩ := w; rename_i a b c d e f g h i j k l m n o p q r
  cases q <;> cases r <;> cases i <;> rfl
@[simp] theorem Dev.commit_si_fresh (w : Writes) (old new : Dev) :
    (Dev.commit w old new).si.fresh = (pick w.si old.si new.si).fresh := by
  obtain ⟨⟩ := w; rename_i a b c d e f g h i j k l m n o p q r
  cases q <;> cases r <;> cases i <;> rfl
@[simp] theorem Dev.commit_si_gsUpset (w : Writes) (old new : Dev) :
    (Dev.commit w old new).si.gsUpset = (pick w.si old.si new.si).gsUpset := by
  obtain ⟨⟩ := w; rename_i a b c d e f g h i j k l m n o p q r
  cases q <;> cases r <;> cases i <;> rfl
@[simp] theorem Dev.commit_si_gsAt (w : Writes) (old new : Dev) :
    (Dev.commit w old new).si.gsAt = (pick w.si old.si new.si).gsAt := by
  obtain ⟨⟩ := w; rename_i a b c d e f g h i j k l m n o p q r
  cases q <;> cases r <;> cases i <;> rfl
@[simp] theorem Dev.commit_si_sweep (w : Writes) (old new : Dev) :
    (Dev.commit w old new).si.sweep = (pick w.si old.si new.si).sweep := by
  obtain ⟨⟩ := w; rename_i a b c d e f g h i j k l m n o p q r
  cases q <;> cases r <;> cases i <;> rfl
@[simp] theorem Dev.commit_si_bnds (w : Writes) (old new : Dev) :
    (Dev.commit w old new).si.bnds = (pick w.si old.si new.si).bnds := by
  obtain ⟨⟩ := w; rename_i a b c d e f g h i j k l m n o p q r
  cases q <;> cases r <;> cases i <;> rfl
@[simp] theorem Dev.commit_si_entry (w : Writes) (old new : Dev) :
    (Dev.commit w old new).si.entry = (pick w.si old.si new.si).entry := by
  obtain ⟨⟩ := w; rename_i a b c d e f g h i j k l m n o p q r
  cases q <;> cases r <;> cases i <;> rfl
@[simp] theorem Dev.commit_si_biv (w : Writes) (old new : Dev) :
    (Dev.commit w old new).si.biv = (pick w.si old.si new.si).biv := by
  obtain ⟨⟩ := w; rename_i a b c d e f g h i j k l m n o p q r
  cases q <;> cases r <;> cases i <;> rfl
@[simp] theorem Dev.commit_si_doubts (w : Writes) (old new : Dev) :
    (Dev.commit w old new).si.doubts = (pick w.si old.si new.si).doubts := by
  obtain ⟨⟩ := w; rename_i a b c d e f g h i j k l m n o p q r
  cases q <;> cases r <;> cases i <;> rfl
@[simp] theorem Dev.commit_si_serveAll (w : Writes) (old new : Dev) :
    (Dev.commit w old new).si.serveAll = (pick w.si old.si new.si).serveAll := by
  obtain ⟨⟩ := w; rename_i a b c d e f g h i j k l m n o p q r
  cases q <;> cases r <;> cases i <;> rfl
@[simp] theorem Dev.commit_si_serve (w : Writes) (old new : Dev) :
    (Dev.commit w old new).si.serve = (pick w.si old.si new.si).serve := by
  obtain ⟨⟩ := w; rename_i a b c d e f g h i j k l m n o p q r
  cases q <;> cases r <;> cases i <;> rfl
@[simp] theorem Dev.commit_si_latched (w : Writes) (old new : Dev) :
    (Dev.commit w old new).si.latched = (pick w.si old.si new.si).latched := by
  obtain ⟨⟩ := w; rename_i a b c d e f g h i j k l m n o p q r
  cases q <;> cases r <;> cases i <;> rfl
@[simp] theorem Dev.commit_si_permanent (w : Writes) (old new : Dev) :
    (Dev.commit w old new).si.permanent = (pick w.si old.si new.si).permanent := by
  obtain ⟨⟩ := w; rename_i a b c d e f g h i j k l m n o p q r
  cases q <;> cases r <;> cases i <;> rfl
@[simp] theorem Dev.commit_si_bivFail (w : Writes) (old new : Dev) :
    (Dev.commit w old new).si.bivFail = (pick w.si old.si new.si).bivFail := by
  obtain ⟨⟩ := w; rename_i a b c d e f g h i j k l m n o p q r
  cases q <;> cases r <;> cases i <;> rfl
@[simp] theorem Dev.commit_si_fatal (w : Writes) (old new : Dev) :
    (Dev.commit w old new).si.fatal = (pick w.si old.si new.si).fatal := by
  obtain ⟨⟩ := w; rename_i a b c d e f g h i j k l m n o p q r
  cases q <;> cases r <;> cases i <;> rfl
@[simp] theorem Dev.commit_si_cause (w : Writes) (old new : Dev) :
    (Dev.commit w old new).si.cause = (pick w.si old.si new.si).cause := by
  obtain ⟨⟩ := w; rename_i a b c d e f g h i j k l m n o p q r
  cases q <;> cases r <;> cases i <;> rfl
@[simp] theorem Dev.commit_si_restarting (w : Writes) (old new : Dev) :
    (Dev.commit w old new).si.restarting = (pick w.si old.si new.si).restarting := by
  obtain ⟨⟩ := w; rename_i a b c d e f g h i j k l m n o p q r
  cases q <;> cases r <;> cases i <;> rfl
@[simp] theorem Dev.commit_si_hist (w : Writes) (old new : Dev) :
    (Dev.commit w old new).si.hist = (pick w.si old.si new.si).hist := by
  obtain ⟨⟩ := w; rename_i a b c d e f g h i j k l m n o p q r
  cases q <;> cases r <;> cases i <;> rfl
@[simp] theorem Dev.commit_si_perDoubt (w : Writes) (old new : Dev) :
    (Dev.commit w old new).si.perDoubt = (pick w.si old.si new.si).perDoubt := by
  obtain ⟨⟩ := w; rename_i a b c d e f g h i j k l m n o p q r
  cases q <;> cases r <;> cases i <;> rfl
@[simp] theorem Dev.commit_si_perClean (w : Writes) (old new : Dev) :
    (Dev.commit w old new).si.perClean = (pick w.si old.si new.si).perClean := by
  obtain ⟨⟩ := w; rename_i a b c d e f g h i j k l m n o p q r
  cases q <;> cases r <;> cases i <;> rfl
@[simp] theorem Dev.commit_si_clean (w : Writes) (old new : Dev) :
    (Dev.commit w old new).si.clean = (pick w.si old.si new.si).clean := by
  obtain ⟨⟩ := w; rename_i a b c d e f g h i j k l m n o p q r
  cases q <;> cases r <;> cases i <;> rfl
@[simp] theorem Dev.commit_si_recov (w : Writes) (old new : Dev) :
    (Dev.commit w old new).si.recov = (pick w.si old.si new.si).recov := by
  obtain ⟨⟩ := w; rename_i a b c d e f g h i j k l m n o p q r
  cases q <;> cases r <;> cases i <;> rfl
@[simp] theorem Dev.commit_si_requests (w : Writes) (old new : Dev) :
    (Dev.commit w old new).si.requests = (pick w.si old.si new.si).requests := by
  obtain ⟨⟩ := w; rename_i a b c d e f g h i j k l m n o p q r
  cases q <;> cases r <;> cases i <;> rfl
@[simp] theorem Dev.commit_si_time (w : Writes) (old new : Dev) :
    (Dev.commit w old new).si.time = (pick w.si old.si new.si).time := by
  obtain ⟨⟩ := w; rename_i a b c d e f g h i j k l m n o p q r
  cases q <;> cases r <;> cases i <;> rfl
@[simp] theorem Dev.commit_si_lastRule (w : Writes) (old new : Dev) :
    (Dev.commit w old new).si.lastRule = (pick w.si old.si new.si).lastRule := by
  obtain ⟨⟩ := w; rename_i a b c d e f g h i j k l m n o p q r
  cases q <;> cases r <;> cases i <;> rfl
@[simp] theorem Dev.commit_si_lastTile (w : Writes) (old new : Dev) :
    (Dev.commit w old new).si.lastTile = (pick w.si old.si new.si).lastTile := by
  obtain ⟨⟩ := w; rename_i a b c d e f g h i j k l m n o p q r
  cases q <;> cases r <;> cases i <;> rfl
@[simp] theorem Dev.commit_si_lastAll (w : Writes) (old new : Dev) :
    (Dev.commit w old new).si.lastAll = (pick w.si old.si new.si).lastAll := by
  obtain ⟨⟩ := w; rename_i a b c d e f g h i j k l m n o p q r
  cases q <;> cases r <;> cases i <;> rfl
@[simp] theorem Dev.commit_si_lastStroke (w : Writes) (old new : Dev) :
    (Dev.commit w old new).si.lastStroke = (pick w.si old.si new.si).lastStroke := by
  obtain ⟨⟩ := w; rename_i a b c d e f g h i j k l m n o p q r
  cases q <;> cases r <;> cases i <;> rfl
@[simp] theorem Dev.commit_si_tracks (w : Writes) (old new : Dev) :
    (Dev.commit w old new).si.tracks = (pick w.si old.si new.si).tracks := by
  obtain ⟨⟩ := w; rename_i a b c d e f g h i j k l m n o p q r
  cases q <;> cases r <;> cases i <;> rfl
@[simp] theorem Dev.commit_si_ww (w : Writes) (old new : Dev) :
    (Dev.commit w old new).si.ww = (pick w.si old.si new.si).ww := by
  obtain ⟨⟩ := w; rename_i a b c d e f g h i j k l m n o p q r
  cases q <;> cases r <;> cases i <;> rfl
@[simp] theorem Dev.commit_si_cnt (w : Writes) (old new : Dev) :
    (Dev.commit w old new).si.cnt = (pick w.si old.si new.si).cnt := by
  obtain ⟨⟩ := w; rename_i a b c d e f g h i j k l m n o p q r
  cases q <;> cases r <;> cases i <;> rfl
@[simp] theorem Dev.commit_si_wins (w : Writes) (old new : Dev) :
    (Dev.commit w old new).si.wins = (pick w.si old.si new.si).wins := by
  obtain ⟨⟩ := w; rename_i a b c d e f g h i j k l m n o p q r
  cases q <;> cases r <;> cases i <;> rfl
@[simp] theorem Dev.commit_si_gpts (w : Writes) (old new : Dev) :
    (Dev.commit w old new).si.gpts = (pick w.si old.si new.si).gpts := by
  obtain ⟨⟩ := w; rename_i a b c d e f g h i j k l m n o p q r
  cases q <;> cases r <;> cases i <;> rfl
@[simp] theorem Dev.commit_si_gcrc (w : Writes) (old new : Dev) :
    (Dev.commit w old new).si.gcrc = (pick w.si old.si new.si).gcrc := by
  obtain ⟨⟩ := w; rename_i a b c d e f g h i j k l m n o p q r
  cases q <;> cases r <;> cases i <;> rfl
@[simp] theorem Dev.commit_si_gprev (w : Writes) (old new : Dev) :
    (Dev.commit w old new).si.gprev = (pick w.si old.si new.si).gprev := by
  obtain ⟨⟩ := w; rename_i a b c d e f g h i j k l m n o p q r
  cases q <;> cases r <;> cases i <;> rfl
@[simp] theorem Dev.commit_si_verdictAt (w : Writes) (old new : Dev) :
    (Dev.commit w old new).si.verdictAt = (pick w.si old.si new.si).verdictAt := by
  obtain ⟨⟩ := w; rename_i a b c d e f g h i j k l m n o p q r
  cases q <;> cases r <;> cases i <;> rfl
@[simp] theorem Dev.commit_si_thOk (w : Writes) (old new : Dev) :
    (Dev.commit w old new).si.thOk = (pick w.si old.si new.si).thOk := by
  obtain ⟨⟩ := w; rename_i a b c d e f g h i j k l m n o p q r
  cases q <;> cases r <;> cases i <;> rfl
@[simp] theorem Dev.commit_si_muted (w : Writes) (old new : Dev) :
    (Dev.commit w old new).si.muted = (pick w.si old.si new.si).muted := by
  obtain ⟨⟩ := w; rename_i a b c d e f g h i j k l m n o p q r
  cases q <;> cases r <;> cases i <;> rfl
@[simp] theorem Dev.commit_si_latchReq (w : Writes) (old new : Dev) :
    (Dev.commit w old new).si.latchReq = (pick w.si old.si new.si).latchReq := by
  obtain ⟨⟩ := w; rename_i a b c d e f g h i j k l m n o p q r
  cases q <;> cases r <;> cases i <;> rfl
@[simp] theorem Dev.commit_si_permReq (w : Writes) (old new : Dev) :
    (Dev.commit w old new).si.permReq = (pick w.si old.si new.si).permReq := by
  obtain ⟨⟩ := w; rename_i a b c d e f g h i j k l m n o p q r
  cases q <;> cases r <;> cases i <;> rfl
@[simp] theorem Dev.commit_si_firstFailed (w : Writes) (old new : Dev) :
    (Dev.commit w old new).si.firstFailed = (pick w.si old.si new.si).firstFailed := by
  obtain ⟨⟩ := w; rename_i a b c d e f g h i j k l m n o p q r
  cases q <;> cases r <;> cases i <;> rfl
@[simp] theorem Dev.commit_si_sel (w : Writes) (old new : Dev) :
    (Dev.commit w old new).si.sel = (pick w.si old.si new.si).sel := by
  obtain ⟨⟩ := w; rename_i a b c d e f g h i j k l m n o p q r
  cases q <;> cases r <;> cases i <;> rfl
@[simp] theorem Dev.commit_si_tested (w : Writes) (old new : Dev) :
    (Dev.commit w old new).si.tested = (pick w.si old.si new.si).tested := by
  obtain ⟨⟩ := w; rename_i a b c d e f g h i j k l m n o p q r
  cases q <;> cases r <;> cases i <;> rfl
@[simp] theorem Dev.commit_si_running (w : Writes) (old new : Dev) :
    (Dev.commit w old new).si.running = pick w.ok old.si.running (pick w.si old.si new.si).running := by
  obtain ⟨⟩ := w; rename_i a b c d e f g h i j k l m n o p q r
  cases q <;> cases r <;> cases i <;> rfl
@[simp] theorem Dev.commit_si_pin (w : Writes) (old new : Dev) :
    (Dev.commit w old new).si.pin = pick w.ok old.si.pin (pick w.si old.si new.si).pin := by
  obtain ⟨⟩ := w; rename_i a b c d e f g h i j k l m n o p q r
  cases q <;> cases r <;> cases i <;> rfl
@[simp] theorem Dev.commit_si_maint (w : Writes) (old new : Dev) :
    (Dev.commit w old new).si.maint = pick w.ok old.si.maint (pick w.si old.si new.si).maint := by
  obtain ⟨⟩ := w; rename_i a b c d e f g h i j k l m n o p q r
  cases q <;> cases r <;> cases i <;> rfl
@[simp] theorem Dev.commit_si_pllLost (w : Writes) (old new : Dev) :
    (Dev.commit w old new).si.pllLost = pick w.ok old.si.pllLost (pick w.si old.si new.si).pllLost := by
  obtain ⟨⟩ := w; rename_i a b c d e f g h i j k l m n o p q r
  cases q <;> cases r <;> cases i <;> rfl
@[simp] theorem Dev.commit_hi_linkUp (w : Writes) (old new : Dev) :
    (Dev.commit w old new).hi.linkUp = (pick w.hi old.hi new.hi).linkUp := by
  obtain ⟨⟩ := w; rename_i a b c d e f g h i j k l m n o p q r
  cases q <;> cases r <;> cases l <;> rfl
@[simp] theorem Dev.commit_hi_pci (w : Writes) (old new : Dev) :
    (Dev.commit w old new).hi.pci = (pick w.hi old.hi new.hi).pci := by
  obtain ⟨⟩ := w; rename_i a b c d e f g h i j k l m n o p q r
  cases q <;> cases r <;> cases l <;> rfl
@[simp] theorem Dev.commit_hi_width (w : Writes) (old new : Dev) :
    (Dev.commit w old new).hi.width = (pick w.hi old.hi new.hi).width := by
  obtain ⟨⟩ := w; rename_i a b c d e f g h i j k l m n o p q r
  cases q <;> cases r <;> cases l <;> rfl
@[simp] theorem Dev.commit_hi_rate (w : Writes) (old new : Dev) :
    (Dev.commit w old new).hi.rate = (pick w.hi old.hi new.hi).rate := by
  obtain ⟨⟩ := w; rename_i a b c d e f g h i j k l m n o p q r
  cases q <;> cases r <;> cases l <;> rfl
@[simp] theorem Dev.commit_hi_maint (w : Writes) (old new : Dev) :
    (Dev.commit w old new).hi.maint = pick w.mode old.hi.maint (pick w.hi old.hi new.hi).maint := by
  obtain ⟨⟩ := w; rename_i a b c d e f g h i j k l m n o p q r
  cases q <;> cases r <;> cases l <;> rfl
@[simp] theorem Dev.commit_hi_maintReq (w : Writes) (old new : Dev) :
    (Dev.commit w old new).hi.maintReq = (pick w.hi old.hi new.hi).maintReq := by
  obtain ⟨⟩ := w; rename_i a b c d e f g h i j k l m n o p q r
  cases q <;> cases r <;> cases l <;> rfl
@[simp] theorem Dev.commit_hi_rings (w : Writes) (old new : Dev) :
    (Dev.commit w old new).hi.rings = (pick w.hi old.hi new.hi).rings := by
  obtain ⟨⟩ := w; rename_i a b c d e f g h i j k l m n o p q r
  cases q <;> cases r <;> cases l <;> rfl
@[simp] theorem Dev.commit_hi_outq (w : Writes) (old new : Dev) :
    (Dev.commit w old new).hi.outq = (pick w.hi old.hi new.hi).outq := by
  obtain ⟨⟩ := w; rename_i a b c d e f g h i j k l m n o p q r
  cases q <;> cases r <;> cases l <;> rfl
@[simp] theorem Dev.commit_hi_fetchq (w : Writes) (old new : Dev) :
    (Dev.commit w old new).hi.fetchq = (pick w.hi old.hi new.hi).fetchq := by
  obtain ⟨⟩ := w; rename_i a b c d e f g h i j k l m n o p q r
  cases q <;> cases r <;> cases l <;> rfl
@[simp] theorem Dev.commit_hi_decided (w : Writes) (old new : Dev) :
    (Dev.commit w old new).hi.decided = (pick w.hi old.hi new.hi).decided := by
  obtain ⟨⟩ := w; rename_i a b c d e f g h i j k l m n o p q r
  cases q <;> cases r <;> cases l <;> rfl
@[simp] theorem Dev.commit_hi_mbx (w : Writes) (old new : Dev) :
    (Dev.commit w old new).hi.mbx = (pick w.hi old.hi new.hi).mbx := by
  obtain ⟨⟩ := w; rename_i a b c d e f g h i j k l m n o p q r
  cases q <;> cases r <;> cases l <;> rfl
@[simp] theorem Dev.commit_hi_msix (w : Writes) (old new : Dev) :
    (Dev.commit w old new).hi.msix = (pick w.hi old.hi new.hi).msix := by
  obtain ⟨⟩ := w; rename_i a b c d e f g h i j k l m n o p q r
  cases q <;> cases r <;> cases l <;> rfl
@[simp] theorem Dev.commit_hi_pba (w : Writes) (old new : Dev) :
    (Dev.commit w old new).hi.pba = new.hi.pba := by
  obtain ⟨⟩ := w; rename_i a b c d e f g h i j k l m n o p q r
  cases q <;> cases r <;> cases l <;> rfl
@[simp] theorem Dev.commit_hi_cause (w : Writes) (old new : Dev) :
    (Dev.commit w old new).hi.cause = new.hi.cause := by
  obtain ⟨⟩ := w; rename_i a b c d e f g h i j k l m n o p q r
  cases q <;> cases r <;> cases l <;> rfl
@[simp] theorem Dev.commit_hi_mem (w : Writes) (old new : Dev) :
    (Dev.commit w old new).hi.mem = (pick w.hi old.hi new.hi).mem := by
  obtain ⟨⟩ := w; rename_i a b c d e f g h i j k l m n o p q r
  cases q <;> cases r <;> cases l <;> rfl
@[simp] theorem Dev.commit_hi_leave (w : Writes) (old new : Dev) :
    (Dev.commit w old new).hi.leave = (pick w.hi old.hi new.hi).leave := by
  obtain ⟨⟩ := w; rename_i a b c d e f g h i j k l m n o p q r
  cases q <;> cases r <;> cases l <;> rfl
@[simp] theorem Dev.commit_hi_due13 (w : Writes) (old new : Dev) :
    (Dev.commit w old new).hi.due13 = (pick w.hi old.hi new.hi).due13 := by
  obtain ⟨⟩ := w; rename_i a b c d e f g h i j k l m n o p q r
  cases q <;> cases r <;> cases l <;> rfl
@[simp] theorem Dev.commit_hi_siAt (w : Writes) (old new : Dev) :
    (Dev.commit w old new).hi.siAt = (pick w.hi old.hi new.hi).siAt := by
  obtain ⟨⟩ := w; rename_i a b c d e f g h i j k l m n o p q r
  cases q <;> cases r <;> cases l <;> rfl
@[simp] theorem Dev.commit_pm_rails (w : Writes) (old new : Dev) :
    (Dev.commit w old new).pm.rails = (pick w.pm old.pm new.pm).rails := by
  obtain ⟨⟩ := w; rename_i a b c d e f g h i j k l m n o p q r
  cases q <;> cases r <;> cases o <;> rfl
@[simp] theorem Dev.commit_pm_rootLock (w : Writes) (old new : Dev) :
    (Dev.commit w old new).pm.rootLock = (pick w.pm old.pm new.pm).rootLock := by
  obtain ⟨⟩ := w; rename_i a b c d e f g h i j k l m n o p q r
  cases q <;> cases r <;> cases o <;> rfl
@[simp] theorem Dev.commit_pm_refclk (w : Writes) (old new : Dev) :
    (Dev.commit w old new).pm.refclk = (pick w.pm old.pm new.pm).refclk := by
  obtain ⟨⟩ := w; rename_i a b c d e f g h i j k l m n o p q r
  cases q <;> cases r <;> cases o <;> rfl
@[simp] theorem Dev.commit_pm_held (w : Writes) (old new : Dev) :
    (Dev.commit w old new).pm.held = pick w.mode old.pm.held (pick w.pm old.pm new.pm).held := by
  obtain ⟨⟩ := w; rename_i a b c d e f g h i j k l m n o p q r
  cases q <;> cases r <;> cases o <;> rfl
@[simp] theorem Dev.commit_pm_cause (w : Writes) (old new : Dev) :
    (Dev.commit w old new).pm.cause = (pick w.pm old.pm new.pm).cause := by
  obtain ⟨⟩ := w; rename_i a b c d e f g h i j k l m n o p q r
  cases q <;> cases r <;> cases o <;> rfl
@[simp] theorem Dev.commit_pm_chipSel (w : Writes) (old new : Dev) :
    (Dev.commit w old new).pm.chipSel = (pick w.pm old.pm new.pm).chipSel := by
  obtain ⟨⟩ := w; rename_i a b c d e f g h i j k l m n o p q r
  cases q <;> cases r <;> cases o <;> rfl
@[simp] theorem Dev.commit_pm_chipCntM1 (w : Writes) (old new : Dev) :
    (Dev.commit w old new).pm.chipCntM1 = (pick w.pm old.pm new.pm).chipCntM1 := by
  obtain ⟨⟩ := w; rename_i a b c d e f g h i j k l m n o p q r
  cases q <;> cases r <;> cases o <;> rfl
@[simp] theorem Dev.commit_pm_maintN (w : Writes) (old new : Dev) :
    (Dev.commit w old new).pm.maintN = (pick w.pm old.pm new.pm).maintN := by
  obtain ⟨⟩ := w; rename_i a b c d e f g h i j k l m n o p q r
  cases q <;> cases r <;> cases o <;> rfl
@[simp] theorem Dev.commit_pm_hot (w : Writes) (old new : Dev) :
    (Dev.commit w old new).pm.hot = (pick w.pm old.pm new.pm).hot := by
  obtain ⟨⟩ := w; rename_i a b c d e f g h i j k l m n o p q r
  cases q <;> cases r <;> cases o <;> rfl
@[simp] theorem Dev.commit_pm_level (w : Writes) (old new : Dev) :
    (Dev.commit w old new).pm.level = (pick w.pm old.pm new.pm).level := by
  obtain ⟨⟩ := w; rename_i a b c d e f g h i j k l m n o p q r
  cases q <;> cases r <;> cases o <;> rfl
@[simp] theorem Dev.commit_pm_atShut (w : Writes) (old new : Dev) :
    (Dev.commit w old new).pm.atShut = (pick w.pm old.pm new.pm).atShut := by
  obtain ⟨⟩ := w; rename_i a b c d e f g h i j k l m n o p q r
  cases q <;> cases r <;> cases o <;> rfl
@[simp] theorem Dev.commit_bt_state (w : Writes) (old new : Dev) :
    (Dev.commit w old new).bt.state = (pick w.bt old.bt new.bt).state := by
  obtain ⟨⟩ := w; rename_i a b c d e f g h i j k l m n o p q r
  cases q <;> cases r <;> cases n <;> rfl
@[simp] theorem Dev.commit_bt_locked (w : Writes) (old new : Dev) :
    (Dev.commit w old new).bt.locked = pick w.mode old.bt.locked (pick w.bt old.bt new.bt).locked := by
  obtain ⟨⟩ := w; rename_i a b c d e f g h i j k l m n o p q r
  cases q <;> cases r <;> cases n <;> rfl
@[simp] theorem Dev.commit_bt_idFail (w : Writes) (old new : Dev) :
    (Dev.commit w old new).bt.idFail = (pick w.bt old.bt new.bt).idFail := by
  obtain ⟨⟩ := w; rename_i a b c d e f g h i j k l m n o p q r
  cases q <;> cases r <;> cases n <;> rfl
@[simp] theorem Dev.commit_bt_begun (w : Writes) (old new : Dev) :
    (Dev.commit w old new).bt.begun = (pick w.bt old.bt new.bt).begun := by
  obtain ⟨⟩ := w; rename_i a b c d e f g h i j k l m n o p q r
  cases q <;> cases r <;> cases n <;> rfl
@[simp] theorem Dev.commit_bt_reason (w : Writes) (old new : Dev) :
    (Dev.commit w old new).bt.reason = (pick w.bt old.bt new.bt).reason := by
  obtain ⟨⟩ := w; rename_i a b c d e f g h i j k l m n o p q r
  cases q <;> cases r <;> cases n <;> rfl
@[simp] theorem Dev.commit_bt_entry (w : Writes) (old new : Dev) :
    (Dev.commit w old new).bt.entry = (pick w.bt old.bt new.bt).entry := by
  obtain ⟨⟩ := w; rename_i a b c d e f g h i j k l m n o p q r
  cases q <;> cases r <;> cases n <;> rfl
@[simp] theorem Dev.commit_bt_placed (w : Writes) (old new : Dev) :
    (Dev.commit w old new).bt.placed = pick w.mode old.bt.placed (pick w.bt old.bt new.bt).placed := by
  obtain ⟨⟩ := w; rename_i a b c d e f g h i j k l m n o p q r
  cases q <;> cases r <;> cases n <;> rfl
@[simp] theorem Dev.commit_bt_header (w : Writes) (old new : Dev) :
    (Dev.commit w old new).bt.header = (pick w.bt old.bt new.bt).header := by
  obtain ⟨⟩ := w; rename_i a b c d e f g h i j k l m n o p q r
  cases q <;> cases r <;> cases n <;> rfl
@[simp] theorem Dev.commit_bt_meas (w : Writes) (old new : Dev) :
    (Dev.commit w old new).bt.meas = (pick w.bt old.bt new.bt).meas := by
  obtain ⟨⟩ := w; rename_i a b c d e f g h i j k l m n o p q r
  cases q <;> cases r <;> cases n <;> rfl
@[simp] theorem Dev.commit_bt_signer (w : Writes) (old new : Dev) :
    (Dev.commit w old new).bt.signer = (pick w.bt old.bt new.bt).signer := by
  obtain ⟨⟩ := w; rename_i a b c d e f g h i j k l m n o p q r
  cases q <;> cases r <;> cases n <;> rfl
@[simp] theorem Dev.commit_bt_idPk (w : Writes) (old new : Dev) :
    (Dev.commit w old new).bt.idPk = (pick w.bt old.bt new.bt).idPk := by
  obtain ⟨⟩ := w; rename_i a b c d e f g h i j k l m n o p q r
  cases q <;> cases r <;> cases n <;> rfl
@[simp] theorem Dev.commit_bt_gold (w : Writes) (old new : Dev) :
    (Dev.commit w old new).bt.gold = (pick w.bt old.bt new.bt).gold := by
  obtain ⟨⟩ := w; rename_i a b c d e f g h i j k l m n o p q r
  cases q <;> cases r <;> cases n <;> rfl
@[simp] theorem Dev.commit_bt_goldLen (w : Writes) (old new : Dev) :
    (Dev.commit w old new).bt.goldLen = (pick w.bt old.bt new.bt).goldLen := by
  obtain ⟨⟩ := w; rename_i a b c d e f g h i j k l m n o p q r
  cases q <;> cases r <;> cases n <;> rfl
@[simp] theorem Dev.commit_bt_segs (w : Writes) (old new : Dev) :
    (Dev.commit w old new).bt.segs = (pick w.bt old.bt new.bt).segs := by
  obtain ⟨⟩ := w; rename_i a b c d e f g h i j k l m n o p q r
  cases q <;> cases r <;> cases n <;> rfl
@[simp] theorem Dev.commit_bt_fuse (w : Writes) (old new : Dev) :
    (Dev.commit w old new).bt.fuse = (pick w.bt old.bt new.bt).fuse := by
  obtain ⟨⟩ := w; rename_i a b c d e f g h i j k l m n o p q r
  cases q <;> cases r <;> cases n <;> rfl
@[simp] theorem Dev.commit_bt_svA (w : Writes) (old new : Dev) :
    (Dev.commit w old new).bt.svA = (pick w.bt old.bt new.bt).svA := by
  obtain ⟨⟩ := w; rename_i a b c d e f g h i j k l m n o p q r
  cases q <;> cases r <;> cases n <;> rfl
@[simp] theorem Dev.commit_bt_svB (w : Writes) (old new : Dev) :
    (Dev.commit w old new).bt.svB = (pick w.bt old.bt new.bt).svB := by
  obtain ⟨⟩ := w; rename_i a b c d e f g h i j k l m n o p q r
  cases q <;> cases r <;> cases n <;> rfl
@[simp] theorem Dev.commit_bt_flash (w : Writes) (old new : Dev) :
    (Dev.commit w old new).bt.flash = (pick w.bt old.bt new.bt).flash := by
  obtain ⟨⟩ := w; rename_i a b c d e f g h i j k l m n o p q r
  cases q <;> cases r <;> cases n <;> rfl
@[simp] theorem Dev.commit_bt_flashCap (w : Writes) (old new : Dev) :
    (Dev.commit w old new).bt.flashCap = (pick w.bt old.bt new.bt).flashCap := by
  obtain ⟨⟩ := w; rename_i a b c d e f g h i j k l m n o p q r
  cases q <;> cases r <;> cases n <;> rfl
@[simp] theorem Dev.commit_bt_flashBoth (w : Writes) (old new : Dev) :
    (Dev.commit w old new).bt.flashBoth = (pick w.bt old.bt new.bt).flashBoth := by
  obtain ⟨⟩ := w; rename_i a b c d e f g h i j k l m n o p q r
  cases q <;> cases r <;> cases n <;> rfl
@[simp] theorem Dev.commit_bt_flashDev (w : Writes) (old new : Dev) :
    (Dev.commit w old new).bt.flashDev = (pick w.bt old.bt new.bt).flashDev := by
  obtain ⟨⟩ := w; rename_i a b c d e f g h i j k l m n o p q r
  cases q <;> cases r <;> cases n <;> rfl

@[simp] theorem State.run_next (s : State) (w : Writes) (f : Dev → Dev) :
    s.run w f = .next { s with dev := s.dev.commit w (f s.dev) } := rfl

/-- A commit of no change is no change. -/
@[simp] theorem Dev.commit_self (w : Writes) (d : Dev) : d.commit w d = d := by
  obtain ⟨⟩ := w
  unfold Dev.commit Dev.blocks
  dsimp only
  split <;> split <;> simp [Dev.sameMode, Dev.sameOk, pick, TimeSt.side, IslandSt.side, FltSt.side, HostSt.side, StoreSt.side]

end Sys2Proof.Machine
end

