-- ==== Sys2Proof/Laws/Core.lean ====
section
/-! SUPPORT. Core instructions: what carrying one out comes to where its core executes it, and where it does not. -/

namespace Sys2Proof.Machine

/-- A corrected fault joins the open entries of the log; nothing else of the fault controller changes (R361). -/
theorem Dev.report_corrected_flt (d : Dev) (r : FltRep) (h : fltClass r.src = 1) :
    ∃ l, (d.report r).flt = { d.flt with coal := l } := by
  unfold Dev.report
  rw [h]
  exact ⟨_, by simp only [Dev.mon_flt, Dev.bump_flt]; rfl⟩

/-- A corrected fault writes no register. -/
theorem Dev.levels_report_corrected (d : Dev) (r : FltRep) (h : fltClass r.src = 1) : (d.report r).levels = d.levels := by
  unfold Dev.report
  rw [h]
  simp only [Dev.levels, Dev.rf, Dev.rd, Dev.mon_reg, Dev.bump_reg_regs]

/-- Corrections counted in the fetch of a bundle do not change whether a core's crew runs. -/
theorem Dev.runs_report_corr (d : Dev) (u c cyc : Nat) : (d.report { src := 0x05, unit := u }).runs c cyc = d.runs c cyc := by
  obtain ⟨l, hl⟩ := d.report_corrected_flt { src := 0x05, unit := u } rfl
  simp [Dev.runs, Dev.crewsRun, Dev.accel, Dev.live, hl, FltSt.restarting]

/-- What counting one corrected word leaves as it is, counting them all does. -/
theorem Dev.pstoreCorr_proj {γ : Type} (g : Dev → γ) (h : ∀ (d : Dev) (u : Nat), g (d.report { src := 0x05, unit := u }) = g d)
    (hb : ∀ (d : Dev) (a n : Nat), g (d.bump a n) = g d) (d : Dev) (c cyc n : Nat) : g (d.pstoreCorr c cyc n) = g d := by
  unfold Dev.pstoreCorr
  split
  · rw [← hb d (CO_CTR_PSTORE_CORR c) n]
    generalize d.bump (CO_CTR_PSTORE_CORR c) n = e
    induction n generalizing e with
    | zero => rfl
    | succ n ih => rw [loopN, h, ih]
  · rfl

theorem Dev.runs_pstoreCorr (d : Dev) (c cyc n k m : Nat) : (d.pstoreCorr c cyc n).runs k m = d.runs k m :=
  Dev.pstoreCorr_proj (fun d => d.runs k m) (fun d u => d.runs_report_corr u k m) (fun _ _ _ => rfl) d c cyc n

@[simp] theorem Dev.pstoreCorr_cw (d : Dev) (c cyc n : Nat) : (d.pstoreCorr c cyc n).cw = d.cw :=
  Dev.pstoreCorr_proj Dev.cw (fun d _ => d.report_cw _) (fun _ _ _ => rfl) d c cyc n

@[simp] theorem Dev.pstoreCorr_bt (d : Dev) (c cyc n : Nat) : (d.pstoreCorr c cyc n).bt = d.bt :=
  Dev.pstoreCorr_proj Dev.bt (fun d _ => d.report_bt _) (fun _ _ _ => rfl) d c cyc n

@[simp] theorem Dev.pstoreCorr_mem (d : Dev) (c cyc n : Nat) : (d.pstoreCorr c cyc n).mem = d.mem :=
  Dev.pstoreCorr_proj Dev.mem (fun d _ => d.report_mem _) (fun _ _ _ => rfl) d c cyc n

@[simp] theorem Dev.pstoreCorr_levels (d : Dev) (c cyc n : Nat) : (d.pstoreCorr c cyc n).levels = d.levels :=
  Dev.pstoreCorr_proj Dev.levels (fun d u => d.levels_report_corrected { src := 0x05, unit := u } rfl) (fun _ _ _ => rfl) d c cyc n

/-- The core operation of an instruction that is fetched whole, its place in its span, and its bundle. -/
theorem Dev.fetchedWhole_cases {i : Instr} {o : CoreOp} {d : Dev} (ho : i.coreOp = some o) (h : d.fetchedWhole i = true) :
    o.r ≤ o.gate.spanM1.toNat ∧ o.loc.unc = false ∧ ∃ b, d.fetched i o = some b ∧ d.badBefore (o.loc.core.val / 8) o.loc.cyc = none ∧
      d.bundleFits (o.loc.core.val / 8) (bundlesOf (d.prog (o.loc.core.val / 8))) b = true := by
  unfold Dev.fetchedWhole at h
  rw [ho] at h
  simp only [Bool.and_eq_true, decide_eq_true_eq, Bool.not_eq_true'] at h
  obtain ⟨⟨h1, h2⟩, h3⟩ := h
  split at h3
  · simp only [Dev.legalAt, Bool.and_eq_true, Option.isNone_iff_eq_none] at h3
    exact ⟨h1, h2, _, ‹_›, h3.1, h3.2⟩
  · cases h3

/-- The effect of an instruction fetched whole is that of its operation, its corrections counted. -/
theorem Dev.coreStep_fetched {i : Instr} {o : CoreOp} {d : Dev} (ho : i.coreOp = some o) (h : d.fetchedWhole i = true)
    (f : Dev → Dev) : d.coreStep i f = f (d.pstoreCorr o.loc.core.val o.loc.cyc o.loc.corr) := by
  obtain ⟨h1, h2, b, h3, h4, h5⟩ := Dev.fetchedWhole_cases ho h
  simp only [Dev.coreStep, ho, h2, h3, h4, h5, if_true]
  rw [if_neg (by omega)]
  rfl

/-- An executed instruction is fetched whole, and its crew runs. -/
theorem Dev.executes_cases {i : Instr} {o : CoreOp} {d : Dev} (ho : i.coreOp = some o) (h : d.executes i = true) :
    d.fetchedWhole i = true ∧ d.runs o.loc.core.val o.loc.cyc = true := by
  unfold Dev.executes at h
  rw [ho] at h
  simpa only [Bool.and_eq_true] using h

/-- An executed instruction takes effect on its core brought to its cycle. -/
theorem Dev.coreStep_bundleOp {i : Instr} {o : CoreOp} {d : Dev} (ho : i.coreOp = some o) (h : d.executes i = true)
    (body : Nat → Dev → Dev) :
    d.coreStep i (fun d => d.bundleOp o.loc.core.val o.loc.cyc body) =
      let e := d.pstoreCorr o.loc.core.val o.loc.cyc o.loc.corr
      body (e.absCyc o.loc.core.val o.loc.cyc)
        ((e.sync o.loc.core.val (e.absCyc o.loc.core.val o.loc.cyc)).issued o.loc.core.val o.loc.cyc) := by
  obtain ⟨h1, h2⟩ := Dev.executes_cases ho h
  rw [Dev.coreStep_fetched ho h1, Dev.bundleOp, if_pos (by rw [Dev.runs_pstoreCorr]; exact h2)]

/-- An operation of a core whose crew does not run has no effect. -/
theorem Dev.bundleOp_held {d : Dev} {c cyc : Nat} (h : d.runs c cyc = false) (body : Nat → Dev → Dev) :
    d.bundleOp c cyc body = d := by
  simp [Dev.bundleOp, h]

theorem Dev.runs_crewsRun {d : Dev} {c cyc : Nat} (h : d.crewsRun = false) : d.runs c cyc = false := by
  simp [Dev.runs, h]

@[simp] theorem Dev.coStat_cw (d : Dev) (c : Nat) (st : FStat) : (d.coStat c st).cw = d.cw := rfl
@[simp] theorem Dev.coStat_mem (d : Dev) (c : Nat) (st : FStat) : (d.coStat c st).mem = d.mem := rfl
@[simp] theorem Dev.maStat_cw (d : Dev) (c : Nat) (st : FStat) : (d.maStat c st).cw = d.cw := rfl
@[simp] theorem Dev.maStat_mem (d : Dev) (c : Nat) (st : FStat) : (d.maStat c st).mem = d.mem := rfl
@[simp] theorem Dev.vput_mem (d : Dev) (c due vd : Nat) (l : List Nat) : (d.vput c due vd l).mem = d.mem := rfl
@[simp] theorem Dev.vput_cores (d : Dev) (c due vd : Nat) (l : List Nat) : (d.vput c due vd l).cw.cores = d.cw.cores := rfl
@[simp] theorem Dev.core_commit (w : Writes) (old new : Dev) (c : Nat) (h : w.cw = true) :
    (Dev.commit w old new).core c = new.core c := by simp [Dev.core, h]
@[simp] theorem Dev.vol_commit (w : Writes) (old new : Dev) (c : Nat) (h : w.cw = true) :
    (Dev.commit w old new).vol c = new.vol c := by simp [Dev.vol, h]
@[simp] theorem Dev.crew_commit (w : Writes) (old new : Dev) (c : Nat) (h : w.cw = true) :
    (Dev.commit w old new).crew c = new.crew c := by simp [Dev.crew, h]
@[simp] theorem Dev.rd_commit (w : Writes) (old new : Dev) (a : Nat) : (Dev.commit w old new).rd a = new.rd a := by
  simp [Dev.rd]
@[simp] theorem Dev.ctr_commit (w : Writes) (old new : Dev) (a : Nat) : (Dev.commit w old new).ctr a = new.ctr a := by
  simp [Dev.ctr]
@[simp] theorem Dev.vol_vput_same (d : Dev) (c due vd : Nat) (l : List Nat) :
    (d.vput c due vd l).vol c = { d.vol c with vres := (d.vol c).vres ++ [{ due := due, vd := vd, lanes := l }] } := by
  simp [Dev.vput]
theorem Dev.vol_vput_ne (d : Dev) {c e : Nat} (due vd : Nat) (l : List Nat) (h : e ≠ c) :
    (d.vput c due vd l).vol e = d.vol e := Dev.vol_setVol_ne _ _ h
@[simp] theorem Dev.vol_coStat (d : Dev) (c : Nat) (st : FStat) (e : Nat) : (d.coStat c st).vol e = d.vol e := rfl
@[simp] theorem Dev.core_coStat (d : Dev) (c : Nat) (st : FStat) (e : Nat) : (d.coStat c st).core e = d.core e := rfl

end Sys2Proof.Machine
end

