-- ==== Sys2Proof/Machine/Pins.lean ====
section
/-! DEFINITION. The states of the pins (19_power_clocks_reset R461): what each group of pins shows in a state of the device.
No command reads a pin's state. (DEDUCED, log entry 135.) -/

namespace Sys2Proof.Machine

/-- What a pin, or a pair of pins, shows. -/
inductive PinState where
  | highZ
  /-- Driven to a level; a pair to two. -/
  | level (high : Bool)
  | pair (p n : Bool)
  /-- Held by a resistor, as an output or an input. -/
  | pullUp
  | pullDown
  /-- An input without a pull. -/
  | input
  /-- A transmitter in electrical idle, in receiver detection, or sending; a bus in use. -/
  | idle
  | detect
  | active
  /-- As the specification that governs the pin requires under its own reset. -/
  | bySpec
  /-- An input with its pull whose use TAP_LOCK limits (R446). -/
  | limited
  deriving DecidableEq, Repr

/-- The groups of pins of R461. -/
inductive PinGroup where
  | safeOk
  | trig (n : Fin 24)
  | cap (n : Fin 24)
  | storeSelect
  | storeBus
  | flashSelect
  | flashBus
  | macTx
  | csiRx
  | pcie
  | regattaTx (k : Fin 3)
  | resetInputs
  | chipStraps
  | maintStrap
  | tapInputs
  | tapOut
  | tapReset
  deriving DecidableEq, Repr

/-- Whether a rail is off: below its window while the device is held in reset. -/
def Dev.railOff (d : Dev) (rail : Nat) : Bool := d.pm.held && !d.pm.rails.getLsbD rail

/-- The rail that supplies a group: VDDIO, or the serdes' analogue rail (R452). -/
def PinGroup.rail : PinGroup → Nat
  | .macTx | .csiRx | .pcie | .regattaTx _ => 4
  | _ => 3

/-- TAP_LOCK, from the lock on (R446, R461). -/
def Dev.tapLimited (d : Dev) : Bool := d.bt.locked && decide (fld (d.rdLive BT_PROT_CFG) 5 1 = 1)

/-- A group's state while it is powered: in reset, and from the release until what enables it. The store's selects are
driven high from the power-up wait of R428, which starts with the boot code (R442). -/
def Dev.pinOn (d : Dev) : PinGroup → PinState
  | .safeOk => if d.pm.held = false ∧ d.si.running ∧ d.si.fatal = false ∧ d.flt.fatal = false ∧ d.pm.rails.getLsbD 2 then
      .pair d.si.pin (!d.si.pin) else .pair false false
  | .trig n =>
    let t := smGet (fun _ => ({} : Trig)) d.tm.trig n.val
    if d.pm.held ∨ t.driven = false then .pullDown else .level t.high
  | .cap _ => .pullDown
  | .storeSelect => if d.pm.held ∨ d.pm.rootLock = false then .pullUp else .level true
  | .storeBus => if d.pm.held ∨ (d.xs.ready || d.xs.geomErr) = false then .pullDown else .active
  | .flashSelect => if d.pm.held ∨ d.bt.flashDev = 0 then .pullUp else .level true
  | .flashBus => if d.pm.held ∨ d.bt.flashDev = 0 then .pullDown else .active
  | .macTx => if d.pm.held ∨ d.bt.placed = false then .idle else .active
  | .csiRx => if d.pm.held ∨ d.bt.placed = false then .highZ else .active
  | .pcie => if d.pm.held ∨ d.hi.linkUp = false then .bySpec else .active
  | .regattaTx k =>
    let l := d.link k.val
    if d.pm.held ∨ l.state = 0 then .idle else if l.state = 1 then .detect else .active
  | .resetInputs => .input
  | .chipStraps => .pullDown
  | .maintStrap => .pullUp
  | .tapInputs => if d.tapLimited then .limited else .pullUp
  | .tapOut => .highZ
  | .tapReset => .pullDown

/-- What a group of pins shows (R461). -/
def Dev.pin (d : Dev) (g : PinGroup) : PinState := if d.railOff g.rail then .highZ else d.pinOn g

end Sys2Proof.Machine
end

