-- ==== Sys2Proof/Tests/Slice0.lean ====
section
/-! SUPPORT. The model's own tests: commands that WellFormed refuses, bundles written out from the manual's slot tables,
and for each statement of Obligations.lean a state and operands that meet its hypotheses, with one field of what the
command leaves there. Expected values come from the manual's rules, worked by hand. -/

open Sys2Proof Sys2Proof.Machine

namespace Sys2Proof.Tests

set_option Elab.async false

/-! ### Small states -/

/-- An operational device, all else as after reset. -/
def upD : Dev := { State.reset.dev with tm := { State.reset.dev.tm with op := true } }

/-- A state of a device, with no command waiting. -/
def st (d : Dev) : State := { State.reset with dev := d }

/-- A check of the device that a command leaves. -/
def after (i : Instr) (d : Dev) (f : Dev → Bool) : Bool :=
  match exec i (st d) with
  | .next t => f t.dev
  | _ => false

/-- Core 0 with registers, and with work in flight. -/
def coreD (k : CoreChk) (v : CoreVol := {}) : Dev := (upD.setCore 0 k).setVol 0 v

/-- Schedule cycle 5 of core 0. -/
def p0 : At := { core := 0, cyc := 5 }

/-- A whole vector register of one value. -/
def all256 (n : Nat) : List Nat := List.replicate 256 n

/-- Lane 0 of the newest vector result of core 0, and the cycle in which it is due. -/
def result0 (d : Dev) : Option (Nat × Nat × Nat) :=
  (d.vol 0).vres.getLast?.map (fun r => (r.due, r.vd, r.lanes.getD 0 7))

/-- The value that a command's next state holds under a register. -/
def rdIs (a v : Nat) (d : Dev) : Bool := decide (d.rd a = BitVec.ofNat 32 v)

/-! ### Ill-formed commands -/

theorem test_wf_span : Instr.wf (.vld p0 {} 1 {} {}) = false := by decide +kernel
theorem test_wf_cycle : Instr.wf (.lda { core := 0, cyc := 1164 } {} 1 0) = false := by decide +kernel
theorem test_wf_bundle : Instr.wf (.add p0 {} { ty := 3 }) = false := by decide +kernel
theorem test_wf_wait : Instr.wf (.get p0 {} 5 4 0 false 65) = false := by decide +kernel
theorem test_wf_frame : Instr.wf (.ethFrameRx 0 (List.replicate 13 0) true 0 0) = false := by decide +kernel
theorem test_wf_heads : Instr.wf (.strokeBoundary (some [(0, 0)]) {}) = false := by decide +kernel
theorem test_wf_scrub : Instr.wf (.planeScrub 0 0 false [64] []) = false := by decide +kernel
theorem test_wf_flit : Instr.wf (.flitRx 0 (List.replicate 255 0)) = false := by decide +kernel
theorem test_wf_read : Instr.wf (.reg64LowRead 0 0x28 3 0) = false := by decide +kernel
theorem test_wf_counter : Instr.wf (.counterClear 0) = false := by decide +kernel
theorem test_wf_value : Instr.wf (.complementValueWrite 0 0) = false := by decide +kernel
theorem test_wf_complement : Instr.wf (.complementCWrite 0 0) = false := by decide +kernel
theorem test_wf_sensors : Instr.wf (.thermalRead [400]) = false := by decide +kernel
theorem test_wf_good : Instr.wf (.get p0 {} 5 4 0 false 64) = true ∧ Instr.wf (.planeScrub 0 0 true [255] []) = true := by
  decide +kernel

/-! ### Bundles from the slot tables of R285 to R304 -/

theorem test_bundle_turn :
    decodeBundle p0 {} (2 ^ 5 * 1 + 2 ^ 9 * (2 + 2 ^ 5 * 1) + 2 ^ 30 * 1) = [.turn p0 { ctxFeed := 1 } 2 1] := by
  decide +kernel
theorem test_bundle_wave : decodeBundle p0 {} (2 ^ 32 * (1 + 2 ^ 2 * 5 + 2 ^ 8 * 127 + 2 ^ 16 + 2 ^ 18)) =
    [.wave p0 {} 0 false 5 0 127 false true false true false 0 0] := by decide +kernel
theorem test_bundle_job : decodeBundle p0 {} (2 ^ 64 * (2 + 2 ^ 4 * 1 + 2 ^ 6 * 2 + 2 ^ 8 * 3 + 2 ^ 12 * 4 + 2 ^ 16 * 9)) =
    [.job p0 {} 1 2 3 4 9] := by decide +kernel
theorem test_bundle_wb : decodeBundle p0 {} (2 ^ 96 * (1 + 2 ^ 4 * 15 + 2 ^ 10 * 3 + 2 ^ 18 * 2 + 2 ^ 22 * 7 + 2 ^ 28 * 6)) =
    [.wb p0 {} 0 15 0 3 false 2 7 false 6 false 0 { ecc := {} }] := by decide +kernel
theorem test_bundle_lda :
    decodeBundle p0 {} (2 ^ 128 * (1 + 2 ^ 4 * 3 + 2 ^ 8 * 0x1234)) =
    [.lda p0 {} 3 0x1234] := by decide +kernel
theorem test_bundle_feed_lin :
    decodeBundle p0 {} (2 ^ 128 * (8 + 2 ^ 7 * 4 + 2 ^ 12 + 2 ^ 13)) =
    [.feedLin p0 {} 0 4 true true {}] := by
  decide +kernel
theorem test_bundle_add : decodeBundle p0 {} (2 ^ 176 * (1 + 2 ^ 6 * 2 + 2 ^ 16 * 1 + 2 ^ 26 * 2)) =
    [.add p0 {} { vd := 2, va := 0, vb := 1, ty := 2 }] := by decide +kernel
theorem test_bundle_get : decodeBundle p0 {} (2 ^ 224 * (2 + 2 ^ 4 * 5 + 2 ^ 9 * 4)) =
    [.get p0 {} 5 4 0 false 0] := by decide +kernel
theorem test_bundle_desc : decodeBundle p0 {} (2 ^ 224 * (1 + 2 ^ 4 * 6 + 2 ^ 15 + 2 ^ 16 * 3)) =
    [.desc p0 {} 6 false 0 true 3 false 0] := by decide +kernel
theorem test_bundle_slots : decodeBundle p0 {} (2 ^ 32 * 1 + 2 ^ 64 * 1 + 2 ^ 128 * (1 + 2 ^ 4 * 2) + 2 ^ 224 * (2 + 2 ^ 4 * 5)) =
    [.wave p0 {} 0 false 0 0 0 false false false false false 0 0, .fill p0 {} 0 0 0 false false 0 [] 0, .lda p0 {} 2 0,
      .get p0 {} 5 0 0 false 0] := by decide +kernel
theorem test_bundle_illegal : decodeBundle p0 {} (2 ^ 224 * 6) = [] := by decide +kernel

/-- A device's answer to `Dev.writeOk`, as a truth value. -/
def writeOkB (d : Dev) (c : Nat) (word : Bool) (off n : Nat) : Bool :=
  decide (0 < n) && decide (off + n ≤ planeSize word) && d.poweredAll c word off n && (d.jrnlBlocks c word off n).isEmpty

/-! ### The queue, reset, the invariant -/

theorem witness_StepRunsFrontCommand :
    step { st upD with pending := [.recordDeliver, .frameRetire] } = exec .recordDeliver { st upD with pending := [.frameRetire] } := by
  rfl
theorem witness_InvariantKept : State.reset.inv = true ∧ step State.reset = .next State.reset := ⟨by decide +kernel, rfl⟩
theorem witness_CommandFrame : ∃ t, exec .frameRetire State.reset = .next t := ⟨_, rfl⟩
theorem witness_ModeFlagsChangeOnlyBy : ∃ t, exec .recordDeliver (st upD) = .next t ∧ t.dev.tm.op = true := ⟨_, rfl, rfl⟩

/-! ### Core instructions -/

theorem witness_BundleRoundTrip : Instr.wfCore (.lda p0 {} 15 0xFFFFFFFF) = true ∧
    (Instr.coreOp (.lda p0 {} 15 0xFFFFFFFF)).isSome = true := by decide +kernel
theorem witness_HeldCrewExecutesNothing : (Instr.coreOp (.lda p0 {} 3 1)).isSome = true ∧
    State.reset.dev.crewsRun = false := by decide +kernel
/-- Crew 3 with a program of two bundles: a V operation of an opcode beyond the slot's table, then an LDA. -/
def illD : Dev := { upD with cw := { upD.cw with progs := [(48, toLE 2 0 ++ toLE 2 2 ++ zeros 28 ++ toLE 32 (2 ^ 176 * 63) ++
  toLE 32 (2 ^ 128 * (1 + 2 ^ 4 * 3 + 2 ^ 8 * 0x1234)))] } }
def ldaLate : Instr := .lda { core := 24, cyc := 1 } {} 3 0x1234
theorem witness_MalformedBundleHalts :
    upD.badBefore 0 5 = none ∧ ((Instr.coreOp (.add p0 {} { ty := 3 })).bind (fun o => upD.fetched (.add p0 {} { ty := 3 }) o)).any
      (fun b => !(upD.bundleFits 0 (bundlesOf (upD.prog 0)) b)) = true ∧
    upD.runs 0 5 = true ∧ after (.add p0 {} { ty := 3 }) upD (fun d => (d.crew 0).halted) = true ∧
    illD.badBefore 3 1 = some 0 ∧ illD.runs 24 1 = true ∧
    ((ldaLate.coreOp).bind (fun o => illD.fetched ldaLate o)).isSome = true ∧
    after ldaLate illD (fun d => (d.crew 3).halted && (d.rd (CO_CORE_FAULT 24)).getLsbD 1) = true := by decide +kernel

/-- Registers for the vector operations: V0 all 3, V1 all −1, V2 all 1.0. -/
def vecD : Dev := coreD { vr := [(0, all256 3), (1, all256 0xFFFFFFFF), (2, all256 0x3F800000)] }

theorem witness_IntegerLanes : ([Instr.add p0 {} { vb := 1, ty := 2 }, .sub p0 {} { vb := 1, ty := 2 },
    .mul p0 {} { vb := 1, ty := 2 }, .and p0 {} { ty := 2 }, .or p0 {} { ty := 2 }, .xor p0 {} { ty := 2 },
    .shl p0 {} { ty := 2 }, .shrl p0 {} { ty := 2 }, .shra p0 {} { ty := 2 }, .cmp p0 {} { ty := 2, sub := 3 },
    .sel p0 {} {}]).all (fun i => vecD.executes i) = true := by decide +kernel
theorem test_add : after (.add p0 {} { vd := 4, va := 0, vb := 1, ty := 2 }) vecD
    (fun d => decide (result0 d = some (7, 4, 2))) = true := by decide +kernel
theorem test_sub_wraps : after (.sub p0 {} { va := 1, vb := 0, ty := 2 }) vecD
    (fun d => decide (result0 d = some (7, 0, 0xFFFFFFFC))) = true := by decide +kernel
theorem test_mul : after (.mul p0 {} { va := 0, vb := 1, ty := 2 }) vecD
    (fun d => decide (result0 d = some (7, 0, 0xFFFFFFFD))) = true := by decide +kernel
theorem test_shra_sign : after (.shra p0 {} { va := 1, vb := 0, ty := 2 }) vecD
    (fun d => decide (result0 d = some (7, 0, 0xFFFFFFFF))) = true := by decide +kernel
theorem test_shrl : after (.shrl p0 {} { va := 1, vb := 0, ty := 2 }) vecD
    (fun d => decide (result0 d = some (7, 0, 0x1FFFFFFF))) = true := by decide +kernel
theorem test_cmp_lt : after (.cmp p0 {} { va := 1, vb := 0, ty := 2, sub := 2 }) vecD
    (fun d => decide (result0 d = some (7, 0, 0xFFFFFFFF))) = true := by decide +kernel
theorem test_sel : after (.sel p0 {} { va := 0, vb := 1, vc := 9 }) vecD
    (fun d => decide (result0 d = some (7, 0, 0xFFFFFFFF))) = true := by decide +kernel

theorem witness_FloatLanes : ([Instr.fadd p0 {} {}, .fsub p0 {} {}, .fmul p0 {} {}, .fmin p0 {} { ty := 1 }, .fmax p0 {} {},
    .fma p0 {} {}, .fcmp p0 {} { sub := 3 }, .fn p0 {} { sub := 5 }]).all (fun i => vecD.executes i) = true := by
  decide +kernel
theorem test_fadd : after (.fadd p0 {} { va := 2, vb := 2 }) vecD
    (fun d => decide (result0 d = some (9, 0, 0x40000000))) = true := by decide +kernel
theorem test_fma : after (.fma p0 {} { va := 2, vb := 2, vc := 2 }) vecD
    (fun d => decide (result0 d = some (9, 0, 0x40000000))) = true := by decide +kernel
theorem test_fn_rcp : fpFn 0 2 0x40000000 = (0x3F000000, fpFn 0 2 0x40000000 |>.2) := by decide +kernel

theorem witness_ConversionsAndConstants : ([Instr.cvt p0 {} { sub := 1 }, .unpk p0 {} { sub := 3, ty := 2 }, .mxb p0 {} {},
    .bcast p0 {} 1 7, .lane p0 {} {}, .coreid p0 {} {}, .red p0 {} { sub := 6 }]).all (fun i => vecD.executes i) = true := by
  decide +kernel
theorem test_bcast : after (.bcast p0 {} 31 0xFFFFFFFF) vecD
    (fun d => decide (result0 d = some (7, 31, 0xFFFFFFFF))) = true := by decide +kernel
theorem test_coreid : after (.coreid { core := 31, cyc := 0 } {} {}) vecD (fun d =>
    (d.vol 31).vres.any (fun r => decide (r.lanes.getD 255 0 = 31))) = true := by decide +kernel
theorem test_red_sum : after (.red p0 {} { va := 0, ty := 2 }) vecD
    (fun d => decide (result0 d = some (17, 0, 768))) = true := by decide +kernel

/-- Core 0 with AR1 in its tile plane, AR2 in its word plane, at the last 1 KiB of each. -/
def memD : Dev := { coreD { ar := [(1, BitVec.ofNat 32 (engAddr false 0 0x7FFC00)), (2, BitVec.ofNat 32 (engAddr true 0 0x1FFC00))],
                            vr := [(0, all256 3)] } with mem := [(0x7FFC00, 0x2A), (0x101FFC00, 0x17)] }

theorem witness_VectorMemory :
    memD.executes (.vld p0 {} 0 { base := 1 } {}) = true ∧ memD.executes (.vst p0 {} 0 { base := 2, word := true }) = true ∧
      localOff false ((memD.core 0).addr 1 0 false) = some 0x7FFC00 ∧ memD.poweredAll 0 false 0x7FFC00 1024 = true ∧
      localOff true ((memD.core 0).addr 2 0 false) = some 0x1FFC00 ∧ memD.poweredAll 0 true 0x1FFC00 1024 = true := by
  decide +kernel
theorem test_vld : after (.vld p0 {} 0 { vd := 3, base := 1 } {}) memD
    (fun d => decide (result0 d = some (13, 3, 0x2A))) = true := by decide +kernel
theorem test_vld_word : after (.vld p0 {} 0 { vd := 3, base := 2, word := true } {}) memD
    (fun d => decide (result0 d = some (11, 3, 0x17))) = true := by decide +kernel
theorem test_vst : after (.vst p0 {} 0 { va := 0, base := 2, word := true }) memD
    (fun d => (d.vol 0).writes.any (fun w => decide (w.at_ = 7 ∧ w.off = 0x1FFC00 ∧ w.bytes.take 4 = [3, 0, 0, 0]))) = true := by
  decide +kernel
theorem witness_GatherAndScatter :
    (gatherOffs ((memD.core 0).addr 2 0 false) ((memD.core 0).vreg 1)).map (localOff true) =
        (List.replicate 64 0x1FFC00).map some ∧
      memD.executes (.vgath p0 {} 0 { vb := 1, base := 2, word := true } {}) = true ∧
      memD.executes (.vscat p0 {} 0 { vb := 1, base := 2, word := true }) = true ∧ memD.powered 0 true 0x1FFC00 = true := by
  decide +kernel
theorem test_vgath : after (.vgath p0 {} 0 { vd := 3, vb := 1, base := 2, word := true } {}) memD
    (fun d => decide (result0 d = some (11, 3, 0x17))) = true := by decide +kernel

theorem witness_AddressRegisters : ([Instr.lda p0 {} 15 1, .adda p0 {} 1 1, .lds p0 {} 1 1, .setr p0 {} 2 1,
    .win p0 {} 7 0 4096 2 1 125]).all (fun i => memD.executes i) = true := by decide +kernel
theorem test_adda : after (.adda p0 {} 2 0x10) memD
    (fun d => decide ((d.vol 0).arup = [(6, 2, BitVec.ofNat 32 (engAddr true 0 0x1FFC10))])) = true := by decide +kernel
theorem test_setr : after (.setr p0 {} 1 9) memD (fun d => (d.vol 0).arup.any (fun x => decide (x.2 = (33, 9)))) = true := by decide +kernel

theorem witness_DirectAndLinearFeeds :
    memD.executes (.feedDir p0 {} 0 1 0 8 0 false true {}) = true ∧ memD.executes (.feedLin p0 {} 0 1 false true {}) = true ∧
      localOff false ((memD.core 0).addr 1 0 false) = some 0x7FFC00 ∧ (memD.core 0).feedOff false 0 0 = false ∧
      memD.powered 0 false 0x7FFC00 = true ∧
      (coreD { ctx := [(0, { bound := true, null := true })], ar := [(1, 0)] }).executes
        (.feedDir p0 { bound := true } 0 1 0 8 0 false true {}) = true ∧
      ((coreD { ctx := [(0, { bound := true, null := true })] }).core 0).feedOff true 0 0 = true := by
  decide +kernel
theorem test_feed_lin : after (.feedLin p0 {} 0 1 false false {}) memD
    (fun d => (d.vol 0).feeds.any (fun f => decide (f.at_ = 13 ∧ f.lanes.getD 0 0 = 0x2A))) = true := by decide +kernel
/-- Core 0 with window 0 and one valid map word, that of its row 0. -/
def mapD : Dev := { coreD { ar := [(2, BitVec.ofNat 32 (engAddr true 0 0x1FFC00))], wins := [(0, {})] } with
  mem := [(0, 0x2A), (0x101FFC01, 0x80)] }
theorem witness_MapFeed :
    mapD.executes (.feedMap p0 {} 0 0 2 0 0 0 false false ⟨{}, {}⟩) = true ∧
      localOff true (((mapD.core 0).addr 2 0 false + 2 * (1 * 0 + 1 * 0)) % 2 ^ 32) = some 0x1FFC00 ∧
      mapD.poweredAll 0 true 0x1FFC00 2 = true ∧ (mapD.core 0).feedOff false 0 0 = false ∧
      mapRows (mapD.planeRead 0 true 0x1FFC00 2) 0 {} = [some 0] ∧
      (List.range 128).all (fun b => decide (Win.byteAt {} 0 0 0 0 b < 1024)) = true ∧
      (List.range 1024).all (fun a => mapD.powered 0 false a) = true := by decide +kernel
theorem test_feed_map : after (.feedMap p0 {} 0 0 2 0 0 0 false false ⟨{}, {}⟩) mapD
    (fun d => (d.vol 0).reads.any (fun r => decide (r.at_ = 11))) = true := by decide +kernel

/-- Two feeds due in cycle 5. -/
def feedD : Dev := coreD {} { feeds := [{ at_ := 5, lanes := [1], scales := [0, 0, 0, 0], sec := none },
  { at_ := 5, lanes := [2], scales := [0, 0, 0, 0], sec := none }] }
theorem witness_FeedsLand : feedD.runs 0 5 = true ∧
    ((feedD.brought p0).vol 0).feeds.length = 2 ∧
    after (.feedLand 0 5) feedD (fun d => (d.rd (CO_CORE_FAULT 0)).getLsbD 2) = true ∧
    after (.feedLand 0 5) (coreD {} { feeds := [{ at_ := 5, lanes := [1], scales := [0, 0, 0, 0], sec := none }] })
      (fun d => decide (((d.vol 0).feedAt 5).lanes = [1])) = true := by decide +kernel

/-! ### Arrays -/

/-- A job of a format pair: INT8 activations, INT8 weights. -/
def job9 : Job := { no := 9, a := 0, w := 0 }
/-- Four whole arrays at full activity, each with its target running a job. -/
def runD : Dev := coreD { tgts := [(0, { run := some job9 }), (2, { run := some job9 }), (4, { run := some job9 }),
                                   (6, { run := some job9 })] }
  { arrs := [(0, { level := 8 }), (1, { level := 8 }), (2, { level := 8 }), (3, { level := 8 })] }
/-- Array 0 split, with pending jobs on both halves; AR1 in the tile plane. -/
def pendD : Dev := coreD { split := [(0, true)], tgts := [(0, { pend := some job9 }), (1, { pend := some job9 })], ar := [(1, 0x1000)] }
  { arrs := [(0, { level := 8 })] }

theorem witness_ArrayTargets : upD.pm.held = false ∧
    (upD.executes (.job p0 {} 0 0 9 9 1) && upD.executes (.split p0 {} 1 1) && upD.executes (.wake p0 {} 8) && upD.runs 0 5 &&
      decide (((upD.brought p0).core 0).tgt 0 = {}) && (((upD.brought p0).vol 0).waves.isEmpty)) = true ∧
    after (.job p0 {} 0 1 9 9 1) upD (fun d => (d.rd (CO_CORE_FAULT 0)).getLsbD 3) = true ∧
    after (.job p0 {} 0 0 9 9 1) upD (fun d => ((d.core 0).tgt 0).pend.any (fun j => j.no == 1 && j.a == 9 && j.w == 9)) = true ∧
    after (.split p0 {} 9 1) upD (fun d => (d.core 0).isSplit 0 && !((d.core 0).isSplit 3)) = true ∧
    after (.wake p0 {} 8) upD (fun d => ((d.vol 0).arr 3).rising && ((d.vol 0).arr 3).stepAt == 37) = true := by
  decide +kernel
theorem test_ramp_up : after (.arrayRampStep 0 5 0) (coreD {} { arrs := [(0, { level := 7, rising := true, stepAt := 5 })] })
    (fun d => ((d.vol 0).arr 0).level == 8) = true := by decide +kernel
theorem test_ramp_down : after (.arrayRampStep 0 500 0) (coreD {} { arrs := [(0, { level := 1, last := 180 })] })
    (fun d => ((d.vol 0).arr 0).level == 0) = true := by decide +kernel
theorem witness_FillSchedulesItsReads : pendD.executes (.fill p0 {} 0 0 1 false false 0 [] 0) = true ∧
    (pendD.brought p0).core 0 = pendD.core 0 ∧ localOff false ((pendD.core 0).addr 1 0 false) = some 0x1000 ∧
    (pendD.core 0).targets 1 0 = [(0, some 1), (0, some 2)] ∧
    ([0, 1].all (fun i => decide (((pendD.core 0).tgt i).pend = some job9 ∧ ((pendD.core 0).tgt i).swapAt = none)) &&
      (List.range (fillCount 0 0)).all (fun r => (fillGrans 0x1000 0 1 r).all (fun a =>
        decide (a + 16 ≤ planeSize false) && pendD.powered 0 false a))) = true := by
  decide +kernel
theorem witness_WaveInFlight :
    runD.executes (.wave p0 {} 0 false 15 0 127 false true false false false 0 0) = true ∧ runD.runs 0 5 = true ∧
    (coreD { tgts := [(6, { pend := some job9 })] } { arrs := [(3, { level := 8 })] }).executes
      (.wave p0 {} 0 false 8 0 0 false false false true true 0 0) = true ∧ pairOk 0 0 = true ∧ pairTransOk 0 0 = true ∧
    runD.executes (.wave p0 { spanM1 := 1 } 1 true 15 0 63 false false false false false 0 0) = true := by decide +kernel
theorem test_wave : after (.wave p0 {} 0 false 15 0 127 false true false false false 0 0) runD (fun d =>
    (d.vol 0).waves.length == 4 && (d.vol 0).waves.all (fun w => w.due == 205 && w.entry == 127 && w.add)) = true := by
  decide +kernel
theorem test_wave_transposed : after (.wave p0 { spanM1 := 1 } 1 true 15 0 63 false false false false false 0 0) runD
    (fun d => (d.vol 0).waves.map (fun w => (w.due, w.arr, w.entry)) == [(213, 4, 63)]) = true := by decide +kernel
/-- A wave due in cycle 5 for entry 127 of array 3. -/
def landD : Dev := coreD {} { waves := [{ due := 5, arr := 3, half := 0, entry := 127, add := false, vals := [(0, 8), (63, 9)], jobs := [job9] }] }
theorem witness_WavesLand : landD.runs 0 5 = true ∧ ((landD.brought p0).vol 0).waves.length = 1 ∧
    after (.waveLand 0 5 0 0 false) landD (fun d => (smGet row0 (d.core 0).acc 511).getD 63 0 == 9) = true := by
  decide +kernel
/-- Entry 3 of array 1 written by a job; AR1 in the word plane. -/
def wbD : Dev := coreD { acc := [(131, all256 0x11223344)], tag := [(259, some job9), (387, some job9)], rtag := [(63, [job9])]
                         racc := [(63, all256 5)], ar := [(1, BitVec.ofNat 32 (engAddr true 0 0))], wbstep := 0x100 }
theorem witness_WriteBacks : wbD.executes (.wb p0 {} 0 2 0 3 false 0 1 false 0 false 0 { ecc := {} }) = true ∧
    (wbD.core 0).targets 2 0 = [(1, some 0)] ∧ (wbD.core 0).wbOff false 0 3 = false ∧
    engDec (((wbD.core 0).addr 1 0 false + 0x100) % 2 ^ 32) = some (1, 0, 0x100) ∧
    (coreD { ctx := [(0, { bound := true, null := true })] }).executes (.wb p0 { bound := true } 0 2 0 3 false 0 1 false 0 false 0 { ecc := {} }) = true ∧
    wbD.executes (.wbr p0 {} 0 63 false 0 1 false 0 false 0 { ecc := {} }) = true ∧
    after (.wb p0 {} 0 2 0 3 false 0 1 false 0 false 0 { ecc := {} }) wbD (fun d => (d.vol 0).writes.any (fun w =>
      w.at_ == 9 && w.word && w.off == 0x100 && w.bytes.length == 256 && w.bytes.take 4 == [0x44, 0x33, 0x22, 0x11])) = true := by
  decide +kernel
theorem test_wbr : after (.wbr p0 {} 0 63 false 0 1 false 0 false 0 { ecc := {} }) wbD (fun d => (d.vol 0).writes.any (fun w =>
    w.off == 0 && w.bytes.length == 512 && w.bytes.take 4 == [5, 0, 0, 0])) = true := by decide +kernel

/-! ### The sequencer, digests, rings, descriptors -/

/-- A group of level 0 for core 0. -/
def grp0 : Group := { id := ⟨3, 7, 2⟩, count := 40 }
/-- Core 0 with a group in context 0 and one queued. -/
def seqD : Dev :=
  let d := coreD { ctx := [(0, { bound := true, grp := some grp0 })], ar := [(2, 0x10003)] }
  { d with cw := { d.cw with seq := { d.cw.seq with queues := [(0, [grp0])] } }, lg := { d.lg with digestEn := true } }
theorem witness_TurnsAndReleases : ([Instr.turn p0 { ctxFeed := 3 } 0 0, .turn p0 {} 0 0, .release p0 {}, .release p0 { ctxOut := 3 }]).all
      (fun i => seqD.executes i) = true ∧ seqD.ctxHeld 0 0 = true ∧ seqD.ctxHeld 0 3 = false ∧
    (seqD.cw.seq.nextGroup 0 0 false).isSome = true ∧ (seqD.cw.seq.nextGroup 0 0 true).isNone = true ∧
    after (.turn p0 { ctxFeed := 3 } 0 0) seqD (fun d => (d.vol 0).ctxup.any (fun u => u.1 == 6 && u.2.1 == 3 && u.2.2.grp == some grp0)) = true ∧
    after (.turn p0 { ctxFeed := 3, gold := true } 0 0) seqD (fun d => (d.vol 0).ctxup.any (fun u => u.2.2.null)) = true ∧
    after (.turn p0 {} 0 0) seqD (fun d => (d.rd (CO_CORE_FAULT 0)).getLsbD 4) = true ∧
    after (.release p0 {}) seqD (fun d => (d.vol 0).ctxup == [(6, 0, {})]) = true ∧
    after (.release p0 { ctxOut := 3 }) seqD (fun d => (d.rd (CO_CORE_FAULT 0)).getLsbD 4) = true := by decide +kernel
/-- Core 0 with its digest channel open for that group. -/
def digD : Dev := { (coreD { dig := some { grp := grp0, point := 255, crc := 5, len := 64 } }) with lg := { ({} : RecSt) with digestEn := true } }
theorem witness_DigestChannel : seqD.executes (.digopen p0 {} 255) = true ∧ ((seqD.core 0).turn 0).grp = some grp0 ∧
    digD.executes (.digclose p0 {}) = true ∧ (digD.digSetting grp0).1 = true ∧
    (let d := coreD { ctx := [(0, { bound := true, null := true })], dig := some { grp := grp0, point := 255 } }
     (d.executes (.digopen p0 {} 255) && d.executes (.digclose p0 {}) && ((d.core 0).turn 0).null) = true ∧
       after (.digclose p0 {}) d (fun d => (d.core 0).dig.isSome && (d.rd (CO_CORE_FAULT 0)) == 0) = true) ∧
    after (.digopen p0 {} 255) seqD (fun d => (d.core 0).dig == some { grp := grp0, point := 255 }) = true ∧
    after (.digclose p0 {}) digD (fun d => (d.core 0).dig == none && d.lg.digs.any (fun a => a.groups == [(0, 5, 64)])) = true := by
  decide +kernel
theorem test_digest_complete : after .digestComplete { upD with lg := { upD.lg with digs :=
    [{ id := grp0.id, point := 1, level := 0, frame := 0, ord := 0, entries := 1, groups := [(0, 5, 64)], need := 1 }] } }
    (fun d => d.lg.digs.isEmpty && d.lg.done.map (fun r => r.value) == [5]) = true := by decide +kernel
/-- Ring 5 of core 0: 2 slots of 64 bytes at word-plane byte 0x40, tags from 10; slot 1 reserved with epoch 1. Every core of
the crew has the ring, as a bundle that names it is legal only then. -/
def ringD : Dev := (List.range 8).foldl (fun d c => ((d.hwN (TP_CORE_RING_BASE c 5) (4 + 2 ^ 19)).hwN (TP_CORE_RING_SIZE c 5) (4 + 2 * 2 ^ 11)).hwN
  (TP_CORE_RING_TAG c 5) 10) (coreD { rings := [(5, { head := 1, tail := 1, resv := [(1, 1)] })] })
/-- The same with slot 1 FULL. -/
def fullD : Dev := ringD.setCore 0 { ringD.core 0 with tags := [(11, { full := true })] }
theorem witness_RingOperations : ringD.executesRing (.get p0 {} 5 4 0 false 0) = true ∧ ringD.executesRing (.putc p0 {} 5 0 false 0) = true ∧
    ringD.bndOff 0 0 false = false ∧ (ringD.ringDesc 0 5).slots = 2 ∧ ringD.getOk 0 5 = false ∧ fullD.getOk 0 5 = true ∧
    ringD.putOk 0 5 = true ∧ fullD.putOk 0 5 = false ∧ ringD.slotFull 0 5 1 = false ∧ ringD.cw.held = [] ∧
    ringD.executes (.putr p0 {} 5 4 0 false) = true ∧ ringD.executes (.drain p0 {} 5 0 false) = true := by decide +kernel
theorem test_get : after (.get p0 {} 5 4 0 false 0) fullD
    (fun d => (d.vol 0).arup == [(6, 4, BitVec.ofNat 32 (engAddr true 0 0x80))]) = true := by decide +kernel
theorem test_get_waits : after (.get p0 {} 5 4 0 false 0) ringD (fun d => (d.crew 0).wait == [(0, 5, 5, true)]) = true := by
  decide +kernel
theorem test_putc : after (.putc p0 {} 5 0 false 0) ringD
    (fun d => ((d.core 0).tagAt 11).full && ((d.core 0).tagAt 11).epoch == 1 && ((d.core 0).ring 5).resv == []) = true := by
  decide +kernel
theorem test_drain_wraps : after (.drain p0 {} 5 0 false) fullD
    (fun d => !((d.core 0).tagAt 11).full && ((d.core 0).ring 5).tail == 0) = true := by decide +kernel
/-- Core 0 with AR6 at a descriptor template in its word plane: OP 4, COUNT 1. -/
def descD (n : Nat) : Dev := { coreD { ar := [(6, BitVec.ofNat 32 (engAddr true 0 0))], descq := List.replicate n { bytes := [] } } with
  mem := [(0x10000000, 4), (0x10000002, 1)] }
theorem witness_DescriptorsAndMerges : (descD 0).executesCheck (.desc p0 {} 6 false 0 false 0 false 0) = true ∧ (descD 0).cw.upset = [] ∧
    localOff true (((descD 0).core 0).addr 6 0 false) = some 0 ∧ (descD 0).poweredAll 0 true 0 32 = true ∧
    descBad ((descD 0).planeRead 0 true 0 32) = false ∧ descBad (coreD {} |>.planeRead 0 true 0 32) = true ∧
    seqD.executesCheck (.merge p0 {} 2 0) = true ∧ seqD.adaptLive = false ∧
    (let d := { seqD with et := { seqD.et with adapt := some { issued := 0, count := 1 } } }
     (d.executesCheck (.merge p0 {} 2 0) && d.adaptLive) = true ∧
       after (.merge p0 {} 2 0) d (fun d => (d.crew 0).wait == [(0, 5, 33, false)]) = true) ∧
    after (.desc p0 {} 6 false 0 false 0 false 0) (descD 15) (fun d => (d.core 0).descq.length == 16) = true ∧
    after (.desc p0 {} 6 false 0 false 0 false 0) (descD 16) (fun d => (d.crew 0).wait == [(0, 5, 32, false)]) = true ∧
    after (.merge p0 {} 2 0) seqD (fun d => d.et.adapt.any (fun a => a.count == 0x10003)) = true := by decide +kernel
theorem witness_ProgramEndsAndTimeouts : upD.crewsRun = true ∧ upD.tm.len = 1200 ∧ upD.badBefore 3 0 = none ∧
    (illD.badBefore 3 2 = some 0 ∧ illD.runs 24 0 = true ∧
      after (.programEnd { crew := 3 } 0 0) illD (fun d => (d.crew 3).halted && (d.rd (CO_CORE_FAULT 24)).getLsbD 1) = true) ∧
    after (.programEnd { crew := 3 } 0 0) upD (fun d => (d.crew 3).waiting && (d.ctr (CS_WAIT 3)).v == 1200) = true ∧
    after (.programEnd { crew := 3 } 0 0) { upD with cw := { upD.cw with progs := [(48, toLE 2 0 ++ toLE 2 1 ++ zeros 28 ++ [2] ++ zeros 31)] } }
      (fun d => (d.ctr (CS_WAIT 3)).v == 1197) = true ∧
    (let d := ringD.setCrew 0 { wait := [(0, 5, 5, true)] }
     (d.crew 0).wait.find? (fun w => decide (w.1 = 0) && decide (w.2.2.1 < 32) && !(d.waitOk w)) = some (0, 5, 5, true) ∧
       after (.slotWaitExpire 0) d (fun e => (e.crew 0).wait.isEmpty && (e.ctr (TP_SLOT_UNDERRUN 0)).v == 1) = true) ∧
    (let d := { fullD with cw := { fullD.cw with held := [(0, 5, [])] } }
     (d.slotFull 0 5 ((d.core 0).ring 5).head && (d.crew 0).wait.isEmpty) = true ∧
       after (.slotWaitExpire 0) d (fun e => e.cw.held.isEmpty && (e.rd (TP_CORE_FAULT 0)).getLsbD 4) = true) ∧
    (let d := (descD 16).setCrew 0 { wait := [(0, 5, 32, false)] }
     (d.crew 0).wait.find? (fun w => decide (w.1 = 0) && decide (w.2.2.1 = 32) && !(d.waitOk w)) = some (0, 5, 32, false) ∧
       after (.descQueueTimeout 0) d (fun e => (e.rd (AG_CORE_FAULT 0)).getLsbD 1) = true) := by decide +kernel

/-! ### The gather/scatter engine and plane accesses -/

/-- A descriptor of 32 bytes: OP, FLAGS, COUNT, A0, A1, A2, P0, P1. -/
def desc32 (op flags count a0 a1 a2 p0 p1 : Nat) : QDesc :=
  { bytes := toLE 1 op ++ toLE 1 flags ++ toLE 2 count ++ toLE 4 a0 ++ toLE 4 a1 ++ toLE 4 a2 ++ toLE 4 p0 ++ toLE 4 p1 ++ zeros 8 }
/-- Core 0 with one descriptor, and words of its word plane. -/
def engD (q : QDesc) (mem : Mem := []) : Dev := { coreD { descq := [q] } with mem := mem }
/-- WINDOW of one entry and one offset over segment count 8, map at word 0x100, one source word naming site 6. -/
def winQ : QDesc := desc32 1 0 1 (engAddr true 0 0) (engAddr true 0 0x100) 0 (1 + 2 ^ 9 * 3) 4096
def winD : Dev := (engD winQ [(0x10000000, 6), (0x10000003, 0x80)]).hwN GB_NBR_MASK (2 ^ 13)
/-- `Dev.atRest`, and `Dev.calm`, as truth values. -/
def restB (d : Dev) : Bool := d.cw.upset.isEmpty && (List.range 32).all (fun c => (d.core c).opList.isEmpty)
def calmB (d : Dev) : Bool := restB d && (List.range 32).all (fun c => decide (d.syncNow c = d) && (d.vol c).occ.isEmpty)
theorem witness_DescriptorsStart : winD.engineUp 0 = true ∧
    (let d := winD.taken 0 []
     d.fmapRow 0 = 16 ∧ writeOkB d 0 true 0x100 2 = true ∧ windowFits 0 4096 16 8 1 1 (engAddr true 0 0) 0x100 0 = true ∧
     restB d = true ∧ d.engOn (engAddr true 0 0) (4 * (d.listShape 0 0 1).1) = true ∧
     (winWalk (wordsOf (d.engSees (engAddr true 0 0) (4 * (d.listShape 0 0 1).1)) (d.listShape 0 0 1).1) 0 (d.listShape 0 0 1) 1 8 1).tags = [(6, 0, 0)] ∧ d.fmapFits 0 6 = true) ∧
    after (.window { core := 0, mx := true }) winD (fun d => (d.rd (AG_CORE_FAULT 0)).getLsbD 0 && (d.core 0).acts.isEmpty) = true ∧
    after (.window { core := 0 }) winD (fun d => (d.core 0).descq.isEmpty && (d.core 0).acts.map (fun a => (a.op, a.ops.length)) == [(1, 1)]) = true ∧
    after (.spread 0) (engD (desc32 2 0 128 (engAddr true 0 0) (engAddr true 0 0x1000) 0 0 0))
      (fun d => (d.core 0).acts.map (fun a => a.ops.length) == [128]) = true ∧
    after (.copy 0) (engD (desc32 4 0 2 (engAddr true 0 0) (engAddr true 1 0) 0 3 0))
      (fun d => (d.core 0).opList.map (fun o => (o.src, o.dst, o.credit)) ==
        [(engAddr true 0 0, engAddr true 1 0, some (3, false)), (engAddr true 0 64, engAddr true 1 64, some (3, false))]) = true := by
  decide +kernel
/-- SCATTER_BEV of one entry; the header at word 0x200. -/
def scatD : Dev := engD (desc32 3 0 1 (engAddr true 0 0x200) (engAddr true 0 0) (engAddr true 0 0x300) 0 0) [(0x10000200, 9)]
theorem witness_ScatterStarts : scatD.engineUp 0 = true ∧
    (let d := scatD.taken 0 []
     let h := d.engSees (engAddr true 0 0x200) 32
     calmB d && bitOf (leAt h 12 1) 6 == false && leAt h 0 6 == 9 && d.engOn (engAddr true 0 0x200) 32 && d.engOn (engAddr true 0 0) 4 &&
       d.engOn (engAddr true 0 0x300) 16 && (d.siteKey false 0 0).2.1) = true ∧ scatD.rl.countM1 = 0 ∧
    after (.scatterBev 0) scatD (fun d => (d.core 0).opList.map (fun o => o.add.map (fun a => a.at_)) ==
      [some (BitVec.ofNat 48 (9 + upD.rf AG_BEV_CFG 0 9))]) = true := by decide +kernel
/-- Core 0 with one started operation; credit entry 2 of core 1 grants one credit. -/
def opD (o : GsOp) : Dev := (coreD { acts := [{ op := 4, ops := [o], put := some (5, 1, 1) }], rings := [(5, {})] }).hwN (WP_CORE_CREDIT_GRANT 1 2) 1
def add9 : CellAdd := { id := ⟨1, 2, 3⟩, gx := 0, gy := 0, at_ := 0 }
theorem witness_EngineOperations :
    (let o : GsOp := { dst := engAddr true 1 0, len := 64, credit := some (2, false), stage := .creditWait }
     (opD o).mayPay 0 o = true ∧ (opD o).grantOf (credKey o.dst (2, false)) = 1 ∧
       after (.gsOpIssue 0 {}) (opD o) (fun d => (d.core 0).opList.map (fun o => o.stage) == [.writeNet] &&
         smGet (fun _ => 0) (d.vol 0).cred 18 == 1) = true) ∧
    after (.gsOpIssue 0 {}) (opD { src := engAddr true 0 0, len := 64 }) (fun d => (d.core 0).opList.map (fun o => o.stage) == [.readPlane]) = true ∧
    after (.gsOpIssue 0 { clocks := 7 }) (coreD { acts := [{ op := 4, ops := List.replicate 512 { stage := .readNet } ++ [{}] }] })
      (fun d => (d.ctr (AG_OPS_FULL 0)).v == 7) = true ∧
    after (.gsOpIssue 0 { forced := true }) (coreD { acts := [{ op := 4, ops := List.replicate 512 { stage := .readNet } ++ [{}] }] })
      (fun d => (d.rd (AG_CORE_FAULT 0)).getLsbD 2) = true ∧
    ((opD { stage := .done }).slotFull 0 5 1 = false ∧
      after (.gsOpComplete 0 0) (opD { stage := .done }) (fun d => d.slotFull 0 5 1 && (d.core 0).acts.isEmpty) = true) ∧
    after (.creditReturn 0 32 15) (coreD {} { cred := [(527, 1)], owed := [(527, 1)] })
      (fun d => (d.vol 0).cred == [] && (d.vol 0).owed == []) = true ∧
    after (.creditReturn 0 32 15) upD (fun d => (d.rd (TP_CORE_FAULT 0)).getLsbD 6) = true ∧
    after (.bevAddArrive 0 0 {}) (opD { add := some add9, stage := .writeNet }) (fun d => d.cm.adds == [add9]) = true ∧
    after (.bevAddArrive 0 0 {}) { opD { add := some add9, stage := .writeNet } with tm := { upD.tm with stroke := 1 } }
      (fun d => (d.ctr AG_BEV_LATE).v == 1) = true ∧
    after (.bevAddArrive 0 0 { bad := true }) (opD { add := some add9, stage := .writeNet })
      (fun d => (d.ctr FLT_NOC_CRC).v == 1 && d.cm.adds.isEmpty) = true := by decide +kernel
theorem witness_PlaneAccesses :
    (let o : GsOp := { src := engAddr false 1 0x7FFFC0, dst := engAddr true 2 0, len := 64, stage := .readPlane }
     planeOf 0 o.src = some (1, false, 0x7FFFC0) ∧ (opD o).poweredAll 1 false 0x7FFFC0 64 = true ∧
       after (.unscheduledAccess 0 0 {}) (opD o) (fun d => (d.core 0).opList.map (fun o => o.data.length) == [64]) = true ∧
       (opD o).servedNow 0 0 o = true ∧ after (.accessPromote 0 (.op 0)) (opD o) (fun d => (d.core 0).opList.map (fun o => o.promoted) == [true]) = true) ∧
    (let o : GsOp := { dst := engAddr true 2 0x1FFFC0, len := 64, data := List.replicate 64 7, stage := .writePlane }
     opWrites 0 o = [(2, true, 0x1FFFC0, o.data)] ∧ (opD o).putHeld 0 0 = false ∧ writeOkB ((opD o).syncNow 2) 2 true 0x1FFFC0 64 = true ∧
       after (.unscheduledAccess 0 0 {}) (opD o) (fun d => memRead d.mem 0x105FFFC0 2 == [7, 7]) = true) ∧
    (let o : GsOp := { dst := engAddr true 1 0, len := 64, stage := .writeNet }
     (opD o).regionOk o = true ∧ (opD { o with credit := some (3, false) }).regionOk { o with credit := some (3, false) } = false ∧
       after (.remoteAccessArrive 0 0 {} {}) (opD o) (fun d => (d.core 0).opList.map (fun o => o.stage) == [.writePlane]) = true ∧
       after (.remoteAccessArrive 0 0 {} {}) (opD { o with credit := some (3, false) })
         (fun d => (d.rd (TP_CORE_FAULT 1)).getLsbD 7) = true ∧
       after (.remoteAccessArrive 0 0 { bad := true } {}) (opD o) (fun d => (d.ctr FLT_NOC_CRC).v == 1) = true) ∧
    (let o : GsOp := { dst := 2 ^ 31 + 0x6FFFFFF, len := 1, data := [7], credit := some (15, true), stage := .writeNet }
     let d := ((opD o).hwN (WP_CMN_CREDIT_GRANT 15) 64).hwN (WP_CMN_CREDIT_LIMIT 15) 1835007
     d.regionOk o = true ∧ engDec o.dst = some (2, 0, 0x6FFFFFF) ∧ d.commonsOn 0x6FFFFFF = true ∧
       after (.remoteAccessArrive 0 0 {} {}) d (fun d => d.mem == [(commonsAt 0x6FFFFFF, 7)]) = true) ∧
    after (.accessPromote 0 (.other true 0x1FFFFF 1)) (opD {}) (fun d => (d.ctr (WP_PROMOTE_FREEZE 0)).v == 0) = true := by
  decide +kernel
/-- Core 31, the patrol scrub of its word plane at the last entry of every bank. -/
def scrubD (mem : Mem) : Dev :=
  { upD.setVol 31 { scrubW := 8 * segEntries true - 1 } with mem := mem }
theorem witness_PatrolScrub : upD.live = true ∧ restB (scrubD []) = true ∧ (scrubD []).scrubAt 31 true (8 * segEntries true - 1) = some (8 * segEntries true - 1) ∧
    (scrubD []).segLoaded 31 true 0x1FFFFC = false ∧ ((scrubD []).jrnlBlocks 31 true 0x1FFFFC 4).isEmpty = true ∧
    after (.planeScrub 3 7 true [255, 0] []) (scrubD []) (fun d => (d.ctr (WP_CORR 31)).v == 2 && (d.vol 31).scrubW == 0) = true ∧
    after (.planeScrub 3 7 true [] [255]) (scrubD [(0x13FFFFF0, 9), (0x13FFFFFC, 9)])
      (fun d => d.mem == [(0x13FFFFF0, 9)] && (d.rd (TP_CORE_FAULT 31)).getLsbD 0) = true := by decide +kernel

/-! ### Intake and the grid -/

/-- Bytes of a depth packet of stream 0: SID 5, sweep 1, index 0 of 1, two empty returns; its CRC-32C last. -/
def pktBytes : List Byte :=
  let b := toLE 2 0x4C53 ++ toLE 1 1 ++ toLE 1 3 ++ toLE 1 5 ++ toLE 1 1 ++ toLE 2 1 ++ toLE 2 0 ++ toLE 2 1 ++ toLE 2 2 ++
    toLE 1 1 ++ toLE 1 0 ++ toLE 8 0 ++ toLE 4 0 ++ zeros 4 ++ zeros 8
  b ++ toLE 4 (crc32c b)
/-- Stream 0 bound to SID 5: at MAC 0, or with `csi` at receiver 0, channel 0, data type 0x30. -/
def strmD (csi : Bool) : Dev :=
  let d := (upD.hwPair (IG_STREAM_BIND 0) (BitVec.ofNat 32 (1 + 2 * b2n csi + 2 ^ 8 * 5 + 2 ^ 16 * 3))).hwN (IG_STREAM_GEOM 0) (1 + 2 ^ 14 * 2)
  let d := d.hwN (IG_MAC_CFG 0) (2 ^ 16 * 0x88B5)
  { d with ig := { d.ig with mask := 1, streams := [(0, { sync := true, w := 1 })] } }
def ethBytes (type : List Byte) (body : List Byte) : List Byte := zeros 12 ++ type ++ body
theorem witness_FramesAndPackets :
    verifyPkt ((strmD false).streamCfg 0) pktBytes = none ∧ ((strmD false).strm 0).w = 1 ∧ (parsePkt pktBytes).seq = 1 ∧
    (List.range 48).find? (fun n => (strmD false).ethMatch 0 0 5 n) = some 0 ∧
    (List.range 48).find? (fun n => (strmD true).csiMatch 0 0 0x30 5 n) = some 0 ∧
    after (.ethFrameRx 0 (ethBytes [0x88, 0xB5] pktBytes) true 0 0) (strmD false) (fun d =>
      (d.ctr (IG_STREAM_PKT_OK 0)).v == 1 && (d.strm 0).e == 1) = true ∧
    after (.csi2PacketRx 0 0 0x30 pktBytes true true 0 0) (strmD true) (fun d => (d.strm 0).e == 1) = true ∧
    (let d := { upD with ig := { upD.ig with bufs := [(15, 262144)] } }
     d.bufFull 15 262144 4 = true ∧ d.bufFull 15 262140 4 = false) ∧
    frameRoute 0 (ethBytes [0x88, 0xF7] [1]) = .ptp [1] ∧ frameRoute 0 (ethBytes [0x12, 0x34] [1]) = .drop ∧
    frameRoute (16 + BitVec.ofNat 32 (2 ^ 16 * 0x88B5)) (ethBytes [0x81, 0, 0, 5, 0x88, 0xB5] [7]) = .stream [7] ∧
    after (.ethFrameRx 15 [] true 262144 0) { upD with ig := { upD.ig with bufs := [(15, 262144)] } } (fun d => (d.ctr (IG_MAC_BUF_DROP 15)).v == 1) = true ∧
    after (.ethFrameRx 0 (ethBytes [0x88, 0xF7] [1]) true 0 0) upD (fun d => d.tm.rxq.length == 1) = true ∧
    after (.ethFrameRx 0 (ethBytes [0x12, 0x34] [1]) true 0 0) upD (fun d => (d.ctr (IG_MAC_UNBOUND 0)).v == 1) = true ∧
    after (.csi2PacketRx 7 3 0x3F [] false true 0 0) upD (fun d => (d.ctr (IG_CSI_UNBOUND 7)).v == 1) = true := by
  decide +kernel
/-- A point at the origin of stream 0, received in stroke 0; the device is in stroke 1. -/
def pt0 : GPoint := { r := 0, pt := { stream := 0, sweep := 1, sector := 2 } }
def insD (g : GPoint) : Dev :=
  let d := ((upD.hwN GB_VOX_X 1).hwN GB_VOX_Y 1).hwN GB_VOX_Z 1
  let d := (d.hwN GB_HASH_CFG 14).hwN GB_SALT1_LO 1
  { d with tm := { d.tm with stroke := 1, frame := 0 }, gb := { d.gb with inq := [g] } }
def key0 : Nat := keyOf 0 0 0
/-- The entry that the first insert of that key makes. -/
def insD2 : Dev := match exec .speculativeInsert (st (insD pt0)) with
  | .next t => { t.dev with gb := { t.dev.gb with inq := [pt0], taken := 0, secs := [] } }
  | _ => upD
theorem witness_PointsAndTimeouts :
    (let d : Dev := { (upD.hwN (IG_STREAM_SECTOR 0) (2 ^ 24)) with
        ig := { upD.ig with streams := [(0, { sync := true, sec := some { k := 63, cost := 4 } })] }, tm := { upD.tm with stroke := 16 } }
     16 * d.rf (IG_STREAM_SECTOR 0) 24 8 = 16 ∧ after (.sectorTimeout 0) d (fun e => e.ig.verd.map (fun v => (v.sector, v.cost)) == [(63, 4)]) = true) ∧
    (insD pt0).accel = true ∧ (insD pt0).gb.stuck = false ∧ (insD pt0).gb.upset = [] ∧ sOlder 0 1 = true ∧ ((insD pt0).voxelise pt0.pt).map (fun x => x.1) = some key0 ∧
    (insD { pt0 with pt := { pt0.pt with x := 2 ^ 30 } }).voxelise { pt0.pt with x := 2 ^ 30 } = none ∧
    after .speculativeInsert (insD pt0) (fun d => (d.gsec ⟨0, 1, 2⟩).keys == [key0]) = true ∧
    ((insD2.cfgFor false).pendingOf (insD2.tabOf false) key0).isSome = true ∧ (insD2.gsec ⟨0, 1, 2⟩).keys = [] ∧
    (let d := { insD pt0 with gb := { upD.gb with gold := [{ pt0 with pt := { pt0.pt with stream := 48 } }] } }
     d.vqOf true = [] ∧ (d.inqOf true).length = 1 ∧
       after .speculativeInsert d (fun d => (d.gsec ⟨48, 1, 2⟩).keys == [key0] && d.gb.goldTaken == 1 && d.gb.taken == 0) = true) ∧
    after .speculativeInsert insD2 (fun d => d.gb.tab.map (fun p => p.2.map (fun e => e.pend)) == [some 2]) = true := by
  decide +kernel
/-- A verdict on that sector, due. -/
def verd0 : GVerd := { id := ⟨0, 1, 2⟩, what := 2, v := 0, last := 0, frame := 0 }
def verD (w : Nat) (lim : Nat) : Dev :=
  let d := match exec .speculativeInsert (st (insD pt0)) with
    | .next t => t.dev
    | _ => upD
  { (d.hwN (GB_FILL_LIMIT 0) lim) with gb := { d.gb with inq := [], vq := [{ verd0 with what := w }] } }
theorem witness_VerdictsMergesScrubs :
    (verD 2 1).accel = true ∧ (verD 2 1).planesFree = true ∧ (verD 2 1).gb.stuck = false ∧ (verD 2 1).gb.upset = [] ∧ (verD 2 1).tm.frame = 0 ∧ ((verD 2 1).gsec verd0.id).keys = [key0] ∧
    (commitTargets (verD 2 1).hashCfg 0 [key0] (verD 2 1).gb.tab [] {}).2.1.isSome = true ∧
    after .verdictOperation (verD 2 1) (fun d => d.gb.cur.sites == 1 && d.gb.cur.merged == 1 && d.gb.commits.length == 1) = true ∧
    after .verdictOperation (verD 2 0) (fun d => (d.ctr GB_SECT_DROP).v == 1 && d.gb.commits.isEmpty) = true ∧
    after .verdictOperation (verD 1 1) (fun d => (d.ctr GB_SECT_ROLLBACK).v == 1 && d.gb.tab.all (fun p => p.2.all (fun e => !e.used))) = true ∧
    after .levelMerge { upD with gb := { upD.gb with commits := [{ id := verd0.id, frame := 0, ord := 0, v := 0, sites := [] }] } }
      (fun d => d.gb.commits.isEmpty && d.ag.sent.map (fun h => h.id) == [verd0.id]) = true ∧
    (let d := { verD 2 1 with gb := { (verD 2 1).gb with secs := [] } }
     (d.gsec verd0.id).keys = [] ∧ (d.gsec verd0.id).doomed = false ∧
       after .verdictOperation d (fun d => (d.ctr GB_SECT_COMMIT).v == 1 && d.gb.commits.isEmpty && d.gb.empties.length == 1) = true) ∧
    after (.hashScrubStep 0) { insD pt0 with gb := { upD.gb with scrub := some (3, 0), tab := [(1023, some ⟨key0, 0, 3, true, 0, true⟩), (1024, some ⟨key0, 0, 3, true, 0, true⟩)] } }
      (fun d => d.gb.tab.map (fun p => p.2.map (fun e => e.used)) == [some false, some true] && d.gb.scrub == some (3, 1024)) = true := by
  decide +kernel
/-- R164, R82: an insert that meets an uncorrectable error in the commons stops the grid until the fault is acted on: its point
waits and nothing is held. -/
theorem test_insert_uncorrectable :
    after .speculativeInsert { insD pt0 with gb := { (insD pt0).gb with upset := [{ off := 0, unc := true }] } }
      (fun d => d.gb.stuck && d.gb.inq.length == 1 && d.gb.tab.isEmpty && d.gb.upset.isEmpty) = true := by
  decide +kernel

/-! ### Strokes, frames, rolls, restarts -/

/-- A device that has been placed and locked, before its entry. -/
def readyD : Dev := { State.reset.dev with bt := { State.reset.dev.bt with placed := true, locked := true } }
theorem witness_BoundariesAndEntry :
    upD.pm.held = false ∧ upD.hi.maint = false ∧
    after (.strokeBoundary none {}) upD (fun d => d.tm.stroke == 1 && d.tm.openRaw == 1200 && d.tm.op) = true ∧
    after (.strokeBoundary none {}) { upD with hi := { upD.hi with maintReq := true } } (fun d => d.hi.maint && !d.tm.op) = true ∧
    readyD.mayEnter (BitVec.ofInt 48 readyD.entryClock.2) = true ∧ (readyD.sessionStart 0).1 = true ∧
    after .enterOperational readyD (fun d => d.tm.op && d.tm.stroke == 0) = true ∧
    after .frameBoundary { upD with tm := { upD.tm with frameDue := true } } (fun d => d.tm.framed && d.tm.frame == 0) = true ∧
    after .frameRetire { upD with tm := { upD.tm with retireDue := true, frame := 0 } } (fun d => d.gb.scrub == some (3, 0)) = true := by
  decide +kernel
/-- A roll step of 16 strokes ago; a reload block of 16 strokes ago. -/
def rollD : Dev := { upD with tm := { upD.tm with stroke := 16 }
                              cm := { upD.cm with roll := some { began := 0, axisX := true, up := false, ver := 0, px := 0, py := 0 } } }
def reloadD : Dev := { upD with tm := { upD.tm with stroke := 16 }, cm := { upD.cm with reload := some { next := 1023, flight := some (0, 0, 0, 0) } } }
theorem witness_RollsReloadsPoses : rollD.cellsUp = true ∧ sDiff 16 0 = 16 ∧ reloadD.cm.held = none ∧ upD.lg.replaying = false ∧
    reloadD.et.refused = [] ∧ reloadD.cellsUp = true ∧ rollD.xs.served 0 0 = true ∧ reloadD.xs.served 0 0 = true ∧
    after .poseCommit upD (fun d => d.cm.poseNext.isSome) = true := by decide +kernel
def phaseD (p : RestartPhase) : Dev := { upD with flt := { upD.flt with phase := p } }
theorem witness_RollbackAndRestart :
    (let d : Dev := { upD with flt := { upD.flt with rolling := true } }
     d.accel = true ∧ d.flt.restored = false ∧ d.cw.pushed = [] ∧ d.cw.held = [] ∧ d.cw.touched = [] ∧ d.et.adapt = none ∧
       after (.rollbackRestore none) d (fun e => e.flt.restored) = true) ∧
    (phaseD .stop).xs.drained = true ∧ (phaseD .stop).cw.rampedDown = true ∧
    after .restartStopDone (phaseD .stop) (fun d => d.flt.phase == .reset) = true ∧
    (((phaseD .stop).setVol 31 { arrs := [(3, { level := 1 })] }).cw.rampedDown = false ∧
      after .restartStopDone ((phaseD .stop).setVol 31 { arrs := [(3, { level := 1 })] }) (fun d => d.flt.phase == .stop) = true) ∧
    after .restartResetDone (phaseD .reset) (fun d => d.flt.phase == .restore) = true ∧
    (copyEntries (phaseD .restore).xs.mem (phaseD .restore).xs.badIn 2048 (65536 * ((phaseD .restore).rdLive BT_RESTART_BASE).toNat)).isSome = true ∧
    after (.restartRestoreDone true) (phaseD .restore) (fun d => d.flt.phase == .reseat) = true ∧
    after (.restartRestoreDone false) (phaseD .restore) (fun d => d.flt.permanent) = true ∧
    after .restartReseatDone (phaseD .reseat) (fun d => d.flt.phase == .waiting && d.cm.reload == some { next := 0 }) = true := by
  decide +kernel

/-! ### Tables and sessions -/

/-- Table 63: enabled, rows of 16 bytes, one row at store address 0, `byRow` in row-by-row mode; request ring 0 is ring 4 of core
0, whose slot 0 is FULL and asks for one row of table `t` to word 0x400 of core 1's word plane. -/
def tabD (byRow t at_ now : Nat) : Dev :=
  let d := coreD { rings := [(4, {})], tags := [(7, { full := true, at_ := BitVec.ofNat 48 at_ })] }
  let d := (((d.hwN (TP_CORE_RING_BASE 0 4) (2 ^ 19)).hwN (TP_CORE_RING_SIZE 0 4) (65 + 2 ^ 11)).hwN (TP_CORE_RING_TAG 0 4) 7)
  let d := (d.hwN (ET_REQ 0) (4 * 2 ^ 5 + 2 ^ 10)).hwN (ET_TABLE_CFG 63) (2 ^ 28 * byRow + 2 ^ 30)
  { d with mem := memWrite [] 0x10000000 (toLE 1 t ++ toLE 1 0 ++ toLE 2 1 ++ toLE 4 (engAddr true 1 0x400) ++ toLE 4 0 ++ toLE 4 0xABC)
           tm := { d.tm with stroke := BitVec.ofNat 48 now } }
/-- A lookup taken up, of one row. -/
def look0 : Lookup := { table := 63, putTo := none, count := 1, dest := engAddr true 1 0x400, tag := 0, core := 0, ring := 4, slot := 0
                        issue := 0, ver := 0, idx := [0] }
def lookD (l : Lookup) : Dev := let d := tabD 0 63 0 0
  { d with et := { d.et with lookups := [l] }, xs := { d.xs with mem := [(0, 0x5A)], ready := true } }
theorem witness_LookupsServed : (tabD 0 63 0 0).accel = true ∧ (tabD 0 63 0 0).rf (ET_REQ 0) 10 1 = 1 ∧
    ((tabD 0 63 0 0).ringDesc 0 4).slots = 1 ∧ (tabD 0 63 0 0).getOk 0 4 = true ∧ (tabD 0 63 0 0).tEn 63 = true ∧
    (tabD 0 63 0 0).tEn 62 = false ∧ (tabD 1 63 0 63).tByRow 63 = true ∧ sDiff (63 : Stroke) 0 = 63 ∧
    after (.lookup 0) (tabD 1 63 0 63) (fun d => d.et.lookups.map (fun l => (l.table, l.count)) == [(63, 1)]) = true ∧
    after (.lookup 0) (tabD 0 62 0 0) (fun d => (d.rd (AG_CORE_FAULT 0)).getLsbD 0) = true ∧
    after (.lookup 0) (tabD 0 63 0 64) (fun d => (d.rd ET_FAULT).getLsbD 0) = true ∧
    writeOkB ((lookD look0).syncNow 1) 1 true 0x400 16 = true ∧
    ((lookD look0).issueReads.et.lookups).map (fun l => l.sent) = [1] ∧ (lookD look0).xs.served 0 0 = true ∧
    after (.lookupRowReturn 0 false) (lookD { look0 with count := 2, idx := [0, 0], sent := 2 }) (fun d => memRead d.mem 0x10200400 2 == [0x5A, 0]) = true ∧
    after (.lookupRowReturn 0 false) (lookD { look0 with sent := 1 }) (fun d => d.et.lookups.isEmpty && !(((d.core 0).tagAt 7).full)) = true := by
  decide +kernel
/-- An operation of row-by-row table 63 whose row 0 is to be written. -/
def op0 : UpdOp := { table := 63, todo := [(0, List.replicate 16 7)], effect := 9 }
def rowD (o : UpdOp) : Dev := let d := tabD 1 63 0 0
  { d with et := { d.et with ops := [o], sweep := (63, 0) }, xs := { d.xs with ready := true, mem := [(10, 1)] } }
/-- Rings 05 and 06 active, 16 slots each; one record fetched. -/
def updD : Dev :=
  let d := ((tabD 0 63 0 0).hwN (HI_RING_CFG 5) 9).hwN (HI_RING_CFG 6) 9
  { ((d.setRing 5 { active := true, prod := 1 }).setRing 6 { active := true }) with
    hi := { ((d.setRing 5 { active := true, prod := 1 }).setRing 6 { active := true }).hi with fetchq := [zeros 272] } }
theorem witness_RowsAndUpdates :
    (rowD op0).unrestored 63 0 = false ∧ (rowD op0).baseHeld 63 0 = true ∧
    bitOf (leAt (memRead (rowD op0).xs.mem ((rowD op0).rowAt 63 0 0) 64) 10 1) 0 = true ∧
    after .rowWrite (rowD op0) (fun d => d.et.ops.map (fun o => (o.todo.length, o.done)) == [(0, [0])]) = true ∧
    (let d := { (rowD op0).setComp (ET_TABLE_COPY0 63) 1 with xs := {} }
     d.baseHeld 63 0 = false ∧ after .rowWrite d (fun d => d.flt.fatal) = true) ∧
    after .rowRestore (rowD { op0 with aborted := true, todo := [], done := [0] }) (fun d => d.et.ops.isEmpty) = true ∧
    (let d : Dev := { rowD op0 with xs := { (rowD op0).xs with mem := [] }, tm := { upD.tm with stroke := 2 ^ 20 } }
     d.tEn 63 = true ∧ d.tByRow 63 = true ∧ older 0 d.tm.stroke.toNat 48 = true ∧ bitOf (memNat d.xs.mem (d.rowAt 63 0 0 + 10) 1) 0 = false ∧
       after (.settledSweep 1) d (fun e => bitOf (memNat e.xs.mem (e.rowAt 63 0 0 + 10) 1) 0) = true) ∧
    updD.complRoom = true ∧ after .updateRecordFetch updD (fun d => (d.ring 5).fetched == 1 && d.hi.fetchq.length == 2) = true ∧
    updD.updStatus (zeros 272) ≠ 0 ∧
    after .updateRecord updD (fun d => (d.ring 6).prod == 1 && (d.ctr HI_UPD_REFUSED).v == 1) = true := by decide +kernel
/-- A record for a row of table 63 that keeps every rule of R251. -/
def updRec (byRow : Nat) : List Byte :=
  let b := toLE 1 63 ++ toLE 1 (1 + byRow) ++ toLE 2 0 ++ toLE 4 0 ++ toLE 4 0x77
  b ++ toLE 4 (crc32c (b ++ zeros 4 ++ List.replicate 16 7)) ++ List.replicate 16 7
theorem test_update_accepted : after .updateRecord { updD with hi := { updD.hi with fetchq := [updRec 0] } }
    (fun d => (d.ctr HI_UPD_ACCEPTED).v == 1) = true := by decide +kernel
def adaptD (n : Nat) : Dev := { upD with et := { upD.et with adapt := some { issued := 0, count := n } } }
theorem witness_MergesAbortsSessions : (adaptD 0).xs.badIn 0 0 = false ∧ gradDup [] = none ∧
    after (.recArm 1) { upD with lg := { upD.lg with state := 2, mode := 1 } } (fun d => d.lg.state == 2 && d.lg.armSet) = true ∧
    after .adaptMerge (adaptD 0) (fun d => d.et.adStat == 2 && d.et.adapt.any (fun a => a.applied)) = true ∧
    after .adaptMerge { adaptD 0 with et := { (adaptD 0).et with ops := List.replicate 17 op0 } } (fun d => d.et.adStat == 4 && (d.rd ET_FAULT).getLsbD 3) = true ∧
    after .adaptMerge ((adaptD 2).hwN ET_MERGE_SIZE 1) (fun d => d.et.adStat == 4 && (d.rd ET_FAULT).getLsbD 2) = true ∧
    after (.tableAbort 63) upD (fun d => d.et.aborts == [63]) = true ∧ after .adaptAbort upD (fun d => d.et.adAbort) = true ∧
    after (.recArm 1) (upD.hwN CS_REC_SIZE 16) (fun d => d.lg.state == 1) = true ∧
    after (.recArm 1) (upD.hwN CS_REC_SIZE 15) (fun d => d.lg.state == 7) = true ∧
    after .recStop { upD with lg := { upD.lg with state := 2, mode := 1 } } (fun d => d.lg.stopReq) = true ∧
    after .recAbort { upD with lg := { upD.lg with state := 2, mode := 1 } } (fun d => d.lg.state == 4) = true ∧
    after .recAbort { upD with lg := { upD.lg with state := 3, mode := 1 } } (fun d => d.lg.state == 3 && d.lg.lastAbort == 2) = true := by decide +kernel

/-! ### The island -/

/-- The island with THRESHOLDS' magic, and one message waiting. -/
def monD (m : MonMsg) : Dev := { upD with si := { upD.si with thr := [(0, 0x5448534C)], thrC := [(0, ~~~0x5448534C)], mq := [m] } }
theorem witness_MonitorMessages :
    after (.monFault .badCrc) (monD (.fault 2 0x10)) (fun d => d.si.mq.isEmpty && d.si.doubts.map (fun q => q.rule) == [11]) = true ∧
    after (.monBoundary .whole 0) (monD (.boundary 5 0 true true (-512) (-512) 0)) (fun d => d.si.now == 5) = true ∧
    after (.monRecord .whole) (monD (.record 5 none false)) (fun d => !d.si.perClean) = true ∧
    after (.monRecord .whole) (monD (.record 5 (some []) false)) (fun d => d.si.doubts.map (fun q => q.rule) == [1]) = true ∧
    after (.monDelivered .whole none) { monD (.delivered 5 1) with si := { (monD (.delivered 5 1)).si with sel := [(5, 0)] } }
      (fun d => d.si.fatal && d.flt.fatal) = true ∧
    after (.monMark .whole 7) { monD (.mark .subSteps) with si := { (monD (.mark .subSteps)).si with wins := [(9, 0)] } }
      (fun d => d.si.wins.isEmpty) = true ∧
    after (.monSector .whole) (monD (.sector .accept ⟨1, 2, 3⟩ 0 0 0 0 0)) (fun d => d.si.tracks.length == 1) = true ∧
    after (.monGolden .whole) { monD (.golden (some 255) 5) with si := { (monD (.golden (some 255) 5)).si with gref := List.replicate 48 0xFF } }
      (fun d => d.si.gpts == [255] && d.si.doubts.map (fun q => q.rule) == [7]) = true ∧
    after (.monPose .whole) (monD (.pose {})) (fun d => d.si.poses.length == 1) = true ∧
    after (.monPose .overflow) (monD (.pose {})) (fun d => d.si.poses.isEmpty && d.si.doubts.map (fun q => q.rule) == [11]) = true ∧
    after (.monPose .badMem) (monD (.pose {})) (fun d => d.si.fatal && d.flt.fatal) = true ∧
    (let d : Dev := { monD (.sector .accept ⟨1, 2, 3⟩ 0 0 0 0 0) with si := { (monD (.sector .accept ⟨1, 2, 3⟩ 0 0 0 0 0)).si with
       tracks := List.replicate 1024 { id := ⟨1, 2, 4⟩, v := 0 } } }
     after (.monSector .whole) d (fun d => d.si.tracks.length == 1024 && (d.si.wwOf 1).noTrack) = true) ∧
    after (.monSector .whole) { monD (.sector .commit ⟨1, 2, 3⟩ 0 0 0 0 0) with si := { (monD (.sector .commit ⟨1, 2, 3⟩ 0 0 0 0 0)).si with
      tracks := [{ id := ⟨1, 2, 3⟩, v := 0 }] } } (fun d => d.si.tracks.all (fun x => !x.gb)) = true ∧
    after (.monFault .whole) (monD (.fault 2 0x10)) (fun d => d.si.recov == 1) = true ∧
    after (.monFault .whole) (monD (.fault 3 0x20)) (fun d => d.si.latchReq) = true ∧
    after (.monFault .whole) (monD (.fault 4 0x33)) (fun d => d.si.fatal) = true := by decide +kernel
theorem witness_GroundsheetAndSafeOk :
    (let d : Dev := { upD with si := { upD.si with tap := [(0, 256, 256, 256)] } }
     d.si.gsIn (gsCellOf (d.si.poseFor 0) (256, 256, 256)).1 (gsCellOf (d.si.poseFor 0) (256, 256, 256)).2.1 = true ∧
       after .gsPlace d (fun e => e.si.tap.isEmpty && e.si.taps == 1 && (e.si.ctr SI_GS_POINTS).v == 1) = true ∧
       after .gsPlace { d with si := { d.si with gsUpset := [gsSlot (gsCellOf (d.si.poseFor 0) (256, 256, 256)).1 (gsCellOf (d.si.poseFor 0) (256, 256, 256)).2.1] } }
         (fun e => e.si.bivFail && e.si.gsUpset.isEmpty) = true ∧
       after .gsPlace { d with si := { d.si with taps := 128 } } (fun e => (e.si.ctr SI_GS_DROP).v == 1) = true) ∧
    after .gsPlace { upD with si := { upD.si with tap := [(0, 2 ^ 30, 0, 0)] } } (fun e => (e.si.ctr SI_GS_OUTSIDE).v == 1) = true ∧
    after (.gsSweep 4) { upD with si := { upD.si with sweep := 262143, gs := [(262143, { nObst := 3 })], gsUpset := [2, 3] } } (fun e => e.si.sweep == 3 && e.si.bivFail && e.si.gsUpset == [3]) = true ∧
    after (.watchdogClose 11 ⟨0, 0, 0⟩) { upD with si := { upD.si with wins := [(11, 0)] } } (fun e => (e.si.ctr (WW_VIOL 11)).v == 1) = true ∧
    (let d : Dev := { upD with si := { upD.si with tested := true } }
     d.si.mayEdge 0 = true ∧ d.flt.fatal = false ∧ d.pm.held = false ∧ after (.safeOkEdge true) d (fun e => e.si.pin && e.si.running && e.si.time == 500) = true) ∧
    after (.safeOkEdge false) upD (fun e => e.si.fatal && e.flt.fatal) = true ∧
    after .islandPllLoss upD (fun e => e.si.pllLost && !e.si.pin) = true := by decide +kernel

/-! ### Time -/

/-- A PTP message of domain 0 with sequence number 3 and a body of zeros. -/
def ptpB (ty flags body : Nat) : List Byte :=
  toBE 1 ty ++ toBE 1 2 ++ toBE 2 (34 + body) ++ zeros 2 ++ toBE 2 flags ++ zeros 22 ++ toBE 2 3 ++ zeros (2 + body)
/-- A device whose MAC 2 has a PTP role, with one message received. -/
def ptpD (role cfg : Nat) (b : List Byte) (q : PtpSt := {}) : Dev :=
  let d := (upD.hwN (TB_MAC_PTP 2) role).hwN TB_CFG cfg
  { d with tm := { d.tm with rxq := [(2, b, 0, 65536)], ptp := q } }
theorem witness_ProtocolEngine : parsePtp [] = none ∧ (ptpD 1 0 []).ptpRole 2 = 1 ∧ (ptpD 1 0 []).rf TB_CFG 6 8 = 0 ∧
    (parsePtp (ptpB 0 512 10)).map (fun m => (m.type, m.twoStep, m.seq, m.domain)) = some (0, true, 3, 0) ∧
    after (.ptpMessageRx 5) (ptpD 1 0 []) (fun d => d.tm.rxq.isEmpty && (d.ctr TB_PTP_DROP).v == 1) = true ∧
    after (.ptpMessageRx 5) (ptpD 1 0 (ptpB 0 0 10) { delays := [6] }) (fun d => d.tm.meas == [65530]) = true ∧
    after (.ptpMessageRx 5) (ptpD 1 0 (ptpB 0 512 10)) (fun d => d.tm.ptp.sync == some (3, 65536, 0, 1200000000)) = true ∧
    after (.ptpMessageRx 5) (ptpD 1 0 (ptpB 8 0 10) { delays := [6], sync := some (3, 100, 1, 0) })
      (fun d => d.tm.meas == [93] && d.tm.ptp.sync.isNone) = true ∧
    after (.ptpMessageRx 5) (ptpD 1 4 (ptpB 9 0 20) { req := some (3, -7), lastDiff := some 4 }) (fun d => d.tm.ptp.delays == [5]) = true ∧
    after (.ptpMessageRx 5) (ptpD 2 4 (ptpB 1 0 10)) (fun d => d.out.length == 1) = true ∧
    after (.ptpSyncTx 2 5) (ptpD 2 0 []) (fun d => d.tm.ptp.seqTx == 1 && d.out.length == 3) = true ∧
    after (.ptpSyncTx 2 1200000000) (ptpD 2 0 [] { syncAt := [(2, some 0)] }) (fun d => d.out.length == 3) = true ∧
    after (.ptpSyncTx 2 1199999999) (ptpD 2 0 [] { syncAt := [(2, some 0)] }) (fun d => d.out.isEmpty) = true ∧
    after (.ptpDelayReqTx 5) (ptpD 1 0 []) (fun d => d.tm.ptp.seqReq == 1 && d.out.length == 1) = true := by decide +kernel
/-- A device with an adjustment held, before its entry. -/
def adjD : Dev := { State.reset.dev with tm := { State.reset.dev.tm with adj := some (7, 2 ^ 40), offset := 5 } }
theorem witness_TimeChanges : (upD.hwN TB_CFG 1).rf TB_CFG 0 1 = 1 ∧
    after (.holdoverEnter (65535 * 1200000)) { upD.hwN TB_CFG 1 with tm := { upD.tm with integ := 2 ^ 30 } }
      (fun d => d.tm.holdover && d.tm.adj == some (-219902325, 0)) = true ∧
    after .timeAdjust (upD.hwN TB_CFG 1) (fun d => (d.ctr TB_ADJ_IGNORED).v == 1) = true ∧
    after .timeAdjust (upD.hwN TB_ADJ_OFFSET_HI 0xFFFFFFFF) (fun d => d.tm.adj == some (0, -(2 ^ 64))) = true ∧
    after .rawMicrosecondTick adjD (fun d => d.tm.raw == 1200 && d.tm.anchor == 1200 && d.tm.rate == 7 && d.tm.adj.isNone) = true ∧
    after .rawMicrosecondTick State.reset.dev (fun d => d.tm.raw == 1200 && d.tm.anchor == 0) = true := by decide +kernel
def trigD (t : Trig) : Dev := upD.setTrg 23 t
def captD (n : Nat) : Dev := (upD.hwN (TB_CAP_CFG 0) 1).setCapt 0 { fifo := List.replicate n (44, true) }
theorem witness_TriggersAndCaptures :
    after (.triggerEdge 23 1200) (trigD { mode := 1, start := 1000, armed := true }) (fun d => (d.trg 23).high && (d.ctr (TB_FIRED 23)).v == 1) = true ∧
    after (.triggerEdge 23 1199) (trigD { mode := 1, start := 1000, armed := true }) (fun d => !(d.trg 23).high) = true ∧
    after (.triggerEdge 23 0) (trigD { mode := 3, armed := true, width := 5 }) (fun d => (d.trg 23).endAt == 60) = true ∧
    after (.triggerEdge 23 1197) (trigD { mode := 1, start := 1000, armed := true }) (fun d => !(d.trg 23).high) = true ∧
    after (.triggerEdge 23 3) (trigD { mode := 3, armed := true, width := 5 }) (fun d => !(d.trg 23).high) = true ∧
    after (.triggerEdge 23 1200) { trigD { mode := 1, start := 1000, armed := true } with tm := { (trigD { mode := 1, start := 1000, armed := true }).tm with
      openRaw := 1200, jump := some (0, 1000 * 2 ^ 32) } } (fun d => (d.ctr (TB_LATE 23)).v == 1) = true ∧
    after (.triggerPulseEnd 23 6) (trigD { high := true, endAt := 60 }) (fun d => !(d.trg 23).high) = true ∧
    after (.captureEdge 0 true 1200) (captD 15) (fun d => (d.capt 0).fifo.getLast? == some (1000, true)) = true ∧
    after (.captureEdge 0 true 1200) (captD 16) (fun d => (d.ctr (TB_CAP_OVF 0)).v == 1) = true ∧
    after (.captureRead 0) (captD 1) (fun d => (d.capt 0).valid && (d.capt 0).fifo.isEmpty) = true ∧
    after (.captureRead 0) (captD 0) (fun d => d.out.length == 1) = true := by decide +kernel

/-! ### Other chips -/

/-- A chip of a configuration of two, with link 0 in a state. -/
def rgD (chip n : Nat) : Dev := ({ upD with rl := { chip := chip, countM1 := 1 }, bt := { upD.bt with meas := zeros 64 } } : Dev).setLink 0 { state := n }
def id0 : Ident := ⟨1, 2, 2, zeros 16⟩
theorem witness_LinksAndGroups : (rgD 0 4).identBad 0 id0 = none ∧ (rgD 0 4).identBad 0 { id0 with link := 1 } = some 2 ∧
    after (.flitRx 0 (flitBytes 1 2 0 0 3 0 [])) (rgD 0 5) (fun d => (d.link 0).rxSeq == 1 && ((d.link 0).buf 2).length == 1) = true ∧
    after (.flitRx 0 (zeros 255 ++ [1])) (rgD 0 5) (fun d => (d.link 0).nakSent && d.out.length == 1) = true ∧
    after (.flitRx 0 (flitBytes 5 2 0 0 3 0 [])) (rgD 0 5) (fun d => (d.link 0).rxSeq == 0 && d.out.isEmpty) = true ∧
    after (.flitRx 0 (flitBytes 4 0 0 4095 3 0 [])) ((rgD 0 5).setLink 0 { state := 5, replay := [⟨0, 1, 2, 2, 7, [], 0⟩] })
      (fun d => (d.link 0).replay.map (fun f => (f.again, f.cr)) == [(1, 7)] && d.out.length == 1) = true ∧
    after (.flitRx 0 (zeros 255 ++ [1])) ((rgD 0 5).setLink 0 { state := 5, sent := 1022 }) (fun d => d.out.length == 2 && (d.link 0).sent == 0) = true ∧
    after (.linkTrainState 0 true id0 true 5) (rgD 0 3) (fun d => (d.link 0).state == 4 && (d.link 0).reversed) = true ∧
    after (.linkTrainState 0 true id0 false 0) (rgD 0 4) (fun d => (d.link 0).state == 5) = true ∧
    after (.linkTrainState 0 true { id0 with link := 1 } false 0) (rgD 0 4) (fun d => (d.link 0).error && (d.link 0).cause == 2) = true ∧
    after (.linkTrainState 0 false id0 false 0) (rgD 0 6) (fun d => (d.link 0).state == 1) = true ∧
    after (.rgHeartbeat 1 3) (rgD 0 5) (fun d => smGet (fun _ => 0) d.rl.views 1 == 3) = true ∧
    after (.peerLoss 1) { rgD 0 5 with rl := { (rgD 0 5).rl with silent := [(1, 8)], reach := 3 } } (fun d => d.rl.reach == 1) = true ∧
    after .groupEvaluate { rgD 0 5 with rl := { (rgD 0 5).rl with changedAt := some 0, reach := 3, views := [(1, 3)] }, tm := { upD.tm with stroke := 4 } }
      (fun d => d.rl.group == 3 && d.rl.majority && d.rl.changedAt.isNone) = true := by decide +kernel
def fpt0 : Point := { stream := 3, sweep := 1, sector := 9 }
def gv0 : GVerd := { id := ⟨3, 1, 9⟩, what := 2, v := 0 }
theorem witness_MessagesOfOtherChips : (rgD 1 5).accel = true ∧
    after (.rgTimeExchange 0 0 10 12 9) ((rgD 1 5).setLink 2 { state := 5 }) (fun d => d.rl.delays == [3] && d.tm.meas == [7] && d.out.contains (.rg 0 8 [10])) = true ∧
    after (.rgTimeExchange 1 0 10 12 9) (rgD 0 5) (fun d => d.out.length == 1) = true ∧
    after (.rgReady 1) (rgD 0 5) (fun d => d.rl.ready == [1]) = true ∧
    after (.rgStart 77) { rgD 1 5 with tm := {} } (fun d => d.rl.startAt == some 77) = true ∧
    after (.rgRestart 1 9) { rgD 0 5 with si := { upD.si with thr := [(0x1A, 1)] } } (fun d => d.flt.phase == .requested || d.flt.permanent) = true ∧
    after (.rgRestart 1 9) { rgD 0 5 with si := { upD.si with thr := [(0x1A, 5)] }, flt := { upD.flt with phase := .requested, restartAt := some 12 } }
      (fun d => d.flt.permanent || d.flt.restartAt == some 9) = true ∧
    after (.rgResume 0 9) { rgD 1 5 with flt := { upD.flt with phase := .waiting } } (fun d => d.flt.resumeAt == some 9) = true ∧
    after (.rgFwdPoint 1 0 fpt0) (rgD 0 5) (fun d => d.gb.inq.length == 1 || (d.gsec ⟨3, 1, 9⟩).late) = true ∧
    after (.rgFwdVerdict 1 gv0) (rgD 0 5) (fun d => d.gb.vq.length + d.rl.verds.length == 1) = true ∧
    after (.rgTapCopy 1 4 1 2 3) (rgD 0 5) (fun d => d.si.tap == [(4, 1, 2, 3)]) = true ∧
    after (.rgRemoteAdd 1 (.add { id := ⟨3, 1, 9⟩, gx := 0, gy := 0, at_ := 0 })) (rgD 0 5) (fun d => d.cm.adds.length == 1) = true ∧
    after (.rgRemoteAdd 1 (.add { id := ⟨3, 1, 9⟩, gx := 0, gy := 0, at_ := 0xFFFFFFFFFFFF })) (rgD 0 5) (fun d => (d.ctr AG_BEV_LATE).v == 1) = true ∧
    after (.rgRemoteAdd 1 (.header { id := ⟨3, 1, 9⟩, at_ := 0, count := 2 })) (rgD 0 5) (fun d => d.cm.exps.length == 1) = true ∧
    (let d : Dev := { rgD 0 5 with et := { upD.et with adapt := some { issued := 0, count := 1 } } }
     sDiff d.tm.stroke 0 ≤ d.rf ET_CFG 8 8 - 1 ∧
       after (.rgPartialSum 1 0 63 0 [5]) { d with tm := { d.tm with stroke := 64 } } (fun e => e.et.adapt.isNone && e.et.adStat == 4) = true ∧
       after (.rgPartialSum 1 0 0 0 [5]) d (fun e => e.et.adapt.any (fun a => a.sums.length == 1)) = true) := by decide +kernel

/-! ### The host -/

def hringD (rr : Nat) (r : RingSt) (cfg : Nat := 9) : Dev := (upD.setRing rr r).hwN (HI_RING_CFG rr) cfg
def recQ (d : Dev) : Dev := { d with hi := { d.hi with outq := [(7, 1, List.replicate 64 1)] } }
theorem witness_HostRings :
    after (.ringEnable 0 9) upD (fun d => (d.ring 0).en && (d.ring 0).locked) = true ∧
    after (.ringEnable 0 7) upD (fun d => !(d.ring 0).en) = true ∧ after (.ringEnable 0 35) upD (fun d => !(d.ring 0).en) = true ∧
    after (.ringDisable 6 0) (hringD 6 { en := true, active := true }) (fun d => (d.ring 6).clr && !(d.ring 6).en) = true ∧
    after (.ringConsWrite 0 3) (hringD 0 { prod := 3 }) (fun d => (d.ring 0).cons == 3) = true ∧
    after (.ringConsWrite 0 4) (hringD 0 { prod := 3 }) (fun d => (d.ctr (HI_RING_ERR 0)).v == 1) = true ∧
    after (.ringProdWrite 16) (hringD 5 {}) (fun d => (d.ring 5).prod == 16) = true ∧
    after (.ringProdWrite 17) (hringD 5 {}) (fun d => (d.ctr (HI_RING_ERR 5)).v == 1) = true ∧
    after .recordDeliver (recQ (hringD 0 { active := true, prod := 15 })) (fun d => (d.ring 0).prod == 16 && memRead d.hi.mem 960 1 == [1]) = true ∧
    after .recordDeliver (recQ (hringD 0 { active := true, prod := 16 })) (fun d => (d.ring 0).lost == 1 && d.hi.outq.isEmpty) = true ∧
    after (.msixCoalesceTimer 0) (hringD 0 { timer := true, unsig := 1 }) (fun d => d.hi.pba == 16 && (d.ring 0).unsig == 0) = true ∧
    after (.msixCoalesceTimer 0) { hringD 0 { timer := true, unsig := 1 } with hi := { (hringD 0 { timer := true, unsig := 1 }).hi with msix := [(19, 0)], pci := { msixOn := true } } }
      (fun d => d.hi.pba == 0 && d.out.length == 1) = true ∧
    after (.irqCauseClear 3) { upD with hi := { upD.hi with cause := 7 } } (fun d => d.hi.cause == 4) = true ∧
    after .hostInterfaceReset (recQ (hringD 0 { en := true })) (fun d => d.hi.rings.isEmpty && d.hi.outq.isEmpty && d.tm.op) = true ∧
    after (.pcieLinkTraining { up := true, cfg := { msixOn := true } } 3 5) { upD with hi := { upD.hi with due13 := true } } (fun d => d.hi.linkUp && d.hi.cause == 0x2000 && d.hi.pci.msixOn) = true ∧
    after (.pcieLinkTraining { up := true, cfg := { d3hot := true } } 3 5) (hringD 0 { en := true }) (fun d => d.hi.rings.isEmpty && d.tm.op) = true := by
  decide +kernel
def busyD (c r : Nat) : Dev := { upD with hi := { upD.hi with mbx := { state := 1, cmd := c, result := some r } } }
def maintD : Dev := { upD with hi := { upD.hi with maint := true }, bt := { upD.bt with flashCap := 131072, flash := [(131071, 3)] }, tm := {} }
theorem witness_Mailbox :
    after (.nop 1 2 3 4) upD (fun d => d.hi.mbx.state == 1 && d.hi.mbx.result == some 2 && d.rd (HI_MBX_ARG 3) == 4) = true ∧
    after (.getAttestation 0 0 0 0) State.reset.dev (fun d => d.hi.mbx.result == some 4) = true ∧
    upD.tm.op = true ∧ upD.bt.idFail = false ∧ upD.hi.mbx.state ≠ 1 ∧
    after (.getImageInfo 0x1000 0 0 0) { upD with bt := { upD.bt with meas := [7] } } (fun d => memRead d.hi.mem 0x1000 2 == [7, 0]) = true ∧
    after (.getImageInfo 0x1001 0 0 0) upD (fun d => d.hi.mbx.result == some 5) = true ∧
    after (.enterMaintenance 0 0 0x544E494D 0) upD (fun d => d.hi.maintReq && d.hi.mbx.result.isNone) = true ∧
    after (.enterMaintenance 0 0 0 0) upD (fun d => d.hi.mbx.result == some 3) = true ∧
    after (.flashRead 0x1000 0 131071 1) maintD (fun d => memRead d.hi.mem 0x1000 1 == [3]) = true ∧
    (0x10000 : Word).toNat % 65536 = 0 ∧ 0x10000 + 65536 ≤ maintD.bt.flashCap ∧
    after (.flashErase 0 0 131072 0 false) maintD (fun d => d.hi.mbx.result == some 5) = true ∧
    after (.flashWrite 0 0 256 256 false) maintD (fun d => d.hi.mbx.result == some 2) = true ∧
    after (.leaveMaintenance 0 0 0x544E494D 0) maintD (fun d => d.hi.mbx.result == some 2) = true ∧
    after (.leaveMaintenance 0 0 0 0) maintD (fun d => d.hi.mbx.result == some 3) = true ∧
    after (.flashRead 0 0 0 1) upD (fun d => d.hi.mbx.result == some 4) = true ∧
    after (.nop 1 2 3 4) (busyD 8 2) (fun d => (d.ctr HI_MBX_IGNORED).v == 1 && d.hi.mbx.cmd == 8) = true ∧
    after .mailboxEnd (busyD 8 2) (fun d => d.hi.mbx.state == 2 && d.hi.leave && d.hi.cause == 8) = true ∧
    after .mailboxEnd (busyD 5 5) (fun d => d.hi.mbx.state == 5 && !d.hi.leave) = true := by decide +kernel
/-- A locked device, and one with the value of a pair waiting. -/
def lockD : Dev := { upD with bt := { upD.bt with locked := true } }
def pairPD : Dev := { upD with reg := { upD.reg with pend := [(0x30010, some 5)] } }
theorem witness_RegisterAccess :
    (regRow TB_ADJ_RATE_HI).any (fun r => decide (r.cMask = 0) && decide (r.bl = 0)) = true ∧ ctrHit TB_ADJ_RATE_HI = none ∧ pairMask TB_ADJ_RATE_HI = none ∧
    loggedReg TB_ADJ_RATE_HI = false ∧ (upD.regSpecial (mailbox false) TB_ADJ_RATE_HI 5).isNone = true ∧ upD.ringBarred TB_ADJ_RATE_HI = false ∧
    instOf (TB_TRIG_CFG 0) 0x20 24 (TB_ADJ_RATE_HI / 32 * 32) = none ∧ regRow 0xF000000 = none ∧ pairMask 0x30010 = some 0xFFFFFFFF ∧
    (regRow 0x30010).any (fun r => decide (r.bl = 0) && decide (r.rw ≠ 0) && decide (r.cMask = 0)) = true ∧
    (regRow 0x10020).any (fun r => decide (r.bl ≠ 0) && decide (r.cMask = 0)) = true ∧
    after (.registerWrite TB_ADJ_RATE_HI 4 5) upD (rdIs TB_ADJ_RATE_HI 5) = true ∧
    TB_ADJ_OFFSET_LO = TB_ADJ_OFFSET_FRAC + 4 ∧
    after (.registerWrite TB_ADJ_OFFSET_FRAC 8 0x700000003) upD (fun d => rdIs TB_ADJ_OFFSET_FRAC 3 d && rdIs TB_ADJ_OFFSET_LO 7 d) = true ∧
    after (.registerWrite 0x2FFC 3 1) upD (fun d => (d.ctr HI_BAR0_BAD).v == 1) = true ∧
    after (.registerWrite 0xF000000 4 1) upD (fun d => (d.ctr HI_BAR0_BAD).v == 1) = true ∧
    after (.registerWrite 0x10020 4 1) lockD (fun d => (d.ctr BT_BL_IGNORED).v == 1) = true ∧
    after (.complementValueWrite 0x30010 5) upD (fun d => d.reg.pend == [(0x30010, some 5)]) = true ∧
    after (.complementCWrite 0x30010 0xFFFFFFFA) pairPD (fun d => rdIs 0x30010 5 d && d.reg.acc == [0x30010]) = true ∧
    after (.complementCWrite 0x30010 0xFFFFFFFB) pairPD (fun d => (d.ctr FLT_CMPL_WRITE).v == 1) = true ∧
    after (.streamMaskWrite true 0xFFFFF) upD (fun d => fld (d.rd IG_STREAM_MASK_HI) 0 20 == 0xFFFF || fld (d.rd IG_STREAM_MASK_HI) 0 16 == 0xFFFF) = true ∧
    after (.streamMaskWrite false 6) upD (rdIs IG_STREAM_MASK_LO 6) = true ∧
    ctrHit 0x10110 = some (0x10110, 0) ∧ islandAddr 0x10110 = false ∧
    after (.counterClear 0x10110) (upD.bump 0x10110 3) (fun d => (d.ctr 0x10110).v == 0) = true := by decide +kernel
/-- A store of one device per channel, with one protection window over its first 128 bytes. -/
def storeD : Dev := { upD with xs := { upD.xs with ready := true, mem := [(4, 6)] } }
theorem witness_HostReads : capOf 24 = 1 ∧ instOf (TB_CAP_VAL_LO 0) 0x20 24 24 = none ∧
    after (.reg64LowRead 7 24 4 5) upD (fun d => d.out.length == 1) = true ∧
    after (.reg64LowRead 7 28 4 5) { upD with reg := { upD.reg with capt := [(captKey 7 28, some 9)] } }
      (fun d => d.out == [.readData [9, 0, 0, 0]] && d.reg.capt.isEmpty) = true ∧
    after (.bar0BadRead 8 3) upD (fun d => d.out == [.readData [0xFF, 0xFF, 0xFF]]) = true ∧
    upD.readWord 0 0xF000000 = none ∧ upD.readWord 0 0xF000004 = none ∧
    after (.bar0BadRead 0xF000000 8) upD (fun d => d.out == [.readData (zeros 8)] && (d.ctr HI_BAR0_BAD).v == 1) = true ∧
    upD.powered 0 false 0 = true ∧ after (.bar2Read 0 { len := 2 }) { upD with mem := [(1, 8)] } (fun d => d.out == [.readData [0, 8]]) = true ∧
    after (.bar2Read 0x40000001 { len := 1 }) { upD with bt := { upD.bt with flashCap := 2, flash := [(1, 3)] } } (fun d => d.out == [.readData [3]]) = true ∧
    5 ≤ storeD.xs.cap ∧ after (.bar2Read 0x100000004 { len := 1 }) storeD (fun d => d.out == [.readData [6]]) = true ∧
    after (.bar2Read 0x1FFFFFFE { len := 2 }) upD (fun d => d.out == [.readData [0, 0]] && (d.ctr HI_BAR2_DENIED).v == 1) = true ∧
    after (.bar2Write 0x100000000 [1]) storeD (fun d => (d.ctr HI_BAR2_DENIED).v == 1) = true := by decide +kernel
def chanD (c : XsChan) : Dev := storeD.setXsChan 31 c
theorem witness_StoreControllers :
    after (.xsInit 0 true 0 3 [1] [2] (List.replicate 32 63)) upD (fun d => d.xs.ready && fld (d.rd (XS_CH_STATUS 31)) 0 6 == 63) = true ∧
    after (.xsInit 0 true 1 3 [1] [2] (List.replicate 32 63)) upD (fun d => d.xs.geomErr) = true ∧
    after (.xsInit 0x80000000 true 0 3 [1] [2] (List.replicate 32 63)) upD (fun d => d.xs.geomErr && bitOf (d.rd (XS_CH_STATUS 31)).toNat 7) = true ∧
    after (.xsBurst 31 2 true 0) (chanD { reqs := [{ cls := 5, off := 0, len := 32, write := false }, { cls := 1, off := 64, len := 32, write := false }] })
      (fun d => (d.xsChan 31).reqs.map (fun r => r.cls) == [5] && (d.ctr (XS_CORR 31)).v == 1 && (d.ctr (XS_UNCORR 31)).v == 1) = true ∧
    after (.xsPromote 31 9600) (chanD { reqs := [{ cls := 5, off := 0, len := 32, write := false }, { cls := 5, off := 64, len := 32, write := false, at_ := 1 }] })
      (fun d => (d.xsChan 31).reqs.map (fun r => r.top) == [true, false]) = true ∧
    after (.xsCheckWriteback 31) (chanD { cache := [⟨1, true, 5⟩, ⟨2, true, 3⟩, ⟨3, false, 0⟩] })
      (fun d => (d.xsChan 31).cache.map (fun b => b.changed) == [true, false, false]) = true ∧
    after .xsScrub storeD (fun d => (d.xsChan 31).scrub == 1 && (d.xsChan 31).reqs.map (fun r => (r.cls, r.len)) == [(5, 2048)]) = true ∧
    after (.xsRetrain 31 9) storeD (fun d => fld (d.rd (XS_CH_STATUS 31)) 0 6 == 9) = true := by decide +kernel

/-! ### Power, resets, boot -/

/-- A device held in reset. -/
def heldD : Dev := { upD with pm := { upD.pm with held := true, rootLock := false }, tm := {} }
theorem test_release : after (.resetRelease 0 0 true) heldD (fun d => !d.pm.held && d.pm.rootLock && d.flt.boots == 2) = true := by
  decide +kernel
theorem witness_ResetsAndPower :
    after (.resetNAssert 100 false) upD (fun d => d.pm.held && d.pm.cause == 1 && !d.tm.op) = true ∧
    after (.resetNAssert 40 true) upD (fun d => d.pm.held) = true ∧ after (.resetNAssert 39 true) upD (fun d => d.tm.op) = true ∧
    after (.mainPor 3) { upD with si := { upD.si with thr := [(0, 1)] } } (fun d => d.pm.cause == 0 && d.si.thr == [(0, 1)] && d.pm.rails == 0x37) = true ∧
    after (.mainPor 2) upD (fun d => d.tm.op) = true ∧
    after .internalResetPulse { upD with hi := { upD.hi with leave := true } } (fun d => d.pm.held && d.pm.cause == 2) = true ∧
    heldD.pm.held = true ∧ heldD.pm.rails = 0x3F ∧
    after (.resetRelease 1 3 true) heldD (fun d => (d.link 0).state == 1 && d.rl.chip == 1 && d.rl.countM1 == 3) = true ∧
    after (.resetRelease 1 3 true) { heldD with pm := { heldD.pm with cause := 2, rails := 0 } } (fun d => !d.pm.held) = true ∧
    after (.resetRelease 1 3 true) { heldD with pm := { heldD.pm with cause := 1, rails := 0x3B } } (fun d => d.pm.held) = true ∧
    after (.mainPor 3) storeD (fun d => d.xs == {}) = true ∧ after (.railExcursion 2) heldD (fun d => !d.si.fatal && d.pm.rails == 0x3B) = true ∧
    after (.resetRelease 1 3 true) upD (fun d => d.rl.countM1 == 0) = true ∧
    after .islandPor upD (fun d => d.si.portOpen && d.pm.rails == 0x3B && d.tm.op) = true ∧
    after (.railExcursion 1) upD (fun d => d.flt.fatal && d.pm.rails == 0x3D) = true ∧
    after (.railExcursion 2) upD (fun d => d.si.fatal) = true ∧
    after (.railExcursion 5) upD (fun d => (d.ctr PM_RAIL_WARN).v == 1 && !d.flt.fatal) = true ∧
    after (.railReturn 5) { upD with pm := { upD.pm with rails := 0 } } (fun d => d.pm.rails == 0x20) = true ∧
    after (.rootPllLoss false) upD (fun d => d.flt.fatal && !d.pm.rootLock) = true ∧
    after (.thermalRead (List.replicate 17 (-1))) upD (fun d => rdIs (PM_THERM_TEMP 16) 0xFFF d && !d.flt.fatal) = true ∧
    after (.thermalRead (List.replicate 17 2000)) { upD with pm := { upD.pm with atShut := 1 } } (fun d => d.flt.fatal) = true := by
  decide +kernel
/-- A device that is to boot, with serial-number fuses that do not keep their complement, or with none programmed. -/
def bootD (f : Mem) (n : Bool) : Dev :=
  { upD with tm := {}, pm := { upD.pm with held := false, rootLock := true, maintN := n }, bt := { upD.bt with fuse := f } }
theorem witness_BootSequence : (bootD [(fuseSerial, 1)] true).bt.fusesOk = false ∧ (bootD [] true).bt.fusesOk = true ∧ flashOk [] = false ∧
    after (.boot []) (bootD [(fuseSerial, 1)] true) (fun d => d.bt.state == 3 && d.bt.reason == 0x16 && d.hi.maint) = true ∧
    after (.boot []) (bootD [] false) (fun d => d.bt.reason == 0x20) = true ∧
    after (.boot []) (bootD [] true) (fun d => d.bt.reason == 0x13 && d.bt.locked && !d.bt.placed) = true ∧
    after .fuseEnrol { upD with bt := { upD.bt with signer := List.replicate 64 1 } } (fun d => d.bt.closed && d.bt.minSv == 0) = true := by
  decide +kernel
theorem witness_SaturatingCounters : ctrHit 0x10110 = some (0x10110, 0) ∧ ctrHit 0x10114 = some (0x10110, 4) ∧
    ctrHit 0x10118 = some (0x10110, 8) ∧ islandAddr 0x10110 = false ∧
    ((upD.bump 0x10110 (2 ^ 64 - 2)).bump 0x10110 1).ctr 0x10110 = { v := 2 ^ 64 - 1, ovf := true } ∧
    (upD.bump 0x10110 (2 ^ 64 - 2)).ctr 0x10110 = { v := 2 ^ 64 - 2 } := by decide +kernel
theorem witness_SerialNumbers : older 0x8000 0 16 = true ∧ older 0x7FFF 0 16 = false ∧ older 0 0 16 = false ∧
    sOlder 0xFFFFFFFFFFFF 0 = true := by decide +kernel
theorem test_flash_places :
    ({ flashBoth := true, flashDev := 131072 } : BootSt).flashKey (2 * 65536 + 5) = 65536 + 5 ∧
    ({ flashBoth := true, flashDev := 131072 } : BootSt).flashKey (5 * 65536 + 5) = 2 ^ 28 * 17 + 5 ∧
    ({ flashDev := 131072 } : BootSt).flashKey 131073 = 2 ^ 28 + 1 := by decide +kernel
theorem test_host_read_uncorrectable : after (.bar2Read 0x1C { len := 8, errs := [{ off := 0x10, unc := true }] }) { upD with mem := [(0x20, 7)] }
    (fun d => d.out.any (fun o => match o with
      | .readData bs => bs.length == 8 && bs.drop 4 == [7, 0, 0, 0]
      | _ => false)) = true := by decide +kernel
theorem test_pins_in_reset : (let d : Dev := { upD with pm := { upD.pm with held := true } }
    d.pinOn .safeOk = .pair false false ∧ d.pinOn .storeSelect = .pullUp ∧ d.pinOn (.trig 23) = .pullDown) ∧
    ({ upD with si := { upD.si with running := true, pin := true } } : Dev).pinOn .safeOk = .pair true false := by decide +kernel

end Sys2Proof.Tests
end

section
/-! SUPPORT. The commit of a command's blocks, as one shape of every command (statements NoCommandStopsTheBlock and
CommandFrame). -/

namespace Sys2Proof.Machine

@[simp] theorem pick_pick {α : Type} (b : Bool) (old new : α) : pick b old (pick b old new) = pick b old new := by
  cases b <;> rfl

/-- A block of which a report reaches a part, taken twice from the new state. -/
theorem pick_side_pick {α : Type} (side : α → α → α) (h : ∀ old new, side old (side old new) = side old new)
    (b : Bool) (old new : α) :
    pick b (side old (pick b (side old new) new)) (pick b (side old new) new) = pick b (side old new) new := by
  cases b
  · exact h old new
  · rfl

theorem Dev.blocks_blocks (w : Writes) (old new : Dev) :
    Dev.blocks w old (Dev.blocks w old new) = Dev.blocks w old new := by
  simp only [Dev.blocks, pick_pick, pick_side_pick TimeSt.side (fun _ _ => rfl),
    pick_side_pick IslandSt.side (fun _ _ => rfl), pick_side_pick FltSt.side (fun _ _ => rfl),
    pick_side_pick HostSt.side (fun _ _ => rfl), pick_side_pick StoreSt.side (fun _ _ => rfl)]

theorem Dev.blocks_sameMode (w : Writes) (old new : Dev) :
    Dev.blocks w old (new.sameMode old) = (Dev.blocks w old new).sameMode old := by
  obtain ⟨tm, _, _, _, _, _, _, _, _, _, _, hi, _, bt, pm, _, _, _⟩ := w
  cases tm <;> cases hi <;> cases bt <;> cases pm <;> rfl

theorem Dev.blocks_sameOk (w : Writes) (old new : Dev) :
    Dev.blocks w old (new.sameOk old) = (Dev.blocks w old new).sameOk old := by
  obtain ⟨_, _, _, _, _, _, _, _, si, _, _, _, _, _, _, _, _, _⟩ := w
  cases si <;> rfl

/-- Taking the blocks acted on from a state that was so taken leaves it as it is. -/
theorem Dev.commit_commit (w : Writes) (old new : Dev) : old.commit w (old.commit w new) = old.commit w new := by
  unfold Dev.commit
  cases w.mode <;> cases w.ok <;>
    simp only [Bool.false_eq_true, if_true, if_false, Dev.blocks_sameMode, Dev.blocks_sameOk, Dev.blocks_blocks] <;> rfl

/-- A command answers the commit of an effect on the blocks that `Instr.acts` names, and the queue as it was. -/
theorem exec_next (c : Instr) (s : State) :
    ∃ e, exec c s = .next { s with dev := s.dev.commit c.acts e } := by
  cases c <;> exact ⟨_, rfl⟩

end Sys2Proof.Machine

open Sys2Proof Sys2Proof.Machine

/-- Settles O2: every command answers the commit of its effect, which leaves the queue as it is. -/
theorem noCommandStopsTheBlock : Obligations.NoCommandStopsTheBlock := by
  intro c s
  obtain ⟨e, he⟩ := exec_next c s
  exact ⟨_, he, rfl⟩

/-- Settles O6: what a command answers is a commit on its blocks already, and a commit taken twice is the first. -/
theorem commandFrame : Obligations.CommandFrame := by
  intro c s t h
  obtain ⟨e, he⟩ := exec_next c s
  obtain rfl : _ = t := Host.Outcome.next.inj (he.symm.trans h)
  exact (Dev.commit_commit _ _ _).symm
end

section
/-! SUPPORT. Serial-number comparison (R15). -/

namespace Sys2Proof.Machine

/-- The difference that `older` computes is the difference of the two numbers modulo `2 ^ n` (R15). -/
theorem sub_emod_two_pow (v c n : Nat) :
    ((c : Int) - v) % ((2 ^ n : Nat) : Int) = (((c + 2 ^ n - v % 2 ^ n) % 2 ^ n : Nat) : Int) := by
  have hv : v % 2 ^ n < 2 ^ n := Nat.mod_lt _ (by positivity)
  rw [Int.natCast_emod, Nat.cast_sub (by omega), Nat.cast_add, Int.natCast_emod v, Int.sub_emod_emod,
    add_sub_right_comm, Int.add_emod_right]

theorem older_iff (v c n : Nat) : older v c n = true ↔ ((c : Int) - v) % ((2 ^ n : Nat) : Int) ≠ 0 ∧
    ((c : Int) - v) % ((2 ^ n : Nat) : Int) ≤ ((2 ^ (n - 1) : Nat) : Int) := by
  rw [sub_emod_two_pow, ne_eq, Nat.cast_eq_zero, Nat.cast_le]
  simp [older]

/-- The boundary value: half of the range away, before or behind, is older. -/
theorem older_of_sub_emod {v c n : Nat}
    (h : ((c : Int) - v) % ((2 ^ n : Nat) : Int) = ((2 ^ (n - 1) : Nat) : Int)) : older v c n = true := by
  rw [older_iff, h]
  exact ⟨by positivity, le_rfl⟩

theorem two_pow_eq_half_add_half {n : Nat} (hn : 1 ≤ n) :
    ((2 ^ n : Nat) : Int) = ((2 ^ (n - 1) : Nat) : Int) + ((2 ^ (n - 1) : Nat) : Int) := by
  obtain ⟨m, rfl⟩ := Nat.exists_eq_succ_of_ne_zero (by omega : n ≠ 0)
  rw [Nat.succ_sub_one, pow_succ]; push_cast; ring

theorem older_half (c : Nat) {n : Nat} (hn : 1 ≤ n) :
    older (c + 2 ^ (n - 1)) c n = true ∧ older c (c + 2 ^ (n - 1)) n = true := by
  have hp : (0 : Int) < ((2 ^ (n - 1) : Nat) : Int) := by positivity
  have h2 := two_pow_eq_half_add_half hn
  constructor <;> apply older_of_sub_emod <;> rw [h2, Nat.cast_add]
  · rw [Int.emod_eq_iff (by omega)]
    refine ⟨by omega, by omega, ⟨1, by omega⟩⟩
  · rw [add_sub_cancel_left]
    exact Int.emod_eq_of_lt hp.le (by omega)

theorem sOlder_iff (x y : Stroke) : sOlder x y = true ↔ x ≠ y ∧ (y - x).toNat ≤ 2 ^ 47 := by
  have hd : (y.toNat + 2 ^ 48 - x.toNat % 2 ^ 48) % 2 ^ 48 = (y - x).toNat := by
    rw [BitVec.toNat_sub, Nat.mod_eq_of_lt x.isLt, Nat.add_comm, Nat.sub_add_comm x.isLt.le]
  have hxy : (y - x).toNat ≠ 0 ↔ x ≠ y := by bv_omega
  simp only [sOlder, older, hd, Bool.and_eq_true, bne_iff_ne, decide_eq_true_eq, hxy]

end Sys2Proof.Machine

open Sys2Proof Sys2Proof.Machine

/-- Settles O60: `older` is the test of R15 on the difference modulo `2 ^ n`. -/
theorem serialNumbers : Obligations.SerialNumbers := fun v c n x y =>
  ⟨older_iff v c n, older_half c, sOlder_iff x y⟩
end

section
/-! SUPPORT. Counters and the register file (R10). -/
namespace Sys2Proof.Machine

/-! ### Saturating counters (R10) -/

theorem ctrAdd_of_lt {c : Ctr} {n : Nat} (hn : 1 ≤ n) (h : c.v + n < 2 ^ 64 - 1) :
    ctrAdd c n = { v := c.v + n, ovf := c.ovf } := by
  rw [ctrAdd, if_neg (by omega), if_neg (by omega)]

theorem ctrAdd_of_le {c : Ctr} {n : Nat} (hn : 1 ≤ n) (h : 2 ^ 64 - 1 ≤ c.v + n) :
    ctrAdd c n = { v := 2 ^ 64 - 1, ovf := true } := by
  rw [ctrAdd, if_neg (by omega), if_pos h]

/-- A counter at all-ones stays there. -/
theorem ctrAdd_full (n : Nat) : ctrAdd { v := 2 ^ 64 - 1, ovf := true } n = { v := 2 ^ 64 - 1, ovf := true } := by
  rcases Nat.eq_zero_or_pos n with rfl | hn
  · rfl
  · exact ctrAdd_of_le hn (Nat.le_add_right _ _)

@[simp] theorem Dev.ctr_ctrClear_same (d : Dev) (a : Nat) : (d.ctrClear a).ctr a = {} := by
  simp [Dev.ctr, Dev.ctrClear]

theorem Dev.ctr_ctrClear_ne (d : Dev) {a b : Nat} (h : b ≠ a) : (d.ctrClear a).ctr b = d.ctr b := by
  simp [Dev.ctr, Dev.ctrClear, smGet_smSet_ne _ _ _ h]

@[simp] theorem Dev.rd_ctrClear (d : Dev) (a b : Nat) : (d.ctrClear a).rd b = d.rd b := rfl

theorem counterClear_eq {a b o : Nat} (h : ctrHit a = some (b, o)) (hi : islandAddr a = false) (d : Dev) :
    counterClear a d = d.ctrClear b := by
  simp [counterClear, h, hi]

/-- COUNTER_CLEAR answers a state that differs in its registers as the clearing of the counter says. -/
theorem exec_counterClear {a b o : Nat} (h : ctrHit a = some (b, o)) (hi : islandAddr a = false) (s : State) :
    ∃ t, exec (.counterClear a) s = .next t ∧ t.dev.reg = (s.dev.ctrClear b).reg :=
  ⟨_, rfl, by rw [Dev.commit_reg, counterClear_eq h hi]⟩

/-- A word of a counter, above the MSI-X table and its pending bits. -/
theorem Dev.readWord_ctr {d : Dev} {a b o : Nat} (raw : Nat) (ha : 0x3008 ≤ a) (h : ctrHit a = some (b, o)) :
    d.readWord raw a = if o = 0 then some (loW (d.ctr b).v) else if o = 4 then some (hiW (d.ctr b).v)
      else if o = 8 then some (loW (2 * b2n (d.ctr b).ovf)) else none := by
  rw [Dev.readWord, if_neg (by omega), if_neg (by omega), if_neg (by omega), h]

/-! ### What depends on the register file alone -/

theorem Dev.rd_congr {d e : Dev} (h : d.reg = e.reg) (a : Nat) : d.rd a = e.rd a := by rw [Dev.rd, h]; rfl
theorem Dev.rdLive_congr {d e : Dev} (h : d.reg = e.reg) (a : Nat) : d.rdLive a = e.rdLive a := by
  rw [Dev.rdLive, h]; rfl
theorem Dev.ctr_congr {d e : Dev} (h : d.reg = e.reg) (a : Nat) : d.ctr a = e.ctr a := by rw [Dev.ctr, h]; rfl

end Sys2Proof.Machine

open Sys2Proof Sys2Proof.Machine

/-- Settles O59: one counter advances by `ctrAdd`, which all-ones absorbs (R10). -/
theorem saturatingCounters : Obligations.SaturatingCounters := by
  intro s a n raw d c e full
  refine ⟨fun hn h => ?_, fun hn h => ?_, fun h => ?_, fun k hk => d.ctr_bump_ne n hk, fun h h0 h4 h8 ha => ?_,
    fun h0 hi => ?_⟩
  · rw [Dev.ctr_bump_same, ctrAdd_of_lt hn h]
  · rw [Dev.ctr_bump_same, ctrAdd_of_le hn h]
  · rw [Dev.ctr_bump_same, show d.ctr a = full from h, ctrAdd_full]
  · rw [Dev.readWord_ctr raw ha h0, Dev.readWord_ctr raw (by omega) h4, Dev.readWord_ctr raw (by omega) h8,
      show d.ctr a = { v := 2 ^ 64 - 1, ovf := true } from h]
    exact ⟨by decide, by decide, _, rfl, by decide⟩
  · obtain ⟨t, ht, hreg⟩ := exec_counterClear h0 hi s
    have hclear : t.dev.ctr a = {} := (Dev.ctr_congr hreg a).trans (Dev.ctr_ctrClear_same _ _)
    exact ⟨t, ht, hclear, by rw [Dev.ctr_bump_same, hclear]; rfl⟩
end

section
/-! SUPPORT. A read of BAR2 while a scheduled write is in flight. -/
namespace Sys2Proof.Machine

/-- An operational device whose crew 0 has come to schedule cycle 1, with a scheduled write of core 0 to byte 0 of its tile
plane, of bank cycle 0, that has not reached the memory yet (R158, R162). -/
def writeInFlight : State :=
  { State.reset with
    dev :=
      { State.reset.dev with
        tm := { State.reset.dev.tm with op := true }
        bt := { State.reset.dev.bt with placed := true, locked := true }
        cw :=
          { State.reset.dev.cw with
            vol := [(0, { writes := [{ at_ := 0, word := false, off := 0, bytes := [1] }] })]
            crews := [(0, { pos := 1 })] } } }

theorem writeInFlight_inv : writeInFlight.inv = true := by decide +kernel

/-- The host's read comes after the scheduled write of the earlier cycle and answers its byte, not that of the memory as
it stood (R159). -/
theorem bar2Read_writeInFlight :
    ∃ t, exec (.bar2Read 0 { len := 1, errs := [] }) writeInFlight = .next t ∧ t.dev.out = [.readData [1]] :=
  ⟨_, rfl, by decide +kernel⟩

end Sys2Proof.Machine

open Sys2Proof Sys2Proof.Machine

/-- Refutes O55: with a scheduled write of core 0 in flight, the write of byte 0 at an earlier cycle lands before the host's
read of that byte (R159, R162), which answers the byte written and not that of the memory before the read. -/
theorem not_hostReads : ¬ Obligations.HostReads := by
  intro h
  obtain ⟨-, -, -, hplane, -⟩ := h writeInFlight 0 0 0 4 1 0 [] [] (by decide +kernel)
  obtain ⟨hgood, -⟩ := hplane (by decide) (by decide +kernel)
  obtain ⟨t, hexec, hout⟩ := hgood (by simp)
  obtain ⟨t', hexec', hout'⟩ := bar2Read_writeInFlight
  obtain rfl : t = t' := Host.Outcome.next.inj (hexec.symm.trans hexec')
  rw [hout'] at hout
  exact absurd hout (by decide +kernel)
end

section
/-! SUPPORT. Writes of BAR0 registers by the host (R9, R13, R406, R474): what each command leaves in the register file. -/
namespace Sys2Proof.Machine

/-! ### Register files after the commands of the host's writes -/

@[simp] theorem Dev.recPost_reg (new old : Dev) : (new.recPost old).reg = new.reg := by
  unfold Dev.recPost
  dsimp only
  split
  · exact Dev.irq_reg new 10
  · rfl

@[simp] theorem Dev.logReg_reg (d : Dev) (s : Stroke) (a : Nat) (v : Word) : (d.logReg s a v).reg = d.reg := by
  unfold Dev.logReg Dev.logIn
  split <;> rfl

theorem exec_registerWrite (a size : Nat) (v : Word64) (s : State) :
    ∃ t, exec (.registerWrite a size v) s = .next t ∧ t.dev.reg = (registerWrite a size v s.dev).reg :=
  ⟨_, rfl, by rw [Dev.commit_reg, Dev.recPost_reg]⟩

theorem exec_complementValueWrite (a : Nat) (v : Word) (s : State) :
    ∃ t, exec (.complementValueWrite a v) s = .next t ∧ t.dev.reg = (complementValue a v s.dev).reg :=
  ⟨_, rfl, Dev.commit_reg _ _ _⟩

theorem exec_complementCWrite (a : Nat) (v : Word) (s : State) :
    ∃ t, exec (.complementCWrite a v) s = .next t ∧ t.dev.reg = (complementC a v s.dev).reg :=
  ⟨_, rfl, Dev.commit_reg _ _ _⟩

/-- STREAM_MASK_WRITE leaves intake as it is: its mask changes at the boundary (R44). -/
theorem exec_streamMaskWrite (high : Bool) (v : Word) (s : State) :
    ∃ t, exec (.streamMaskWrite high v) s = .next t ∧ t.dev.reg = (streamMaskWrite high v s.dev).reg ∧
      t.dev.ig = s.dev.ig :=
  ⟨_, rfl, Dev.commit_reg _ _ _, Dev.commit_ig _ _ _⟩

/-! ### What one word written by the host does -/

theorem ite_some_eq_none {α : Type} {c : Prop} [Decidable c] {x : α} {y : Option α} :
    (if c then some x else y) = none ↔ ¬ c ∧ y = none := by
  by_cases h : c <;> simp [h]

/-- The registers with a rule of their own (`Dev.regSpecial`), by address. -/
def specialReg (a : Nat) : Prop :=
  a ∈ [CS_REC_CTRL, CS_REC_HEAD, CS_REC_TAIL, CM_POSE_COMMIT, ET_ADAPT_CTRL, TB_ADJ_CTRL, HI_MBX_CMD, HI_IRQ_CAUSE] ∨
    (instOf (ET_TABLE_CTRL 0) 0x40 64 a).isSome ∨ (instOf (HI_RING_CFG 0) 0x40 7 a).isSome ∨
    (instOf (HI_RING_PROD 0) 0x40 7 a).isSome ∨ (instOf (HI_RING_CONS 0) 0x40 7 a).isSome

/-- Whether a register has a rule of its own depends on its address alone. -/
theorem Dev.regSpecial_eq_none_iff (d : Dev) (mbx : Nat → Dev → Dev) (a : Nat) (v : Word) :
    d.regSpecial mbx a v = none ↔ ¬ specialReg a := by
  unfold Dev.regSpecial
  simp only [ite_some_eq_none]
  cases ht : instOf (ET_TABLE_CTRL 0) 0x40 64 a <;> cases hc : instOf (HI_RING_CFG 0) 0x40 7 a <;>
    cases hp : instOf (HI_RING_PROD 0) 0x40 7 a <;> cases hs : instOf (HI_RING_CONS 0) 0x40 7 a <;>
    simp [specialReg, ht, hc, hp, hs]

/-- Addresses above the MSI-X table and its pending bits where no counter lies: a register of a row is written. -/
theorem hostWord_reg {a : Nat} {r : RegRow} (hm : ¬ (0x2000 ≤ a ∧ a < 0x2400)) (hp : ¬ (0x3000 ≤ a ∧ a < 0x3008))
    (hc : ctrHit a = none) (hr : regRow a = some r) (v : Word) (d : Dev) :
    hostWord a v d = d.regWrite (mailbox false) r a v := by
  rw [hostWord, Dev.writeWord, if_neg hm, if_neg hp, hc, hr]

/-- Where nothing lies, a write is counted and discarded. -/
theorem hostWord_nothing {a : Nat} (ha : 0x3008 ≤ a) (hc : ctrHit a = none) (hr : regRow a = none) (v : Word) (d : Dev) :
    hostWord a v d = d.bump HI_BAR0_BAD := by
  rw [hostWord, Dev.writeWord, if_neg (by omega), if_neg (by omega), hc, hr]

theorem Dev.digestMask_of_ne {a : Nat} (h : a ≠ CS_CFG) (d : Dev) : d.digestMask a = 0xFFFFFFFF := by
  simp [Dev.digestMask, h]

/-- A write by the access codes of the fields (R9), of any register but CS_CFG. -/
theorem Dev.regStore_eq {a : Nat} (h : a ≠ CS_CFG) (d : Dev) (r : RegRow) (v : Word) :
    d.regStore r a v = d.hw a (r.written (d.rd a) v) := by
  have hm (x : Word) : x &&& 0xFFFFFFFF = x := BitVec.and_allOnes
  rw [Dev.regStore, Dev.digestMask_of_ne h, hm, RegRow.written]

theorem Dev.regPlain_eq {d : Dev} {a : Nat} (hb : d.ringBarred a = false)
    (ht : instOf (TB_TRIG_CFG 0) 0x20 24 (a / 32 * 32) = none) (h : a ≠ CS_CFG) (r : RegRow) (v : Word) :
    d.regPlain r a v = d.hw a (r.written (d.rd a) v) := by
  rw [Dev.regPlain, hb, ht, ← Dev.regStore_eq h]
  rfl

theorem ne_csCfg_of_not_logged {a : Nat} (h : loggedReg a = false) : a ≠ CS_CFG := by
  rintro rfl
  exact absurd h (by decide)

theorem hostWord_plain {d : Dev} {a : Nat} {r : RegRow} {v : Word} (h : d.plainAt a r v) :
    hostWord a v d = d.hw a (r.written (d.rd a) v) := by
  obtain ⟨hr, hc, hm, hp, hcm, hbl, hpm, hlog, hsp, hbar, htr⟩ := h
  rw [hostWord_reg hm hp hc hr, Dev.regWrite, if_neg (by simp [hcm]), if_neg (by simp [hbl]), hpm, hsp, hlog,
    Dev.regPlain_eq hbar htr (ne_csCfg_of_not_logged hlog)]
  rfl

theorem Dev.plainAt_hw {d : Dev} {a : Nat} {r : RegRow} {v : Word} (h : d.plainAt a r v) (b : Nat) (w : Word) :
    (d.hw b w).plainAt a r v := by
  obtain ⟨hr, hc, hm, hp, hcm, hbl, hpm, hlog, hsp, hbar, htr⟩ := h
  exact ⟨hr, hc, hm, hp, hcm, hbl, hpm, hlog, (Dev.regSpecial_eq_none_iff _ _ _ _).2 ((Dev.regSpecial_eq_none_iff _ _ _ _).1 hsp),
    hbar, htr⟩

/-- A BL register takes no write; once locked it counts it (R9). -/
theorem hostWord_bl {d : Dev} {a : Nat} {r : RegRow} (hr : regRow a = some r) (hc : ctrHit a = none) (ha : 0x3008 ≤ a)
    (hcm : r.cMask = 0) (hbl : r.bl ≠ 0) (v : Word) :
    hostWord a v d = d.bump BT_BL_IGNORED (b2n d.bt.locked) := by
  rw [hostWord_reg (by omega) (by omega) hc hr, Dev.regWrite, if_neg (by simp [hcm]), if_pos hbl]

/-! ### Accesses of the host that keep size and alignment (R406) -/

theorem registerWrite_four {d : Dev} (hh : d.pm.held = false) {a : Nat} (h4 : a % 4 = 0) (ha : a < 2 ^ 28) (v : Word64) :
    registerWrite a 4 v d = hostWord a (loW v.toNat) d := by
  have hok : bar0Ok a 4 = true := by simp [bar0Ok, h4]; omega
  simp [registerWrite, hh, hok]

theorem registerWrite_eight {d : Dev} (hh : d.pm.held = false) {a : Nat} (h8 : a % 8 = 0) (ha : a < 2 ^ 28) (v : Word64) :
    registerWrite a 8 v d = hostWord (a + 4) (hiW v.toNat) (hostWord a (loW v.toNat) d) := by
  have hok : bar0Ok a 8 = true := by simp [bar0Ok, h8]; omega
  simp [registerWrite, hh, hok]

theorem registerWrite_bad {d : Dev} (hh : d.pm.held = false) {a size : Nat}
    (h : (size ≠ 4 ∧ size ≠ 8) ∨ a % size ≠ 0) (v : Word64) :
    registerWrite a size v d = d.bump HI_BAR0_BAD := by
  have hbad : bar0Ok a size = false := by
    rw [bar0Ok]; rcases h with ⟨h4, h8⟩ | h <;> simp [*]
  simp [registerWrite, hh, hbad]

theorem registerWrite_nothing {d : Dev} (hh : d.pm.held = false) {a : Nat} (hr : regRow a = none) (hc : ctrHit a = none)
    (ha : a < 2 ^ 28) (hlo : 0x3008 ≤ a) (v : Word64) : registerWrite a 4 v d = d.bump HI_BAR0_BAD := by
  by_cases h4 : a % 4 = 0
  · rw [registerWrite_four hh h4 ha, hostWord_nothing hlo hc hr]
  · exact registerWrite_bad hh (.inr h4) v

/-! ### Complement-checked pairs (R13) -/

/-- The value under a key of the pairs' pending values. -/
def Dev.pendAt (d : Dev) (a : Nat) : Option Word := smGet (fun _ => none) d.reg.pend a

/-- The rows of a pair's value and of its complement. -/
theorem pairAt_rows {a mask : Nat} (h : pairAt a mask) :
    ∃ q r, regRow a = some q ∧ q.bl = 0 ∧ q.rw ≠ 0 ∧ q.cMask = 0 ∧
      regRow (a + 4) = some r ∧ r.cMask = mask ∧ r.cMask ≠ 0 := by
  obtain ⟨hm, -, -, -, q, hq, hbl, hrw, hcm⟩ := h
  unfold pairMask at hm
  split at hm
  case h_1 r hr =>
    split at hm
    case isTrue => cases hm
    case isFalse hne => exact ⟨q, r, hq, hbl, hrw, hcm, hr, Option.some.inj hm, fun h0 => hne (.inl h0)⟩
  case h_2 => cases hm

theorem complementValue_pair {d : Dev} {a mask : Nat} (h : pairAt a mask) (hh : d.pm.held = false)
    (hr : d.lg.replaying = false) (v : Word) : complementValue a v d = d.pairValue a v := by
  obtain ⟨q, r, hq, hbl, hrw, hcm, -, -, -⟩ := pairAt_rows h
  obtain ⟨hm, hc, -, ha, -⟩ := h
  rw [complementValue, if_neg (by simp [hh, hm]), hostWord_reg (by omega) (by omega) hc hq, Dev.regWrite,
    if_neg (by simp [hcm]), if_neg (by simp [hbl]), if_pos (by simp [hm]), if_neg (by simp [hrw, hr])]

theorem complementC_pair {d : Dev} {a mask : Nat} (h : pairAt a mask) (hh : d.pm.held = false)
    (hr : d.lg.replaying = false) (v : Word) : complementC a v d = d.pairCompl a mask v := by
  obtain ⟨q, r, hq, hbl, hrw, -, hrow, rfl, hne⟩ := pairAt_rows h
  obtain ⟨hm, -, hc, ha, -⟩ := h
  rw [complementC, if_neg (by simp [hh, hm]), hostWord_reg (by omega) (by omega) hc hrow, Dev.regWrite,
    if_pos hne, Nat.add_sub_cancel, hq]
  simp only [hbl, hrw, hr]
  simp

/-- A pending value taken out. -/
def Dev.unpend (d : Dev) (a : Nat) : Dev :=
  { d with reg := { d.reg with pend := smSet (fun _ => none) d.reg.pend a none } }

theorem Dev.pendAt_congr {d e : Dev} (h : d.reg = e.reg) (a : Nat) : d.pendAt a = e.pendAt a := by
  rw [Dev.pendAt, h]; rfl
@[simp] theorem Dev.pendAt_pairValue_same (d : Dev) (a : Nat) (v : Word) : (d.pairValue a v).pendAt a = some v := by
  simp [Dev.pendAt, Dev.pairValue]
theorem Dev.pendAt_pairValue_ne (d : Dev) {a b : Nat} (v : Word) (h : b ≠ a) :
    (d.pairValue a v).pendAt b = d.pendAt b := by
  simp [Dev.pendAt, Dev.pairValue, smGet_smSet_ne _ _ _ h]
@[simp] theorem Dev.pendAt_unpend_same (d : Dev) (a : Nat) : (d.unpend a).pendAt a = none := by
  simp [Dev.pendAt, Dev.unpend]
@[simp] theorem Dev.rd_unpend (d : Dev) (a b : Nat) : (d.unpend a).rd b = d.rd b := rfl
@[simp] theorem Dev.rdLive_unpend (d : Dev) (a b : Nat) : (d.unpend a).rdLive b = d.rdLive b := rfl

theorem Dev.pairTake_reg (d : Dev) (a : Nat) (v : Word) :
    (d.pairTake a v).reg =
      { (d.hw a v).reg with acc := d.reg.acc.filter (fun x => decide (x ≠ a)) ++ [a] } := by
  unfold Dev.pairTake
  dsimp only
  split
  · rfl
  · rw [Dev.logReg_reg]; rfl

@[simp] theorem Dev.rd_pairTake_same (d : Dev) (a : Nat) (v : Word) : (d.pairTake a v).rd a = v := by
  rw [Dev.rd, Dev.pairTake_reg]; exact Dev.rd_hw_same d a v
theorem Dev.rd_pairTake_ne (d : Dev) {a b : Nat} (v : Word) (h : b ≠ a) : (d.pairTake a v).rd b = d.rd b := by
  rw [Dev.rd, Dev.pairTake_reg]; exact Dev.rd_hw_ne d v h
@[simp] theorem Dev.rdLive_pairTake (d : Dev) (a b : Nat) (v : Word) : (d.pairTake a v).rdLive b = d.rdLive b := by
  rw [Dev.rdLive, Dev.pairTake_reg]; rfl
@[simp] theorem Dev.pendAt_pairTake (d : Dev) (a b : Nat) (v : Word) : (d.pairTake a v).pendAt b = d.pendAt b := by
  rw [Dev.pendAt, Dev.pairTake_reg]; rfl

theorem Dev.pairCompl_match {d : Dev} {a mask : Nat} {v w : Word} (hw : d.pendAt a = some w)
    (hm : (w ^^^ v) &&& BitVec.ofNat 32 mask = BitVec.ofNat 32 mask) :
    d.pairCompl a mask v = (d.unpend a).pairTake a (w &&& BitVec.ofNat 32 mask) := by
  rw [Dev.pendAt] at hw
  simp only [Dev.pairCompl, hw, if_pos hm]
  rfl

theorem Dev.pairCompl_mismatch {d : Dev} {a mask : Nat} {v w : Word} (hw : d.pendAt a = some w)
    (hm : ¬ (w ^^^ v) &&& BitVec.ofNat 32 mask = BitVec.ofNat 32 mask) :
    d.pairCompl a mask v = ((d.unpend a).bump FLT_CMPL_WRITE).report { src := 0x08, unit := unitOf 7 0 } := by
  rw [Dev.pendAt] at hw
  simp only [Dev.pairCompl, hw, if_neg hm]
  rfl

/-- The registers after a corrected fault: FLT_CORRECTED counts (R351). -/
theorem Dev.report_corrected_reg (d : Dev) (r : FltRep) (h : fltClass r.src = 1) :
    (d.report r).reg = (d.bump FLT_CORRECTED).reg := by
  unfold Dev.report
  rw [h]
  exact Dev.mon_reg _ _

/-! ### The stream mask (R44) -/

/-- A write of a register that is logged, outside a replay: beside the log it writes by the access codes (R229). -/
theorem Dev.regWrite_logged {d : Dev} {a : Nat} {r : RegRow} (hcm : r.cMask = 0) (hbl : r.bl = 0) (hpm : pairMask a = none)
    (hsp : ¬ specialReg a) (hlog : loggedReg a = true) (hrep : d.lg.replaying = false) (mbx : Nat → Dev → Dev) (v : Word) :
    (d.regWrite mbx r a v).reg = (d.regPlain r a v).reg := by
  rw [Dev.regWrite, if_neg (by simp [hcm]), if_neg (by simp [hbl]), hpm, (Dev.regSpecial_eq_none_iff _ _ _ _).2 hsp,
    hlog, hrep]
  exact Dev.logReg_reg _ _ _ _

/-- The two words of IG_STREAM_MASK lie apart from counters, pairs, rings, triggers and registers of a rule of their own, and
are logged. -/
theorem streamMask_place {a : Nat} (ha : a = IG_STREAM_MASK_HI ∨ a = IG_STREAM_MASK_LO) :
    ctrHit a = none ∧ 0x3008 ≤ a ∧ pairMask a = none ∧ loggedReg a = true ∧ ¬ specialReg a ∧
      ¬ (HI_RING_CFG 0 ≤ a ∧ a < HI_RING_CFG 7) ∧ instOf (TB_TRIG_CFG 0) 0x20 24 (a / 32 * 32) = none ∧ a ≠ CS_CFG := by
  unfold specialReg
  rcases ha with rfl | rfl <;> decide +kernel

theorem hostWord_streamMask {d : Dev} {a : Nat} {r : RegRow} (ha : a = IG_STREAM_MASK_HI ∨ a = IG_STREAM_MASK_LO)
    (hr : regRow a = some r) (hcm : r.cMask = 0) (hbl : r.bl = 0) (hrep : d.lg.replaying = false) (v : Word) :
    (hostWord a v d).reg = (d.hw a (r.written (d.rd a) v)).reg := by
  obtain ⟨hc, hlo, hpm, hlog, hsp, hring, htr, hne⟩ := streamMask_place ha
  have hbar : d.ringBarred a = false := by rw [Dev.ringBarred, if_neg hring]
  rw [hostWord_reg (by omega) (by omega) hc hr, Dev.regWrite_logged hcm hbl hpm hsp hlog hrep, Dev.regPlain_eq hbar htr hne]

theorem RegRow.written_of_w1c {r : RegRow} (h : r.w1c = 0) (old v : Word) :
    r.written old v = (old &&& ~~~(BitVec.ofNat 32 r.rw)) ||| (v &&& BitVec.ofNat 32 r.rw) := by
  rw [RegRow.written, h]
  exact (congrArg _ (by simp)).trans BitVec.and_allOnes

theorem streamMaskHi_row : (regRow IG_STREAM_MASK_HI).map (fun r => (r.rw, r.w1c, r.bl, r.cMask)) = some (0xFFFF, 0, 0, 0) := by
  decide +kernel

theorem streamMaskLo_row :
    (regRow IG_STREAM_MASK_LO).map (fun r => (r.rw, r.w1c, r.bl, r.cMask)) = some (0xFFFFFFFF, 0, 0, 0) := by
  decide +kernel

theorem hostWord_streamMaskHi {d : Dev} (hrep : d.lg.replaying = false) (v : Word) :
    (hostWord IG_STREAM_MASK_HI v d).reg =
      (d.hw IG_STREAM_MASK_HI ((d.rd IG_STREAM_MASK_HI &&& 0xFFFF0000) ||| (v &&& 0xFFFF))).reg := by
  obtain ⟨r, hr, hf⟩ := Option.map_eq_some_iff.1 streamMaskHi_row
  obtain ⟨hrw, hw1c, hbl, hcm⟩ : r.rw = 0xFFFF ∧ r.w1c = 0 ∧ r.bl = 0 ∧ r.cMask = 0 := by simpa using hf
  rw [hostWord_streamMask (.inl rfl) hr hcm hbl hrep, RegRow.written_of_w1c hw1c, hrw]
  rfl

theorem hostWord_streamMaskLo {d : Dev} (hrep : d.lg.replaying = false) (v : Word) :
    (hostWord IG_STREAM_MASK_LO v d).reg = (d.hw IG_STREAM_MASK_LO v).reg := by
  obtain ⟨r, hr, hf⟩ := Option.map_eq_some_iff.1 streamMaskLo_row
  obtain ⟨hrw, hw1c, hbl, hcm⟩ : r.rw = 0xFFFFFFFF ∧ r.w1c = 0 ∧ r.bl = 0 ∧ r.cMask = 0 := by simpa using hf
  have hall (old : Word) : (old &&& ~~~(BitVec.ofNat 32 0xFFFFFFFF)) ||| (v &&& BitVec.ofNat 32 0xFFFFFFFF) = v := by
    rw [show BitVec.ofNat 32 0xFFFFFFFF = BitVec.allOnes 32 from rfl, BitVec.and_allOnes, BitVec.not_allOnes,
      BitVec.and_zero, BitVec.zero_or]
  rw [hostWord_streamMask (.inr rfl) hr hcm hbl hrep, RegRow.written_of_w1c hw1c, hrw, hall]

/-! ### What the commands of the host's writes leave in the registers -/

/-- A write that does nothing but count, at any address. -/
theorem exec_registerWrite_counted {s : State} {a size k n : Nat} {v : Word64} (h : registerWrite a size v s.dev = s.dev.bump k n) :
    ∃ t, exec (.registerWrite a size v) s = .next t ∧ t.dev.ctr k = ctrAdd (s.dev.ctr k) n ∧
      ∀ e, t.dev.rd e = s.dev.rd e := by
  obtain ⟨t, ht, hreg⟩ := exec_registerWrite a size v s
  rw [h] at hreg
  exact ⟨t, ht, by rw [Dev.ctr_congr hreg, Dev.ctr_bump_same], fun e => by rw [Dev.rd_congr hreg, Dev.rd_bump]⟩

section
variable {s : State} (hh : s.dev.pm.held = false)
include hh

theorem exec_registerWrite_plain {a : Nat} {r : RegRow} {v : Word64} (h : s.dev.plainAt a r (loW v.toNat)) (h4 : a % 4 = 0)
    (ha : a < 2 ^ 28) :
    ∃ t, exec (.registerWrite a 4 v) s = .next t ∧ t.dev.rd a = r.written (s.dev.rd a) (loW v.toNat) ∧
      ∀ e, e ≠ a → t.dev.rd e = s.dev.rd e := by
  obtain ⟨t, ht, hreg⟩ := exec_registerWrite a 4 v s
  rw [registerWrite_four hh h4 ha, hostWord_plain h] at hreg
  exact ⟨t, ht, by rw [Dev.rd_congr hreg, Dev.rd_hw_same], fun e he => by rw [Dev.rd_congr hreg, Dev.rd_hw_ne _ _ he]⟩

theorem exec_registerWrite_plain_eight {a : Nat} {r q : RegRow} {v : Word64} (hlo : s.dev.plainAt a r (loW v.toNat))
    (hhi : s.dev.plainAt (a + 4) q (hiW v.toNat)) (h8 : a % 8 = 0) (ha : a < 2 ^ 28) :
    ∃ t, exec (.registerWrite a 8 v) s = .next t ∧ t.dev.rd a = r.written (s.dev.rd a) (loW v.toNat) ∧
      t.dev.rd (a + 4) = q.written (s.dev.rd (a + 4)) (hiW v.toNat) ∧
      ∀ e, e ≠ a → e ≠ a + 4 → t.dev.rd e = s.dev.rd e := by
  obtain ⟨t, ht, hreg⟩ := exec_registerWrite a 8 v s
  have hne : a + 4 ≠ a := by omega
  rw [registerWrite_eight hh h8 ha, hostWord_plain hlo, hostWord_plain (Dev.plainAt_hw hhi _ _),
    Dev.rd_hw_ne _ _ hne] at hreg
  refine ⟨t, ht, ?_, ?_, fun e he he' => ?_⟩
  · rw [Dev.rd_congr hreg, Dev.rd_hw_ne _ _ hne.symm, Dev.rd_hw_same]
  · rw [Dev.rd_congr hreg, Dev.rd_hw_same]
  · rw [Dev.rd_congr hreg, Dev.rd_hw_ne _ _ he', Dev.rd_hw_ne _ _ he]

/-- A pair's value waits: nothing that is read or applied changes (R13). -/
theorem exec_complementValueWrite_pair {a mask : Nat} (hp : pairAt a mask) (hrep : s.dev.lg.replaying = false) (v : Word) :
    ∃ t, exec (.complementValueWrite a v) s = .next t ∧ t.dev.pendAt a = some v ∧
      (∀ e, t.dev.rd e = s.dev.rd e ∧ t.dev.rdLive e = s.dev.rdLive e) ∧
      ∀ e, e ≠ a → t.dev.pendAt e = s.dev.pendAt e := by
  obtain ⟨t, ht, hreg⟩ := exec_complementValueWrite a v s
  rw [complementValue_pair hp hh hrep] at hreg
  refine ⟨t, ht, ?_, fun e => ⟨Dev.rd_congr hreg e, Dev.rdLive_congr hreg e⟩, fun e he => ?_⟩
  · rw [Dev.pendAt_congr hreg, Dev.pendAt_pairValue_same]
  · rw [Dev.pendAt_congr hreg, Dev.pendAt_pairValue_ne _ _ he]

/-- A complement that matches accepts the value that waits, without applying it (R13). -/
theorem exec_complementCWrite_match {a mask : Nat} (hp : pairAt a mask) (hrep : s.dev.lg.replaying = false) {v w : Word}
    (hw : s.dev.pendAt a = some w) (hm : (w ^^^ v) &&& BitVec.ofNat 32 mask = BitVec.ofNat 32 mask) :
    ∃ t, exec (.complementCWrite a v) s = .next t ∧ t.dev.pendAt a = none ∧ (∀ e, t.dev.rdLive e = s.dev.rdLive e) ∧
      t.dev.rd a = w &&& BitVec.ofNat 32 mask ∧ a ∈ t.dev.reg.acc ∧ ∀ e, e ≠ a → t.dev.rd e = s.dev.rd e := by
  obtain ⟨t, ht, hreg⟩ := exec_complementCWrite a v s
  rw [complementC_pair hp hh hrep, Dev.pairCompl_match hw hm] at hreg
  refine ⟨t, ht, ?_, fun e => ?_, ?_, ?_, fun e he => ?_⟩
  · rw [Dev.pendAt_congr hreg, Dev.pendAt_pairTake, Dev.pendAt_unpend_same]
  · rw [Dev.rdLive_congr hreg, Dev.rdLive_pairTake, Dev.rdLive_unpend]
  · rw [Dev.rd_congr hreg, Dev.rd_pairTake_same]
  · rw [hreg, Dev.pairTake_reg]
    exact List.mem_append_right _ (List.mem_singleton_self a)
  · rw [Dev.rd_congr hreg, Dev.rd_pairTake_ne _ _ he, Dev.rd_unpend]

/-- A complement that does not match is counted, and the value that waits is discarded (R13, R349). -/
theorem exec_complementCWrite_mismatch {a mask : Nat} (hp : pairAt a mask) (hrep : s.dev.lg.replaying = false) {v w : Word}
    (hw : s.dev.pendAt a = some w) (hm : ¬ (w ^^^ v) &&& BitVec.ofNat 32 mask = BitVec.ofNat 32 mask) :
    ∃ t, exec (.complementCWrite a v) s = .next t ∧ t.dev.pendAt a = none ∧ (∀ e, t.dev.rdLive e = s.dev.rdLive e) ∧
      (∀ e, t.dev.rd e = s.dev.rd e) ∧ t.dev.reg.acc = s.dev.reg.acc ∧
      t.dev.ctr FLT_CMPL_WRITE = ctrAdd (s.dev.ctr FLT_CMPL_WRITE) 1 := by
  obtain ⟨t, ht, hreg⟩ := exec_complementCWrite a v s
  rw [complementC_pair hp hh hrep, Dev.pairCompl_mismatch hw hm, Dev.report_corrected_reg _ _ rfl] at hreg
  refine ⟨t, ht, ?_, fun e => Dev.rdLive_congr hreg e, fun e => Dev.rd_congr hreg e, by rw [hreg]; rfl, ?_⟩
  · exact (Dev.pendAt_congr hreg a).trans (Dev.pendAt_unpend_same _ a)
  · rw [Dev.ctr_congr hreg, Dev.ctr_bump_ne _ _ (by decide), Dev.ctr_bump_same]
    rfl

/-- STREAM_MASK_WRITE: the half written, the other half, and intake's mask, which waits for the boundary (R44). -/
theorem exec_streamMaskWrite_mask (hrep : s.dev.lg.replaying = false) (high : Bool) (v : Word) :
    ∃ t, exec (.streamMaskWrite high v) s = .next t ∧ t.dev.ig.mask = s.dev.ig.mask ∧
      (if high = true then
         t.dev.rd IG_STREAM_MASK_HI = (s.dev.rd IG_STREAM_MASK_HI &&& 0xFFFF0000) ||| (v &&& 0xFFFF) ∧
         t.dev.rd IG_STREAM_MASK_LO = s.dev.rd IG_STREAM_MASK_LO
       else t.dev.rd IG_STREAM_MASK_LO = v ∧ t.dev.rd IG_STREAM_MASK_HI = s.dev.rd IG_STREAM_MASK_HI) := by
  obtain ⟨t, ht, hreg, hig⟩ := exec_streamMaskWrite high v s
  rw [streamMaskWrite, if_neg (ne_true_of_eq_false hh)] at hreg
  refine ⟨t, ht, by rw [hig], ?_⟩
  cases high with
  | true =>
    rw [if_pos rfl, hostWord_streamMaskHi hrep] at hreg
    rw [if_pos rfl, Dev.rd_congr hreg, Dev.rd_congr hreg, Dev.rd_hw_same, Dev.rd_hw_ne _ _ (by decide)]
    exact ⟨rfl, rfl⟩
  | false =>
    rw [if_neg Bool.false_ne_true, hostWord_streamMaskLo hrep] at hreg
    rw [if_neg Bool.false_ne_true, Dev.rd_congr hreg, Dev.rd_congr hreg, Dev.rd_hw_same, Dev.rd_hw_ne _ _ (by decide)]
    exact ⟨rfl, rfl⟩

end

end Sys2Proof.Machine

open Sys2Proof Sys2Proof.Machine

/-- Settles O54: each command's register file is that of one update, and each update is read back by its rule. -/
theorem registerAccess : Obligations.RegisterAccess := by
  intro s a v r q val w mask b o size high d lo hi m pendOf hh
  refine ⟨fun h h4 ha => exec_registerWrite_plain hh h h4 ha,
    fun hlo hhi h8 ha => exec_registerWrite_plain_eight hh hlo hhi h8 ha, fun h => ?_,
    fun hr hc ha hcm hbl h4 hlt => ?_, fun hp hrep => ⟨exec_complementValueWrite_pair hh hp hrep val, fun hw => ?_⟩,
    fun hrep => exec_streamMaskWrite_mask hh hrep high val, fun hc hi => ?_⟩
  · apply exec_registerWrite_counted
    rcases h with h | h | ⟨hr, hc, rfl, ha, hlo⟩
    · exact registerWrite_bad hh (.inl h) v
    · exact registerWrite_bad hh (.inr h) v
    · exact registerWrite_nothing hh hr hc ha hlo v
  · apply exec_registerWrite_counted
    rw [registerWrite_four hh h4 hlt, hostWord_bl hr hc ha hcm hbl]
    rfl
  · by_cases hm : (w ^^^ val) &&& m = m
    · obtain ⟨t, ht, hpend, hlive, hacc⟩ := exec_complementCWrite_match hh hp hrep hw hm
      exact ⟨t, ht, hpend, hlive, by rw [if_pos hm]; exact hacc⟩
    · obtain ⟨t, ht, hpend, hlive, hdis⟩ := exec_complementCWrite_mismatch hh hp hrep hw hm
      exact ⟨t, ht, hpend, hlive, by rw [if_neg hm]; exact hdis⟩
  · obtain ⟨t, ht, hreg⟩ := exec_counterClear hc hi s
    exact ⟨t, ht, by rw [Dev.ctr_congr hreg, Dev.ctr_ctrClear_same],
      fun e he => by rw [Dev.ctr_congr hreg, Dev.ctr_ctrClear_ne _ he], fun e => by rw [Dev.rd_congr hreg, Dev.rd_ctrClear]⟩
end

section
/-! SUPPORT. What each operation of the device leaves of the SAFE_OK outputs (R337, R340): lemma by lemma, down to the work of
the entry. -/

namespace Sys2Proof.Machine

/-- The SAFE_OK outputs and what the island holds against them: the part of it that `Dev.sameOk` keeps. -/
def IslandSt.okPart (i : IslandSt) : Bool × Bool × Bool × Bool := (i.running, i.pin, i.maint, i.pllLost)

@[simp] theorem Dev.okPart_ite (c : Prop) [Decidable c] (a b : Dev) :
    (if c then a else b).si.okPart = if c then a.si.okPart else b.si.okPart := by split <;> rfl

/-- What each step of a fold leaves of the SAFE_OK outputs, the fold leaves. -/
theorem Dev.okPart_foldl {α : Type} {f : Dev → α → Dev} (h : ∀ d x, (f d x).si.okPart = d.si.okPart) (l : List α)
    (d : Dev) : (l.foldl f d).si.okPart = d.si.okPart :=
  foldl_proj f (fun d => d.si.okPart) h l d

theorem Dev.si_foldl {α : Type} {f : Dev → α → Dev} (h : ∀ d x, (f d x).si = d.si) (l : List α) (d : Dev) :
    (l.foldl f d).si = d.si :=
  foldl_proj f Dev.si h l d

/-! ### Reports, messages, the log -/

@[simp] theorem Dev.mon_okPart (d : Dev) (m : MonMsg) : (d.mon m).si.okPart = d.si.okPart := by
  simp [IslandSt.okPart]

@[simp] theorem Dev.report_okPart (d : Dev) (r : FltRep) : (d.report r).si.okPart = d.si.okPart := by
  simp [IslandSt.okPart]

@[simp] theorem Dev.useCritical_okPart (d : Dev) (b : Bool) : (d.useCritical b).si.okPart = d.si.okPart := by
  simp [Dev.useCritical]

@[simp] theorem Dev.fresh_si (d : Dev) : d.fresh.2.si = d.si := rfl

@[simp] theorem Dev.logPut_okPart (d : Dev) (bs : List Byte) : (d.logPut bs).si.okPart = d.si.okPart := by
  simp [Dev.logPut]

@[simp] theorem Dev.sessionStart_okPart (d : Dev) (s : Stroke) : (d.sessionStart s).2.2.si.okPart = d.si.okPart := by
  unfold Dev.sessionStart
  dsimp only
  repeat' split
  all_goals simp

@[simp] theorem Dev.recPost_si (new old : Dev) : (new.recPost old).si = new.si := by
  unfold Dev.recPost
  dsimp only
  split <;> simp

/-! ### Time, triggers, intake's mask, the roll engine -/

@[simp] theorem Dev.tbFlags_si (d : Dev) (l h a : Bool) : (d.tbFlags l h a).si = d.si := by
  unfold Dev.tbFlags; split <;> simp

@[simp] theorem Dev.alignment_si (d : Dev) (r : Nat) (s : Stroke) : (d.alignment r s).si = d.si := by
  unfold Dev.alignment; dsimp only; split <;> simp

@[simp] theorem Dev.failSector_si (d : Dev) (n k : Nat) (w : FailReason) : (d.failSector n k w).si = d.si := by
  unfold Dev.failSector; dsimp only; split <;> simp

@[simp] theorem Dev.reloadBegin_si (d : Dev) : d.reloadBegin.si = d.si := rfl

@[simp] theorem Dev.reseatCells_si (d : Dev) : d.reseatCells.si = d.si := rfl

@[simp] theorem Dev.pairApply_si (d : Dev) : d.pairApply.si = d.si := rfl

@[simp] theorem Dev.setStrm_si (d : Dev) (n : Nat) (st : StreamSt) : (d.setStrm n st).si = d.si := rfl

@[simp] theorem Dev.setTrg_si (d : Dev) (n : Nat) (t : Trig) : (d.setTrg n t).si = d.si := rfl

@[simp] theorem Dev.failRange_si (d : Dev) (n secLen a b : Nat) (w : FailReason) :
    (d.failRange n secLen a b w).si = d.si := by
  unfold Dev.failRange
  split
  · exact Dev.si_foldl (fun d _ => d.failSector_si ..) ..
  · rfl

@[simp] theorem Dev.applyMask_si (d : Dev) : d.applyMask.si = d.si := by
  unfold Dev.applyMask
  dsimp only
  rw [Dev.si_foldl fun d n => ?_]
  repeat' split
  all_goals simp

@[simp] theorem Dev.poseApply_okPart (d : Dev) (s : Stroke) : (d.poseApply s).si.okPart = d.si.okPart := by
  unfold Dev.poseApply
  dsimp only
  split <;> simp

@[simp] theorem Dev.trigBoundary_si (d : Dev) (r : Nat) (s : Stroke) (f : Bool) (n : Nat) :
    (d.trigBoundary r s f n).si = d.si := rfl

@[simp] theorem Dev.trigBoundaries_si (d : Dev) (r : Nat) (s : Stroke) (f : Bool) :
    (d.trigBoundaries r s f).si = d.si := by
  unfold Dev.trigBoundaries
  rw [Dev.si_foldl fun d n => d.trigBoundary_si r s f n]

@[simp] theorem Dev.rowReq_okPart (d : Dev) (cls : Nat) (w : Bool) (t : Nat) (v : Word) (i o n : Nat) :
    (d.rowReq cls w t v i o n).si.okPart = d.si.okPart := by
  simp [Dev.rowReq]

@[simp] theorem Dev.priorAsk_okPart (d : Dev) (v : Word) (px py : Int) (cells : List (Int × Int)) :
    (d.priorAsk v px py cells).si.okPart = d.si.okPart := by
  unfold Dev.priorAsk
  dsimp only
  split
  · rw [Dev.okPart_foldl (fun d _ => d.rowReq_okPart ..), Dev.useCritical_okPart]
  · exact d.useCritical_okPart _

@[simp] theorem Dev.engineBegin_okPart (d : Dev) (s : Stroke) : (d.engineBegin s).si.okPart = d.si.okPart := by
  unfold Dev.engineBegin
  dsimp only
  repeat' split
  all_goals simp

@[simp] theorem Dev.latchVersions_si (d : Dev) (s : Stroke) : (d.latchVersions s).si = d.si := rfl

@[simp] theorem Dev.sendBoundary_okPart (d : Dev) : d.sendBoundary.si.okPart = d.si.okPart := by
  unfold Dev.sendBoundary
  dsimp only
  split
  · rfl
  · exact d.mon_okPart _

@[simp] theorem Dev.markRolled_si (d : Dev) (s : Stroke) : (d.markRolled s).si = d.si := by
  unfold Dev.markRolled; dsimp only; split <;> rfl

@[simp] theorem Dev.openTile_si (d : Dev) (s : Stroke) : (d.openTile s).si = d.si := rfl

/-! ### The Stop phase of a restart -/

@[simp] theorem IslandSt.settleWw_okPart (i : IslandSt) (n : Nat) : (i.settleWw n).okPart = i.okPart := by
  unfold IslandSt.settleWw; split <;> rfl

@[simp] theorem IslandSt.mute_okPart (i : IslandSt) (ss : List Stroke) : (i.mute ss).okPart = i.okPart :=
  foldl_proj (fun i n => IslandSt.settleWw i n) IslandSt.okPart (fun i n => i.settleWw_okPart n) ..

@[simp] theorem Dev.mirror_si (d : Dev) : d.mirror.si = d.si := by
  unfold Dev.mirror
  dsimp only
  rw [Dev.si_foldl fun d n => ?_, Dev.si_foldl fun d n => ?_] <;> rfl

@[simp] theorem Dev.posted_si (d : Dev) (old : IslandSt) : (d.posted old).si = d.si := by
  unfold Dev.posted
  dsimp only
  repeat' split
  all_goals simp

@[simp] theorem Dev.logIn_si (d : Dev) (e : LogEnt) : (d.logIn e).si = d.si := by
  unfold Dev.logIn; split <;> rfl

@[simp] theorem Dev.dropRestored_si (d : Dev) : d.dropRestored.si = d.si := rfl

@[simp] theorem Dev.abortTable_si (d : Dev) (t : Nat) : (d.abortTable t).si = d.si := rfl

@[simp] theorem Dev.opAborted_si (d : Dev) (t : Nat) : (d.opAborted t).si = d.si := rfl

@[simp] theorem Dev.abortAdapt_si (d : Dev) : d.abortAdapt.si = d.si := by
  unfold Dev.abortAdapt
  dsimp only
  rw [Dev.dropRestored_si, Dev.si_foldl fun d o => ?_]
  split <;> rfl

@[simp] theorem Dev.abortLive_si (d : Dev) : d.abortLive.si = d.si := by
  unfold Dev.abortLive
  dsimp only
  split
  · rw [Dev.abortAdapt_si, Dev.si_foldl fun d t => ?_]
    split <;> rfl
  · rw [Dev.si_foldl fun d t => ?_]
    split <;> rfl

@[simp] theorem Dev.beginStop_okPart (d : Dev) : d.beginStop.si.okPart = d.si.okPart := by
  unfold Dev.beginStop
  dsimp only
  rw [Dev.posted_si, Dev.logIn_si, Dev.abortLive_si]
  have h := d.si.mute_okPart [d.tm.stroke - 1, d.tm.stroke]
  simpa [IslandSt.okPart] using h

@[simp] theorem Dev.namedRestart_okPart (d : Dev) (s : Stroke) : (d.namedRestart s).si.okPart = d.si.okPart := by
  unfold Dev.namedRestart
  repeat' split
  all_goals simp

/-! ### Links and rings -/

@[simp] theorem Dev.flitPut_si (d : Dev) (k : Nat) (f : List Byte) : (d.flitPut k f).si = d.si := by
  unfold Dev.flitPut; dsimp only; split <;> rfl

@[simp] theorem Dev.flitOut_si (d : Dev) (k t c : Nat) (p : List Byte) : (d.flitOut k t c p).si = d.si := by
  unfold Dev.flitOut; simp

@[simp] theorem Dev.flitSend_si (d : Dev) (k t c : Nat) (p : List Byte) : (d.flitSend k t c p).si = d.si := by
  unfold Dev.flitSend
  dsimp only
  repeat' split
  all_goals simp

@[simp] theorem Dev.linkSend_si (d : Dev) (c k : Nat) (e : OutEvent) : (d.linkSend c k e).si = d.si := by
  unfold Dev.linkSend; dsimp only; split <;> simp

@[simp] theorem Dev.timeSend_si (d : Dev) : d.timeSend.si = d.si := by
  unfold Dev.timeSend
  split
  · rfl
  · rw [Dev.si_foldl fun d j => d.linkSend_si ..]

@[simp] theorem Dev.creditWaits_si (d : Dev) (k : Nat) : (d.creditWaits k).si = d.si := by
  unfold Dev.creditWaits
  dsimp only
  repeat' split
  all_goals simp

@[simp] theorem Dev.heartbeats_si (d : Dev) : d.heartbeats.si = d.si := by
  unfold Dev.heartbeats
  split
  · rfl
  · dsimp only
    rw [Dev.si_foldl fun d j => ?_, Dev.si_foldl fun d k => d.creditWaits_si k]
    split <;> simp

@[simp] theorem Dev.hostStroke_si (d : Dev) : d.hostStroke.si = d.si := rfl

@[simp] theorem Dev.ringLose_si (d : Dev) (r n : Nat) : (d.ringLose r n).si = d.si := rfl

@[simp] theorem Dev.ringBoundary_si (d : Dev) : d.ringBoundary.si = d.si := by
  unfold Dev.ringBoundary
  rw [Dev.si_foldl fun d rr => ?_]
  dsimp only
  split <;> rfl

/-! ### Planes and the accesses that wait at them -/

@[simp] theorem Dev.freeBytes_si (d : Dev) (n : Nat) : (d.freeBytes n).2.si = d.si := by
  induction n generalizing d with
  | zero => rfl
  | succ n ih => exact ih d.fresh.2

@[simp] theorem Dev.tpFault_okPart (d : Dev) (c b : Nat) (w : Bool) (o r s : Nat) :
    (d.tpFault c b w o r s).si.okPart = d.si.okPart := by
  simp [Dev.tpFault]

@[simp] theorem Dev.planeRange_okPart (d : Dev) (c : Nat) (w : Bool) (o : Nat) :
    (d.planeRange c w o).si.okPart = d.si.okPart := d.tpFault_okPart ..

@[simp] theorem Dev.setOpAt_si (d : Dev) (c i : Nat) (f : GsOp → GsOp) : (d.setOpAt c i f).si = d.si := rfl

@[simp] theorem Dev.agFault_okPart (d : Dev) (c b s : Nat) : (d.agFault c b s).si.okPart = d.si.okPart := by
  simp [Dev.agFault]

theorem Dev.journal_si {d e : Dev} {c off n : Nat} {w : Bool} (h : d.journal c w off n = some e) : e.si = d.si := by
  unfold Dev.journal at h
  dsimp only at h
  repeat' split at h
  all_goals cases h
  all_goals rfl

@[simp] theorem Dev.journalFull_okPart (d : Dev) (c : Nat) (w : Bool) (o : Nat) :
    (d.journalFull c w o).si.okPart = d.si.okPart := by
  simp [Dev.journalFull]

@[simp] theorem Dev.aowStat_si (d : Dev) (c : Nat) (v : Bool) (st : FStat) : (d.aowStat c v st).si = d.si := by
  unfold Dev.aowStat; split <;> rfl

@[simp] theorem Dev.planeWrite_okPart (d : Dev) (c : Nat) (w : Bool) (off : Nat) (bs : List Byte) (aow : Nat) (v : Bool) :
    (d.planeWrite c w off bs aow v).si.okPart = d.si.okPart := by
  unfold Dev.planeWrite
  dsimp only
  cases h : d.journal c w off bs.length with
  | none => simp
  | some e => simp [Dev.journal_si h]

@[simp] theorem Dev.doRead_si (d : Dev) (c : Nat) (q : PRead) : (d.doRead c q).si = d.si := by
  unfold Dev.doRead; dsimp only; split <;> rfl

@[simp] theorem Dev.settle_okPart (d : Dev) (c now : Nat) : (d.settle c now).si.okPart = d.si.okPart := by
  unfold Dev.settle
  dsimp only
  rw [Dev.okPart_foldl fun d e => ?_]
  · rfl
  · split <;> simp

@[simp] theorem Dev.markFull_si (d : Dev) (c n s e : Nat) : (d.markFull c n s e).si = d.si := rfl

@[simp] theorem Dev.putSlot_okPart (d : Dev) (c n : Nat) (bs : List Byte) : (d.putSlot c n bs).si.okPart = d.si.okPart := by
  unfold Dev.putSlot
  dsimp only
  repeat' split
  all_goals simp

@[simp] theorem Dev.retryHeld_okPart (d : Dev) (c n : Nat) : (d.retryHeld c n).si.okPart = d.si.okPart := by
  unfold Dev.retryHeld
  repeat' split
  all_goals simp

@[simp] theorem Dev.sync_okPart (d : Dev) (c now : Nat) : (d.sync c now).si.okPart = d.si.okPart := by
  unfold Dev.sync
  dsimp only
  split
  · simp
  · rw [Dev.okPart_foldl fun d x => ?_]
    all_goals simp

@[simp] theorem Dev.syncNow_okPart (d : Dev) (c : Nat) : (d.syncNow c).si.okPart = d.si.okPart := d.sync_okPart ..

/-! ### Errors met by a read -/

@[simp] theorem Dev.eccData_si (d : Dev) (bs : List Byte) (o u : Nat) (e : Ecc) : (d.eccData bs o u e).2.si = d.si := by
  unfold Dev.eccData
  split
  · rfl
  · exact d.freeBytes_si u

@[simp] theorem Dev.corrected_okPart (d : Dev) (c : Nat) (w : Bool) (o n : Nat) :
    (d.corrected_ c w o n).si.okPart = d.si.okPart := by
  unfold Dev.corrected_
  generalize hb : d.bump (if w then WP_CORR c else TP_CORR c) n = e
  have he : e.si = d.si := hb ▸ rfl
  rw [← he]
  clear hb he
  induction n generalizing e with
  | zero => rfl
  | succ n ih => rw [loopN, Dev.report_okPart, ih]

@[simp] theorem Dev.uncorr_okPart (d : Dev) (c : Nat) (w : Bool) (o : Nat) : (d.uncorr c w o).si.okPart = d.si.okPart := by
  unfold Dev.uncorr
  dsimp only
  generalize (if w = true then WP_UNCORR c else TP_UNCORR c) = a
  split
  · simp
  · split
    · simp
    · next h => simp [Dev.journal_si h]

@[simp] theorem Dev.unschedEcc_okPart (d : Dev) (c : Nat) (w : Bool) (o : Nat) (e : Ecc) :
    (d.unschedEcc c w o e).si.okPart = d.si.okPart := by
  unfold Dev.unschedEcc
  dsimp only
  split <;> simp

@[simp] theorem Dev.toPlane_si (d : Dev) (c i : Nat) (f : GsOp → GsOp) : (d.toPlane c i f).si = d.si := rfl

@[simp] theorem Dev.serveRead_okPart (d : Dev) (c i : Nat) (o : GsOp) (e : Ecc) :
    (d.serveRead c i o e).si.okPart = d.si.okPart := by
  unfold Dev.serveRead
  dsimp only
  repeat' split
  all_goals simp

@[simp] theorem Dev.owe_si (d : Dev) (c : Nat) (o : GsOp) : (d.owe c o).si = d.si := by
  unfold Dev.owe; split <;> rfl

@[simp] theorem Dev.serveWrite_okPart (d : Dev) (c i : Nat) (o : GsOp) (e : Ecc) :
    (d.serveWrite c i o e).si.okPart = d.si.okPart := by
  unfold Dev.serveWrite
  dsimp only
  rw [Dev.setOpAt_si, Dev.okPart_ite, Dev.owe_si, ite_self, Dev.okPart_foldl fun d x => ?_, Dev.okPart_foldl fun d x => ?_]
  all_goals simp

@[simp] theorem Dev.serveAhead_okPart (d : Dev) (l : List (Nat × Bool × Nat)) : (d.serveAhead l).si.okPart = d.si.okPart := by
  unfold Dev.serveAhead
  split
  · rfl
  · rw [Dev.okPart_foldl fun d x => ?_]
    simp

@[simp] theorem Dev.planeTurn_okPart (d : Dev) (c : Nat) (w : Bool) (o n : Nat) :
    (d.planeTurn c w o n).si.okPart = d.si.okPart := by
  simp [Dev.planeTurn]

@[simp] theorem Dev.errsAt_si (d : Dev) (s c o n : Nat) : (d.errsAt s c o n).2.si = d.si := rfl

@[simp] theorem Dev.errData_si (d : Dev) (bs : List Byte) (o u : Nat) (es : List PlaneErr) :
    (d.errData bs o u es).2.si = d.si := by
  unfold Dev.errData
  rw [foldl_proj _ (fun x : List Byte × Dev => x.2.si) fun x e => ?_]
  dsimp only
  split
  · exact x.2.freeBytes_si u
  · rfl

@[simp] theorem Dev.planeMeet_okPart (d : Dev) (c : Nat) (w : Bool) (o n : Nat) (bs : List Byte) :
    (d.planeMeet c w o n bs).2.2.si.okPart = d.si.okPart := by
  unfold Dev.planeMeet
  dsimp only
  rw [Dev.okPart_foldl fun d x => ?_, Dev.errData_si, Dev.errsAt_si]
  simp

@[simp] theorem Dev.planeSight_okPart (d : Dev) (c : Nat) (w : Bool) (o n : Nat) :
    (d.planeSight c w o n).si.okPart = d.si.okPart := by
  simp [Dev.planeSight]

@[simp] theorem Dev.planeGet_okPart (d : Dev) (c : Nat) (w : Bool) (o n : Nat) :
    (d.planeGet c w o n).2.2.si.okPart = d.si.okPart := by
  unfold Dev.planeGet
  dsimp only
  repeat' split
  all_goals simp

@[simp] theorem Dev.slotGet_okPart (d : Dev) (c n s l : Nat) : (d.slotGet c n s l).2.si.okPart = d.si.okPart :=
  d.planeGet_okPart ..

/-! ### Dispatch, and the stroke that opens -/

@[simp] theorem Dev.drain_si (d : Dev) (c n : Nat) : (d.drain c n).si = d.si := rfl

@[simp] theorem Dev.backboneDone_okPart (d : Dev) (l : LiveSec) : (d.backboneDone l).si.okPart = d.si.okPart := by
  simp [Dev.backboneDone, Dev.sectEv]

theorem Dev.dispatchOne_okPart {d e : Dev} (h : d.dispatchOne = some e) : e.si.okPart = d.si.okPart := by
  unfold Dev.dispatchOne at h
  dsimp only at h
  repeat' split at h
  all_goals cases h
  all_goals simp

@[simp] theorem Dev.dispatchN_okPart (n : Nat) (d : Dev) : (Dev.dispatchN n d).si.okPart = d.si.okPart := by
  induction n generalizing d with
  | zero => rfl
  | succ n ih =>
    unfold Dev.dispatchN
    split
    · next h => rw [ih, Dev.dispatchOne_okPart h]
    · rfl

@[simp] theorem Dev.dispatch_okPart (d : Dev) : d.dispatch.si.okPart = d.si.okPart := Dev.dispatchN_okPart ..

@[simp] theorem Dev.openStroke_okPart (d : Dev) (s : Stroke) : (d.openStroke s).si.okPart = d.si.okPart := by
  simp [Dev.openStroke]

@[simp] theorem Dev.postView_si (d : Dev) : d.postView.si = d.si := by
  unfold Dev.postView; dsimp only; split <;> simp
/-- The grid builder's status goes to registers alone. -/
theorem Dev.gridStatus_eq (d : Dev) : d.gridStatus = { d with reg := d.gridStatus.reg } := by
  unfold Dev.gridStatus
  cases h : d.gb.prevLive <;> simp only [Dev.hwN_gb, h, if_true, if_false, Bool.false_eq_true] <;> rfl

@[simp] theorem Dev.gridStatus_si (d : Dev) : d.gridStatus.si = d.si := by rw [Dev.gridStatus_eq]

@[simp] theorem Dev.checkpoint_si (d : Dev) : d.checkpoint.si = d.si := rfl

@[simp] theorem Dev.firstStroke_okPart (d : Dev) (r : Nat) (s : Stroke) : (d.firstStroke r s).si.okPart = d.si.okPart := by
  simp only [Dev.firstStroke, Dev.openStroke_okPart, Dev.postView_si, Dev.gridStatus_si, Dev.checkpoint_si,
    Dev.engineBegin_okPart, Dev.latchVersions_si, Dev.useCritical_okPart, Dev.trigBoundaries_si, Dev.applyMask_si,
    Dev.poseApply_okPart, Dev.reseatCells_si, Dev.pairApply_si, Dev.alignment_si]
  rfl

/-! ### Entries of a replay -/

@[simp] theorem Dev.replayTake_si (s : Stroke) (n : Nat) (d : Dev) (acc : List (List Byte)) :
    (Dev.replayTake d s n acc).1.si = d.si := by
  induction n generalizing d acc with
  | zero => rfl
  | succ n ih =>
    unfold Dev.replayTake
    dsimp only
    split
    · rfl
    split
    · rfl
    split
    · rfl
    · rw [ih]
      rfl

@[simp] theorem Dev.regStore_si (d : Dev) (r : RegRow) (a : Nat) (v : Word) : (d.regStore r a v).si = d.si := rfl

@[simp] theorem Dev.replayReg_si (d : Dev) (a : Nat) (v : Word) : (d.replayReg a v).si = d.si := by
  unfold Dev.replayReg
  dsimp only
  repeat' split
  all_goals rfl

@[simp] theorem Dev.retime_si (d : Dev) (r : Nat) (a b : Int) : (d.retime r a b).si = d.si := rfl

@[simp] theorem Dev.replayBoundary_si (d : Dev) (r : Nat) (e : List Byte) : (d.replayBoundary r e).si = d.si := by
  unfold Dev.replayBoundary
  dsimp only
  split <;> simp

@[simp] theorem Dev.replayEnd_si (d : Dev) (es : List (List Byte)) : (d.replayEnd es).si = d.si := by
  unfold Dev.replayEnd; split <;> rfl

/-! ### Packets and rows -/

@[simp] theorem sectorTimeout_si (n : Nat) (d : Dev) : (sectorTimeout n d).si = d.si := by
  unfold sectorTimeout
  dsimp only
  repeat' split
  all_goals simp

@[simp] theorem Dev.stagingPut_si (d : Dev) (o : Nat) (bs : List Byte) : (d.stagingPut o bs).si = d.si := by
  unfold Dev.stagingPut; split <;> rfl

@[simp] theorem Dev.bufPoint_si (d : Dev) (p : Point) : (d.bufPoint p).si = d.si := by
  unfold Dev.bufPoint; split <;> simp

@[simp] theorem Dev.queuePoint_si (d : Dev) (g : GPoint) : (d.queuePoint g).si = d.si := by
  unfold Dev.queuePoint; split <;> rfl

@[simp] theorem Dev.deliver_si (d : Dev) (p : Point) : (d.deliver p).si = d.si := by
  unfold Dev.deliver
  dsimp only
  rw [apply_ite Dev.si, Dev.si_foldl fun d j => d.linkSend_si .., ite_self]
  split <;> simp

@[simp] theorem Dev.acceptIndex_si (d : Dev) (n : Nat) (c : StreamCfg) (p : Pkt) (b i : Nat) :
    (d.acceptIndex n c p b i).si = d.si := by
  unfold Dev.acceptIndex
  extract_lets
  split
  · rfl
  · split <;> exact (Dev.si_foldl (fun d q => d.deliver_si _) ..).trans rfl

@[simp] theorem Dev.tapPoint_okPart (d : Dev) (x y z : Int) : (d.tapPoint x y z).si.okPart = d.si.okPart := by
  unfold Dev.tapPoint
  dsimp only
  rw [Dev.si_foldl fun d j => d.linkSend_si ..]
  rfl

@[simp] theorem Dev.acceptPkt_okPart (d : Dev) (n : Nat) (c : StreamCfg) (p : Pkt) (a l : Nat) :
    (d.acceptPkt n c p a l).si.okPart = d.si.okPart := by
  unfold Dev.acceptPkt
  dsimp only
  rw [Dev.setStrm_si, Dev.okPart_foldl fun d q => d.tapPoint_okPart .., Dev.si_foldl fun d i => d.acceptIndex_si ..]
  rfl

@[simp] theorem Dev.orderPkt_okPart (d : Dev) (n : Nat) (c : StreamCfg) (p : Pkt) (a : Nat) :
    (d.orderPkt n c p a).si.okPart = d.si.okPart := by
  simp [Dev.orderPkt]

@[simp] theorem Dev.syncPkt_okPart (d : Dev) (n : Nat) (c : StreamCfg) (p : Pkt) (a : Nat) :
    (d.syncPkt n c p a).si.okPart = d.si.okPart := by
  simp [Dev.syncPkt]

@[simp] theorem Dev.streamPkt_okPart (d : Dev) (n src arr : Nat) (bs : List Byte) :
    (d.streamPkt n src arr bs).si.okPart = d.si.okPart := by
  unfold Dev.streamPkt
  dsimp only
  repeat' split
  all_goals simp

@[simp] theorem Dev.addOp_si (d : Dev) (o : UpdOp) : (d.addOp o).si = d.si := rfl

@[simp] theorem Dev.takeRow_okPart (d : Dev) (t i : Nat) (row : List Byte) : (d.takeRow t i row).si.okPart = d.si.okPart := by
  simp [Dev.takeRow]

@[simp] theorem Dev.replayInput_okPart (d : Dev) (e : List Byte) : (d.replayInput e).si.okPart = d.si.okPart := by
  unfold Dev.replayInput
  dsimp only
  repeat' split
  all_goals simp

/-! ### The work of the entry -/

@[simp] theorem Dev.entryWork_okPart (d : Dev) (r : Nat) (s : Stroke) : (d.entryWork r s).si.okPart = d.si.okPart := by
  unfold Dev.entryWork
  dsimp only
  rw [Dev.replayEnd_si, Dev.okPart_foldl fun d x => d.replayInput_okPart x]
  split
  all_goals simp [Dev.si_foldl]

end Sys2Proof.Machine
end

section
/-! SUPPORT. SAFE_OK quiet (R340, R415): the boot code and the island's own commands. -/

namespace Sys2Proof.Machine

/-! ### What the boot code leaves of the SAFE_OK outputs until it stops -/

@[simp] theorem Dev.lockDown_okPart (d : Dev) (w : List (Nat × Nat)) : (d.lockDown w).si.okPart = d.si.okPart := by
  unfold Dev.lockDown
  dsimp only
  generalize he : List.foldl _ d _ = e
  have hs : e.si = d.si := by
    rw [← he, Dev.si_foldl fun d p => ?_]
    simp
  rw [← hs]
  rfl

@[simp] theorem Dev.findLog_si (d : Dev) : d.findLog.si = d.si := by
  unfold Dev.findLog; dsimp only; split <;> rfl

@[simp] theorem Dev.storeCmd_si (d : Dev) (ch dev op a l : Nat) (bs : List Byte) : (d.storeCmd ch dev op a l bs).si = d.si := rfl

@[simp] theorem Dev.modeWrites_si (d : Dev) (ch : Nat) (regs : List Nat) : (d.modeWrites ch regs).si = d.si := by
  unfold Dev.modeWrites
  rw [Dev.si_foldl fun d dev => ?_]
  rw [Dev.si_foldl fun d a => ?_]
  split <;> rfl

@[simp] theorem Dev.bootReg_si (d : Dev) (a v : Nat) : (d.bootReg a v).si = d.si := by
  unfold Dev.bootReg
  dsimp only
  split
  · rfl
  · simp only [apply_ite Dev.si, Dev.si_foldl fun d ch => d.modeWrites_si ch _, Dev.hwPair_si, Dev.setComp_si, Dev.hw_si,
      ite_self]

@[simp] theorem Dev.placePower_si (d : Dev) (bs : List Byte) : (d.placePower bs).si = d.si := by
  unfold Dev.placePower
  simp [Dev.si_foldl]

@[simp] theorem Dev.placeBindings_si (d : Dev) (bs : List Byte) : (d.placeBindings bs).si = d.si := by
  simp [Dev.placeBindings, Dev.si_foldl]

@[simp] theorem Dev.markSegs_si (d : Dev) (w : Bool) (c x l : Nat) : (d.markSegs w c x l).si = d.si := by
  simp [Dev.markSegs, Dev.si_foldl]

@[simp] theorem Dev.placeData_si (d : Dev) (t m x : Nat) (bs : List Byte) : (d.placeData t m x bs).si = d.si := by
  unfold Dev.placeData
  split
  · rfl
  · simp [Dev.si_foldl]

@[simp] theorem Dev.storeWrite_si (d : Dev) (a : Nat) (bs : List Byte) : (d.storeWrite a bs).si = d.si := rfl

@[simp] theorem Dev.placeRow_si (d : Dev) (t c i : Nat) (row : List Byte) : (d.placeRow t c i row).si = d.si := by
  unfold Dev.placeRow; dsimp only; split <;> rfl

@[simp] theorem Dev.placeTable_si (d : Dev) (bs : List Byte) : (d.placeTable bs).si = d.si := by
  simp [Dev.placeTable, Dev.si_foldl]

@[simp] theorem Dev.placeSect_okPart (d : Dev) (s : Sect) : (d.placeSect s).si.okPart = d.si.okPart := by
  unfold Dev.placeSect
  dsimp only
  split
  case h_2 =>
    rw [Dev.si_foldl fun d p => ?_]
    split <;> simp
  case h_12 => simp [IslandSt.okPart]
  case h_14 => rfl
  all_goals simp

@[simp] theorem Dev.fillTables_si (d : Dev) : d.fillTables.si = d.si := by
  unfold Dev.fillTables
  rw [Dev.si_foldl fun d t => ?_]
  split
  · dsimp only
    rw [Dev.si_foldl fun d c => ?_]
    rw [Dev.si_foldl fun d i => d.placeRow_si ..]
  · rfl

@[simp] theorem Dev.placeAll_okPart (d : Dev) (o : List Sect) (b : Option Sect) : (d.placeAll o b).si.okPart = d.si.okPart := by
  unfold Dev.placeAll
  dsimp only
  rw [Dev.okPart_foldl fun d s => d.placeSect_okPart s, Dev.okPart_ite, Dev.fillTables_si, ite_self,
    Dev.okPart_foldl fun d s => d.placeSect_okPart s]

theorem Dev.writeCopy_si {d e : Dev} (h : d.writeCopy = some e) : e.si = d.si := by
  unfold Dev.writeCopy at h
  dsimp only at h
  split at h
  all_goals cases h
  rw [Dev.hwPair_si, Dev.hwPair_si, Dev.storeWrite_si]

@[simp] theorem Dev.maybeStart_si (d : Dev) : d.maybeStart.si = d.si := by
  unfold Dev.maybeStart
  split
  · dsimp only
    rw [Dev.si_foldl fun d j => d.linkSend_si ..]
  · rfl

@[simp] theorem Dev.maybeReady_si (d : Dev) : d.maybeReady.si = d.si := by
  simp [Dev.maybeReady, apply_ite Dev.si]

@[simp] theorem Dev.postKeys_si (d : Dev) : d.postKeys.si = d.si := by
  unfold Dev.postKeys
  dsimp only
  rw [Dev.hwN_si, Dev.si_foldl fun d n => d.hwN_si ..]

/-! ### SAFE_OK quiet -/

theorem Dev.okQuiet_congr {d e : Dev} (h : e.si.okPart = d.si.okPart) : e.okQuiet = d.okQuiet := by
  simp only [IslandSt.okPart, Prod.mk.injEq] at h
  obtain ⟨hr, hp, hm, hl⟩ := h
  simp only [Dev.okQuiet, hr, hp, hm, hl]
/-- SAFE_OK low without edges is quiet. -/
theorem Dev.okQuiet_of_low {d : Dev} {m l : Bool} (h : d.si.okPart = (false, false, m, l)) : d.okQuiet = true := by
  simp only [IslandSt.okPart, Prod.mk.injEq] at h
  simp [Dev.okQuiet, h]

/-! ### The boot sequence (R442): a stop makes SAFE_OK low, and the rest leaves it -/

theorem Dev.bootStop_okQuiet (d : Dev) (r e : Nat) : (d.bootStop r e).okQuiet = true := by
  refine Dev.okQuiet_of_low (m := true) (l := d.si.pllLost) ?_
  unfold Dev.bootStop
  dsimp only
  rw [Dev.okPart_ite, Dev.irq_si, ite_self, Dev.lockDown_okPart]
  rfl

/-- The end of step 15: placed, the mask in force, READY reported. -/
theorem Dev.maybeReady_placed_okQuiet (d : Dev) (m : BitVec 48) :
    (Dev.maybeReady { d with bt := { d.bt with placed := true }, ig := { d.ig with mask := m } }).okQuiet = d.okQuiet :=
  Dev.okQuiet_congr (congrArg IslandSt.okPart (Dev.maybeReady_si _))

theorem Dev.bootFinish_okQuiet {d : Dev} (h : d.okQuiet = true) : d.bootFinish.okQuiet = true := by
  -- unfolded as a function: of an applied match the kernel would evaluate the restart copy
  obtain ⟨f, hf⟩ : ∃ f, f = Dev.bootFinish := ⟨_, rfl⟩
  rw [← hf]
  delta Dev.bootFinish at hf
  subst hf
  beta_reduce
  split
  · exact d.bootStop_okQuiet _ _
  · next e he =>
    have hq : e.okQuiet = true := (Dev.okQuiet_congr (congrArg IslandSt.okPart (Dev.writeCopy_si he))).trans h
    split
    · exact e.bootStop_okQuiet _ _
    · exact (Dev.maybeReady_placed_okQuiet _ _).trans ((Dev.okQuiet_congr (e.lockDown_okPart _)).trans hq)

theorem Dev.bootLoad_okQuiet {d : Dev} (h : d.okQuiet = true) : d.bootLoad.okQuiet = true := by
  unfold Dev.bootLoad
  split
  · exact d.bootStop_okQuiet _ _
  split
  · exact h
  dsimp only
  split
  · exact Dev.bootStop_okQuiet ..
  split
  · exact Dev.bootStop_okQuiet ..
  · refine Dev.bootFinish_okQuiet ?_
    refine (Dev.okQuiet_congr ?_).trans h
    simp

theorem Dev.bootVerify_okQuiet {d : Dev} (h : d.okQuiet = true) : d.bootVerify.okQuiet = true := by
  unfold Dev.bootVerify
  dsimp only
  repeat' split
  all_goals try exact Dev.bootStop_okQuiet ..
  refine Dev.bootLoad_okQuiet ?_
  refine (Dev.okQuiet_congr ?_).trans h
  rw [Dev.hwN_si, Dev.si_foldl fun d n => d.hwN_si ..]

theorem Dev.bootFuses_okQuiet {d : Dev} (h : d.okQuiet = true) (l : List FlashDev) : (d.bootFuses l).okQuiet = true := by
  unfold Dev.bootFuses
  extract_lets
  split
  · apply Dev.bootStop_okQuiet
  split
  · apply Dev.bootStop_okQuiet
  split
  · apply Dev.bootStop_okQuiet
  · apply Dev.bootVerify_okQuiet
    exact (Dev.okQuiet_congr (congrArg IslandSt.okPart (Dev.postKeys_si _))).trans h

theorem boot_okQuiet {d : Dev} (h : d.okQuiet = true) (l : List FlashDev) : (boot l d).okQuiet = true := by
  unfold boot
  split
  · exact h
  · exact d.bootFuses_okQuiet h l

/-! ### The island's own commands -/

@[simp] theorem Dev.islandFatal_okPart (d : Dev) (c : Nat) : (d.islandFatal c).si.okPart = d.si.okPart := by
  unfold Dev.islandFatal
  dsimp only
  rw [Dev.posted_si, Dev.report_okPart]
  split <;> rfl

theorem islandPllLoss_okQuiet (d : Dev) : (islandPllLossCore d).okQuiet = true :=
  Dev.okQuiet_of_low (m := d.si.maint) (l := true) (Dev.islandFatal_okPart _ _)

theorem islandPor_okQuiet (d : Dev) : (islandPor d).okQuiet = true := rfl

theorem IslandSt.mayEdge_guard {i : IslandSt} {s : Stroke} (h : i.mayEdge s = true) : i.maint = false ∧ i.pllLost = false := by
  simp only [IslandSt.mayEdge, Bool.and_eq_true, Bool.not_eq_true'] at h
  exact ⟨h.1.1.2, h.1.2⟩

theorem safeOkEdge_okQuiet {d : Dev} (h : d.okQuiet = true) (m : Bool) : (safeOkEdgeCore m d).okQuiet = true := by
  unfold safeOkEdgeCore
  dsimp only
  generalize hf : (if m = true then _ else _ : Dev) = f
  have hfd : f.si.okPart = d.si.okPart := by
    rw [← hf]; split
    · rfl
    · exact Dev.islandFatal_okPart _ _
  split
  · next hc =>
    obtain ⟨hm, hl⟩ := IslandSt.mayEdge_guard hc.1
    simp [Dev.okQuiet, hm, hl, Dev.emit]
  · split
    · exact Dev.okQuiet_of_low (by rw [Dev.posted_si]; rfl)
    · exact (Dev.okQuiet_congr hfd).trans h

end Sys2Proof.Machine
end

section
/-! SUPPORT. The invariant of the block (R19, R340, R415): which commands act on its parts, and that each keeps it. -/

namespace Sys2Proof.Machine

/-- The commands that act on the mode flags: the stroke boundary, the entry, the boot code, the resets. -/
theorem acts_mode_cases (c : Instr) :
    c.acts.mode = false ∨ (∃ h w, c = .strokeBoundary h w) ∨ c = .enterOperational ∨ (∃ l, c = .boot l) ∨
      (∃ x y z, c = .resetRelease x y z) ∨ (∃ n k, c = .resetNAssert n k) ∨ (∃ r, c = .mainPor r) ∨
      c = .internalResetPulse := by
  cases c
  case strokeBoundary h w => exact .inr (.inl ⟨h, w, rfl⟩)
  case enterOperational => exact .inr (.inr (.inl rfl))
  case boot l => exact .inr (.inr (.inr (.inl ⟨l, rfl⟩)))
  case resetRelease x y z => exact .inr (.inr (.inr (.inr (.inl ⟨x, y, z, rfl⟩))))
  case resetNAssert n k => exact .inr (.inr (.inr (.inr (.inr (.inl ⟨n, k, rfl⟩)))))
  case mainPor r => exact .inr (.inr (.inr (.inr (.inr (.inr (.inl ⟨r, rfl⟩))))))
  case internalResetPulse => exact .inr (.inr (.inr (.inr (.inr (.inr (.inr rfl))))))
  all_goals exact .inl rfl

/-- The commands that act on SAFE_OK: those, and three of the island. -/
theorem acts_ok_cases (c : Instr) (h : c.acts.mode = false) :
    c.acts.ok = false ∨ (∃ m, c = .safeOkEdge m) ∨ c = .islandPllLoss ∨ c = .islandPor := by
  cases c
  case safeOkEdge m => exact .inr (.inl ⟨m, rfl⟩)
  case islandPllLoss => exact .inr (.inr (.inl rfl))
  case islandPor => exact .inr (.inr (.inr rfl))
  case strokeBoundary => cases h
  case enterOperational => cases h
  case boot => cases h
  case resetRelease => cases h
  case resetNAssert => cases h
  case mainPor => cases h
  case internalResetPulse => cases h
  all_goals exact .inl rfl

theorem Dev.commit_modesOk_of_mode_false {w : Writes} (h : w.mode = false) (old new : Dev) :
    (old.commit w new).modesOk = old.modesOk := by
  simp [Dev.modesOk, h]

theorem Dev.commit_okQuiet_of_ok_false {w : Writes} (h : w.ok = false) (old new : Dev) :
    (old.commit w new).okQuiet = old.okQuiet := by
  simp [Dev.okQuiet, h]

theorem Dev.commit_okQuiet {w : Writes} (h : w.ok = true) (hs : w.si = true) (old new : Dev) :
    (old.commit w new).okQuiet = new.okQuiet := by
  simp [Dev.okQuiet, h, hs]

theorem Dev.resetTo_modesOk (d : Dev) (c : Nat) (p : Bool) : (d.resetTo c p).modesOk = true := rfl
theorem Dev.resetTo_okQuiet (d : Dev) (c : Nat) (p : Bool) : (d.resetTo c p).okQuiet = true := by
  cases p
  · rfl
  · simp [Dev.resetTo, IslandSt.kept, Dev.okQuiet]

/-- A device that is not operational meets the first half of the invariant. -/
theorem Dev.modesOk_of_op_false {d : Dev} (h : d.tm.op = false) : d.modesOk = true := by simp [Dev.modesOk, h]

/-- After the entry to maintenance mode both halves of the invariant hold, whatever the device was (R415). -/
theorem Dev.maintFlags_modesOk (d old : Dev) : (d.maintFlags old).modesOk = true := Dev.modesOk_of_op_false rfl
theorem Dev.maintFlags_okQuiet (d old : Dev) : (d.maintFlags old).okQuiet = true :=
  Dev.okQuiet_of_low (m := true) (l := old.si.pllLost) rfl

theorem strokeBoundary_modesOk {d : Dev} (h : d.modesOk = true) (heads : Option (List (Word64 × Word64)))
    (g : Option (Nat × Bool)) (errs : List CmnErr) (a : Bool) : (strokeBoundary heads g errs a d).modesOk = true := by
  unfold strokeBoundary
  split
  · exact h
  · generalize (d.boundaryWork heads g errs a).recPost d = e
    dsimp only
    split
    · exact e.maintFlags_modesOk d
    · exact h

theorem strokeBoundary_okQuiet {d : Dev} (h : d.okQuiet = true) (heads : Option (List (Word64 × Word64)))
    (g : Option (Nat × Bool)) (errs : List CmnErr) (a : Bool) : (strokeBoundary heads g errs a d).okQuiet = true := by
  unfold strokeBoundary
  split
  · exact h
  · generalize (d.boundaryWork heads g errs a).recPost d = e
    dsimp only
    split
    · exact e.maintFlags_okQuiet d
    · exact h

theorem Dev.mayEnter_guard {d : Dev} {s : Stroke} (h : d.mayEnter s = true) :
    d.bt.placed = true ∧ d.bt.locked = true ∧ d.tm.op = false ∧ d.pm.held = false ∧ d.hi.maint = false := by
  simp only [Dev.mayEnter, Bool.and_eq_true, Bool.not_eq_true'] at h
  obtain ⟨⟨⟨⟨⟨⟨⟨⟨⟨hp, hl⟩, -⟩, ho⟩, hh⟩, hm⟩, -⟩, -⟩, -⟩, -⟩ := h
  exact ⟨hp, hl, ho, hh, hm⟩

theorem enterOperational_modesOk {d : Dev} (h : d.modesOk = true) : (enterOperational d).modesOk = true := by
  unfold enterOperational
  dsimp only
  split
  · next hmay =>
    obtain ⟨hp, hl, ho, hh, hm⟩ := Dev.mayEnter_guard hmay
    split
    · simp [Dev.modesOk, Dev.sameMode, hp, hl, hh, hm]
    · exact Dev.modesOk_of_op_false ho
  · split
    · exact Dev.maintFlags_modesOk _ _
    · exact h

@[simp] theorem Dev.sameMode_si (d old : Dev) : (d.sameMode old).si = d.si := rfl

theorem enterOperational_okQuiet {d : Dev} (h : d.okQuiet = true) : (enterOperational d).okQuiet = true := by
  unfold enterOperational
  dsimp only
  split
  · split
    · refine (Dev.okQuiet_congr ?_).trans h
      rw [Dev.sameMode_si, Dev.recPost_si, Dev.entryWork_okPart, Dev.sessionStart_okPart]
    · refine (Dev.okQuiet_congr ?_).trans h
      rw [Dev.sameMode_si, Dev.recPost_si, Dev.sessionStart_okPart]
  · split
    · exact Dev.maintFlags_okQuiet _ _
    · exact h

@[simp] theorem Dev.putLink_tm (d : Dev) (k : Nat) (l : LinkSt) : (d.putLink k l).tm = d.tm := rfl
@[simp] theorem Dev.putLink_si (d : Dev) (k : Nat) (l : LinkSt) : (d.putLink k l).si = d.si := rfl

theorem resetRelease_modesOk {d : Dev} (h : d.modesOk = true) (x y : BitVec 2) (m : Bool) :
    (resetRelease x y m d).modesOk = true := by
  unfold resetRelease
  split
  · exact h
  · next hc =>
    have hheld : d.pm.held = true := by simpa using (not_or.mp hc).1
    have ho : d.tm.op = false := by simpa [Dev.modesOk, hheld] using h
    apply Dev.modesOk_of_op_false
    dsimp only
    rw [foldl_proj _ Dev.tm fun e j => ?_]
    · exact ho
    · split <;> simp

theorem resetRelease_okQuiet {d : Dev} (h : d.okQuiet = true) (x y : BitVec 2) (m : Bool) :
    (resetRelease x y m d).okQuiet = true := by
  unfold resetRelease
  split
  · exact h
  · refine (Dev.okQuiet_congr ?_).trans h
    dsimp only
    rw [Dev.si_foldl fun e j => ?_]
    split <;> simp

theorem resetNAssert_modesOk {d : Dev} (h : d.modesOk = true) (n : Nat) (k : Bool) : (resetNAssert n k d).modesOk = true := by
  unfold resetNAssert; split
  · rfl
  · exact h

theorem resetNAssert_okQuiet {d : Dev} (h : d.okQuiet = true) (n : Nat) (k : Bool) : (resetNAssert n k d).okQuiet = true := by
  unfold resetNAssert; split
  · exact d.resetTo_okQuiet ..
  · exact h

theorem internalReset_modesOk {d : Dev} (h : d.modesOk = true) : (internalReset d).modesOk = true := by
  unfold internalReset; split
  · rfl
  · exact h

theorem internalReset_okQuiet {d : Dev} (h : d.okQuiet = true) : (internalReset d).okQuiet = true := by
  unfold internalReset; split
  · exact d.resetTo_okQuiet ..
  · exact h

theorem mainPor_modesOk {d : Dev} (h : d.modesOk = true) (r : Nat) : (mainPor r d).modesOk = true := by
  unfold mainPor
  dsimp only
  split
  · split <;> rfl
  · exact h

theorem mainPor_okQuiet {d : Dev} (h : d.okQuiet = true) (r : Nat) : (mainPor r d).okQuiet = true := by
  unfold mainPor
  dsimp only
  have hr : ((d.resetTo 0 true).setRail r false).okQuiet = true := d.resetTo_okQuiet 0 true
  split
  · split <;> exact hr
  · exact h

theorem boot_of_op {d : Dev} (h : d.tm.op = true) (l : List FlashDev) : boot l d = d := if_pos (.inr (.inl h))

theorem Dev.commit_modesOk {w : Writes} (hm : w.mode = true) (ht : w.tm = true) (hp : w.pm = true) (hh : w.hi = true)
    (hb : w.bt = true) (old new : Dev) : (old.commit w new).modesOk = new.modesOk := by
  simp [Dev.modesOk, hm, ht, hp, hh, hb]

/-- The boot code does nothing in the operational state, and does not enter it. -/
theorem boot_commit_modesOk {d : Dev} (h : d.modesOk = true) (l : List FlashDev) :
    (d.commit (Instr.boot l).acts (boot l d)).modesOk = true := by
  cases ho : d.tm.op with
  | true => rw [boot_of_op ho, Dev.commit_self, h]
  | false => exact Dev.modesOk_of_op_false (by simp [Instr.acts, Writes.all, ho])

@[simp] theorem Dev.sameMode_held (d old : Dev) : (d.sameMode old).pm.held = old.pm.held := rfl
@[simp] theorem Dev.maintFlags_held (d old : Dev) : (d.maintFlags old).pm.held = old.pm.held := rfl

/-- The entry does not reset the device. -/
theorem enterOperational_held (d : Dev) : (enterOperational d).pm.held = d.pm.held := by
  unfold enterOperational
  dsimp only
  split
  · split
    · rw [Dev.sameMode_held]
    · rw [Dev.sameMode_held]
  · split
    · exact Dev.maintFlags_held ..
    · rfl

theorem enterOperational_commit_modesOk {d : Dev} (h : d.modesOk = true) :
    (d.commit Instr.enterOperational.acts (enterOperational d)).modesOk = true := by
  have he := enterOperational_modesOk h
  simp only [Dev.modesOk, enterOperational_held] at he
  simpa [Dev.modesOk, Instr.acts, Writes.all] using he

theorem State.inv_iff (s : State) : s.inv = true ↔ s.dev.modesOk = true ∧ s.dev.okQuiet = true := by
  simp [State.inv]

/-- The mode flags are consistent after every command. -/
theorem exec_modesOk {s t : State} (c : Instr) (h : s.dev.modesOk = true) (ht : exec c s = .next t) :
    t.dev.modesOk = true := by
  have hrun {e : Dev} (he : exec c s = .next { s with dev := s.dev.commit c.acts e })
      (hok : (s.dev.commit c.acts e).modesOk = true) : t.dev.modesOk = true := by
    obtain rfl : _ = t := Host.Outcome.next.inj (he.symm.trans ht)
    exact hok
  rcases acts_mode_cases c with hm | ⟨heads, w, rfl⟩ | rfl | ⟨l, rfl⟩ | ⟨x, y, m, rfl⟩ | ⟨n, k, rfl⟩ | ⟨r, rfl⟩ | rfl
  · obtain ⟨e, he⟩ := exec_next c s
    exact hrun he ((Dev.commit_modesOk_of_mode_false hm ..).trans h)
  · exact hrun rfl ((Dev.commit_modesOk rfl rfl rfl rfl rfl ..).trans (strokeBoundary_modesOk h ..))
  · exact hrun rfl (enterOperational_commit_modesOk h)
  · exact hrun rfl (boot_commit_modesOk h l)
  · exact hrun rfl ((Dev.commit_modesOk rfl rfl rfl rfl rfl ..).trans (resetRelease_modesOk h x y m))
  · exact hrun rfl ((Dev.commit_modesOk rfl rfl rfl rfl rfl ..).trans (resetNAssert_modesOk h n k))
  · exact hrun rfl ((Dev.commit_modesOk rfl rfl rfl rfl rfl ..).trans (mainPor_modesOk h r.val))
  · exact hrun rfl ((Dev.commit_modesOk rfl rfl rfl rfl rfl ..).trans (internalReset_modesOk h))

/-- SAFE_OK is quiet where it must be after every command. -/
theorem exec_okQuiet {s t : State} (c : Instr) (h : s.dev.okQuiet = true) (ht : exec c s = .next t) :
    t.dev.okQuiet = true := by
  have hkeep {e : Dev} (he : exec c s = .next { s with dev := s.dev.commit c.acts e }) (hok : c.acts.ok = false) :
      t.dev.okQuiet = true := by
    obtain rfl : _ = t := Host.Outcome.next.inj (he.symm.trans ht)
    exact (Dev.commit_okQuiet_of_ok_false hok ..).trans h
  have hrun {e : Dev} (he : exec c s = .next { s with dev := s.dev.commit c.acts e }) (hok : c.acts.ok = true)
      (hsi : c.acts.si = true) (hq : e.okQuiet = true) : t.dev.okQuiet = true := by
    obtain rfl : _ = t := Host.Outcome.next.inj (he.symm.trans ht)
    exact (Dev.commit_okQuiet hok hsi ..).trans hq
  rcases acts_mode_cases c with hm | ⟨heads, w, rfl⟩ | rfl | ⟨l, rfl⟩ | ⟨x, y, m, rfl⟩ | ⟨n, k, rfl⟩ | ⟨r, rfl⟩ | rfl
  · rcases acts_ok_cases c hm with hk | ⟨m, rfl⟩ | rfl | rfl
    · obtain ⟨e, he⟩ := exec_next c s
      exact hkeep he hk
    · exact hrun rfl rfl rfl (safeOkEdge_okQuiet h m)
    · exact hrun rfl rfl rfl (islandPllLoss_okQuiet _)
    · exact hrun rfl rfl rfl (islandPor_okQuiet _)
  · exact hrun rfl rfl rfl (strokeBoundary_okQuiet h ..)
  · exact hrun rfl rfl rfl (enterOperational_okQuiet h)
  · exact hrun rfl rfl rfl (boot_okQuiet h l)
  · exact hrun rfl rfl rfl (resetRelease_okQuiet h x y m)
  · exact hrun rfl rfl rfl (resetNAssert_okQuiet h n k)
  · exact hrun rfl rfl rfl (mainPor_okQuiet h r.val)
  · exact hrun rfl rfl rfl (internalReset_okQuiet h)

theorem exec_inv {s t : State} (c : Instr) (h : s.inv = true) (ht : exec c s = .next t) : t.inv = true := by
  rw [State.inv_iff] at h ⊢
  exact ⟨exec_modesOk c h.1 ht, exec_okQuiet c h.2 ht⟩

end Sys2Proof.Machine

open Sys2Proof Sys2Proof.Machine

/-- Settles O5: a step is a command or none, and every command keeps both halves of the invariant. -/
theorem invariantKept : Obligations.InvariantKept := by
  intro s t h ht
  unfold step at ht
  split at ht
  · obtain rfl : s = t := Host.Outcome.next.inj ht
    exact h
  · next c rest _ => exact exec_inv (s := { s with pending := rest }) c h ht

/-- Settles O7: what a command that does not act on the mode flags answers is a commit that keeps them. -/
theorem modeFlagsChangeOnlyBy : Obligations.ModeFlagsChangeOnlyBy := by
  intro c s t h hc
  obtain ⟨e, he⟩ := exec_next c s
  obtain rfl : _ = t := Host.Outcome.next.inj (he.symm.trans h)
  have hm : c.acts.mode = false := by
    rcases acts_mode_cases c with hm | ⟨_, _, rfl⟩ | rfl | ⟨_, rfl⟩ | ⟨_, _, _, rfl⟩ | ⟨_, _, rfl⟩ | ⟨_, rfl⟩ | rfl
    · exact hm
    all_goals exact hc.elim
  simp [hm]
end

section
/-! SUPPORT. The boundaries of strokes and frames, the entry and the retirement (R19, R21, R25, R91, R415). -/

namespace Sys2Proof.Machine

/-! ### The boundary of a stroke (R25, R415) -/

theorem strokeBoundary_of_operational {d : Dev} (hh : d.pm.held = false) (hm : d.hi.maint = false) (ho : d.tm.op = true)
    (heads : Option (List (Word64 × Word64))) (g : Option (Nat × Bool)) (errs : List CmnErr) (a : Bool) :
    let e := strokeBoundary heads g errs a d
    (e.hi.maint = false → e.tm.op = true ∧ e.tm.stroke = d.tm.stroke + 1 ∧ e.tm.openRaw = d.tm.openRaw + d.tm.len) ∧
      (e.hi.maint = true → e.tm.op = false ∧ e.si.pin = false ∧ e.si.running = false) := by
  dsimp only
  rw [strokeBoundary, if_neg (by simp [hh, hm, ho])]
  generalize (d.boundaryWork heads g errs a).recPost d = e
  dsimp only
  split
  · exact ⟨fun h => Bool.noConfusion h, fun _ => ⟨rfl, rfl, rfl⟩⟩
  · exact ⟨fun _ => ⟨ho, rfl, rfl⟩, fun h => absurd (hm.symm.trans h) (by decide)⟩

/-! ### The entry (R19) -/

theorem enterOperational_of_mayEnter {d : Dev} (h : d.mayEnter (BitVec.ofInt 48 d.entryClock.2) = true)
    (hs : (d.sessionStart (BitVec.ofInt 48 d.entryClock.2)).1 = true) :
    (enterOperational d).tm.op = true ∧ (enterOperational d).tm.openRaw = d.entryClock.1 ∧
      (enterOperational d).tm.stroke = (d.sessionStart (BitVec.ofInt 48 d.entryClock.2)).2.1 := by
  unfold enterOperational
  dsimp only
  rw [if_pos h, if_pos hs]
  exact ⟨rfl, rfl, rfl⟩

/-! ### The frame boundary -/

/-- What the beginning of a frame sets and what the work after it at the boundary leaves: time but for the trigger outputs, the
grid builder but for its queues, intake's `used`, the golden region, and two registers of the grid builder. -/
def Dev.frameView (d : Dev) : TimeSt × GridSt × Nat × SMap Ctx × Word × Word :=
  ({ d.tm with trig := [] }, { d.gb with inq := [], gold := [], vq := [] }, d.ig.used, d.cm.gold, d.rd GB_SITES,
    d.rd GB_COV_LAST_OFFERED)

theorem Dev.rd_hwN_same (d : Dev) (a v : Nat) : (d.hwN a v).rd a = BitVec.ofNat 32 v := d.rd_hw_same a _
theorem Dev.rd_hwN_ne (d : Dev) {a b : Nat} (v : Nat) (h : b ≠ a) : (d.hwN a v).rd b = d.rd b := d.rd_hw_ne _ h

/-- A recoverable fault writes no register. -/
theorem Dev.rd_report_recoverable (d : Dev) {r : FltRep} (h : fltClass r.src = 2) (a : Nat) : (d.report r).rd a = d.rd a := by
  unfold Dev.report
  split
  case h_2 =>
    dsimp only
    split <;> simp [Dev.rd]
  case h_1 h1 => exact absurd (h.symm.trans h1) (by decide)
  case h_3 h3 => exact absurd (h.symm.trans h3) (by decide)
  case h_4 _ h2 _ => exact absurd h h2

theorem Dev.frameView_hwN (d : Dev) {a : Nat} (v : Nat) (h : GB_SITES ≠ a ∧ GB_COV_LAST_OFFERED ≠ a) :
    (d.hwN a v).frameView = d.frameView := by
  obtain ⟨hs, ho⟩ := h
  simp only [Dev.frameView, Dev.rd_hwN_ne _ _ hs, Dev.rd_hwN_ne _ _ ho]
  rfl
theorem Dev.frameView_foldl {α : Type} {f : Dev → α → Dev} {l : List α} (h : ∀ d, ∀ x ∈ l, (f d x).frameView = d.frameView)
    (d : Dev) : (l.foldl f d).frameView = d.frameView := by
  induction l generalizing d with
  | nil => rfl
  | cons x r ih =>
    rw [List.foldl_cons, ih fun d y hy => h d y (List.mem_cons_of_mem _ hy), h d x List.mem_cons_self]

/-- The island posts registers of its own pages only. -/
theorem Dev.frameView_mirror (d : Dev) : d.mirror.frameView = d.frameView := by
  unfold Dev.mirror
  dsimp only
  rw [Dev.frameView_foldl fun d n hn => ?_, Dev.frameView_foldl fun d y hy => ?_]
  · repeat rw [Dev.frameView_hwN _ _ (by decide)]
    rfl
  · have := List.mem_range.mp hy
    rw [Dev.frameView_hwN]
    constructor <;> simp only [SI_SERVE, GB_SITES, GB_COV_LAST_OFFERED, ne_eq] <;> omega
  · have := List.mem_range.mp hn
    rw [Dev.frameView_hwN, Dev.frameView_hwN, Dev.frameView_hwN] <;> constructor <;>
      simp only [WW_STATE, WW_LAST_LO, WW_LAST_HI, GB_SITES, GB_COV_LAST_OFFERED, ne_eq] <;> omega

theorem Dev.frameView_msixSend (d : Dev) (v : Nat) : (d.msixSend v).frameView = d.frameView := by
  unfold Dev.msixSend
  dsimp only
  repeat' split
  all_goals rfl
theorem Dev.frameView_posted (d : Dev) (old : IslandSt) : (d.posted old).frameView = d.frameView := by
  have hm : (if d.si.status = old.status then d else d.mirror).frameView = d.frameView := by
    split
    · rfl
    · exact d.frameView_mirror
  unfold Dev.posted
  generalize (if d.si.status = old.status then d else d.mirror) = e at hm ⊢
  dsimp only
  split
  · rw [← hm, Dev.irq, Dev.frameView_msixSend]
    rfl
  · exact hm

theorem Dev.frameView_logPut (d : Dev) (bs : List Byte) : (d.logPut bs).frameView = d.frameView := by
  unfold Dev.logPut
  dsimp only
  split
  · rfl
  split
  · simp [Dev.frameView, Dev.rd_report_recoverable, fltClass]
  · simp [Dev.frameView, Dev.rd]

theorem Dev.frameView_logEnd (d : Dev) (s : Stroke) (st : Nat) : (d.logEnd s st).frameView = d.frameView :=
  d.frameView_logPut _
theorem Dev.frameView_logAll (s : Stroke) (l : List LogEnt) (d : Dev) : (d.logAll s l).frameView = d.frameView := by
  induction l generalizing d with
  | nil => rfl
  | cons e r ih =>
    unfold Dev.logAll
    dsimp only
    split
    · rfl
    split
    · rw [ih, Dev.frameView_logPut]
    · exact d.frameView_logEnd s 5
theorem Dev.frameView_logFlush (d : Dev) (s : Stroke) : (d.logFlush s).frameView = d.frameView := by
  unfold Dev.logFlush
  split
  · exact Dev.frameView_logAll ..
  · rfl
theorem Dev.frameView_sessionStop (d : Dev) (s : Stroke) : (d.sessionStop s).frameView = d.frameView := by
  unfold Dev.sessionStop
  split
  · rfl
  split
  · rw [Dev.frameView_logEnd, Dev.frameView_logFlush]
  split <;> rfl
theorem Dev.frameView_derateStep (d : Dev) : d.derateStep.frameView = d.frameView := by
  unfold Dev.derateStep
  split
  · rfl
  extract_lets lo hy l d1 d2
  have h1 : d1.frameView = d.frameView := by unfold d1; split <;> rfl
  have h2 : d2.frameView = d1.frameView := by unfold d2; split <;> rfl
  rw [Dev.frameView_hwN _ _ (by decide)]
  exact h2.trans h1
theorem Dev.frameView_queuePoint (d : Dev) (g : GPoint) : (d.queuePoint g).frameView = d.frameView := by
  unfold Dev.queuePoint
  split <;> rfl
theorem Dev.frameView_injectGold (d : Dev) : d.injectGold.frameView = d.frameView := by
  unfold Dev.injectGold
  split
  · rfl
  · extract_lets bs c ps s pts e
    have he : e.frameView = d.frameView := Dev.frameView_foldl (fun d pt _ => d.frameView_queuePoint ⟨s, pt⟩) d
    rw [← he]
    rfl
theorem Dev.frameView_sendBoundary (d : Dev) : d.sendBoundary.frameView = d.frameView := by
  unfold Dev.sendBoundary
  dsimp only
  split
  · rfl
  · simp [Dev.frameView, Dev.rd]
theorem Dev.frameView_resume (d : Dev) : d.resume.frameView = d.frameView :=
  Dev.frameView_sendBoundary _
theorem Dev.frameView_resumeWork (d : Dev) : d.resumeWork.frameView = d.frameView := by
  unfold Dev.resumeWork
  extract_lets s due
  split
  · exact Dev.frameView_posted ..
  · rfl
theorem Dev.frameView_recPost (d old : Dev) : (d.recPost old).frameView = d.frameView := by
  unfold Dev.recPost
  dsimp only
  split
  · simp [Dev.frameView, Dev.rd]
  · rfl

/-! ### The frame's boundary and its retirement (R21, R91) -/

@[simp] theorem Dev.gridStatus_tm (d : Dev) : d.gridStatus.tm = d.tm := by rw [Dev.gridStatus_eq]
@[simp] theorem Dev.gridStatus_gb (d : Dev) : d.gridStatus.gb = d.gb := by rw [Dev.gridStatus_eq]
@[simp] theorem Dev.gridStatus_ig (d : Dev) : d.gridStatus.ig = d.ig := by rw [Dev.gridStatus_eq]
@[simp] theorem Dev.gridStatus_cm (d : Dev) : d.gridStatus.cm = d.cm := by rw [Dev.gridStatus_eq]

theorem Dev.rd_gridStatus_sites (d : Dev) : d.gridStatus.rd GB_SITES = BitVec.ofNat 32 d.gb.cur.sites := by
  unfold Dev.gridStatus
  extract_lets fill pend d1 d2 d3 d4 d5 d6 d7
  have h7 : d7.rd GB_SITES = d6.rd GB_SITES := by
    unfold d7
    split
    · rw [Dev.rd_hwN_ne _ _ (by decide), Dev.rd_hwN_ne _ _ (by decide)]
    · rfl
  rw [Dev.rd_hwN_ne _ _ (by decide), h7]
  unfold d6 d5 d4 d3 d2
  iterate 5 rw [Dev.rd_hwN_ne _ _ (by decide)]
  exact Dev.rd_hwN_same ..

theorem Dev.rd_gridStatus_lastOffered {d : Dev} (h : d.gb.prevLive = true) :
    d.gridStatus.rd GB_COV_LAST_OFFERED = BitVec.ofNat 32 d.gb.prev.offered := by
  unfold Dev.gridStatus
  extract_lets fill pend d1 d2 d3 d4 d5 d6 d7
  have h7 : d7 = (d6.hwN GB_COV_LAST_OFFERED d.gb.prev.offered).hwN GB_COV_LAST_MERGED d.gb.prev.merged := if_pos h
  rw [Dev.rd_hwN_ne _ _ (by decide), h7, Dev.rd_hwN_ne _ _ (by decide), Dev.rd_hwN_same]

/-- What follows the beginning of the frame at its boundary leaves the frame's view as it is. -/
theorem frameView_frameBoundary {d : Dev} (ho : d.tm.op = true) (hd : d.tm.frameDue = true) :
    (frameBoundary d).frameView = d.newFrame.gridStatus.frameView := by
  have hs : ((d.newFrame.gridStatus.derateStep).sessionStop d.tm.stroke).frameView = d.newFrame.gridStatus.frameView := by
    rw [Dev.frameView_sessionStop, Dev.frameView_derateStep]
  rw [frameBoundary, if_pos ⟨ho, hd⟩]
  generalize (d.newFrame.gridStatus.derateStep).sessionStop d.tm.stroke = e at hs ⊢
  dsimp only
  split
  · exact hs
  rw [Dev.frameView_resume]
  split
  · rw [Dev.frameView_injectGold, Dev.frameView_resumeWork, hs]
  · rw [Dev.frameView_resumeWork, hs]

/-- What the beginning of a frame sets, and the last counts of the frame before it. -/
theorem frameBoundary_of_due {d : Dev} (ho : d.tm.op = true) (hd : d.tm.frameDue = true) :
    let e := (frameBoundary d).recPost d
    { e.tm with trig := [] } = { d.newFrame.tm with trig := [] } ∧
      { e.gb with inq := [], gold := [], vq := [] } = { d.newFrame.gb with inq := [], gold := [], vq := [] } ∧
      e.ig.used = 0 ∧ e.cm.gold = [] ∧ e.rd GB_SITES = 0 ∧
      (d.tm.framed = true → e.rd GB_COV_LAST_OFFERED = BitVec.ofNat 32 d.gb.cur.offered) := by
  have hv := (Dev.frameView_recPost _ d).trans (frameView_frameBoundary ho hd)
  simp only [Dev.frameView, Prod.mk.injEq, Dev.gridStatus_tm, Dev.gridStatus_gb, Dev.gridStatus_ig, Dev.gridStatus_cm,
    Dev.rd_gridStatus_sites] at hv
  obtain ⟨htm, hgb, hig, hcm, hs, hl⟩ := hv
  exact ⟨htm, hgb, hig, hcm, hs, fun hf => hl.trans (Dev.rd_gridStatus_lastOffered (d := d.newFrame) (by simp [Dev.newFrame, hf]))⟩

/-- A retirement ends the previous frame and starts the scrub, with the last counts in the LAST registers. -/
theorem frameRetire_of_due {d : Dev} (h : d.tm.retireDue = true) :
    (frameRetire d).tm.retireDue = false ∧
      (frameRetire d).gb = { d.gb with prevLive := false, sitePrev := [], siteGoldPrev := []
                                       scrub := some ((d.tm.frame - 1).toNat % 4, 0) } ∧
      (frameRetire d).rd GB_SITES_PREV = 0 ∧
      (frameRetire d).rd GB_COV_LAST_OFFERED = BitVec.ofNat 32 d.gb.prev.offered := by
  rw [frameRetire, if_pos h]
  extract_lets f d1 g t d2 d3
  refine ⟨rfl, rfl, ?_, ?_⟩
  · rw [Dev.rd_hwN_ne _ _ (by decide), Dev.rd_hwN_ne _ _ (by decide), Dev.rd_hwN_same]
    rfl
  · have h2 : d2.rd GB_COV_LAST_OFFERED = d1.rd GB_COV_LAST_OFFERED := rfl
    rw [Dev.rd_hwN_ne _ _ (by decide), Dev.rd_hwN_ne _ _ (by decide), Dev.rd_hwN_ne _ _ (by decide), h2,
      Dev.rd_hwN_ne _ _ (by decide), Dev.rd_hwN_same]
end Sys2Proof.Machine

open Sys2Proof Sys2Proof.Machine

/-- Settles O39: the boundary and the entry by their last updates, the frame by what the work after its beginning leaves
(`Dev.frameView`), the retirement by its writes. -/
theorem boundariesAndEntry : Obligations.BoundariesAndEntry := by
  intro s heads what
  refine ⟨fun hh hm ho => ⟨_, rfl, ?_⟩, fun hm hs => ⟨_, rfl, ?_⟩, fun ho hd => ⟨_, rfl, ?_⟩, fun h => ⟨_, rfl, ?_⟩⟩
  · have := strokeBoundary_of_operational hh hm ho heads (what.golden.map (fun c => (c, what.goldenLate))) what.errs what.agree
    simpa [Writes.all] using this
  · obtain ⟨hop, hraw, hst⟩ := enterOperational_of_mayEnter hm hs
    refine ⟨?_, ?_, ?_, rfl⟩
    · simpa [Writes.all] using hop
    · simpa [Writes.all] using hraw
    · simpa [Writes.all] using hst
  · obtain ⟨htm, hgb, hig, hcm, hs, hl⟩ := frameBoundary_of_due ho hd
    dsimp only
    generalize (frameBoundary s.dev).recPost s.dev = e at *
    simp only [Writes.all, Dev.commit_tm_frameDue, Dev.commit_tm_framed, Dev.commit_tm_frame, Dev.commit_tm_frameAt,
      Dev.commit_tm_tf, Dev.commit_gb, Dev.commit_ig, Dev.commit_cm, Dev.commit_mem, Dev.rd_commit, pick_true, pick_false]
    refine ⟨congrArg TimeSt.frameDue htm, congrArg TimeSt.framed htm, (congrArg TimeSt.frame htm).trans ?_,
      congrArg TimeSt.frameAt htm, congrArg TimeSt.tf htm, congrArg GridSt.cur hgb, congrArg GridSt.prev hgb,
      (congrArg GridSt.prevLive hgb).trans (Bool.not_not _), congrArg GridSt.siteCur hgb, congrArg GridSt.sitePrev hgb,
      congrArg GridSt.siteGold hgb, congrArg GridSt.siteGoldPrev hgb, by rw [hs]; rfl,
      fun hf => by rw [hl hf, BitVec.toNat_ofNat], hig, hcm, trivial⟩
    cases hf : s.dev.tm.framed <;> simp [Dev.newFrame, hf]
  · obtain ⟨hr, hg, hp, hc⟩ := frameRetire_of_due h
    simp [hr, hg, hp, hc]
end

section
/-! SUPPORT. Frames and packets received (R38 to R42, R49, R51): where a frame goes, and what a packet that is taken in order
leaves of its stream. -/

namespace Sys2Proof.Machine

/-! ### What the delivery of a packet's returns leaves of its stream -/

/-- A stream's state but for its sectors. -/
def StreamSt.order (st : StreamSt) : StreamSt := { st with sec := none, dead := none }

/-- What a packet that is taken in order moves on: its stream's PKT_OK and state but for the sectors, in its stroke. -/
def Dev.orderView (d : Dev) (n : Nat) : Ctr × Stroke × StreamSt :=
  (d.ctr (IG_STREAM_PKT_OK n), d.tm.stroke, (d.strm n).order)

/-- What a packet that is taken makes of it: one more PKT_OK, its stroke and sweep kept, the expected index at `e`. -/
def takenView (v : Ctr × Stroke × StreamSt) (p : Pkt) (e : Nat) : Ctr × Stroke × StreamSt :=
  (ctrAdd v.1 1, v.2.1, { v.2.2 with lastAcc := v.2.1, last := some (BitVec.ofNat 16 p.seq), e := e })

@[simp] theorem Dev.strm_setStrm_same (d : Dev) (n : Nat) (st : StreamSt) : (d.setStrm n st).strm n = st := by
  simp [Dev.strm, Dev.setStrm]

@[simp] theorem Dev.strm_bump (d : Dev) (a k n : Nat) : (d.bump a k).strm n = d.strm n := rfl

theorem Dev.orderView_setStrm (d : Dev) (n : Nat) (st : StreamSt) :
    (d.setStrm n st).orderView n = (d.ctr (IG_STREAM_PKT_OK n), d.tm.stroke, st.order) := by
  rw [Dev.orderView, Dev.strm_setStrm_same]
  rfl

/-- A change of a stream's sectors alone. -/
theorem Dev.orderView_setStrm_of_order {d : Dev} {n : Nat} {st : StreamSt} (h : st.order = (d.strm n).order) :
    (d.setStrm n st).orderView n = d.orderView n := by
  rw [Dev.orderView_setStrm, h]
  rfl

theorem Dev.orderView_bump (d : Dev) {a n : Nat} (k : Nat) (h : IG_STREAM_PKT_OK n ≠ a) :
    (d.bump a k).orderView n = d.orderView n := by
  simp only [Dev.orderView, Dev.ctr_bump_ne d k h]
  rfl

theorem Dev.orderView_flitPut (d : Dev) (k : Nat) (f : List Byte) (n : Nat) : (d.flitPut k f).orderView n = d.orderView n := by
  unfold Dev.flitPut
  dsimp only
  split <;> rfl

theorem Dev.orderView_flitOut (d : Dev) (k type cls : Nat) (bs : List Byte) (n : Nat) :
    (d.flitOut k type cls bs).orderView n = d.orderView n := by
  unfold Dev.flitOut
  rw [Dev.orderView_flitPut, Dev.orderView_bump _ _ (by simp only [IG_STREAM_PKT_OK, RL_FLITS_TX]; omega)]
  rfl

theorem Dev.orderView_flitSend (d : Dev) (k type cls : Nat) (bs : List Byte) (n : Nat) :
    (d.flitSend k type cls bs).orderView n = d.orderView n := by
  unfold Dev.flitSend
  dsimp only
  split
  · rfl
  split
  · rfl
  · exact d.orderView_flitOut ..

theorem Dev.orderView_linkSend (d : Dev) (chip cls : Nat) (e : OutEvent) (n : Nat) :
    (d.linkSend chip cls e).orderView n = d.orderView n := by
  unfold Dev.linkSend
  dsimp only
  split
  · exact Dev.orderView_flitSend ..
  · rfl

theorem Dev.orderView_foldl {α : Type} {f : Dev → α → Dev} {n : Nat} (h : ∀ d x, (f d x).orderView n = d.orderView n)
    (l : List α) (d : Dev) : (l.foldl f d).orderView n = d.orderView n :=
  foldl_proj f (fun d => d.orderView n) h l d

theorem Dev.orderView_queuePoint (d : Dev) (g : GPoint) (n : Nat) : (d.queuePoint g).orderView n = d.orderView n := by
  unfold Dev.queuePoint
  split <;> rfl

theorem Dev.orderView_bufPoint (d : Dev) (p : Point) (n : Nat) : (d.bufPoint p).orderView n = d.orderView n := by
  unfold Dev.bufPoint Dev.stagingPut
  split
  · split <;> rfl
  · rfl

theorem Dev.orderView_deliver (d : Dev) (p : Point) (n : Nat) : (d.deliver p).orderView n = d.orderView n := by
  unfold Dev.deliver
  extract_lets hs me e
  have he : e.orderView n = d.orderView n := by
    unfold e
    split
    · rw [Dev.orderView_bufPoint, Dev.orderView_queuePoint]
    · rfl
  split
  · exact he
  · rw [Dev.orderView_foldl fun d j => d.orderView_linkSend .., he]

theorem Dev.orderView_tapPoint (d : Dev) (x y z : Int) (n : Nat) : (d.tapPoint x y z).orderView n = d.orderView n :=
  Dev.orderView_foldl (fun d j => d.orderView_linkSend j copyClass (.tapCopy j d.tm.stroke x y z) n) _ _

/-- The returns of an index move its sector, never the order of the stream's packets. -/
theorem Dev.orderView_acceptIndex (d : Dev) (n : Nat) (c : StreamCfg) (p : Pkt) (base i : Nat) :
    (d.acceptIndex n c p base i).orderView n = d.orderView n := by
  unfold Dev.acceptIndex
  extract_lets rs st k pts bad d1 os near fwd ret os' d2 v d3
  have h1 : d1.orderView n = d.orderView n := by
    unfold d1
    rw [Dev.orderView_bump _ _ (by simp [IG_STREAM_PKT_OK, IG_STREAM_RET_INVALID]),
      Dev.orderView_bump _ _ (by simp [IG_STREAM_PKT_OK, IG_STREAM_RET_VALID])]
  have h2 : d2.orderView n = d.orderView n := by
    unfold d2
    rw [Dev.orderView_foldl fun d q => d.orderView_deliver .., h1]
  clear_value d2
  have hst : (d2.strm n).order = st.order := congrArg (fun x => x.2.2) h2
  split
  · rw [Dev.orderView_bump _ _ (by simp [IG_STREAM_PKT_OK, IG_STREAM_RET_INVALID]), h1]
  split
  all_goals
    refine (Dev.orderView_setStrm_of_order ?_).trans h2
    exact hst.symm

/-! ### What failed sectors leave of their stream -/

@[simp] theorem Dev.strm_failSector (d : Dev) (n k : Nat) (why : FailReason) (m : Nat) :
    (d.failSector n k why).strm m = d.strm m := by
  unfold Dev.failSector
  extract_lets
  split <;> rfl

theorem Dev.orderView_failSector (d : Dev) (n k : Nat) (why : FailReason) (m : Nat) :
    (d.failSector n k why).orderView m = d.orderView m := by
  unfold Dev.failSector
  extract_lets st os last li d1 v
  split
  · rfl
  · exact Dev.orderView_bump _ _ (by simp only [IG_STREAM_PKT_OK, IG_STREAM_RET_INVALID]; omega)

theorem Dev.orderView_failRange (d : Dev) (n len a b : Nat) (why : FailReason) :
    (d.failRange n len a b why).orderView n = d.orderView n := by
  unfold Dev.failRange
  split
  · rw [Dev.orderView_setStrm_of_order (by rfl), Dev.orderView_foldl fun d m => d.orderView_failSector ..]
  · rfl

theorem orderView_sectorTimeout (n : Nat) (d : Dev) : (sectorTimeout n d).orderView n = d.orderView n := by
  unfold sectorTimeout
  dsimp only
  split
  · split
    · rw [Dev.orderView_setStrm_of_order (by rfl), Dev.orderView_failSector]
    · rfl
  · rfl

/-! ### A packet taken in order (R51) -/

theorem Dev.orderView_acceptPkt (d : Dev) (n : Nat) (c : StreamCfg) (p : Pkt) (arr lo : Nat) :
    (d.acceptPkt n c p arr lo).orderView n = takenView (d.orderView n) p (max lo (p.first + p.count)) := by
  unfold Dev.acceptPkt
  extract_lets base d1 st d2 hi is d3 d4
  have h2 : d2.orderView n = (ctrAdd (d.ctr (IG_STREAM_PKT_OK n)) 1, d.tm.stroke,
      { (d.strm n).order with lastAcc := d.tm.stroke, last := some (BitVec.ofNat 16 p.seq) }) := by
    unfold d2
    rw [Dev.orderView_setStrm]
    simp [d1, st, StreamSt.order]
  have h4 : d4.orderView n = d2.orderView n := by
    unfold d4 d3
    rw [Dev.orderView_foldl fun d q => d.orderView_tapPoint .., Dev.orderView_foldl fun d i => d.orderView_acceptIndex ..]
  have h := h4.trans h2
  simp only [Dev.orderView, Prod.mk.injEq] at h
  obtain ⟨hc, hs, ho⟩ := h
  have he : ({ d4.strm n with e := max lo hi } : StreamSt).order = { (d4.strm n).order with e := max lo hi } := rfl
  rw [Dev.orderView_setStrm, hc, hs, he, ho]
  rfl

/-- A number is not older than itself (R15). -/
theorem older_self {v n : Nat} (h : v < 2 ^ n) : older v v n = false := by
  simp [older, Nat.mod_eq_of_lt h]

/-- A packet of the sweep in progress, at or beyond the expected index, is taken; the sectors that it skips fail. -/
theorem Dev.orderView_orderPkt {d : Dev} {n : Nat} {p : Pkt} (hw : p.seq = (d.strm n).w.toNat) (he : (d.strm n).e ≤ p.first)
    (c : StreamCfg) (arr : Nat) :
    (d.orderPkt n c p arr).orderView n = takenView (d.orderView n) p (p.first + p.count) := by
  have ho : older p.seq (d.strm n).w.toNat 16 = false := by
    rw [hw]
    exact older_self (d.strm n).w.isLt
  have hn : newer p.seq (d.strm n).w.toNat 16 = false := by
    rw [newer, hw, older_self (d.strm n).w.isLt]
    rfl
  unfold Dev.orderPkt
  dsimp only
  rw [hn, if_neg Bool.false_ne_true, if_neg (by simp [ho, he]), Dev.orderView_acceptPkt, Dev.orderView_failRange,
    max_eq_right (Nat.le_add_right _ _)]

theorem pktTaken_of_orderView {d t : Dev} {n : Nat} {bs : List Byte}
    (h : t.orderView n = takenView (d.orderView n) (parsePkt bs) ((parsePkt bs).first + (parsePkt bs).count)) :
    pktTaken d t n bs := by
  simp only [takenView, Dev.orderView, Prod.mk.injEq] at h
  obtain ⟨hc, -, ho⟩ := h
  exact ⟨hc, (congrArg StreamSt.e ho :), (congrArg StreamSt.lastAcc ho :), (congrArg StreamSt.last ho :),
    (congrArg StreamSt.w ho :)⟩

theorem Dev.orderView_logIn (d : Dev) (e : LogEnt) (n : Nat) : (d.logIn e).orderView n = d.orderView n := by
  unfold Dev.logIn
  split <;> rfl

theorem Dev.logIn_ig (d : Dev) (e : LogEnt) : (d.logIn e).ig = d.ig := by
  unfold Dev.logIn
  split <;> rfl

/-- Neither its log entry nor a timeout that comes before it changes how a packet is judged. -/
theorem Dev.streamPkt_of_inOrder {d : Dev} {n : Nat} {bs : List Byte} (h : d.pktInOrder n bs) (source arr : Nat) :
    pktTaken d (d.streamPkt n source arr bs) n bs := by
  obtain ⟨-, -, -, -, hv, hm, hs, hw, he⟩ := h
  unfold Dev.streamPkt
  dsimp only
  rw [hv]
  dsimp only
  rw [Dev.logIn_ig, hm, if_neg (by simp)]
  generalize hl : d.logIn _ = l
  have ht : (sectorTimeout n l).orderView n = d.orderView n := by
    rw [orderView_sectorTimeout, ← hl, Dev.orderView_logIn]
  generalize sectorTimeout n l = t at ht ⊢
  have ho : (t.strm n).order = (d.strm n).order := congrArg (fun x => x.2.2) ht
  have hs' : (t.strm n).sync = (d.strm n).sync := (congrArg StreamSt.sync ho :)
  have hw' : (t.strm n).w = (d.strm n).w := (congrArg StreamSt.w ho :)
  have he' : (t.strm n).e = (d.strm n).e := (congrArg StreamSt.e ho :)
  rw [if_pos (hs'.trans hs)]
  apply pktTaken_of_orderView
  rw [Dev.orderView_orderPkt (by rw [hw', hw]) (by rwa [he']), ht]

/-- A packet that a port takes goes to the lowest-numbered stream that its binding matches (R42). -/
theorem Dev.portPkt_of_inOrder {d : Dev} {n : Nat} {bs : List Byte} (h : d.pktInOrder n bs) {hit : Nat → Nat → Bool}
    (hf : (List.range 48).find? (fun n => hit (leAt bs 4 1) n) = some n) (unbound source arr : Nat) :
    pktTaken d (d.portPkt unbound source arr bs hit) n bs := by
  have hs := Dev.streamPkt_of_inOrder h source arr
  obtain ⟨hl, hr, hb, h5, -⟩ := h
  unfold Dev.portPkt
  rw [if_neg (by simp [hl, hr]), if_neg (by omega)]
  simpa only [Dev.useCritical, hb, hf, if_true] using hs

/-! ### Where a frame goes (R38) -/

/-- A good frame routed: to the time base, to the streams, or counted in UNBOUND. -/
def Dev.takeFrame (d : Dev) (mac : Nat) (frame : List Byte) (raw : Nat) : FrameTo → Dev
  | .ptp b =>
    { d with tm := { d.tm with
        rxq := d.tm.rxq ++ [(mac, b, d.rxRaw mac raw, fdiv (d.corrected (d.rxRaw mac raw)) (2 ^ 16))] } }
  | .stream b => d.portPkt (IG_MAC_UNBOUND mac) (2 * mac) (d.nsAt (d.rxRaw mac raw)) b (d.ethMatch mac (beAt frame 6 6))
  | .drop => d.bump (IG_MAC_UNBOUND mac)

theorem ethFrame_of_full {d : Dev} {mac left : Nat} {frame : List Byte} (h : d.bufFull mac left (frame.length + 4) = true)
    (ok : Bool) (raw : Nat) : ethFrame mac frame ok left raw d = (d.bufKeep mac left 0).bump (IG_MAC_BUF_DROP mac) := by
  rw [ethFrame, if_pos h]

theorem ethFrame_of_badFcs {d : Dev} {mac left : Nat} {frame : List Byte} (h : d.bufFull mac left (frame.length + 4) = false)
    (raw : Nat) :
    ethFrame mac frame false left raw d = (d.bufKeep mac left (frame.length + 4)).bump (IG_MAC_FCS_ERR mac) := by
  simp [ethFrame, h]

/-- A frame with room and a good FCS goes where `frameRoute` says. -/
theorem ethFrame_of_good {d : Dev} {mac left : Nat} {frame : List Byte} (h : d.bufFull mac left (frame.length + 4) = false)
    (raw : Nat) :
    ethFrame mac frame true left raw d =
      (d.bufKeep mac left (frame.length + 4)).takeFrame mac frame raw (frameRoute (d.rd (IG_MAC_CFG mac)) frame) := by
  have hrd : (d.bufKeep mac left (frame.length + 4)).rd (IG_MAC_CFG mac) = d.rd (IG_MAC_CFG mac) := rfl
  rw [ethFrame, if_neg (by simp [h])]
  dsimp only
  rw [if_neg (by simp), hrd]
  unfold frameRoute
  by_cases hlen : 9216 < frame.length + 4 ∨ frame.length < 14
  · rw [if_pos hlen, if_pos hlen]
    rfl
  rw [if_neg hlen, if_neg hlen]
  by_cases htag : beAt frame 12 2 = 0x8100
  · by_cases hbad : fld (d.rd (IG_MAC_CFG mac)) 4 1 = 0 ∨ beAt frame 16 2 = 0x8100 ∨ beAt frame 16 2 = 0x88A8
    · simp only [htag, hbad, ne_eq, not_true_eq_false, if_true, if_false, decide_true, true_and]
      rfl
    · simp only [htag, hbad, ne_eq, not_true_eq_false, if_true, if_false, decide_true, true_and]
      rfl
  · simp only [htag, ne_eq, not_false_eq_true, if_true, decide_false, Bool.false_eq_true, false_and, or_false, if_false]
    rfl

/-! ### CSI-2 packets (R39) -/

theorem csiPacket_of_full {d : Dev} {rx left : Nat} {b : List Byte} (h : d.bufFull (16 + rx) left (b.length + 6) = true)
    (vc dt : Nat) (hd ok : Bool) (raw : Nat) :
    csiPacket rx vc dt b hd ok left raw d = (d.bufKeep (16 + rx) left 0).bump (IG_CSI_BUF_DROP rx) := by
  rw [csiPacket, if_pos h]

section
variable {d : Dev} {rx left : Nat} {b : List Byte} (h : d.bufFull (16 + rx) left (b.length + 6) = false)
include h

theorem csiPacket_of_badHeader (vc dt : Nat) (ok : Bool) (raw : Nat) :
    csiPacket rx vc dt b false ok left raw d = (d.bufKeep (16 + rx) left (b.length + 6)).bump (IG_CSI_UNBOUND rx) := by
  simp [csiPacket, h]

theorem csiPacket_of_short {dt : Nat} (hdt : dt < 0x10) (vc : Nat) (ok : Bool) (raw : Nat) :
    csiPacket rx vc dt b true ok left raw d = d.bufKeep (16 + rx) left (b.length + 6) := by
  simp [csiPacket, h, hdt]

theorem csiPacket_of_badCrc {dt : Nat} (hdt : 0x10 ≤ dt) (vc raw : Nat) :
    csiPacket rx vc dt b true false left raw d = (d.bufKeep (16 + rx) left (b.length + 6)).bump (IG_CSI_UNBOUND rx) := by
  simp [csiPacket, h, hdt.not_gt]

theorem csiPacket_of_good {dt : Nat} (hdt : 0x10 ≤ dt) (vc raw : Nat) :
    csiPacket rx vc dt b true true left raw d =
      let e := d.bufKeep (16 + rx) left (b.length + 6)
      e.portPkt (IG_CSI_UNBOUND rx) (1 + 2 * rx + 32 * vc) (e.nsAt raw) b (e.csiMatch rx vc dt) := by
  simp [csiPacket, h, hdt.not_gt]
end

/-! ### What the commands of intake commit -/

/-- A frame or packet that is counted and goes no further: one counter, no stream, and of the intake only its buffer. -/
theorem commit_counted (d : Dev) {w : Writes} (hw : w.ig = true) (port left k a : Nat) :
    let t := d.commit w ((d.bufKeep port left k).bump a)
    t.ctr a = ctrAdd (d.ctr a) 1 ∧ t.ig = (d.bufKeep port left k).ig ∧ t.gb = d.gb ∧ t.tm.rxq = d.tm.rxq := by
  have hc : (d.bufKeep port left k).ctr a = d.ctr a := rfl
  have hg : pick w.gb d.gb (d.bufKeep port left k).gb = d.gb := by cases w.gb <;> rfl
  have ht : (pick w.tm d.tm (d.bufKeep port left k).tm).rxq = d.tm.rxq := by cases w.tm <;> rfl
  simp [hw, hc, hg, ht]

theorem Dev.strm_commit (d e : Dev) {w : Writes} (hw : w.ig = true) (n : Nat) : (d.commit w e).strm n = e.strm n := by
  simp [Dev.strm, hw]

theorem pktTaken_commit {d e t : Dev} {w : Writes} {n : Nat} {bs : List Byte} (hw : w.ig = true) (h : pktTaken d t n bs) :
    pktTaken d (e.commit w t) n bs := by
  simpa only [pktTaken, Dev.strm_commit e t hw, Dev.ctr_commit] using h

end Sys2Proof.Machine

open Sys2Proof Sys2Proof.Machine

/-- Settles O36: a frame goes where `frameRoute` says, and a packet taken in order moves on what `Dev.orderView` shows of its
stream; a delivered return changes none of that. -/
theorem framesAndPackets : Obligations.FramesAndPackets := by
  intro s mac rx vc dt frame b left raw n
  refine ⟨fun ok hfull => ⟨_, rfl, ?_⟩,
    fun hroom => ⟨⟨_, rfl, ?_⟩, fun hr => ⟨_, rfl, ?_⟩, fun hr => ⟨_, rfl, ?_⟩, fun hr hin hf => ⟨_, rfl, ?_⟩⟩,
    fun hd ok hfull => ⟨_, rfl, ?_⟩,
    fun hroom => ⟨fun hdt hin hf => ⟨_, rfl, ?_⟩, ⟨_, rfl, ?_⟩, fun hdt => ⟨_, rfl, ?_⟩, fun hdt => ⟨_, rfl, ?_⟩⟩⟩
  · rw [ethFrame_of_full hfull]
    exact commit_counted _ rfl ..
  · rw [ethFrame_of_badFcs hroom]
    exact commit_counted _ rfl ..
  · rw [ethFrame_of_good hroom, hr]
    exact commit_counted _ rfl ..
  · rw [ethFrame_of_good hroom, hr]
    exact ⟨by rw [Dev.commit_ig]; rfl, by rw [Dev.commit_tm_rxq]; rfl⟩
  · rw [ethFrame_of_good hroom, hr]
    exact pktTaken_commit rfl (Dev.portPkt_of_inOrder (d := s.dev.bufKeep _ _ _) hin hf ..)
  · rw [csiPacket_of_full hfull]
    exact commit_counted _ rfl ..
  · rw [csiPacket_of_good hroom hdt]
    exact pktTaken_commit rfl (Dev.portPkt_of_inOrder (d := s.dev.bufKeep _ _ _) hin hf ..)
  · rw [csiPacket_of_badHeader hroom]
    exact commit_counted _ rfl ..
  · rw [csiPacket_of_badCrc hroom hdt]
    exact commit_counted _ rfl ..
  · rw [csiPacket_of_short hroom hdt]
    rfl
end

section
/-! SUPPORT. Sector timeouts (R54) and the speculative insert of a point (R69, R76 to R79). -/

namespace Sys2Proof.Machine

/-! ### Sector timeouts (R54) -/

/-- The verdict of a failed sector that has been open. -/
def Dev.failVerdict (d : Dev) (n : Nat) (o : OpenSec) (why : FailReason) : Verdict :=
  { stream := n, sweep := (d.strm n).w, sector := o.k, reason := why, cost := o.cost, near := o.near,
    last := o.ret.getD d.tm.stroke, leadIn := d.leadInAt (o.ret.getD d.tm.stroke), fwd := o.fwd }

/-- The open sector of a stream fails with what it has counted so far. -/
theorem Dev.failSector_open {d : Dev} {n : Nat} {o : OpenSec} (ho : (d.strm n).sec = some o) (hd : (d.strm n).dead ≠ some o.k)
    (why : FailReason) :
    (d.failSector n o.k why).ig = { d.ig with verd := d.ig.verd ++ [d.failVerdict n o why] } := by
  simp only [Dev.failSector, if_neg hd, ho, if_true]
  rfl

/-- A timeout that is due: the sector fails and stays failed. -/
theorem sectorTimeout_of_due {d : Dev} {n : Nat} {o : OpenSec} (ho : (d.strm n).sec = some o) (hl : d.live = true)
    (h0 : 0 < 16 * d.rf (IG_STREAM_SECTOR n) 24 8)
    (h : 16 * d.rf (IG_STREAM_SECTOR n) 24 8 ≤ sDiff d.tm.stroke (d.strm n).lastAcc) :
    sectorTimeout n d =
      (d.failSector n o.k .timeout).setStrm n { d.strm n with sec := none, dead := some o.k } := by
  unfold sectorTimeout
  dsimp only
  rw [ho]
  dsimp only
  rw [if_pos ⟨hl, h0, h⟩, Dev.strm_failSector]

/-! ### The next point (R76, R77) -/

/-- A point taken from the queue of the scene, or of the golden sector. -/
def Dev.takePoint (d : Dev) (gold : Bool) (r : List GPoint) : Dev :=
  if gold then { d with gb := { d.gb with gold := r, goldTaken := d.gb.goldTaken + 1 } }
  else { d with gb := { d.gb with inq := r, taken := d.gb.taken + 1 } }

theorem Dev.nextPoint_nil {d : Dev} {gold : Bool} (h : d.inqOf gold = []) : d.nextPoint gold = none := by
  simp [Dev.nextPoint, h]

/-- With no verdict operation waiting the first point of the queue comes next. -/
theorem Dev.nextPoint_cons {d : Dev} {gold : Bool} {g : GPoint} {r : List GPoint} (hq : d.inqOf gold = g :: r)
    (hv : d.vqOf gold = []) (hn : (if gold then d.gb.goldTaken else d.gb.taken) < 64) (ho : sOlder g.r d.tm.stroke = true) :
    d.nextPoint gold = some (g, d.takePoint gold r) := by
  unfold Dev.nextPoint
  rw [hq, hv]
  dsimp only
  rw [if_pos ⟨hn, ho, rfl⟩]
  rfl

/-- An operation of the grid builder that meets no error. -/
theorem Dev.gridAccess_of_clean {d : Dev} (hs : d.gb.stuck = false) (hu : d.gb.upset = []) (f : Dev → Dev) :
    d.gridAccess f = f d := by
  have he : ({ d with gb := { d.gb with upset := [], stuck := false } } : Dev) = d := by rw [← hs, ← hu]
  unfold Dev.gridAccess
  rw [hs, hu]
  exact congrArg f he

theorem specInsert_of_next {d : Dev} {gold : Bool} {g : GPoint} {r : List GPoint} (ha : d.accel = true)
    (hs : d.gb.stuck = false) (hu : d.gb.upset = []) (hn : d.nextPoint gold = some (g, d.takePoint gold r))
    (hi : gold = true → d.gb.inq = []) : specInsert d = (d.takePoint gold r).insertPoint g := by
  have hor : (d.nextPoint false).or (d.nextPoint true) = some (g, d.takePoint gold r) := by
    cases gold with
    | false => rw [hn, Option.some_or]
    | true => rw [Dev.nextPoint_nil (gold := false) (hi rfl), Option.none_or, hn]
  rw [specInsert, if_pos ha, Dev.gridAccess_of_clean hs hu, hor]

/-! ### Sectors and tables of the grid builder -/

@[simp] theorem Dev.tabOf_bump (d : Dev) (a n : Nat) (gold : Bool) : (d.bump a n).tabOf gold = d.tabOf gold := rfl
@[simp] theorem Dev.inqOf_bump (d : Dev) (a n : Nat) (gold : Bool) : (d.bump a n).inqOf gold = d.inqOf gold := rfl

@[simp] theorem Dev.gsec_id (d : Dev) (id : SecId) : (d.gsec id).id = id := by
  unfold Dev.gsec
  cases h : d.gb.secs.find? (fun s => decide (s.id = id)) with
  | none => rfl
  | some x =>
    have hx := List.find?_some h
    exact of_decide_eq_true hx

theorem Dev.gsec_setGsec_same (d : Dev) {s : GSec} {id : SecId} (h : s.id = id) : (d.setGsec s).gsec id = s := by
  simp [Dev.gsec, Dev.setGsec, h]
@[simp] theorem Dev.tabOf_setGsec (d : Dev) (s : GSec) (gold : Bool) : (d.setGsec s).tabOf gold = d.tabOf gold := rfl
@[simp] theorem Dev.inqOf_setGsec (d : Dev) (s : GSec) (gold : Bool) : (d.setGsec s).inqOf gold = d.inqOf gold := rfl

@[simp] theorem Dev.tabOf_setTab_same (d : Dev) (gold : Bool) (t : SMap (Option HEnt)) : (d.setTab gold t).tabOf gold = t := by
  cases gold <;> rfl
@[simp] theorem Dev.inqOf_setTab (d : Dev) (gold : Bool) (t : SMap (Option HEnt)) :
    (d.setTab gold t).inqOf gold = d.inqOf gold := by cases gold <;> rfl

@[simp] theorem Dev.countPlace_gb (d : Dev) (gold : Bool) (st : PlaceStat) : (d.countPlace gold st).gb = d.gb := by
  cases gold <;> rfl
@[simp] theorem Dev.tabOf_countPlace (d : Dev) (gold : Bool) (st : PlaceStat) :
    (d.countPlace gold st).tabOf gold = d.tabOf gold := by simp [Dev.tabOf]
@[simp] theorem Dev.inqOf_countPlace (d : Dev) (gold : Bool) (st : PlaceStat) :
    (d.countPlace gold st).inqOf gold = d.inqOf gold := by simp [Dev.inqOf]

@[simp] theorem Dev.gsec_takePoint (d : Dev) (gold : Bool) (r : List GPoint) (id : SecId) :
    (d.takePoint gold r).gsec id = d.gsec id := by cases gold <;> rfl
@[simp] theorem Dev.tabOf_takePoint (d : Dev) (gold : Bool) (r : List GPoint) :
    (d.takePoint gold r).tabOf gold = d.tabOf gold := by cases gold <;> rfl
@[simp] theorem Dev.inqOf_takePoint (d : Dev) (gold : Bool) (r : List GPoint) : (d.takePoint gold r).inqOf gold = r := by
  cases gold <;> rfl
@[simp] theorem Dev.cfgFor_takePoint (d : Dev) (gold : Bool) (r : List GPoint) :
    (d.takePoint gold r).cfgFor gold = d.cfgFor gold := by cases gold <;> rfl
@[simp] theorem Dev.voxelise_takePoint (d : Dev) (gold : Bool) (r : List GPoint) (p : Point) :
    (d.takePoint gold r).voxelise p = d.voxelise p := by cases gold <;> rfl

/-! ### Holds (R78, R79) -/

/-- A hold of a key that is PENDING raises PEND of its entry. -/
theorem Dev.hold_of_pending {d : Dev} {gold : Bool} {k h : Nat} {x : HEnt}
    (hp : (d.cfgFor gold).pendingOf (d.tabOf gold) k = some h) (hx : entAt (d.tabOf gold) h = some x) (hl : x.pend < 1023) :
    d.hold gold k = (d.setTab gold (entSet (d.tabOf gold) h (some { x with pend := x.pend + 1 })), .taken) := by
  unfold Dev.hold
  dsimp only
  rw [hp]
  dsimp only
  rw [hx]
  dsimp only
  rw [if_neg (by omega)]

/-- A hold of a key that is not PENDING is a placement. -/
theorem Dev.hold_of_place {d : Dev} {gold : Bool} {k : Nat} {tab : SMap (Option HEnt)} {a : Option Nat} {st : PlaceStat}
    (hp : (d.cfgFor gold).pendingOf (d.tabOf gold) k = none)
    (ht : (d.cfgFor gold).place [] { key := k, fn := 0, ftag := 0, live := false, pend := 1 } (d.tabOf gold) = (tab, a, st)) :
    d.hold gold k = ((d.setTab gold tab).countPlace gold st, if a.isSome then .taken else .full) := by
  unfold Dev.hold
  dsimp only
  rw [hp]
  dsimp only
  rw [ht]

@[simp] theorem entAt_entSet_same (t : SMap (Option HEnt)) (h : Nat) (e : Option HEnt) : entAt (entSet t h e) h = e :=
  smGet_smSet_same ..
theorem entAt_entSet_ne (t : SMap (Option HEnt)) {h j : Nat} (e : Option HEnt) (hj : j ≠ h) :
    entAt (entSet t h e) j = entAt t j := smGet_smSet_ne _ _ _ hj

/-! ### One point inserted (R69, R78, R79) -/

section
variable {d : Dev} {g : GPoint} {gold : Bool} (hg : decide (g.pt.stream = goldStream) = gold)
include hg

theorem Dev.insertPoint_of_out (hv : d.voxelise g.pt = none) :
    d.insertPoint g = if gold then d else d.bump GB_PT_RANGE := by
  unfold Dev.insertPoint
  dsimp only
  rw [hv, hg]

variable {k : Nat} {sub : Nat × Nat × Nat} {sec : GSec} (hv : d.voxelise g.pt = some (k, sub)) (hs : d.gsec g.sec = sec)
  (hgone : sec.gone = false) (hdoom : sec.doomed = false) (hlate : sec.late = false)
include hv hs hgone hdoom hlate

omit hg in
/-- A point whose key its sector holds already. -/
theorem Dev.insertPoint_of_held (hk : sec.keys.contains k = true) :
    d.insertPoint g = d.setGsec { sec with offered := sec.offered + 1, pts := sec.pts ++ [(k, sub, g.pt)] } := by
  subst hs
  rw [GPoint.sec] at hgone hdoom hlate hk ⊢
  unfold Dev.insertPoint
  dsimp only
  rw [hv]
  dsimp only
  rw [hgone, hdoom, hlate, hk, if_neg (by decide), if_neg (by decide), if_pos rfl]

/-- A point whose key is new to its sector, by how its hold ends. -/
theorem Dev.insertPoint_of_new {e : Dev} {a : Bool} (hk : sec.keys.contains k = false)
    (hh : d.hold gold k = (e, if a then .taken else .full)) :
    d.insertPoint g =
      if a then e.setGsec { sec with offered := sec.offered + 1, keys := insKey k sec.keys
                                     pts := sec.pts ++ [(k, sub, g.pt)] }
      else (e.setGsec { sec with offered := sec.offered + 1, doomed := true }).bump GB_PT_DOOMED (b2n (!gold)) := by
  subst hs
  rw [GPoint.sec] at hgone hdoom hlate hk ⊢
  unfold Dev.insertPoint
  dsimp only
  rw [hv]
  dsimp only
  rw [hgone, hdoom, hlate, hk, if_neg (by decide), if_neg (by decide), if_neg (by decide), hg, hh]
  cases a <;> rfl
end

/-! ### What a command that acts on the grid builder commits -/

section
variable (d e : Dev) {w : Writes} (hw : w.gb = true)
include hw

theorem Dev.inqOf_commit (gold : Bool) : (d.commit w e).inqOf gold = e.inqOf gold := by simp [Dev.inqOf, hw]
theorem Dev.tabOf_commit (gold : Bool) : (d.commit w e).tabOf gold = e.tabOf gold := by simp [Dev.tabOf, hw]
theorem Dev.gsec_commit (id : SecId) : (d.commit w e).gsec id = e.gsec id := by simp [Dev.gsec, hw]
end

end Sys2Proof.Machine

open Sys2Proof Sys2Proof.Machine

/-- Settles O37: a timeout that is due fails the open sector; the next point is inserted by whether its sector holds the key,
and else by how the hold ends. -/
theorem pointsAndTimeouts : Obligations.PointsAndTimeouts := by
  intro s n o g r gold k h sub x tab st
  refine ⟨fun ho hd hl h0 hdue => ⟨_, rfl, ?_⟩, fun hq hg hv ha hs hu hn hr hi => ?_⟩
  · rw [sectorTimeout_of_due ho hl h0 hdue]
    refine ⟨(Dev.strm_commit _ _ rfl _).trans (Dev.strm_setStrm_same ..), ?_⟩
    rw [Dev.commit_ig]
    exact congrArg IntakeSt.verd (Dev.failSector_open ho hd .timeout)
  have hrun := specInsert_of_next ha hs hu (Dev.nextPoint_cons hq hv hn hr) hi
  have hs := s.dev.gsec_takePoint gold r g.sec
  have hid : (s.dev.gsec g.sec).id = g.sec := Dev.gsec_id ..
  refine ⟨fun hx => ⟨_, rfl, ?_⟩, fun hx hgone hdoom hlate =>
    ⟨fun hk => ⟨_, rfl, ?_⟩, fun hk hp hh hl => ⟨_, rfl, ?_⟩, fun a hk hp ht => ⟨_, rfl, ?_⟩⟩⟩
  all_goals
    rw [hrun]
    replace hx := (s.dev.voxelise_takePoint gold r g.pt).trans hx
  · rw [Dev.insertPoint_of_out hg hx]
    cases gold
    · exact ⟨by rw [Dev.commit_gb]; rfl, by rw [Dev.ctr_commit]; exact Dev.ctr_bump_same ..⟩
    · exact ⟨by rw [Dev.commit_gb]; rfl, by rw [Dev.ctr_commit]; rfl⟩
  · rw [Dev.insertPoint_of_held hx hs hgone hdoom hlate hk, Dev.inqOf_commit _ _ rfl,
      Dev.tabOf_commit _ _ rfl, Dev.gsec_commit _ _ rfl]
    exact ⟨Dev.inqOf_takePoint .., Dev.tabOf_takePoint .., Dev.gsec_setGsec_same _ hid⟩
  · have hh := Dev.hold_of_pending (d := s.dev.takePoint gold r) (gold := gold) (k := k) (h := h) (by simpa using hp)
      (by simpa using hh) hl
    rw [Dev.insertPoint_of_new (a := true) hg hx hs hgone hdoom hlate hk hh, if_pos rfl,
      Dev.inqOf_commit _ _ rfl, Dev.tabOf_commit _ _ rfl, Dev.gsec_commit _ _ rfl]
    refine ⟨by simp, Dev.gsec_setGsec_same _ hid, by simp, fun e he => ?_⟩
    simp [entAt_entSet_ne _ _ he]
  · have hh := Dev.hold_of_place (d := s.dev.takePoint gold r) (gold := gold) (k := k) (by simpa using hp) (by simpa using ht)
    rw [Dev.insertPoint_of_new hg hx hs hgone hdoom hlate hk hh,
      Dev.inqOf_commit _ _ rfl, Dev.tabOf_commit _ _ rfl, Dev.gsec_commit _ _ rfl]
    cases a.isSome
    all_goals exact ⟨by simp, by simp, Dev.gsec_setGsec_same _ hid⟩
end

section
/-! SUPPORT. What accesses to the planes leave of everything else (R159, R162, R170, R222): the grid builder, the level merger, the
counters of intake and of the grid builder, and the commons. -/

namespace Sys2Proof.Machine

/-! ### Counters that no report reaches -/

section
variable {a : Nat} (ha : a < 0x40000)
include ha

theorem Dev.ctr_fltLog (d : Dev) (r : FltRep) (act : Nat) (st : Stroke) (fr : BitVec 32) (tm n : Nat) (co : Bool) :
    (d.fltLog r act st fr tm n co).ctr a = d.ctr a := by
  unfold Dev.fltLog
  extract_lets fl req ent flt lost flt' e
  have he : e.ctr a = d.ctr a := by
    unfold e
    split
    · exact Dev.ctr_congr (d.storeReq_reg ..) a
    · exact d.ctr_bump_ne 1 (by unfold FLT_LOG_LOST; omega)
  split
  · exact he
  · exact (Dev.ctr_congr (Dev.irq_reg ..) a).trans he

theorem Dev.ctr_deviceFatal (d : Dev) (r : FltRep) : (d.deviceFatal r).ctr a = d.ctr a := by
  unfold Dev.deviceFatal
  dsimp only
  split
  · rw [Dev.ctr_fltLog ha]
    exact Dev.ctr_congr (d.mon_reg _) a
  · rw [Dev.ctr_fltLog ha, Dev.ctr_congr (Dev.irq_reg ..)]
    exact Dev.ctr_congr (d.mon_reg _) a

/-- A report counts in the fault controller alone (R350, R361). -/
theorem Dev.ctr_report (d : Dev) (r : FltRep) : (d.report r).ctr a = d.ctr a := by
  have hflt : ∀ b m, 0x90A00 ≤ b → ((d.bump b).mon m).ctr a = d.ctr a := fun b m hb =>
    (Dev.ctr_congr (Dev.mon_reg ..) a).trans (d.ctr_bump_ne 1 (by omega))
  unfold Dev.report
  split
  · exact hflt _ _ (by decide)
  · dsimp only
    split
    · refine (Dev.ctr_congr (Dev.mon_reg ..) a).trans ?_
      rw [Dev.ctr_bump_ne _ _ (by unfold FLT_ACCEL_FATAL; omega), Dev.ctr_bump_ne _ _ (by unfold FLT_RECOVERABLE; omega)]
    · exact hflt _ _ (by decide)
  · exact hflt _ _ (by decide)
  · exact d.ctr_deviceFatal ha r
end

/-! ### The device beside its planes -/

/-- What no access to a plane changes: the grid builder, the level merger, the frame, the counters of intake and of the grid
builder (below those of the arrays), and the memory from the commons on. -/
def Dev.offPlanes (d : Dev) : GridSt × AgSt × BitVec 32 × (Fin 0x40000 → Ctr) × (Nat → Byte) :=
  (d.gb, d.ag, d.tm.frame, fun a => d.ctr a, fun a => memGet d.mem (commonsAt a))

section
variable {d e : Dev} (h : e.offPlanes = d.offPlanes)
include h

theorem Dev.gb_of_offPlanes : e.gb = d.gb := congrArg (fun x => x.1) h
theorem Dev.ag_of_offPlanes : e.ag = d.ag := congrArg (fun x => x.2.1) h
theorem Dev.frame_of_offPlanes : e.tm.frame = d.tm.frame := congrArg (fun x => x.2.2.1) h
theorem Dev.ctr_of_offPlanes {a : Nat} (ha : a < 0x40000) : e.ctr a = d.ctr a :=
  congrFun (congrArg (fun x => x.2.2.2.1) h) ⟨a, ha⟩
theorem Dev.memGet_of_offPlanes (a : Nat) : memGet e.mem (commonsAt a) = memGet d.mem (commonsAt a) :=
  congrFun (congrArg (fun x => x.2.2.2.2) h) a

theorem Dev.staging_of_offPlanes (off n : Nat) : memRead e.mem (stagingAt off) n = memRead d.mem (stagingAt off) n := by
  refine memRead_congr _ _ _ _ fun i _ => ?_
  have hat : stagingAt off + i = commonsAt (0x6000000 + off + i) := by simp only [stagingAt, commonsAt]; omega
  rw [hat]
  exact Dev.memGet_of_offPlanes h _
end

theorem Dev.offPlanes_of_parts {d e : Dev} (hgb : e.gb = d.gb) (hag : e.ag = d.ag) (hf : e.tm.frame = d.tm.frame)
    (hc : ∀ a < 0x40000, e.ctr a = d.ctr a) (hm : ∀ a, memGet e.mem (commonsAt a) = memGet d.mem (commonsAt a)) :
    e.offPlanes = d.offPlanes := by
  unfold Dev.offPlanes
  rw [hgb, hag, hf, funext fun a : Fin 0x40000 => hc a a.isLt, funext hm]

theorem Dev.offPlanes_foldl {α : Type} {f : Dev → α → Dev} {l : List α} (h : ∀ d, ∀ x ∈ l, (f d x).offPlanes = d.offPlanes)
    (d : Dev) : (l.foldl f d).offPlanes = d.offPlanes :=
  List.foldlRecOn (motive := fun e => e.offPlanes = d.offPlanes) l f rfl fun e he x hx => (h e x hx).trans he

@[simp] theorem Dev.offPlanes_mon (d : Dev) (m : MonMsg) : (d.mon m).offPlanes = d.offPlanes := by
  unfold Dev.mon
  split <;> rfl

@[simp] theorem Dev.offPlanes_report (d : Dev) (r : FltRep) : (d.report r).offPlanes = d.offPlanes :=
  Dev.offPlanes_of_parts (d.report_gb r) (d.report_ag r) (d.report_tm_frame r) (fun _ ha => d.ctr_report ha r)
    fun a => by rw [Dev.report_mem]

theorem Dev.offPlanes_bump (d : Dev) {a : Nat} (n : Nat) (h : 0x40000 ≤ a) : (d.bump a n).offPlanes = d.offPlanes :=
  Dev.offPlanes_of_parts rfl rfl rfl (fun _ hb => d.ctr_bump_ne n (by omega)) fun _ => rfl

/-- Bytes written below the commons. -/
theorem Dev.offPlanes_memWrite (d : Dev) {a : Nat} {bs : List Byte} (h : a + bs.length ≤ 0x20000000) :
    ({ d with mem := memWrite d.mem a bs } : Dev).offPlanes = d.offPlanes :=
  Dev.offPlanes_of_parts rfl rfl rfl (fun _ _ => rfl) fun b =>
    memGet_memWrite_out d.mem a (commonsAt b) bs (Or.inr (h.trans (Nat.le_add_right _ b)))

/-! ### Faults -/

@[simp] theorem Dev.offPlanes_hwOr (d : Dev) (a m : Nat) : (d.hwOr a m).offPlanes = d.offPlanes := rfl
@[simp] theorem Dev.offPlanes_setVol (d : Dev) (c : Nat) (v : CoreVol) : (d.setVol c v).offPlanes = d.offPlanes := rfl
@[simp] theorem Dev.offPlanes_setOpAt (d : Dev) (c i : Nat) (f : GsOp → GsOp) : (d.setOpAt c i f).offPlanes = d.offPlanes := rfl

@[simp] theorem Dev.offPlanes_toPlane (d : Dev) (c i : Nat) (f : GsOp → GsOp) : (d.toPlane c i f).offPlanes = d.offPlanes := rfl

@[simp] theorem Dev.offPlanes_tpFault (d : Dev) (c b : Nat) (w : Bool) (o r s : Nat) :
    (d.tpFault c b w o r s).offPlanes = d.offPlanes := by
  unfold Dev.tpFault
  dsimp only
  rw [Dev.offPlanes_report, Dev.offPlanes_hwOr]
  split <;> rfl

@[simp] theorem Dev.offPlanes_planeRange (d : Dev) (c : Nat) (w : Bool) (o : Nat) :
    (d.planeRange c w o).offPlanes = d.offPlanes := d.offPlanes_tpFault ..

@[simp] theorem Dev.offPlanes_agFault (d : Dev) (c b s : Nat) : (d.agFault c b s).offPlanes = d.offPlanes :=
  Dev.offPlanes_report ..

@[simp] theorem Dev.offPlanes_journalFull (d : Dev) (c : Nat) (w : Bool) (o : Nat) :
    (d.journalFull c w o).offPlanes = d.offPlanes := Dev.offPlanes_report ..

@[simp] theorem Dev.offPlanes_freeBytes (d : Dev) (n : Nat) : (d.freeBytes n).2.offPlanes = d.offPlanes := by
  induction n generalizing d with
  | zero => rfl
  | succ n ih => exact ih d.fresh.2

/-! ### Sorted lists -/

theorem mem_insertBy {α : Type} {lt : α → α → Bool} {x y : α} {l : List α} (h : y ∈ insertBy lt x l) : y = x ∨ y ∈ l := by
  induction l with
  | nil => exact Or.inl (List.mem_singleton.1 h)
  | cons z r ih =>
    unfold insertBy at h
    split at h
    · exact List.mem_cons.1 h
    · rcases List.mem_cons.1 h with rfl | h
      · exact Or.inr List.mem_cons_self
      · exact (ih h).imp_right (List.mem_cons_of_mem z)

theorem mem_sortBy {α : Type} {lt : α → α → Bool} {y : α} {l : List α} (h : y ∈ sortBy lt l) : y ∈ l := by
  have hsort : ∀ z ∈ sortBy lt l, z ∈ l :=
    List.foldlRecOn (motive := fun acc => ∀ z ∈ acc, z ∈ l) l _ (by simp) fun acc hacc x hx z hz => by
      rcases mem_insertBy hz with rfl | hz
      · exact hx
      · exact hacc z hz
  exact hsort y h

/-! ### Writes of a plane (R162, R163, R222) -/

theorem fld_lt (r : Word) (lo len : Nat) : fld r lo len < 2 ^ len := Nat.mod_lt _ (by positivity)

@[simp] theorem toLE_length (n x : Nat) : (toLE n x).length = n := by
  induction n generalizing x with
  | zero => rfl
  | succ n ih => simp [toLE, ih]

/-- The planes of the 32 cores lie below the commons. -/
theorem planeAt_le {c off : Nat} (w : Bool) (hc : c < 32) (ho : off ≤ planeSize w) : planeAt w c off ≤ 0x14000000 := by
  cases w <;> simp only [planeSize, planeAt, Bool.false_eq_true, if_true, if_false] at ho ⊢ <;> omega

theorem Dev.jrnlEntry_length (d : Dev) (c : Nat) (w : Bool) (b : Nat) : (d.jrnlEntry c w b).length = 80 := by
  simp [Dev.jrnlEntry, Dev.planeRead, zeros]

theorem aowBytes_length (code n : Nat) (old new : List Byte) : (aowBytes code n old new).1.length = new.length := by
  induction n generalizing old new with
  | zero => rfl
  | succ n ih =>
    unfold aowBytes
    split
    · rfl
    · simp only [List.length_append, toLE_length, ih, List.length_drop]
      omega

theorem Dev.offPlanes_aowStat (d : Dev) (c : Nat) (v : Bool) (st : FStat) : (d.aowStat c v st).offPlanes = d.offPlanes := by
  unfold Dev.aowStat
  split
  · iterate 3 rw [Dev.offPlanes_bump _ _ (by simp only [CO_CTR_SAT, CO_CTR_NAN, CO_CTR_IN_INF]; omega)]
  · iterate 3 rw [Dev.offPlanes_bump _ _ (by simp only [MA_SAT, MA_NAN, MA_IN_INF]; omega)]

section
variable {c : Nat} (hc : c < 32)
include hc

/-- The journal lies in its core's word plane, or at most its own 2.5 MiB behind it. -/
theorem Dev.offPlanes_journal {d e : Dev} {off n : Nat} {w : Bool} (h : d.journal c w off n = some e) :
    e.offPlanes = d.offPlanes := by
  unfold Dev.journal at h
  split at h
  · rw [Option.some.inj h]
  · next blks _ =>
    dsimp only at h
    split at h
    · cases h
    · next hfill =>
      rw [← Option.some.inj h]
      refine (Dev.offPlanes_setVol ..).trans (Dev.offPlanes_memWrite _ ?_)
      have hsize : d.rf (CS_CORE_JRNL_SIZE c) 0 15 < 2 ^ 15 := fld_lt ..
      have hbase : d.rf (CS_CORE_JRNL_BASE c) 0 17 < 2 ^ 17 := fld_lt ..
      simp only [planeAt, if_true, List.length_flatMap, Dev.jrnlEntry_length, List.map_const', List.sum_replicate, smul_eq_mul]
      omega

theorem Dev.offPlanes_planeWrite (d : Dev) (w : Bool) (off : Nat) (bs : List Byte) (aow : Nat) (v : Bool) :
    (d.planeWrite c w off bs aow v).offPlanes = d.offPlanes := by
  unfold Dev.planeWrite
  dsimp only
  split
  · rfl
  split
  · simp
  next hfit =>
  split
  · simp
  split
  · simp
  next e he =>
  have hat := planeAt_le w hc (off := off) (by omega)
  have hsmall : bs.length ≤ 0x800000 := by
    have : planeSize w ≤ 0x800000 := by cases w <;> decide
    omega
  rw [← Dev.offPlanes_journal hc he]
  split
  · exact Dev.offPlanes_memWrite _ (by omega)
  · rw [Dev.offPlanes_aowStat]
    exact Dev.offPlanes_memWrite _ (by rw [aowBytes_length]; omega)

/-! ### Rings and the passage of schedule cycles (R158, R170) -/

omit hc in
theorem Dev.offPlanes_doRead (d : Dev) (q : PRead) : (d.doRead c q).offPlanes = d.offPlanes := by
  unfold Dev.doRead
  dsimp only
  split <;> rfl

theorem Dev.offPlanes_settle (d : Dev) (now : Nat) : (d.settle c now).offPlanes = d.offPlanes := by
  unfold Dev.settle
  dsimp only
  rw [Dev.offPlanes_foldl fun d e _ => ?_]
  · rfl
  · split
    · exact d.offPlanes_planeWrite hc ..
    · exact d.offPlanes_doRead ..
    · rfl

theorem Dev.offPlanes_putSlot (d : Dev) (n : Nat) (bs : List Byte) : (d.putSlot c n bs).offPlanes = d.offPlanes := by
  unfold Dev.putSlot
  extract_lets g k r cw r' d1 d2 cw' d3
  split
  · simp
  split
  · rfl
  have h2 : d2.offPlanes = d.offPlanes := d1.offPlanes_planeWrite hc ..
  have h3 : d3.offPlanes = d2.offPlanes := by
    unfold d3
    split <;> rfl
  exact h3.trans h2

theorem Dev.offPlanes_retryHeld (d : Dev) (n : Nat) : (d.retryHeld c n).offPlanes = d.offPlanes := by
  unfold Dev.retryHeld
  split
  · rfl
  split
  · rfl
  · exact Dev.offPlanes_putSlot hc ..

theorem Dev.offPlanes_sync (d : Dev) (now : Nat) : (d.sync c now).offPlanes = d.offPlanes := by
  unfold Dev.sync
  dsimp only
  split
  · exact d.offPlanes_settle hc now
  · rw [Dev.offPlanes_foldl fun d x _ => d.offPlanes_retryHeld hc x.2, Dev.offPlanes_setVol, Dev.offPlanes_settle hc]

theorem Dev.offPlanes_syncNow (d : Dev) : (d.syncNow c).offPlanes = d.offPlanes := d.offPlanes_sync hc _

/-! ### Accesses that no schedule orders (R159, R164) -/

omit hc in
theorem Dev.offPlanes_corrected (d : Dev) (w : Bool) (o n : Nat) : (d.corrected_ c w o n).offPlanes = d.offPlanes := by
  have hb : ∀ e : Dev, (loopN (fun _ d => d.report
      { src := if w then 0x02 else 0x01, unit := unitOf 0 c, addr := engAddr w c o }) n e).offPlanes = e.offPlanes := by
    induction n with
    | zero => exact fun _ => rfl
    | succ n ih => exact fun e => (Dev.offPlanes_report ..).trans (ih e)
  refine (hb _).trans (d.offPlanes_bump n ?_)
  split
  · exact Nat.le_add_right_of_le (by decide)
  · exact Nat.le_add_right_of_le (by decide)

theorem Dev.offPlanes_uncorr (d : Dev) {w : Bool} {o : Nat} (ho : o / eccUnit w * eccUnit w ≤ planeSize w) :
    (d.uncorr c w o).offPlanes = d.offPlanes := by
  unfold Dev.uncorr
  extract_lets u off e f
  have he : e.offPlanes = d.offPlanes := by
    refine d.offPlanes_bump 1 ?_
    split
    · exact Nat.le_add_right_of_le (by decide)
    · exact Nat.le_add_right_of_le (by decide)
  split
  · rw [Dev.offPlanes_tpFault, he]
  have hf : f.offPlanes = d.offPlanes := by rw [Dev.offPlanes_tpFault, he]
  split
  · rw [Dev.offPlanes_journalFull, hf]
  · next g hg =>
    have hat := planeAt_le w hc (off := off) ho
    have hu : u ≤ 16 := by unfold u; cases w <;> decide
    rw [Dev.offPlanes_memWrite _ (by simp only [zeros, List.length_replicate]; omega), Dev.offPlanes_journal hc hg, hf]

/-- An operation names one of the 32 cores, its own among them. -/
theorem planeOf_lt {a k off : Nat} {w : Bool} (h : planeOf c a = some (k, w, off)) : k < 32 := by
  unfold planeOf at h
  split at h
  · cases h
  · next core o _ hd =>
    have hcore : core < 32 := by
      unfold engDec at hd
      dsimp only at hd
      have h1 : bits a 27 1 < 2 := Nat.mod_lt _ (by decide)
      have h4 : bits a 23 4 < 16 := Nat.mod_lt _ (by decide)
      split at hd
      · cases hd
      split at hd
      · split at hd <;> cases hd
        decide
      split at hd
      · cases hd
      split at hd <;> cases hd
      omega
    simp only [Option.some.injEq, Prod.mk.injEq] at h
    obtain ⟨hk, -, -⟩ := h
    rw [← hk]
    split
    · exact hc
    · exact hcore
  · cases h

theorem core_lt_of_mem_opWrites {o : GsOp} {x : Nat × Bool × Nat × List Byte} (h : x ∈ opWrites c o) : x.1 < 32 := by
  unfold opWrites at h
  split at h
  · split at h
    · next hp =>
      rw [List.mem_singleton.1 h]
      exact planeOf_lt hc hp
    · cases h
  · obtain ⟨j, hj, rfl⟩ := List.mem_mapIdx.1 h
    exact hc

omit hc in
theorem Dev.eccData_none (d : Dev) (bs : List Byte) (o u : Nat) : (d.eccData bs o u {}).2 = d := rfl

omit hc in
theorem Dev.offPlanes_unschedEcc_none (d : Dev) (w : Bool) (o : Nat) : (d.unschedEcc c w o {}).offPlanes = d.offPlanes :=
  d.offPlanes_corrected w o 0

theorem Dev.offPlanes_serveRead (d : Dev) (i : Nat) (o : GsOp) : (d.serveRead c i o {}).offPlanes = d.offPlanes := by
  unfold Dev.serveRead
  split
  · simp
  next k w off hp =>
  have hk := planeOf_lt hc hp
  dsimp only
  split
  · simp [Dev.offPlanes_syncNow hk]
  split
  · simp [Dev.offPlanes_syncNow hk]
  have hd : (((d.syncNow k).eccData ((d.syncNow k).planeRead k w off o.len) off (eccUnit w) {}).2.unschedEcc k w off
      {}).offPlanes = d.offPlanes := by
    rw [Dev.offPlanes_unschedEcc_none, Dev.eccData_none, Dev.offPlanes_syncNow hk]
  split
  · rw [Dev.offPlanes_toPlane, hd]
  · rw [Dev.offPlanes_setOpAt, hd]

theorem Dev.offPlanes_serveWrite (d : Dev) (i : Nat) (o : GsOp) : (d.serveWrite c i o {}).offPlanes = d.offPlanes := by
  unfold Dev.serveWrite
  extract_lets ws d1 ok d2
  have h1 : d1.offPlanes = d.offPlanes := Dev.offPlanes_foldl (fun d x hx => by
    rw [Dev.offPlanes_unschedEcc_none, Dev.offPlanes_syncNow (core_lt_of_mem_opWrites hc hx)]) d
  have h2 : d2.offPlanes = d1.offPlanes := Dev.offPlanes_foldl (fun d x hx =>
    d.offPlanes_planeWrite (core_lt_of_mem_opWrites hc hx) ..) d1
  have howe : (d2.owe c o).offPlanes = d2.offPlanes := by
    unfold Dev.owe
    split <;> rfl
  rw [Dev.offPlanes_setOpAt, ← h1, ← h2]
  split
  · exact howe
  · rfl

omit hc in
theorem Dev.core_lt_of_mem_waitAt {d : Dev} {l : List (Nat × Bool × Nat)} {x : Nat × Nat × GsOp} (h : x ∈ d.waitAt l) :
    x.1 < 32 := by
  obtain ⟨k, hk, hx⟩ := List.mem_flatMap.1 (mem_sortBy h)
  obtain ⟨j, hj, rfl⟩ := List.mem_mapIdx.1 (List.mem_of_mem_filter hx)
  exact List.mem_range.1 hk

omit hc in
theorem Dev.offPlanes_serveAhead (d : Dev) (l : List (Nat × Bool × Nat)) : (d.serveAhead l).offPlanes = d.offPlanes := by
  unfold Dev.serveAhead
  split
  · rfl
  · refine Dev.offPlanes_foldl (fun d x hx => ?_) d
    have hx := Dev.core_lt_of_mem_waitAt hx
    split
    · exact d.offPlanes_serveRead hx ..
    · exact d.offPlanes_serveWrite hx ..

theorem Dev.offPlanes_planeTurn (d : Dev) (w : Bool) (o n : Nat) : (d.planeTurn c w o n).offPlanes = d.offPlanes :=
  (Dev.offPlanes_serveAhead ..).trans (d.offPlanes_syncNow hc)

theorem Dev.offPlanes_unschedWrite (d : Dev) (w : Bool) (o : Nat) (bs : List Byte) :
    (d.unschedWrite c w o bs).offPlanes = d.offPlanes :=
  (Dev.offPlanes_planeWrite hc ..).trans (d.offPlanes_planeTurn hc ..)

theorem Dev.offPlanes_planeMeet (d : Dev) {w : Bool} {o n : Nat} (ho : o + n ≤ planeSize w) (bs : List Byte) :
    (d.planeMeet c w o n bs).2.2.offPlanes = d.offPlanes := by
  have hdata : ∀ (d : Dev) es, (d.errData bs o (eccUnit w) es).2.offPlanes = d.offPlanes := fun d es =>
    foldl_proj _ (fun x : List Byte × Dev => x.2.offPlanes) (fun x e => by
      dsimp only
      split
      · exact x.2.offPlanes_freeBytes _
      · rfl) es (bs, d)
  unfold Dev.planeMeet
  dsimp only
  rw [Dev.offPlanes_foldl fun d e he => ?_, hdata]
  · rfl
  · have hits := List.of_mem_filter he
    split
    · refine d.offPlanes_uncorr hc ?_
      cases w <;> simp [PlaneErr.hits, b2n, eccUnit] at hits ⊢ <;> omega
    · exact d.offPlanes_corrected ..

theorem Dev.offPlanes_planeGet (d : Dev) (w : Bool) (o n : Nat) : (d.planeGet c w o n).2.2.offPlanes = d.offPlanes := by
  unfold Dev.planeGet
  dsimp only
  split
  · simp
  split
  · simp
  · rw [Dev.offPlanes_planeMeet hc _ (by omega), Dev.offPlanes_planeTurn hc]

theorem Dev.offPlanes_slotGet (d : Dev) (n s l : Nat) : (d.slotGet c n s l).2.offPlanes = d.offPlanes :=
  d.offPlanes_planeGet hc ..

theorem Dev.offPlanes_pushSlot (d : Dev) (n : Nat) (bs : List Byte) : (d.pushSlot c n bs).offPlanes = d.offPlanes :=
  (Dev.offPlanes_putSlot hc ..).trans (d.offPlanes_planeTurn hc ..)
end

/-! ### Dispatch (R213, R214) -/

theorem Dev.offPlanes_dispatchOne {d e : Dev} (h : d.dispatchOne = some e) : e.offPlanes = d.offPlanes := by
  have hw : d.rf AG_WSET_CFG 0 5 < 32 := fld_lt ..
  have hslot := d.offPlanes_slotGet hw (d.rf AG_WSET_CFG 5 5)
    ((d.core (d.rf AG_WSET_CFG 0 5)).ring (d.rf AG_WSET_CFG 5 5)).tail 32
  have hback : ∀ (d : Dev) (l : LiveSec) (b : Bool), (if b then d.backboneDone l else d).offPlanes = d.offPlanes :=
    fun d l b => by
      unfold Dev.backboneDone
      split
      · split
        · rfl
        · exact d.offPlanes_mon _
      · rfl
  unfold Dev.dispatchOne at h
  dsimp only at h
  simp only [Option.ite_none_left_eq_some, Option.some.injEq] at h
  obtain ⟨-, -, -, rfl⟩ := h
  rw [hback, Dev.offPlanes_retryHeld hw]
  exact hslot

theorem Dev.offPlanes_dispatchN (n : Nat) (d : Dev) : (Dev.dispatchN n d).offPlanes = d.offPlanes := by
  induction n generalizing d with
  | zero => rfl
  | succ n ih =>
    unfold Dev.dispatchN
    split
    · next h => rw [ih, Dev.offPlanes_dispatchOne h]
    · rfl

theorem Dev.offPlanes_dispatch (d : Dev) : d.dispatch.offPlanes = d.offPlanes := Dev.offPlanes_dispatchN ..

end Sys2Proof.Machine
end

section
/-! SUPPORT. Verdict operations (R80 to R82, R89), level merges (R187 to R191) and the scrub of the table (R91). -/

namespace Sys2Proof.Machine

/-! ### Holds released (R82) -/

/-- A table in which one hold of a key is released. -/
def HashCfg.released (c : HashCfg) (t : SMap (Option HEnt)) (k : Nat) : SMap (Option HEnt) :=
  match c.pendingOf t k with
  | some h =>
    match entAt t h with
    | some x =>
      let y := { x with pend := x.pend - 1 }
      entSet t h (some (if x.pend ≤ 1 then y.release else y))
    | none => t
  | none => t

theorem Dev.unhold_eq (d : Dev) (gold : Bool) (k : Nat) :
    d.unhold gold k = d.setTab gold ((d.cfgFor gold).released (d.tabOf gold) k) := by
  have hself : d = d.setTab gold (d.tabOf gold) := by cases gold <;> rfl
  unfold Dev.unhold HashCfg.released
  dsimp only
  cases (d.cfgFor gold).pendingOf (d.tabOf gold) k with
  | none => exact hself
  | some h =>
    dsimp only
    cases entAt (d.tabOf gold) h with
    | none => exact hself
    | some x => rfl

/-- The holds of a sector's keys released: its table changes, and nothing else. -/
theorem Dev.foldl_unhold (d : Dev) (gold : Bool) (ks : List Nat) :
    ks.foldl (fun d k => d.unhold gold k) d = d.setTab gold (ks.foldl (d.cfgFor gold).released (d.tabOf gold)) := by
  induction ks generalizing d with
  | nil => cases gold <;> rfl
  | cons k ks ih =>
    rw [List.foldl_cons, ih, Dev.unhold_eq]
    cases gold <;> rfl

/-! ### What the work on tables, site sets and records leaves of a verdict operation -/

/-- The grid builder but for its tables and site sets, the frame, and the counters of sectors (SECT_COMMIT to RET_DROP). -/
def Dev.sectView (d : Dev) : GridSt × BitVec 32 × (Fin 0x40 → Ctr) :=
  ({ d.gb with tab := [], gtab := [], siteCur := [], sitePrev := [], siteGold := [], siteGoldPrev := [] }, d.tm.frame,
    fun i => d.ctr (GB_SECT_COMMIT + i))

theorem Dev.sectView_of_offPlanes {d e : Dev} (h : e.offPlanes = d.offPlanes) : e.sectView = d.sectView := by
  unfold Dev.sectView
  rw [Dev.gb_of_offPlanes h, Dev.frame_of_offPlanes h,
    funext fun i : Fin 0x40 => Dev.ctr_of_offPlanes h (a := GB_SECT_COMMIT + i) (by unfold GB_SECT_COMMIT; omega)]

section
variable {d e : Dev} (h : e.sectView = d.sectView)
include h

theorem Dev.vq_of_sectView : e.gb.vq = d.gb.vq := congrArg (fun x => x.1.vq) h
theorem Dev.commits_of_sectView : e.gb.commits = d.gb.commits := congrArg (fun x => x.1.commits) h
theorem Dev.frame_of_sectView : e.tm.frame = d.tm.frame := congrArg (fun x => x.2.1) h
theorem Dev.ctr_of_sectView : e.ctr GB_SECT_COMMIT = d.ctr GB_SECT_COMMIT := congrFun (congrArg (fun x => x.2.2) h) 0
end

theorem Dev.sectView_foldl {α : Type} {f : Dev → α → Dev} (h : ∀ d x, (f d x).sectView = d.sectView) (l : List α) (d : Dev) :
    (l.foldl f d).sectView = d.sectView :=
  foldl_proj f Dev.sectView h l d

theorem Dev.sectView_bump (d : Dev) {a : Nat} (n : Nat) (h : a < GB_SECT_COMMIT ∨ GB_SECT_COMMIT + 0x40 ≤ a) :
    (d.bump a n).sectView = d.sectView := by
  unfold Dev.sectView
  rw [funext fun i : Fin 0x40 => d.ctr_bump_ne (b := GB_SECT_COMMIT + i) n (by omega)]
  rfl

@[simp] theorem Dev.sectView_setTab (d : Dev) (gold : Bool) (t : SMap (Option HEnt)) :
    (d.setTab gold t).sectView = d.sectView := by cases gold <;> rfl

@[simp] theorem Dev.sectView_setSiteSet (d : Dev) (gold cur : Bool) (rs : List SiteRun) :
    (d.setSiteSet gold cur rs).sectView = d.sectView := by cases gold <;> cases cur <;> rfl

@[simp] theorem Dev.sectView_countPlace (d : Dev) (gold : Bool) (st : PlaceStat) :
    (d.countPlace gold st).sectView = d.sectView := by
  cases gold
  · simp only [Dev.countPlace, Bool.false_eq_true, if_false]
    iterate 3 rw [Dev.sectView_bump _ _ (by decide)]
  · exact d.sectView_bump _ (by decide)

@[simp] theorem Dev.sectView_recWrite (d : Dev) (gold : Bool) (h : Nat) (bs : List Byte) :
    (d.recWrite gold h bs).sectView = d.sectView :=
  Dev.sectView_of_offPlanes (d.offPlanes_unschedWrite (Nat.mod_lt h (by decide)) ..)

@[simp] theorem Dev.sectView_planeGet_record (d : Dev) (h : Nat) (w : Bool) (o n : Nat) :
    (d.planeGet (h % 32) w o n).2.2.sectView = d.sectView :=
  Dev.sectView_of_offPlanes (d.offPlanes_planeGet (Nat.mod_lt h (by decide)) ..)

/-! ### The operation of a scene sector of the frame in progress (R80) -/

theorem Dev.cntOf_of_frame {d : Dev} {f : BitVec 32} (h : f = d.tm.frame) : d.cntOf f = d.gb.cur := if_pos h

theorem Dev.setCnt_of_frame {d : Dev} {f : BitVec 32} (h : f = d.tm.frame) (c : FrameCnt) :
    d.setCnt f c = { d with gb := { d.gb with cur := c } } := if_pos h

@[simp] theorem Dev.sectEv_gb (d : Dev) (ev : SecEv) (id : SecId) (fr : BitVec 32) (o : Nat) (l v : Stroke) :
    (d.sectEv ev id fr o l v).gb = d.gb := d.mon_gb _

@[simp] theorem Dev.ctr_sectEv (d : Dev) (ev : SecEv) (id : SecId) (fr : BitVec 32) (o : Nat) (l v : Stroke) (a : Nat) :
    (d.sectEv ev id fr o l v).ctr a = d.ctr a := Dev.ctr_congr (d.mon_reg _) a

/-- A sector closed at its verdict operation, its returns offered to the frame in progress (R90). -/
def Dev.closeSector (d : Dev) (v : GVerd) : Dev :=
  { d with gb := { d.gb with
    secs := d.gb.secs.filter (fun x => decide (x.id ≠ v.id))
    cur := { d.gb.cur with offered := d.gb.cur.offered + (d.gsec v.id).offered } } }

/-- A commit handed to the level merger and counted, with the counts of its frame after it. -/
def Dev.handCommit (d : Dev) (x : Commit) (c : FrameCnt) : Dev :=
  { d.bump GB_SECT_COMMIT with gb := { d.gb with commits := d.gb.commits ++ [x], cur := c } }

theorem stream_ne_gold_of_vqOf {d : Dev} {v : GVerd} {r : List GVerd} (h : d.vqOf false = v :: r) : v.id.stream ≠ goldStream := by
  have hv : v ∈ d.vqOf false := h ▸ List.mem_cons_self
  simpa [Dev.vqOf] using List.of_mem_filter hv

/-- With every point of the scene inserted the first verdict of its queue comes next. -/
theorem Dev.nextVerdict_scene {d : Dev} {v : GVerd} {r : List GVerd} (hq : d.vqOf false = v :: r) (hi : d.gb.inq = [])
    (ho : sOlder v.v d.tm.stroke = true) : d.nextVerdict false = some v := by
  have hin : d.inqOf false = [] := hi
  unfold Dev.nextVerdict
  rw [hq, hin]
  exact if_pos ⟨rfl, ho⟩

section
variable {d : Dev} {v : GVerd} (hscene : v.id.stream ≠ goldStream) (hf : v.frame = d.tm.frame)
include hscene hf

theorem Dev.runVerdict_scene (hl : v.leadIn = false) (hgone : (d.gsec v.id).gone = false) (hlate : (d.gsec v.id).late = false) :
    d.runVerdict v =
      if v.what ≠ 2 then ((d.gsec v.id).keys.foldl (fun d k => d.unhold false k) (d.closeSector v)).bump GB_SECT_ROLLBACK
      else if (d.gsec v.id).doomed then (d.closeSector v).dropSector v (d.gsec v.id)
      else if (d.gsec v.id).keys.isEmpty then (d.closeSector v).commitEmpty v
      else (d.closeSector v).commitSector v (d.gsec v.id) := by
  have hg : decide (v.id.stream = goldStream) = false := decide_eq_false hscene
  unfold Dev.runVerdict
  rw [hg]
  extract_lets gold s gb d1 c d2 rolled
  have hc : c = d.gb.cur := Dev.cntOf_of_frame hf
  have h2 : d2 = d.closeSector v := by
    unfold d2
    rw [hl, if_neg (by simp [gold]), hc]
    exact Dev.setCnt_of_frame (d := d1) hf _
  rw [if_neg (by rw [show s.gone = false from hgone]; decide), if_neg (by rw [show s.late = false from hlate]; decide), h2]
  have hroll : rolled = s.keys.foldl (fun d k => d.unhold false k) (d.closeSector v) := by rw [← h2]
  rw [hroll]
  rfl

theorem Dev.dropSector_eq (s : GSec) :
    d.dropSector v s =
      let e := ((d.setTab false (s.keys.foldl d.hashCfg.released d.gb.tab)).bump GB_SECT_DROP).bump GB_RET_DROP v.cost
      ({ e with gb := { e.gb with cur := { d.gb.cur with drop := d.gb.cur.drop + 1 } } } : Dev).sectEv .drop v.id v.frame 0
        v.last v.v := by
  have hg : decide (v.id.stream = goldStream) = false := decide_eq_false hscene
  unfold Dev.dropSector
  rw [hg]
  extract_lets gold e f c g
  have he : e = d.setTab false (s.keys.foldl d.hashCfg.released d.gb.tab) := d.foldl_unhold false s.keys
  have hf : v.frame = f.tm.frame := by unfold f; rw [he]; exact hf
  have hc : c = d.gb.cur := (Dev.cntOf_of_frame hf).trans (by unfold f; rw [he]; rfl)
  have hset : g = { f with gb := { f.gb with cur := { c with drop := c.drop + 1 } } } := Dev.setCnt_of_frame hf _
  rw [if_neg (show ¬ gold = true by decide), hset, hc]
  unfold f
  rw [he]

/-- A sector dropped for capacity (R89): its holds released, counted in its frame, in SECT_DROP and in RET_DROP. -/
theorem Dev.dropSector_scene (s : GSec) :
    (d.dropSector v s).gb = { d.gb with tab := s.keys.foldl d.hashCfg.released d.gb.tab
                                        cur := { d.gb.cur with drop := d.gb.cur.drop + 1 } } ∧
      (d.dropSector v s).ctr GB_SECT_DROP = ctrAdd (d.ctr GB_SECT_DROP) 1 ∧
      (d.dropSector v s).ctr GB_RET_DROP = ctrAdd (d.ctr GB_RET_DROP) v.cost := by
  rw [Dev.dropSector_eq hscene hf, Dev.sectEv_gb, Dev.ctr_sectEv, Dev.ctr_sectEv]
  refine ⟨rfl, ?_, ?_⟩
  · exact (Dev.ctr_bump_ne _ _ (by decide)).trans (Dev.ctr_bump_same ..)
  · exact (Dev.ctr_bump_same ..).trans (congrArg (ctrAdd · v.cost) (Dev.ctr_bump_ne _ _ (by decide)))

/-- A commit beyond the fill limit is a drop (R89). -/
theorem Dev.commitSector_of_full {s : GSec}
    (hfull : d.rf (GB_FILL_LIMIT v.prio) 0 23 < d.gb.cur.sites +
      (s.keys.filter fun k => (d.hashCfg.liveOf d.gb.tab k (v.frame.toNat % 4)).isNone).length) :
    d.commitSector v s = d.dropSector v s := by
  have hg : decide (v.id.stream = goldStream) = false := decide_eq_false hscene
  have hcnt := Dev.cntOf_of_frame hf
  unfold Dev.commitSector
  rw [hg, hcnt]
  exact if_pos hfull

variable {s : GSec} {tab : SMap (Option HEnt)} {targets : List (Nat × Nat × Bool)} {st : PlaceStat} {new : List Nat}
  (hnew : new = s.keys.filter fun k => (d.hashCfg.liveOf d.gb.tab k (v.frame.toNat % 4)).isNone)
  (hroom : d.gb.cur.sites + new.length ≤ d.rf (GB_FILL_LIMIT v.prio) 0 23)
  (ht : commitTargets d.hashCfg (v.frame.toNat % 4) new d.gb.tab [] {} = (tab, some targets, st))
include hnew hroom ht

/-- The steps of R81: all before the last change, of what the grid builder holds, tables, site sets and records alone. -/
theorem Dev.commitSector_of_targets :
    ∃ (e : Dev) (x : Commit), e.sectView = d.sectView ∧
      (x.id = v.id ∧ x.frame = v.frame ∧ x.ord = d.gb.cur.ord ∧ x.v = v.v ∧ x.merged = s.pts.length ∧
        ∀ y ∈ x.sites, y.key ∈ s.keys) ∧
      d.commitSector v s =
        (e.handCommit x { d.gb.cur with sites := d.gb.cur.sites + new.length, merged := d.gb.cur.merged + s.pts.length
                                        ord := d.gb.cur.ord + 1 }).sectEv .commit v.id v.frame d.gb.cur.ord v.last v.v := by
  subst hnew
  have hg : decide (v.id.stream = goldStream) = false := decide_eq_false hscene
  have hcnt := Dev.cntOf_of_frame hf
  unfold Dev.commitSector
  rw [hg, hcnt]
  extract_lets gold cur c tag t cnt new limit nf
  rw [if_neg (show ¬ nf + new.length > limit from Nat.not_lt.2 hroom)]
  split
  · next h => cases ht.symm.trans h
  next tab' targets' st' h =>
  cases ht.symm.trans h
  extract_lets d1 d2 d3 slots d4 t sites hOf tf d5 created set d6 cm gb d7 d8
  have h1 : d1.sectView = d.sectView := by simp [d1]
  have h2 : d2.sectView = d1.sectView := Dev.sectView_foldl (fun d x => by simp) targets d1
  have h3 : d3.sectView = d2.sectView := by
    unfold d3
    rw [Dev.foldl_unhold, Dev.sectView_setTab]
  have h4 : d4.sectView = d3.sectView := Dev.sectView_foldl (fun d x => by simp) targets d3
  have h5 : d5.sectView = d4.sectView := Dev.sectView_foldl (fun d q => by
    extract_lets h
    split
    next old ok e he =>
    split
    next r dropped _ =>
    extract_lets f
    have hget := d.sectView_planeGet_record h false (d.recAddr gold h % 0x800000) (32 + 8 * slots)
    rw [he] at hget
    rw [Dev.sectView_bump _ _ (by decide), Dev.sectView_recWrite]
    exact hget) s.pts d4
  have h6 : d6.sectView = d5.sectView := Dev.sectView_setSiteSet ..
  have hview : d6.sectView = d.sectView := by rw [h6, h5, h4, h3, h2, h1]
  have hfr : v.frame = d6.tm.frame := hf.trans (Dev.frame_of_sectView hview).symm
  refine ⟨d6, cm, hview, ⟨rfl, rfl, rfl, rfl, rfl, fun y hy => ?_⟩,
    congrArg (·.sectEv .commit v.id v.frame cnt.ord v.last v.v) (Dev.setCnt_of_frame (d := d8) hfr _)⟩
  obtain ⟨k, hk, hy⟩ := List.mem_filterMap.1 hy
  obtain ⟨h, -, rfl⟩ := Option.map_eq_some_iff.1 hy
  exact hk

/-- A commit within the fill limit with its targets found (R81): it counts, it joins the commits for the level merger, and its
points and new sites count in its frame. -/
theorem Dev.commitSector_scene :
    ∃ x : Commit,
      (x.id = v.id ∧ x.frame = v.frame ∧ x.ord = d.gb.cur.ord ∧ x.v = v.v ∧ x.merged = s.pts.length ∧
        ∀ y ∈ x.sites, y.key ∈ s.keys) ∧
      (d.commitSector v s).gb.vq = d.gb.vq ∧
      (d.commitSector v s).gb.cur =
        { d.gb.cur with sites := d.gb.cur.sites + new.length, merged := d.gb.cur.merged + s.pts.length
                        ord := d.gb.cur.ord + 1 } ∧
      (d.commitSector v s).gb.commits = d.gb.commits ++ [x] ∧
      (d.commitSector v s).ctr GB_SECT_COMMIT = ctrAdd (d.ctr GB_SECT_COMMIT) 1 := by
  obtain ⟨e, x, he, hx, hcommit⟩ := Dev.commitSector_of_targets hscene hf hnew hroom ht
  refine ⟨x, hx, ?_⟩
  rw [hcommit, Dev.sectEv_gb, Dev.ctr_sectEv]
  refine ⟨Dev.vq_of_sectView (e := e) he, rfl, congrArg (· ++ [x]) (Dev.commits_of_sectView he), ?_⟩
  exact (Dev.ctr_bump_same ..).trans (congrArg (ctrAdd · 1) (Dev.ctr_of_sectView he))
end

/-- A commit with no held keys (R80) counts, and its verdict waits for its SCATTER_COMMIT. -/
theorem Dev.commitEmpty_scene {d : Dev} {v : GVerd} (hscene : v.id.stream ≠ goldStream) :
    (d.commitEmpty v).gb = { d.gb with empties := d.gb.empties ++ [v] } ∧
      (d.commitEmpty v).ctr GB_SECT_COMMIT = ctrAdd (d.ctr GB_SECT_COMMIT) 1 := by
  unfold Dev.commitEmpty
  rw [if_neg hscene]
  extract_lets c e f gb
  have hgb : f.gb = d.gb := (Dev.sectEv_gb ..).trans (Dev.sectEv_gb ..)
  have hctr : f.ctr GB_SECT_COMMIT = ctrAdd (d.ctr GB_SECT_COMMIT) 1 :=
    (Dev.ctr_sectEv ..).trans ((Dev.ctr_sectEv ..).trans (d.ctr_bump_same ..))
  exact ⟨congrArg (fun g => ({ g with empties := g.empties ++ [v] } : GridSt)) hgb, hctr⟩

/-- A verdict taken from the queue, and its sector closed. -/
def Dev.takeVerdict (d : Dev) (v : GVerd) : Dev :=
  ({ d with gb := { d.gb with vq := d.gb.vq.erase v } } : Dev).closeSector v

section
variable {d : Dev} {v : GVerd} (ha : d.accel = true) (hp : d.planesFree = true) (hs : d.gb.stuck = false)
  (hu : d.gb.upset = []) (hn : d.nextVerdict false = some v)
include ha hp hs hu hn

theorem verdictOperation_of_next :
    verdictOperation d = ({ d with gb := { d.gb with vq := d.gb.vq.erase v } } : Dev).runVerdict v := by
  rw [verdictOperation, if_pos ⟨ha, hp⟩, Dev.gridAccess_of_clean hs hu, hn, Option.some_or]

/-- The verdict operation of a scene sector of the frame in progress, whose verdict comes next (R80). -/
theorem verdictOperation_scene (hscene : v.id.stream ≠ goldStream) (hf : v.frame = d.tm.frame) (hl : v.leadIn = false)
    (hgone : (d.gsec v.id).gone = false) (hlate : (d.gsec v.id).late = false) :
    verdictOperation d =
      if v.what ≠ 2 then ((d.gsec v.id).keys.foldl (fun d k => d.unhold false k) (d.takeVerdict v)).bump GB_SECT_ROLLBACK
      else if (d.gsec v.id).doomed then (d.takeVerdict v).dropSector v (d.gsec v.id)
      else if (d.gsec v.id).keys.isEmpty then (d.takeVerdict v).commitEmpty v
      else (d.takeVerdict v).commitSector v (d.gsec v.id) :=
  (verdictOperation_of_next ha hp hs hu hn).trans
    (Dev.runVerdict_scene (d := { d with gb := { d.gb with vq := d.gb.vq.erase v } }) hscene hf hl hgone hlate)
end

/-! ### Level merges (R187 to R191): the level tables and lists lie beside what the grid builder holds -/

theorem Dev.entryNew_gb (d : Dev) (gold : Bool) (l idx key : Nat) : (d.entryNew gold l idx key).gb = d.gb := by
  cases gold
  · simp only [Dev.entryNew, Dev.entryAt, Bool.false_eq_true, if_false]
    exact Dev.gb_of_offPlanes (Dev.offPlanes_unschedWrite (Nat.mod_lt idx (by decide)) ..)
  · rfl

theorem Dev.entryChild_gb (d : Dev) (gold : Bool) (l idx code word : Nat) : (d.entryChild gold l idx code word).gb = d.gb := by
  cases gold
  · simp only [Dev.entryChild, Dev.entryAt, Bool.false_eq_true, if_false]
    exact Dev.gb_of_offPlanes (Dev.offPlanes_unschedWrite (Nat.mod_lt idx (by decide)) ..)
  · rfl

theorem Dev.entryChildren_gb (d : Dev) (gold : Bool) (l idx : Nat) : (d.entryChildren gold l idx).2.gb = d.gb := by
  cases gold
  · exact Dev.gb_of_offPlanes (d.offPlanes_planeGet (Nat.mod_lt idx (by decide)) ..)
  · rfl

theorem Dev.childWords_gb (gold : Bool) (l : Nat) (sites : List Site) (d : Dev) :
    (Dev.childWords gold l sites d).2.gb = d.gb := by
  induction sites generalizing d with
  | nil => rfl
  | cons x r ih => exact (ih _).trans (d.entryChildren_gb ..)

theorem Dev.setLvlSet_gb (d : Dev) (gold : Bool) (fr : BitVec 32) (l : Nat) (m : List SiteRun) :
    (d.setLvlSet gold fr l m).gb = d.gb := by
  unfold Dev.setLvlSet
  dsimp only
  split
  · rfl
  · split <;> rfl

theorem Dev.levelMerge_gb (d : Dev) (gold : Bool) (fr : BitVec 32) (l : Nat) (a : List Site) :
    (d.levelMerge gold fr l a).1.gb = d.gb := by
  unfold Dev.levelMerge
  extract_lets b cap base set step
  split
  next d1 n sites h1 =>
  extract_lets m idx parent d2 d3 own offs
  split
  next child d4 h4 =>
  have hfold : (b.foldl step (d, runCount set, [])).1.gb = d.gb :=
    foldl_proj step (fun q => q.1.gb) (fun q k => by
      unfold step
      split
      next d n out =>
      split
      · rfl
      split
      · exact d.entryNew_gb ..
      · rfl) b _
  have h2 : d2.gb = d1.gb := foldl_proj _ Dev.gb (fun d x => by
    split
    · exact d.entryChild_gb ..
    · rfl) a d1
  have hd4 : d4.gb = d3.gb := by
    rw [← Dev.childWords_gb gold l sites d3, h4]
  rw [h1] at hfold
  exact hd4.trans ((Dev.setLvlSet_gb ..).trans (h2.trans hfold))

theorem Dev.allLevels_gb (d : Dev) (gold : Bool) (fr : BitVec 32) (n l : Nat) (a : List Site) :
    (d.allLevels gold fr n l a).1.gb = d.gb := by
  induction n generalizing d l a with
  | zero => rfl
  | succ n ih => exact (ih ..).trans (d.levelMerge_gb ..)

/-- A commit's lists left in staging, its header noted as sent (R191). -/
def Dev.stageLists (d : Dev) (c : Commit) (os : List LvlOut) : Dev :=
  let bytes := sectorLists c os
  let at_ := d.areaFor bytes.length
  let sh : SentHdr := { id := c.id, frame := c.frame, ord := c.ord, last := c.last, v := c.v, merged := c.merged }
  { d with mem := memWrite d.mem (stagingAt (16 * (d.rf AG_WSET_AREA 0 20 + at_))) bytes
           ag := { d.ag with area := at_ + bytes.length / 16, sent := (sh :: d.ag.sent).take 4096 } }

/-- Beside the ring into which its header goes, a commit processed leaves its lists staged. -/
theorem Dev.offPlanes_mergeCommit (d : Dev) (c : Commit) :
    let m := d.allLevels (decide (c.id.stream = goldStream)) c.frame d.levels 1 c.sites
    (d.mergeCommit c).offPlanes = (m.1.stageLists c m.2).offPlanes := by
  intro m
  unfold Dev.mergeCommit
  extract_lets gold
  split
  next e os h =>
  rw [show m = (e, os) from h]
  exact Dev.offPlanes_pushSlot (fld_lt ..) ..

theorem levelMergeOp_of_commit {d : Dev} {c : Commit} {cs : List Commit} (hc : d.gb.commits = c :: cs) (ha : d.accel = true)
    (hp : d.planesFree = true) (hs : d.gb.stuck = false) (hu : d.gb.upset = []) :
    (levelMergeOp d).offPlanes = (({ d with gb := { d.gb with commits := cs } } : Dev).mergeCommit c).offPlanes := by
  unfold levelMergeOp
  rw [hc]
  dsimp only
  rw [if_neg (by simp [ha, hp]), Dev.gridAccess_of_clean hs hu]
  split
  · exact Dev.offPlanes_dispatch _
  · rfl

/-! ### The scrub of a retired tag (R91) -/

/-- An entry after the scrub has visited the handles from `lo` to `hi` − 1, its own being `h`. -/
def HEnt.scrubbed (tag lo hi h : Nat) (x : HEnt) : HEnt :=
  if lo ≤ h ∧ h < hi ∧ x.used = true ∧ x.live = true ∧ x.ftag = tag then x.release else x

theorem scrubTab_cons (tag lo hi j : Nat) (x : Option HEnt) (t : SMap (Option HEnt)) :
    scrubTab tag lo hi ((j, x) :: t) = (j, x.map (HEnt.scrubbed tag lo hi j)) :: scrubTab tag lo hi t := by
  unfold scrubTab
  rw [List.map_cons]
  cases x with
  | none => rfl
  | some e =>
    dsimp only [Option.map_some, HEnt.scrubbed]
    split <;> rfl

theorem entAt_cons (j : Nat) (x : Option HEnt) (t : SMap (Option HEnt)) (h : Nat) :
    entAt ((j, x) :: t) h = if h = j then x else entAt t h := rfl

theorem entAt_scrubTab (tag lo hi : Nat) (t : SMap (Option HEnt)) (h : Nat) :
    entAt (scrubTab tag lo hi t) h = (entAt t h).map (HEnt.scrubbed tag lo hi h) := by
  induction t with
  | nil => rfl
  | cons q r ih =>
    obtain ⟨j, x⟩ := q
    rw [scrubTab_cons, entAt_cons, entAt_cons, ih]
    split
    · next hj => rw [hj]
    · rfl

theorem hashScrub_of_scrub {d : Dev} {tag at_ : Nat} (hg : d.gb.scrub = some (tag, at_)) (ha : d.accel = true)
    (hs : d.gb.stuck = false) (hu : d.gb.upset = []) (n : Nat) :
    let last := 4 * 2 ^ d.rf GB_HASH_CFG 0 5 + 4096
    let stop := min last (at_ + max n 1024)
    hashScrub n d = { d with gb := { d.gb with
      scrub := if stop = last then none else some (tag, stop)
      tab := scrubTab tag at_ stop d.gb.tab
      gtab := scrubTab tag at_ (if stop = last then 2 ^ 17 else stop) d.gb.gtab } } := by
  unfold hashScrub
  rw [if_neg (by simp [ha]), hg]
  exact Dev.gridAccess_of_clean hs hu _

end Sys2Proof.Machine

open Sys2Proof Sys2Proof.Machine

/-- Settles O38: the operation of a scene sector by its verdict, its keys and the fill limit; a level merge by what lies beside
the planes; the scrub entry by entry. -/
theorem verdictsMergesScrubs : Obligations.VerdictsMergesScrubs := by
  intro s v r c cs handles tag at_ d sec tg new lim counted
  refine ⟨fun hq hi ha hp hs ho hf hl hgone hlate hu => ?_, fun hc ha hp hs hu => ?_, fun hg ha hs hu => ?_⟩
  · have hscene := stream_ne_gold_of_vqOf hq
    have hrun := verdictOperation_scene ha hp hs hu (Dev.nextVerdict_scene hq hi ho) hscene hf hl hgone hlate
    refine ⟨fun hw => ⟨_, rfl, ?_⟩, fun hw hd hk => ⟨_, rfl, ?_⟩, fun hw hd hk hfull => ⟨_, rfl, ?_⟩,
      fun tab targets st hw hd hk hroom ht => ⟨_, rfl, ?_⟩⟩
    all_goals rw [Dev.commit_gb, Dev.ctr_commit, hrun]
    · rw [if_pos hw, Dev.foldl_unhold, Dev.foldl_unhold]
      refine ⟨rfl, rfl, Dev.ctr_bump_same .., rfl, fun x hx => ?_, rfl⟩
      exact of_decide_eq_true (List.mem_filter.1 hx).2
    all_goals rw [if_neg (not_not_intro hw), if_neg (show ¬ sec.doomed = true by rw [hd]; decide)]
    · obtain ⟨hgb, hctr⟩ := Dev.commitEmpty_scene (d := d.takeVerdict v) hscene
      rw [if_pos (show sec.keys.isEmpty = true by rw [hk]; rfl), hgb, hctr]
      exact ⟨rfl, rfl, rfl, rfl, rfl⟩
    · obtain ⟨hgb, hdrop, hret⟩ := Dev.dropSector_scene (d := d.takeVerdict v) hscene hf sec
      rw [if_neg (show ¬ sec.keys.isEmpty = true by simpa using hk),
        Dev.commitSector_of_full (d := d.takeVerdict v) hscene hf hfull, hgb, Dev.ctr_commit, hdrop, hret]
      exact ⟨rfl, rfl, rfl, rfl, rfl⟩
    · obtain ⟨x, hx, hvq, hcur, hcommits, hctr⟩ := Dev.commitSector_scene (d := d.takeVerdict v) hscene hf rfl hroom ht
      rw [if_neg (show ¬ sec.keys.isEmpty = true by simpa using hk), hctr]
      exact ⟨hvq, rfl, hcur, x, hcommits, hx⟩
  · have hm := (levelMergeOp_of_commit hc ha hp hs hu).trans (Dev.offPlanes_mergeCommit ..)
    refine ⟨_, rfl, ?_, ?_, ?_, ?_⟩
    · rw [Dev.commit_gb]
      refine (congrArg GridSt.commits (Dev.gb_of_offPlanes hm)).trans ?_
      exact congrArg GridSt.commits (Dev.allLevels_gb ..)
    · rw [Dev.commit_ag]
      exact congrArg AgSt.area (Dev.ag_of_offPlanes hm)
    · rw [Dev.commit_ag]
      exact congrArg (fun g : AgSt => g.sent.head?.map fun h => (h.id, h.frame, h.ord)) (Dev.ag_of_offPlanes hm)
    · rw [Dev.commit_mem]
      exact (Dev.staging_of_offPlanes hm ..).trans (memRead_memWrite ..)
  · refine ⟨_, rfl, fun h => ?_, ?_⟩
    all_goals rw [hashScrub_of_scrub hg ha hs hu, Dev.commit_gb]
    · exact entAt_scrubTab ..
    · rfl
end

section
/-! SUPPORT. The contexts of cell memory, and what the tables' engine leaves of cell memory while it serves it (R105, R111, R113). -/

namespace Sys2Proof.Machine

/-! ### Contexts stored slot by slot (R105) -/

@[simp] theorem CellSt.ctx_setCtx_same (c : CellSt) (k : Nat) (x : Ctx) : (c.setCtx k x).ctx k = x :=
  smGet_smSet_same ..

theorem CellSt.ctx_setCtx_ne (c : CellSt) {j k : Nat} (x : Ctx) (h : j ≠ k) : (c.setCtx k x).ctx j = c.ctx j :=
  smGet_smSet_ne _ _ _ h

/-- Each row's slot stored in turn, from the row and from what the slot holds. -/
def CellSt.setRows {α : Type} (f : CellSt → Nat × α → Ctx) (c : CellSt) (rows : List (Nat × α)) : CellSt :=
  rows.foldl (fun c p => c.setCtx p.1 (f c p)) c

section
variable {α : Type} (f : CellSt → Nat × α → Ctx) (c : CellSt) (rows : List (Nat × α))

/-- Contexts alone change. -/
theorem CellSt.setRows_eq : ∃ m, c.setRows f rows = { c with ctxs := m } :=
  List.foldlRecOn (motive := fun e => ∃ m, e = { c with ctxs := m }) rows _ ⟨_, rfl⟩ fun _ ⟨_, h⟩ _ _ => by
    subst h
    exact ⟨_, rfl⟩

variable {f rows}

theorem CellSt.ctx_setRows_of_notMem {k : Nat} (h : k ∉ rows.map Prod.fst) : (c.setRows f rows).ctx k = c.ctx k :=
  List.foldlRecOn (motive := fun e : CellSt => e.ctx k = c.ctx k) rows _ rfl fun e he _ hp =>
    (e.ctx_setCtx_ne _ fun hk : k = _ => h (hk ▸ List.mem_map_of_mem hp)).trans he

/-- A slot that one row alone names holds what that row stores, where the row reads of cell memory only what the other rows
leave as it is. -/
theorem CellSt.ctx_setRows_of_mem (hf : ∀ c k x p, p.1 ≠ k → f (c.setCtx k x) p = f c p) (hn : (rows.map Prod.fst).Nodup)
    {p : Nat × α} (hp : p ∈ rows) : (c.setRows f rows).ctx p.1 = f c p := by
  induction rows generalizing c with
  | nil => exact absurd hp List.not_mem_nil
  | cons q r ih =>
    obtain ⟨hq, hr⟩ := List.nodup_cons.1 hn
    rcases List.mem_cons.1 hp with rfl | hp
    · exact (CellSt.ctx_setRows_of_notMem _ hq).trans (CellSt.ctx_setCtx_same ..)
    · have hne : p.1 ≠ q.1 := fun h => hq (h ▸ List.mem_map_of_mem hp)
      exact (ih _ hr hp).trans (hf c q.1 _ p hne)
end

/-! ### Cell memory beside the tables' engine -/

/-- What the engine of the tables leaves as it is while it serves cell memory: cell memory, and the roll steps counted. -/
def Dev.cellView (d : Dev) : CellSt × Ctr := (d.cm, d.ctr CM_CTR_ROLL_STEP)

theorem Dev.cm_of_cellView {d e : Dev} (h : e.cellView = d.cellView) : e.cm = d.cm := congrArg Prod.fst h

/-- The window in force (R104): the origin and the contexts, with the roll steps counted. -/
def Dev.windowView (d : Dev) : Int × Int × (Nat → Ctx) × Ctr := (d.cm.ox, d.cm.oy, d.cm.ctx, d.ctr CM_CTR_ROLL_STEP)

theorem Dev.windowView_of_cellView {d e : Dev} (h : e.cellView = d.cellView) : e.windowView = d.windowView :=
  congrArg (fun v : CellSt × Ctr => (v.1.ox, v.1.oy, v.1.ctx, v.2)) h

theorem Dev.ctx_of_windowView {d e : Dev} (h : e.windowView = d.windowView) : e.cm.ctx = d.cm.ctx :=
  congrArg (fun v => v.2.2.1) h

theorem Dev.windowView_of_parts {d e : Dev} (hx : e.cm.ox = d.cm.ox) (hy : e.cm.oy = d.cm.oy) (hc : e.cm.ctx = d.cm.ctx)
    (hr : e.ctr CM_CTR_ROLL_STEP = d.ctr CM_CTR_ROLL_STEP) : e.windowView = d.windowView :=
  Prod.ext hx (Prod.ext hy (Prod.ext hc hr))

theorem Dev.cellView_of_parts {d e : Dev} (hc : e.cm = d.cm) (hr : e.ctr CM_CTR_ROLL_STEP = d.ctr CM_CTR_ROLL_STEP) :
    e.cellView = d.cellView := Prod.ext hc hr

theorem Dev.cellView_foldl {α : Type} {f : Dev → α → Dev} (h : ∀ d x, (f d x).cellView = d.cellView) (l : List α) (d : Dev) :
    (l.foldl f d).cellView = d.cellView := foldl_proj f Dev.cellView h l d

theorem Dev.cellView_bump (d : Dev) {a : Nat} (n : Nat) (h : CM_CTR_ROLL_STEP ≠ a) : (d.bump a n).cellView = d.cellView :=
  Dev.cellView_of_parts rfl (d.ctr_bump_ne n h)

theorem Dev.cellView_setCm {d e : Dev} (h : e.cellView = d.cellView) (f : CellSt → CellSt) :
    ({ e with cm := f e.cm } : Dev).cellView = (f d.cm, d.ctr CM_CTR_ROLL_STEP) :=
  congrArg (fun v : CellSt × Ctr => (f v.1, v.2)) h

@[simp] theorem Dev.cellView_report (d : Dev) (r : FltRep) : (d.report r).cellView = d.cellView :=
  Dev.cellView_of_parts (d.report_cm r) (d.ctr_report (by decide) r)

@[simp] theorem Dev.cellView_mon (d : Dev) (m : MonMsg) : (d.mon m).cellView = d.cellView :=
  Dev.cellView_of_parts (d.mon_cm m) (Dev.ctr_congr (d.mon_reg m) _)

@[simp] theorem Dev.cellView_storeReq (d : Dev) (cls : Nat) (w : Bool) (a n : Nat) (k : Bool) :
    (d.storeReq cls w a n k).cellView = d.cellView :=
  Dev.cellView_of_parts (d.storeReq_cm ..) (Dev.ctr_congr (d.storeReq_reg ..) _)

@[simp] theorem Dev.cellView_useCritical (d : Dev) (held : Bool) : (d.useCritical held).cellView = d.cellView := by
  unfold Dev.useCritical
  split
  · rfl
  · exact d.cellView_report _

@[simp] theorem Dev.cellView_logIn (d : Dev) (e : LogEnt) : (d.logIn e).cellView = d.cellView := by
  unfold Dev.logIn
  split <;> rfl

theorem Dev.cellView_unbump (d : Dev) {a : Nat} (n : Nat) (h : CM_CTR_ROLL_STEP ≠ a) :
    (d.unbump a n).cellView = d.cellView := by
  unfold Dev.unbump
  dsimp only
  split
  · rfl
  · exact Dev.cellView_of_parts rfl (smGet_smSet_ne _ _ _ h)

/-! ### Rows asked for and counted (R111, R258) -/

@[simp] theorem Dev.cellView_rowReq (d : Dev) (cls : Nat) (w : Bool) (t : Nat) (ver : Word) (i off n : Nat) :
    (d.rowReq cls w t ver i off n).cellView = d.cellView :=
  (Dev.cellView_storeReq ..).trans (d.cellView_useCritical _)

@[simp] theorem Dev.cellView_priorAsk (d : Dev) (ver : Word) (px py : Int) (cells : List (Int × Int)) :
    (d.priorAsk ver px py cells).cellView = d.cellView := by
  unfold Dev.priorAsk
  dsimp only
  split
  · rw [Dev.cellView_foldl fun d _ => d.cellView_rowReq .., Dev.cellView_useCritical]
  · exact d.cellView_useCritical _

theorem Dev.cellView_countRead (d : Dev) (t : Nat) (dflt torn : Bool) : (d.countRead t dflt torn).cellView = d.cellView := by
  have hne (a : Nat) (h : 0xA3000 ≤ a) : CM_CTR_ROLL_STEP ≠ a := by unfold CM_CTR_ROLL_STEP; omega
  unfold Dev.countRead
  rw [Dev.cellView_bump _ _ (hne _ (by unfold ET_SHADOW_READS; omega)), Dev.cellView_bump _ _ (hne _ (by unfold ET_RETRIES; omega)),
    Dev.cellView_bump _ _ (hne _ (by unfold ET_DEFAULTS; omega)), Dev.cellView_bump _ _ (hne _ (by unfold ET_LOOKUPS; omega))]

theorem Dev.cellView_rowUnc (d : Dev) (t : Nat) (ver : Word) (i : Nat) : (d.rowUnc t ver i).cellView = d.cellView := by
  unfold Dev.rowUnc
  dsimp only
  rw [Dev.cellView_report]
  split
  · rfl
  · exact d.cellView_bump _ (by unfold CM_CTR_ROLL_STEP XS_UNCORR; omega)

@[simp] theorem Dev.countRead_et (d : Dev) (t : Nat) (dflt torn : Bool) : (d.countRead t dflt torn).et = d.et := by
  simp [Dev.countRead]

@[simp] theorem Dev.rowUnc_et (d : Dev) (t : Nat) (ver : Word) (i : Nat) : (d.rowUnc t ver i).et = d.et := by
  unfold Dev.rowUnc
  dsimp only
  rw [Dev.report_et]
  split <;> rfl

@[simp] theorem Dev.cellView_priorReads (d : Dev) (ver : Word) (px py : Int) (cells : List (Int × Int)) (bad : List Nat) :
    (d.priorReads ver px py cells bad).cellView = d.cellView := by
  refine Dev.cellView_foldl (fun d q => ?_) _ d
  dsimp only
  split
  · split
    · rw [Dev.cellView_rowUnc, Dev.cellView_countRead]
    · exact d.cellView_countRead ..
  · exact d.cellView_countRead ..

@[simp] theorem Dev.priorReads_et (d : Dev) (ver : Word) (px py : Int) (cells : List (Int × Int)) (bad : List Nat) :
    (d.priorReads ver px py cells bad).et = d.et := by
  unfold Dev.priorReads
  refine foldl_proj _ Dev.et (fun d q => ?_) _ d
  dsimp only
  split
  · split
    · rw [Dev.rowUnc_et, Dev.countRead_et]
    · exact d.countRead_et ..
  · exact d.countRead_et ..

/-! ### Step 4 of the boundary again (R245, R246) -/

theorem Dev.clearOldBusy_refused (d : Dev) : d.clearOldBusy.et.refused = d.et.refused := by
  unfold Dev.clearOldBusy
  refine foldl_proj _ (fun d : Dev => d.et.refused) (fun d t => ?_) _ d
  dsimp only
  split <;> rfl

theorem Dev.cellView_clearOldBusy (d : Dev) : d.clearOldBusy.cellView = d.cellView := by
  unfold Dev.clearOldBusy
  refine Dev.cellView_foldl (fun d t => ?_) _ d
  split <;> rfl

theorem Dev.cellView_setEt (d : Dev) (x : TabSt) : ({ d with et := x } : Dev).cellView = d.cellView := rfl

theorem Dev.cellView_latchVersions (d : Dev) (s : Stroke) : (d.latchVersions s).cellView = d.cellView := rfl

theorem Dev.cellView_tableSwitches (d : Dev) (s : Stroke) : (d.tableSwitches s).1.cellView = d.cellView := by
  unfold Dev.tableSwitches
  rw [← d.cellView_clearOldBusy]
  generalize d.clearOldBusy = e
  dsimp only
  rw [foldl_proj _ (fun q : Dev × List Nat => q.1.cellView) fun q c => ?_]
  · rfl
  · split
    · rfl
    · rw [Dev.cellView_logIn]
      exact Dev.cellView_bump _ 1 (by unfold CM_CTR_ROLL_STEP ET_OPS_COMPLETE; omega)

theorem Dev.cellView_switchAgain (d : Dev) (s : Stroke) : (d.switchAgain s).1.cellView = d.cellView := by
  unfold Dev.switchAgain
  rw [← d.cellView_clearOldBusy]
  generalize d.clearOldBusy = e
  dsimp only
  split
  · rfl
  · rw [Dev.cellView_latchVersions, Dev.cellView_setEt, Dev.cellView_tableSwitches, Dev.cellView_setEt, Dev.cellView_useCritical]

theorem Dev.switchAgain_of_none {d : Dev} (h : d.et.refused = []) (s : Stroke) : d.switchAgain s = (d.clearOldBusy, []) := by
  unfold Dev.switchAgain
  dsimp only
  rw [d.clearOldBusy_refused.trans h]
  rfl

/-- A table that switches begins a reload, which replaces the generation and the reload in progress alone. -/
theorem Dev.windowView_decideAgain (d : Dev) : d.decideAgain.windowView = d.windowView := by
  unfold Dev.decideAgain
  have hs := Dev.windowView_of_cellView (d.cellView_switchAgain d.tm.stroke)
  generalize d.switchAgain d.tm.stroke = q at hs ⊢
  rw [← hs]
  dsimp only
  split
  · exact Dev.windowView_of_parts rfl rfl rfl (Dev.ctr_bump_ne _ 1 (by decide))
  · rfl

theorem Dev.cellView_decideAgain_of_none {d : Dev} (h : d.et.refused = []) : d.decideAgain.cellView = d.cellView := by
  unfold Dev.decideAgain
  rw [Dev.switchAgain_of_none h]
  exact d.cellView_clearOldBusy

theorem Dev.cellView_decideAgain_priorReads {d : Dev} (h : d.et.refused = []) (ver : Word) (px py : Int)
    (cells : List (Int × Int)) (bad : List Nat) : (d.priorReads ver px py cells bad).decideAgain.cellView = d.cellView := by
  rw [Dev.cellView_decideAgain_of_none (by rw [Dev.priorReads_et, h]), Dev.cellView_priorReads]

/-! ### The next step or block, and the tile (R111, R113, R115) -/

/-- The engine takes up a roll step or the block at which the reload stands. -/
theorem Dev.cellView_engineBegin (d : Dev) (s : Stroke) : ∃ r l,
    (d.engineBegin s).cellView = ({ d.cm with roll := r, reload := l }, d.ctr CM_CTR_ROLL_STEP) ∧
      l.map Reload.next = d.cm.reload.map Reload.next := by
  unfold Dev.engineBegin
  generalize d.target = g
  obtain ⟨tx, ty⟩ := g
  dsimp -zeta only
  extract_lets idle ver held px py dx dy ax st a e
  have ask (cells : List (Int × Int)) : ((d.useCritical held).priorAsk ver px py cells).cellView = d.cellView :=
    (Dev.cellView_priorAsk ..).trans (d.cellView_useCritical _)
  split
  · exact ⟨_, _, rfl, rfl⟩
  split
  · exact ⟨_, _, Dev.cellView_setCm (ask _) fun c => { c with roll := some { st with reqs := (a, e.xs.next) } }, rfl⟩
  split
  · next r hr =>
    extract_lets f
    exact ⟨_, _, Dev.cellView_setCm (ask _) fun c => { c with
      reload := some { r with flight := some (s, ver, px, py), reqs := (a, f.xs.next) } }, by rw [hr]; rfl⟩
  · exact ⟨_, _, rfl, rfl⟩

theorem Dev.cellView_sendBoundary (d : Dev) : d.sendBoundary.cellView = d.cellView := by
  unfold Dev.sendBoundary
  dsimp only
  split
  · rfl
  · exact d.cellView_mon _

theorem Dev.windowView_engineBegin (d : Dev) (s : Stroke) : (d.engineBegin s).windowView = d.windowView := by
  obtain ⟨r, l, h, -⟩ := d.cellView_engineBegin s
  exact congrArg (fun v : CellSt × Ctr => (v.1.ox, v.1.oy, v.1.ctx, v.2)) h

theorem Dev.reload_engineBegin (d : Dev) (s : Stroke) :
    (d.engineBegin s).cm.reload.map Reload.next = d.cm.reload.map Reload.next := by
  obtain ⟨r, l, h, hl⟩ := d.cellView_engineBegin s
  exact (congrArg (fun v : CellSt × Ctr => v.1.reload.map Reload.next) h).trans hl

/-- The tile is read anew into the record path, which alone changes. -/
theorem Dev.cellView_resume (d : Dev) : ∃ p, d.resume.cellView = ({ d.cm with path := p }, d.ctr CM_CTR_ROLL_STEP) :=
  ⟨_, Dev.cellView_sendBoundary _⟩

theorem Dev.windowView_resume (d : Dev) : d.resume.windowView = d.windowView := by
  obtain ⟨p, h⟩ := d.cellView_resume
  exact congrArg (fun v : CellSt × Ctr => (v.1.ox, v.1.oy, v.1.ctx, v.2)) h

theorem Dev.reload_resume (d : Dev) : d.resume.cm.reload = d.cm.reload := by
  obtain ⟨p, h⟩ := d.cellView_resume
  exact congrArg (fun v : CellSt × Ctr => v.1.reload) h

/-! ### Expiry before and after a roll step (R25, R109) -/

theorem Dev.unexpire_cm (d : Dev) : ∃ m, d.unexpire.cm = { d.cm with ctxs := m, expired := [] } := by
  have hb := Dev.cm_of_cellView (d.cellView_unbump d.cm.expired.length (a := CM_CTR_EXPIRED) (by decide))
  unfold Dev.unexpire
  generalize d.unbump CM_CTR_EXPIRED d.cm.expired.length = e at hb ⊢
  rw [← hb]
  obtain ⟨m, h⟩ := e.cm.setRows_eq (fun _ p => p.2) e.cm.expired
  exact ⟨m, congrArg (fun c : CellSt => { c with expired := [] }) h⟩

theorem Dev.ctr_unexpire (d : Dev) : d.unexpire.ctr CM_CTR_ROLL_STEP = d.ctr CM_CTR_ROLL_STEP :=
  congrArg Prod.snd (d.cellView_unbump d.cm.expired.length (a := CM_CTR_EXPIRED) (by decide))

/-- The prior rows are those of the tables, which no expiry touches. -/
theorem Dev.priorRow_unexpire (d : Dev) : d.unexpire.priorRow = d.priorRow := by
  unfold Dev.unexpire Dev.unbump
  dsimp only
  split <;> rfl

/-- An expiry moves no origin, counts no roll step, and zeroes contexts that were seen alone. -/
theorem Dev.expireTile_window (d : Dev) (s : Stroke) :
    (d.expireTile s).cm.ox = d.cm.ox ∧ (d.expireTile s).cm.oy = d.cm.oy ∧
      (d.expireTile s).ctr CM_CTR_ROLL_STEP = d.ctr CM_CTR_ROLL_STEP ∧
      ∀ k, (d.cm.ctx k).seen = false → (d.expireTile s).cm.ctx k = d.cm.ctx k := by
  unfold Dev.expireTile
  extract_lets hit e cm
  have hseen : ∀ p ∈ hit, (d.cm.ctx p.1).seen = true := fun p hp => by
    obtain ⟨hslot, hexp⟩ := List.mem_filter.1 hp
    obtain ⟨j, -, rfl⟩ := List.mem_map.1 hslot
    exact (Bool.and_eq_true_iff.1 hexp).1
  clear_value hit
  obtain ⟨m, hm⟩ := d.cm.setRows_eq (fun _ p => p.2.expire) hit
  refine ⟨(congrArg CellSt.ox hm :), (congrArg CellSt.oy hm :), d.ctr_bump_ne hit.length (by decide), fun k hk => ?_⟩
  refine CellSt.ctx_setRows_of_notMem (f := fun _ (p : Nat × Ctx) => p.2.expire) d.cm fun hmem => ?_
  obtain ⟨p, hp, rfl⟩ := List.mem_map.1 hmem
  exact absurd (hseen p hp) (by simp [hk])

@[simp] theorem Dev.cellErrs_nil (d : Dev) (old : CellSt) : d.cellErrs old [] = d := rfl

end Sys2Proof.Machine
end

section
/-! SUPPORT. Roll steps and reload blocks as they complete, and the pose register (R103, R111, R113). -/

namespace Sys2Proof.Machine

/-! ### The slots of a roll step and of a reload block (R105, R111, R113) -/

/-- The entering column or row meets each of its slots once. -/
theorem slotOf_rollCell_inj {ox oy : Int} {r : RollStep} {m n : Nat} (hm : m < 1024) (hn : n < 1024)
    (h : slotOf (rollCell ox oy r m).1 (rollCell ox oy r m).2 = slotOf (rollCell ox oy r n).1 (rollCell ox oy r n).2) :
    m = n := by
  unfold rollCell slotOf at h
  split at h <;> dsimp only at h <;> omega

theorem blockSlots_length (n : Nat) : (blockSlots n).length = 1024 := by simp [blockSlots]

theorem blockSlots_nodup (n : Nat) : (blockSlots n).Nodup :=
  List.Nodup.map_on (fun i hi j hj h => by rw [List.mem_range] at hi hj; omega) List.nodup_range

/-! ### ROLL_STEP_COMPLETE (R111) -/

/-- A slot with its prior row: the row, whether the cell lies outside the prior table, whether the read failed. -/
abbrev SlotRow : Type := Nat × BitVec 256 × Bool × Bool

/-- The rows of a roll step: for each cell that enters its slot and its prior row. -/
def Dev.rollRows (d : Dev) (r : RollStep) (bad : List Nat) : List (SlotRow) :=
  (List.range 1024).map fun n =>
    let cell := rollCell d.cm.ox d.cm.oy r n
    (slotOf cell.1 cell.2, d.priorRow r.ver r.began r.px r.py cell.1 cell.2 (bad.contains n))

/-- The context of a cell that enters (R111): no accumulated state, the prior row of its place. -/
def enteringCtx (c : CellSt) (p : SlotRow) : Ctx :=
  { prior := p.2.1, prDef := p.2.2.1, prGen := c.gen3 }

theorem Dev.rollRows_nodup (d : Dev) (r : RollStep) (bad : List Nat) : ((d.rollRows r bad).map Prod.fst).Nodup := by
  rw [Dev.rollRows, List.map_map]
  exact List.Nodup.map_on (fun i hi j hj h => slotOf_rollCell_inj (List.mem_range.1 hi) (List.mem_range.1 hj) h) List.nodup_range

theorem Dev.rollRows_unexpire (d : Dev) (r : RollStep) (bad : List Nat) : d.unexpire.rollRows r bad = d.rollRows r bad := by
  obtain ⟨m, h⟩ := d.unexpire_cm
  unfold Dev.rollRows
  rw [d.priorRow_unexpire, h]

/-- The origin moved by one cell along the step's axis, and no step in flight. -/
def CellSt.rolled (c : CellSt) (r : RollStep) : CellSt :=
  let k : Int := if r.up then 1 else -1
  { c with roll := none, ox := if r.axisX then c.ox + k else c.ox, oy := if r.axisX then c.oy else c.oy + k }

/-- A roll step that is due: the cells that enter are stored, the origin moves and the step is counted; of what follows at the
boundary only an expiry reaches the contexts, and only those that were seen. -/
theorem rollStepComplete_of_due {d : Dev} {r : RollStep} (hr : d.cm.roll = some r) (hu : d.cellsUp = true)
    (hs : 16 ≤ sDiff d.tm.stroke r.began) (hv : d.xs.served r.reqs.1 r.reqs.2 = true) (bad : List Nat) :
    let c := (d.unexpire.cm.setRows enteringCtx (d.rollRows r bad)).rolled r
    let e := rollStepComplete bad [] d
    e.cm.ox = c.ox ∧ e.cm.oy = c.oy ∧ e.ctr CM_CTR_ROLL_STEP = ctrAdd (d.ctr CM_CTR_ROLL_STEP) 1 ∧
      ∀ k, (c.ctx k).seen = false → e.cm.ctx k = c.ctx k := by
  unfold rollStepComplete
  rw [hr, ← d.rollRows_unexpire]
  dsimp -zeta only
  extract_lets c s d₀ lagged cells rows cm₁ k cm₂ d₁ d₂ d₃ d₄ d₅ e
  have hc : c = (d₀.cm.setRows enteringCtx rows).rolled r := rfl
  clear_value c rows
  have he : e = ((d₅.expireTile s).engineBegin s).resume := if_neg (by simp [hu, hv, hs, s])
  have h₃ : d₃.cellView = d₁.cellView := (d₂.cellView_bump _ (by decide)).trans (d₁.cellView_bump _ (by decide))
  have h₄ : d₄.windowView = d₁.windowView :=
    (Dev.windowView_decideAgain _).trans (Dev.windowView_of_cellView ((d₃.cellView_priorReads ..).trans h₃))
  have h₅ : d₅.windowView = d₄.windowView := by
    unfold d₅
    split
    · exact Dev.windowView_of_cellView (d₄.cellView_unbump _ (by decide))
    · split
      · exact Dev.windowView_of_cellView (d₄.cellView_bump _ (by decide))
      · rfl
  have h₆ : e.windowView = (d₅.expireTile s).windowView := by
    rw [he, Dev.windowView_resume, Dev.windowView_engineBegin]
  have h₁ : d₁.cm = c := hc.symm
  have hctr : d₁.ctr CM_CTR_ROLL_STEP = ctrAdd (d.ctr CM_CTR_ROLL_STEP) 1 :=
    (Dev.ctr_bump_same ..).trans (congrArg (ctrAdd · 1) d.ctr_unexpire)
  obtain ⟨tx, ty, tr, tc⟩ := d₅.expireTile_window s
  have h₅₁ := h₅.trans h₄
  simp only [Dev.windowView, Prod.mk.injEq, h₁] at h₅₁ h₆
  obtain ⟨dx, dy, dc, dr⟩ := h₅₁
  obtain ⟨ex, ey, ec, er⟩ := h₆
  refine ⟨ex.trans (tx.trans dx), ey.trans (ty.trans dy), er.trans (tr.trans (dr.trans hctr)), fun k hk => ?_⟩
  rw [ec, tc k (by rw [dc, hk]), dc]

section
variable (d : Dev) (r : RollStep) (rows : List (SlotRow))

theorem CellSt.ctx_rolled (c : CellSt) : (c.rolled r).ctx = c.ctx := rfl

/-- The origin moves by one cell along the step's axis. -/
theorem Dev.origin_rolled :
    let c := (d.unexpire.cm.setRows enteringCtx rows).rolled r
    let k : Int := if r.up then 1 else -1
    c.ox = (if r.axisX then d.cm.ox + k else d.cm.ox) ∧ c.oy = (if r.axisX then d.cm.oy else d.cm.oy + k) := by
  obtain ⟨m, hm⟩ := d.unexpire_cm
  obtain ⟨m', hm'⟩ := d.unexpire.cm.setRows_eq enteringCtx rows
  rw [hm', hm]
  exact ⟨rfl, rfl⟩

variable {rows}

/-- The context of a cell that has entered. -/
theorem Dev.ctx_entered (hn : (rows.map Prod.fst).Nodup) {p : SlotRow} (hp : p ∈ rows) :
    ((d.unexpire.cm.setRows enteringCtx rows).rolled r).ctx p.1 = { prior := p.2.1, prDef := p.2.2.1, prGen := d.cm.gen3 } := by
  obtain ⟨m, hm⟩ := d.unexpire_cm
  rw [CellSt.ctx_rolled, CellSt.ctx_setRows_of_mem _ (fun _ _ _ _ _ => rfl) hn hp, enteringCtx, hm]
  rfl
end

/-! ### RELOAD_BLOCK_COMPLETE (R113) -/

/-- The rows of a reload block: each slot and the prior row of its cell. -/
def Dev.reloadRows (d : Dev) (next : Nat) (f : Stroke × Word × Int × Int) (bad : List Nat) : List (SlotRow) :=
  (blockSlots next).mapIdx fun n k =>
    let cell := d.cellOfSlot k
    (k, d.priorRow f.2.1 f.1 f.2.2.1 f.2.2.2 cell.1 cell.2 (bad.contains n))

/-- The context of a cell whose block is reloaded (R113): the prior and its flags are replaced, the rest is kept. -/
def reloadedCtx (c : CellSt) (p : SlotRow) : Ctx :=
  { c.ctx p.1 with prior := p.2.1, prDef := p.2.2.1, prGen := c.gen3, prPend := false }

theorem Dev.reloadRows_slots (d : Dev) (next : Nat) (f : Stroke × Word × Int × Int) (bad : List Nat) :
    (d.reloadRows next f bad).map Prod.fst = blockSlots next := by
  rw [Dev.reloadRows, List.mapIdx_eq_zipIdx_map, List.map_map]
  exact List.zipIdx_map_fst 0 _

/-- The context in slot n of a reloaded block. -/
theorem Dev.ctx_reloaded {d : Dev} (hh : d.cm.held = none) (next : Nat) (f : Stroke × Word × Int × Int) (bad : List Nat) {n : Nat}
    (hn : n < 1024) :
    let slot := (blockSlots next).getD n 0
    let cell := d.cellOfSlot slot
    let p := d.priorRow f.2.1 f.1 f.2.2.1 f.2.2.2 cell.1 cell.2 (bad.contains n)
    (d.cm.setRows reloadedCtx (d.reloadRows next f bad)).ctx slot =
      { d.cm.ctx slot with prior := p.1, prDef := p.2.1, prGen := d.cm.gen, prPend := false } := by
  intro slot cell p
  have hlen : n < (blockSlots next).length := by rwa [blockSlots_length]
  have hslot : (blockSlots next)[n] = slot := (List.getD_eq_getElem _ 0 hlen).symm
  have hmem : (slot, p) ∈ d.reloadRows next f bad := List.mem_mapIdx.2 ⟨n, hlen, by rw [hslot]⟩
  have hf (c : CellSt) (k : Nat) (x : Ctx) (q : SlotRow) (h : q.1 ≠ k) :
      reloadedCtx (c.setCtx k x) q = reloadedCtx c q := by
    unfold reloadedCtx
    rw [c.ctx_setCtx_ne x h]
    rfl
  have hn : ((d.reloadRows next f bad).map Prod.fst).Nodup := by
    rw [d.reloadRows_slots]
    exact blockSlots_nodup next
  clear_value p slot
  have hctx := CellSt.ctx_setRows_of_mem d.cm hf hn hmem
  rw [reloadedCtx, CellSt.gen3, hh] at hctx
  exact hctx

theorem CellSt.ctx_setReload3 (c : CellSt) (x : Option Reload) : (c.setReload3 x).ctx = c.ctx := by
  unfold CellSt.setReload3
  split <;> rfl

theorem CellSt.reload_setReload3 {c : CellSt} (h : c.held = none) (x : Option Reload) : (c.setReload3 x).reload = x := by
  simp [CellSt.setReload3, h]

/-- A reload block that is due, with no reload begun and no commit refused at this boundary: its slots are stored, and the
reload goes on to the next block or ends. -/
theorem reloadBlockComplete_of_due {d : Dev} {next : Nat} {f : Stroke × Word × Int × Int} {rq : Nat × Nat} (hh : d.cm.held = none)
    (hf : d.et.refused = []) (hr : d.cm.reload = some { next := next, flight := some f, reqs := rq })
    (hv : d.xs.served rq.1 rq.2 = true) (hu : d.cellsUp = true) (hs : 16 ≤ sDiff d.tm.stroke f.1) (bad : List Nat) :
    let e := reloadBlockComplete bad [] d
    e.cm.ctx = (d.cm.setRows reloadedCtx (d.reloadRows next f bad)).ctx ∧
      e.cm.reload.map Reload.next = if next = 1023 then none else some (next + 1) := by
  obtain ⟨began, ver, px, py⟩ := f
  have hr₃ : d.cm.reload3 = some { next := next, flight := some (began, ver, px, py), reqs := rq } := by
    rw [CellSt.reload3, hh]
    exact hr
  unfold reloadBlockComplete
  rw [hr₃]
  dsimp -zeta only
  extract_lets s rows cm₁ cm₂ d₁ d₂ d₃ d₄ e
  have hrows : rows = d.reloadRows next (began, ver, px, py) bad := rfl
  rw [← hrows]
  clear_value rows
  have hctx : cm₂.ctx = (d.cm.setRows reloadedCtx rows).ctx := CellSt.ctx_setReload3 ..
  have hnext : cm₂.reload = if next = 1023 then none else some { next := next + 1 } := by
    obtain ⟨m, hm⟩ := d.cm.setRows_eq reloadedCtx rows
    exact CellSt.reload_setReload3 ((congrArg CellSt.held hm).trans hh) _
  clear_value cm₂
  have he : e = (d₄.engineBegin s).resume := if_neg (by simp [hu, hv, hs, s])
  have h₃ : d₃.cellView = d₁.cellView := (d₂.cellView_bump _ (by decide)).trans (d₁.cellView_bump _ (by decide))
  have hd₁ : d₁ = { d with cm := cm₂ } := Dev.cellErrs_nil ..
  have hf₃ : d₃.et.refused = [] := by rwa [d₂.bump_et, d₁.bump_et, hd₁]
  have h₄ : d₄.cellView = d₃.cellView := Dev.cellView_decideAgain_priorReads hf₃ ..
  have hcm : d₄.cm = cm₂ := (Dev.cm_of_cellView (h₄.trans h₃)).trans (by rw [hd₁])
  have hw : e.windowView = d₄.windowView := by
    rw [he, Dev.windowView_resume, Dev.windowView_engineBegin]
  constructor
  · rw [Dev.ctx_of_windowView hw, hcm, hctx]
  · rw [he, Dev.reload_resume, Dev.reload_engineBegin, hcm, hnext]
    split <;> rfl

/-! ### POSE_COMMIT (R103, R205) -/

theorem Dev.poseRegs_logIn (d : Dev) (e : LogEnt) : (d.logIn e).poseRegs = d.poseRegs := by
  unfold Dev.logIn
  split <;> rfl

theorem poseCommit_cm {d : Dev} (h : d.lg.replaying = false) :
    (poseCommit d).cm = { d.cm with poseNext := some d.poseRegs } := by
  unfold poseCommit
  rw [if_neg (by simp [h])]
  dsimp only
  rw [Dev.poseRegs_logIn, Dev.cm_of_cellView (d.cellView_logIn _)]

end Sys2Proof.Machine

open Sys2Proof Sys2Proof.Machine

/-- Settles O40: a roll step and a reload block store the rows of their slots, each slot once, and what follows at the boundary
leaves the window as it is; the pose registers are held by the write of GO. -/
theorem rollsReloadsPoses : Obligations.RollsReloadsPoses := by
  intro s bad r next n began q d now
  refine ⟨fun hr hu hs hv hn => ?_, fun v rq hh hf hr hv hu hs hn => ?_, fun hp => ⟨_, rfl, ?_⟩⟩
  · intro k cell p
    obtain ⟨hx, hy, hc, hctx⟩ := rollStepComplete_of_due hr hu hs hv bad
    obtain ⟨ox, oy⟩ := d.origin_rolled r (d.rollRows r bad)
    have hmem : (slotOf cell.1 cell.2, p) ∈ d.rollRows r bad := List.mem_map_of_mem (List.mem_range.2 hn)
    have hent := d.ctx_entered r (d.rollRows_nodup r bad) hmem
    refine ⟨_, rfl, ?_, ?_, ?_, ?_⟩
    · rw [Dev.commit_cm]
      exact hx.trans ox
    · rw [Dev.commit_cm]
      exact hy.trans oy
    · rw [Dev.ctr_commit]
      exact hc
    · rw [Dev.commit_cm]
      exact (hctx _ (by rw [hent])).trans hent
  · intro slot cell p
    obtain ⟨hctx, hnext⟩ := reloadBlockComplete_of_due hh hf hr hv hu hs bad
    refine ⟨_, rfl, ?_, fun e he => ?_, ?_⟩
    all_goals rw [Dev.commit_cm]
    · exact (congrFun hctx slot).trans (Dev.ctx_reloaded hh next (began, v, q) bad hn)
    · exact (congrFun hctx e).trans (CellSt.ctx_setRows_of_notMem _ (by rwa [d.reloadRows_slots]))
    · exact hnext
  · rw [Dev.commit_cm]
    exact poseCommit_cm hp
end

section
/-! SUPPORT. The passage of schedule cycles at a core (R158, R305): what its plane accesses leave of the core, and what of its
scheduled accesses stays ahead. -/

namespace Sys2Proof.Machine

/-! ### What plane accesses leave of their core -/

/-- What of a core no access at its planes changes: all but its rings, the journal's fill, the shadow weights and the
broadcasts in preparation. -/
def Dev.pipeView (d : Dev) (c : Nat) : CoreChk × CoreVol :=
  ({ d.core c with rings := [], tags := [] }, { d.vol c with jfill := 0, wSh := [], sSh := [], feeds := [] })

theorem Dev.pipeView_of_cw {d e : Dev} (c : Nat) (h : e.cw = d.cw) : e.pipeView c = d.pipeView c := by
  unfold Dev.pipeView Dev.core Dev.vol
  rw [h]

section
variable {d e : Dev} {c : Nat} (h : e.pipeView c = d.pipeView c)
include h

theorem Dev.tgts_of_pipeView : (e.core c).tgts = (d.core c).tgts := congrArg (fun x => x.1.tgts) h
theorem Dev.reads_of_pipeView : (e.vol c).reads = (d.vol c).reads := congrArg (fun x => x.2.reads) h
theorem Dev.writes_of_pipeView : (e.vol c).writes = (d.vol c).writes := congrArg (fun x => x.2.writes) h
theorem Dev.retry_of_pipeView : (e.vol c).retry = (d.vol c).retry := congrArg (fun x => x.2.retry) h
end

theorem Dev.pipeView_foldl {α : Type} {f : Dev → α → Dev} {c : Nat} (h : ∀ d x, (f d x).pipeView c = d.pipeView c)
    (l : List α) (d : Dev) : (l.foldl f d).pipeView c = d.pipeView c := foldl_proj f (fun d => d.pipeView c) h l d

@[simp] theorem Dev.tpFault_cw (d : Dev) (c b : Nat) (w : Bool) (o r s : Nat) : (d.tpFault c b w o r s).cw = d.cw := by
  unfold Dev.tpFault
  dsimp only
  rw [Dev.report_cw, Dev.hwOr_cw]
  split <;> rfl

@[simp] theorem Dev.journalFull_cw (d : Dev) (c : Nat) (w : Bool) (o : Nat) : (d.journalFull c w o).cw = d.cw :=
  Dev.report_cw ..

@[simp] theorem Dev.aowStat_cw (d : Dev) (c : Nat) (v : Bool) (st : FStat) : (d.aowStat c v st).cw = d.cw := by
  unfold Dev.aowStat
  split <;> rfl

theorem Dev.pipeView_journal {d e : Dev} {c off n : Nat} {w : Bool} (h : d.journal c w off n = some e) :
    e.pipeView c = d.pipeView c := by
  unfold Dev.journal at h
  split at h
  · rw [Option.some.inj h]
  · dsimp only at h
    split at h
    · cases h
    · rw [← Option.some.inj h]
      simp only [Dev.pipeView, Dev.core_setVol, Dev.vol_setVol_same]
      rfl

theorem Dev.pipeView_planeWrite (d : Dev) (c : Nat) (w : Bool) (off : Nat) (bs : List Byte) (aow : Nat) (v : Bool) :
    (d.planeWrite c w off bs aow v).pipeView c = d.pipeView c := by
  unfold Dev.planeWrite
  dsimp only
  split
  · rfl
  split
  · exact Dev.pipeView_of_cw c (Dev.tpFault_cw ..)
  split
  · exact Dev.pipeView_of_cw c (Dev.tpFault_cw ..)
  split
  · exact Dev.pipeView_of_cw c (Dev.journalFull_cw ..)
  next e he =>
  rw [← Dev.pipeView_journal he]
  split
  · exact Dev.pipeView_of_cw c rfl
  · exact Dev.pipeView_of_cw c (Dev.aowStat_cw ..)

theorem Dev.pipeView_doRead (d : Dev) (c : Nat) (q : PRead) : (d.doRead c q).pipeView c = d.pipeView c := by
  unfold Dev.doRead Dev.pipeView
  dsimp only
  split
  all_goals simp only [Dev.core_setVol, Dev.vol_setVol_same, CoreVol.fillRows]

theorem Dev.doRead_mem (d : Dev) (c : Nat) (q : PRead) : (d.doRead c q).mem = d.mem := by
  unfold Dev.doRead
  dsimp only
  split <;> rfl

/-! ### Held PUTs (R170) -/

theorem Dev.pipeView_markFull (d : Dev) (c n s e : Nat) : (d.markFull c n s e).pipeView c = d.pipeView c := by
  simp only [Dev.pipeView, Dev.markFull, Dev.core_setCore_same, Dev.vol_setCore]
  rfl

theorem Dev.pipeView_putSlot (d : Dev) (c n : Nat) (bs : List Byte) : (d.putSlot c n bs).pipeView c = d.pipeView c := by
  unfold Dev.putSlot
  extract_lets g k r cw r' d1 d2 cw' d3
  split
  · exact Dev.pipeView_of_cw c (Dev.tpFault_cw ..)
  split
  · rfl
  have h1 : d1.pipeView c = d.pipeView c := by
    simp only [d1, Dev.pipeView, Dev.core_setCore_same, Dev.vol_setCore]
    rfl
  have h3 : d3.pipeView c = d2.pipeView c := by
    unfold d3
    split <;> rfl
  rw [Dev.pipeView_markFull, h3, Dev.pipeView_planeWrite, h1]

theorem Dev.pipeView_retryHeld (d : Dev) (c n : Nat) : (d.retryHeld c n).pipeView c = d.pipeView c := by
  unfold Dev.retryHeld
  split
  · rfl
  split
  · rfl
  · exact Dev.pipeView_putSlot ..

/-! ### What has landed, and what stays ahead (R158, R305) -/

theorem CoreChk.setReg_tgts (k : CoreChk) (r : Nat) (v : Word) : (k.setReg r v).tgts = k.tgts := by
  unfold CoreChk.setReg
  repeat' split
  all_goals rfl

/-- The events of a settlement leave `pipeView`: it is that of the pipelines with what has fallen due taken out. -/
theorem Dev.pipeView_settle (d : Dev) (c now : Nat) : ∃ k v,
    (d.settle c now).pipeView c = ((d.setCore c k).setVol c v).pipeView c ∧
    k.tgts = (d.core c).tgts ∧ v.reads = (d.vol c).reads.filter (fun x => decide (now < x.at_)) ∧
    v.writes = (d.vol c).writes.filter (fun x => decide (now ≤ x.at_)) ∧ v.retry = (d.vol c).retry := by
  unfold Dev.settle
  extract_lets v k res ups cups ws rs k' k'' v' d' evs
  refine ⟨k'', v', Dev.pipeView_foldl (fun d e => ?_) .., ?_, rfl, rfl, rfl⟩
  · split
    · exact d.pipeView_planeWrite ..
    · exact d.pipeView_doRead ..
    · rfl
  · exact foldl_proj _ CoreChk.tgts (fun k x => k.setReg_tgts ..) ups k

theorem Dev.tgts_settle (d : Dev) (c now : Nat) : ((d.settle c now).core c).tgts = (d.core c).tgts := by
  obtain ⟨k, v, h, hk, -⟩ := d.pipeView_settle c now
  simpa [hk] using Dev.tgts_of_pipeView h

theorem Dev.reads_settle (d : Dev) (c now : Nat) :
    ((d.settle c now).vol c).reads = (d.vol c).reads.filter (fun x => decide (now < x.at_)) := by
  obtain ⟨k, v, h, -, hv, -⟩ := d.pipeView_settle c now
  simpa [hv] using Dev.reads_of_pipeView h

theorem Dev.writes_settle (d : Dev) (c now : Nat) :
    ((d.settle c now).vol c).writes = (d.vol c).writes.filter (fun x => decide (now ≤ x.at_)) := by
  obtain ⟨k, v, h, -, -, hv, -⟩ := d.pipeView_settle c now
  simpa [hv] using Dev.writes_of_pipeView h

theorem Dev.retry_settle (d : Dev) (c now : Nat) : ((d.settle c now).vol c).retry = (d.vol c).retry := by
  obtain ⟨k, v, h, -, -, -, hv⟩ := d.pipeView_settle c now
  simpa [hv] using Dev.retry_of_pipeView h

/-- Where no scheduled write is due, the reads alone are made. -/
theorem Dev.mem_settle {d : Dev} {c now : Nat} (h : ∀ w ∈ (d.vol c).writes, now ≤ w.at_) : (d.settle c now).mem = d.mem := by
  unfold Dev.settle
  extract_lets v k res ups cups ws rs k' k'' v' d' evs
  have hws : ws = [] := List.filter_eq_nil_iff.2 fun w hw => by simpa using h w hw
  refine List.foldlRecOn (motive := fun e : Dev => e.mem = d.mem) _ _ rfl fun e he x hx => ?_
  have hread : ∃ r ∈ rs, (2 * r.at_, none, some r) = x := by
    simpa [evs, hws] using mem_sortBy hx
  obtain ⟨r, -, rfl⟩ := hread
  exact (e.doRead_mem c r).trans he

/-- Where a core stands at a schedule cycle: its writes of earlier ones are made, its drained rings tried again. -/
def Dev.cameTo (d : Dev) (c now : Nat) : Prop :=
  (∀ w ∈ (d.vol c).writes, now ≤ w.at_) ∧ ∀ x ∈ (d.vol c).retry, now ≤ x.1

theorem Dev.cameTo_sync (d : Dev) (c now : Nat) : (d.sync c now).cameTo c now := by
  have hwrites : ∀ w ∈ ((d.settle c now).vol c).writes, now ≤ w.at_ := fun w hw => by
    rw [Dev.writes_settle] at hw
    simpa using (List.mem_filter.1 hw).2
  unfold Dev.sync
  dsimp only
  split
  · next hnil =>
    exact ⟨hwrites, fun x hx => by simpa using List.filter_eq_nil_iff.1 hnil x hx⟩
  · have hview := fun l : List (Nat × Nat) => Dev.pipeView_foldl (fun d (x : Nat × Nat) => d.pipeView_retryHeld c x.2) l
    refine ⟨?_, ?_⟩
    · rw [Dev.writes_of_pipeView (hview ..), Dev.vol_setVol_same]
      exact hwrites
    · rw [Dev.retry_of_pipeView (hview ..), Dev.vol_setVol_same]
      exact fun x hx => by simpa using (List.mem_filter.1 hx).2

/-- The passage of cycles to where the core stands already brings the reads of that cycle alone. -/
theorem Dev.sync_of_cameTo {d : Dev} {c now : Nat} (h : d.cameTo c now) : d.sync c now = d.settle c now := by
  unfold Dev.sync
  dsimp only
  rw [Dev.retry_settle, List.filter_eq_nil_iff.2 fun x hx => by simpa using h.2 x hx]

end Sys2Proof.Machine
end

section
/-! SUPPORT. The shadow fill (R129, R131, R295): the jobs that it loads for, its reads, and its completion at each target. -/

namespace Sys2Proof.Machine

/-! ### Scheduled reads without an uncorrectable error (R158, R160, R165) -/

/-- What the banks and the corrections of a scheduled read leave: the cores, core `c`'s scheduled accesses and drained rings,
and the memory. -/
def Dev.schedView (d : Dev) (c : Nat) : SMap CoreChk × List PRead × List PWrite × List (Nat × Nat) × Mem :=
  (d.cw.cores, (d.vol c).reads, (d.vol c).writes, (d.vol c).retry, d.mem)

theorem Dev.schedView_setVol (d : Dev) (c : Nat) (v : CoreVol) :
    (d.setVol c v).schedView c = (d.cw.cores, v.reads, v.writes, v.retry, d.mem) := by
  simp only [Dev.schedView, Dev.vol_setVol_same]
  rfl

theorem Dev.schedView_bump (d : Dev) (c a n : Nat) : (d.bump a n).schedView c = d.schedView c := rfl

theorem Dev.schedView_freeze (d : Dev) (c e at_ n : Nat) : (d.freeze e at_ n).schedView c = d.schedView c := by
  unfold Dev.freeze
  split <;> rfl

theorem Dev.schedView_occupy (d : Dev) (c : Nat) (w : Bool) (at_ : Nat) (bs : List Nat) :
    (d.occupy c w at_ bs).schedView c = d.schedView c := by
  unfold Dev.occupy
  dsimp only
  rw [Dev.schedView_freeze, Dev.schedView_bump, Dev.schedView_setVol]
  rfl

theorem Dev.schedView_arStep (d : Dev) (c now base n r : Nat) (inc : Bool) :
    (d.arStep c now base n r inc).schedView c = d.schedView c := by
  unfold Dev.arStep
  split
  · exact d.schedView_setVol ..
  · rfl

theorem Dev.schedView_corrected (d : Dev) (c : Nat) (w : Bool) (o n : Nat) :
    (d.corrected_ c w o n).schedView c = d.schedView c := by
  have hloop : ∀ e : Dev, (loopN (fun _ d => d.report
      { src := if w then 0x02 else 0x01, unit := unitOf 0 c, addr := engAddr w c o }) n e).schedView c = e.schedView c := by
    induction n with
    | zero => exact fun _ => rfl
    | succ n ih =>
      intro e
      rw [loopN, ← ih e]
      simp only [Dev.schedView, Dev.vol, Dev.report_cw, Dev.report_mem]
  exact hloop _

theorem Dev.schedView_corrFreeze (d : Dev) (c due : Nat) : (d.corrFreeze c due).schedView c = d.schedView c := by
  unfold Dev.corrFreeze
  dsimp only
  split
  · rfl
  · rw [Dev.schedView_freeze, Dev.schedView_bump, Dev.schedView_setVol]
    rfl

/-- A read that meets no uncorrectable error leaves no byte open. -/
theorem Dev.readEcc_good (d : Dev) (c : Nat) (w : Bool) (at_ : Nat → Nat) (due : Nat) {e : Ecc} (h : e.unc = none) :
    (d.readEcc c w at_ due e).1 = [] ∧ (d.readEcc c w at_ due e).2.schedView c = d.schedView c := by
  unfold Dev.readEcc
  rw [h]
  refine ⟨rfl, ?_⟩
  dsimp only
  split
  · rw [Dev.schedView_corrFreeze, Dev.schedView_corrected]
  · exact d.schedView_corrected ..

section
variable {d e : Dev} {c : Nat} (h : e.schedView c = d.schedView c)
include h

theorem Dev.writes_of_schedView : (e.vol c).writes = (d.vol c).writes := congrArg (fun x => x.2.2.1) h
theorem Dev.retry_of_schedView : (e.vol c).retry = (d.vol c).retry := congrArg (fun x => x.2.2.2.1) h
theorem Dev.mem_of_schedView : e.mem = d.mem := congrArg (fun x => x.2.2.2.2) h
end

/-! ### The reads of a fill (R129, R158) -/

/-- Read r of a fill for each of its jobs whose format takes it. -/
def fillReads (now arr off layout stride : Nat) (js : List (Nat × Job)) (r : Nat) : List PRead :=
  (js.filter (fun p => decide (r < fillCount p.2.w layout))).map (fun p =>
    { at_ := now + r, kind := fillKind arr p.1 off layout stride r })

/-- A fill appends its reads, and changes nothing else of what scheduled accesses see. -/
theorem Dev.schedView_fillSched (d : Dev) (c now arr off layout stride : Nat) (js : List (Nat × Job)) {es : List Ecc}
    (hes : ∀ e ∈ es, e.unc = none) (n : Nat) :
    (d.fillSched c now arr off layout stride js es n).schedView c =
      (d.cw.cores, (d.vol c).reads ++ (List.range n).flatMap (fillReads now arr off layout stride js), (d.vol c).writes,
        (d.vol c).retry, d.mem) := by
  unfold Dev.fillSched
  induction n with
  | zero => simp [Dev.schedView]
  | succ n ih =>
    rw [List.range_succ, List.foldl_append, List.foldl_cons, List.foldl_nil]
    generalize (List.range n).foldl _ d = e at ih ⊢
    have hgood : (es.getD n {}).unc = none := by
      rw [List.getD_eq_getElem?_getD]
      cases hn : es[n]? with
      | none => rfl
      | some x => exact hes x (List.mem_of_getElem? hn)
    dsimp only
    obtain ⟨hopen, hview⟩ := (e.occupy c false (now + n)
      ((fillGrans off layout stride n).map (fun g => tileBank (g / 16)))).readEcc_good c false
      (fun g => (fillGrans off layout stride n).getD g 0) (now + n + 8) hgood
    rw [hopen]
    rw [Dev.schedView_occupy, ih] at hview
    simp only [Dev.schedView, Prod.mk.injEq] at hview
    obtain ⟨hcores, hreads, hwrites, hretry, hmem⟩ := hview
    rw [Dev.schedView_setVol, hcores, hreads, hwrites, hretry, hmem, List.flatMap_append, ← List.append_assoc]
    simp [fillReads]

/-! ### The jobs of a fill (R295, R296) -/

/-- The pending jobs of a fill's targets, with their halves. -/
def CoreChk.fillJobs (k : CoreChk) (arr half : Nat) : List (Nat × Job) :=
  (k.targets (2 ^ arr) half).filterMap (fun t => t.2.bind (fun h => (k.tgt (tgtNo arr h)).pend.map (fun j => (h, j))))

theorem bitOf_two_pow : ∀ arr < 4, ∀ a < 4, bitOf (2 ^ arr) a = true → a = arr := by decide

/-- The targets of one array name that array. -/
theorem CoreChk.fst_of_mem_targets {k : CoreChk} {arr half : Nat} (harr : arr < 4) {x : Nat × Option Nat}
    (hx : x ∈ k.targets (2 ^ arr) half) : x.1 = arr := by
  obtain ⟨a, ha, hxa⟩ := List.mem_flatMap.1 hx
  obtain ⟨hlt, hbit⟩ := List.mem_filter.1 ha
  have hxa : x.1 = a := by
    split at hxa
    · split at hxa
      · rcases List.mem_pair.1 hxa with rfl | rfl <;> rfl
      · rw [List.mem_singleton.1 hxa]
    · rw [List.mem_singleton.1 hxa]
  exact hxa.trans (bitOf_two_pow arr harr a (List.mem_range.1 hlt) hbit)

theorem CoreChk.mem_fillJobs {k : CoreChk} {arr half : Nat} {p : Nat × Job} :
    p ∈ k.fillJobs arr half ↔
      ∃ x ∈ k.targets (2 ^ arr) half, x.2 = some p.1 ∧ (k.tgt (tgtNo arr p.1)).pend = some p.2 := by
  simp only [CoreChk.fillJobs, List.mem_filterMap, Option.bind_eq_some_iff, Option.map_eq_some_iff]
  constructor
  · rintro ⟨x, hx, h, hh, j, hj, rfl⟩
    exact ⟨x, hx, hh, hj⟩
  · rintro ⟨x, hx, hh, hj⟩
    exact ⟨x, hx, p.1, hh, p.2, hj, rfl⟩

/-- A number lies below a maximum over a list where it lies below one of the values. -/
theorem lt_foldl_max {α : Type} (f : α → Nat) (l : List α) (b r : Nat) :
    r < l.foldl (fun m x => max m (f x)) b ↔ r < b ∨ ∃ x ∈ l, r < f x := by
  induction l generalizing b with
  | nil => simp
  | cons y l ih =>
    rw [List.foldl_cons, ih]
    simp [or_assoc]

/-! ### A FILL that is taken (R129, R131, R295) -/

@[simp] theorem hitsTgt_zero (arr half : Nat) : hitsTgt 0 arr half = false := by
  simp [hitsTgt, bitOf, bits]

/-- Whether a job's reads lie in the powered tile plane, of a COLUMN in its lines (R154, R155). -/
def Dev.fillFits (d : Dev) (c off layout stride : Nat) (j : Job) : Prop :=
  (layout = 0 ∨ off / 16 % 64 + fillCount j.w layout ≤ 64) ∧
    ∀ r < fillCount j.w layout, ∀ a ∈ fillGrans off layout stride r, a + 16 ≤ planeSize false ∧ d.powered c false a = true

/-- The length of the longest fill of some jobs. -/
def fillLen (layout : Nat) (js : List (Nat × Job)) : Nat := js.foldl (fun m p => max m (fillCount p.2.w layout)) 0

theorem lt_fillLen {layout r : Nat} {js : List (Nat × Job)} :
    r < fillLen layout js ↔ ∃ p ∈ js, r < fillCount p.2.w layout :=
  (lt_foldl_max (fun p : Nat × Job => fillCount p.2.w layout) js 0 r).trans (by simp)

section
variable {d : Dev} {c off layout stride : Nat} {js : List (Nat × Job)} (hfit : ∀ p ∈ js, d.fillFits c off layout stride p.2)
include hfit

theorem Dev.fillInRange_of_fits : fillInRange off layout stride (fillLen layout js) = true := by
  simp only [fillInRange, Bool.and_eq_true, Bool.or_eq_true, List.all_eq_true, decide_eq_true_eq, List.mem_range]
  refine ⟨fun r hr a ha => ?_, ?_⟩
  · obtain ⟨p, hp, hrp⟩ := lt_fillLen.1 hr
    exact ((hfit p hp).2 r hrp a ha).1
  · by_contra hcol
    obtain ⟨hlay, hlines⟩ := not_or.1 hcol
    obtain ⟨p, hp, hlong⟩ := lt_fillLen.1 (show 64 - off / 16 % 64 < fillLen layout js by omega)
    have := (hfit p hp).1.resolve_left hlay
    omega

theorem Dev.powered_of_fits {r g : Nat} (hr : r < fillLen layout js) (hg : g ∈ fillGrans off layout stride r) :
    d.powered c false g = true := by
  obtain ⟨p, hp, hrp⟩ := lt_fillLen.1 hr
  exact ((hfit p hp).2 r hrp g hg).2
end

theorem Dev.powered_arStep (d : Dev) (c now base n r : Nat) (inc w : Bool) (off : Nat) :
    (d.arStep c now base n r inc).powered c w off = d.powered c w off := by
  unfold Dev.arStep
  split <;> rfl

/-- The completion of a job's shadow fill noted at its target (R129). -/
def Dev.noteFill (d : Dev) (c now arr : Nat) (p : Nat × Job) : Dev :=
  d.modTgt c (tgtNo arr p.1) (fun t => { t with fillEnd := now + fillCycles p.2.w })

/-- The shadow fill of some jobs issued: their reads scheduled, their completions noted. -/
def Dev.fillIssue (d : Dev) (c now arr off layout stride : Nat) (js : List (Nat × Job)) (es : List Ecc) : Dev :=
  js.foldl (fun d p => d.noteFill c now arr p) (d.fillSched c now arr off layout stride js es (fillLen layout js))

/-- Whether every target of a fill has a pending job that no swap holds back, whose reads lie in the powered plane. -/
def Dev.fillReady (d : Dev) (c arr half off layout stride : Nat) : Prop :=
  ∀ x ∈ (d.core c).targets (2 ^ arr) half, ∃ h j, x.2 = some h ∧ ((d.core c).tgt (tgtNo arr h)).pend = some j ∧
    ((d.core c).tgt (tgtNo arr h)).swapAt = none ∧ d.fillFits c off layout stride j

section
variable {d : Dev} {c arr half off layout stride : Nat} (hready : d.fillReady c arr half off layout stride)
include hready

theorem Dev.length_fillJobs : ((d.core c).fillJobs arr half).length = ((d.core c).targets (2 ^ arr) half).length :=
  List.filterMap_length_eq_length.2 fun x hx => by
    obtain ⟨h, j, hh, hj, -⟩ := hready x hx
    simp [hh, hj]

theorem Dev.fillJobs_ready {q : Nat × Job} (hq : q ∈ (d.core c).fillJobs arr half) :
    ((d.core c).tgt (tgtNo arr q.1)).swapAt = none ∧ d.fillFits c off layout stride q.2 := by
  obtain ⟨x, hx, hh, hj⟩ := CoreChk.mem_fillJobs.1 hq
  obtain ⟨h, j, hh', hj', hswap, hfit⟩ := hready x hx
  obtain rfl : q.1 = h := Option.some.inj (hh.symm.trans hh')
  obtain rfl : q.2 = j := Option.some.inj (hj.symm.trans hj')
  exact ⟨hswap, hfit⟩
end

/-- A FILL whose targets are ready starts their jobs' shadow fills. -/
theorem fillOp_of_ready {d e : Dev} {c cyc now arr half base off layout stride : Nat} {inc : Bool} {es : List Ecc}
    (hrun : d.runs c cyc = true) (hnow : d.absCyc c cyc = now) (he : (d.sync c now).issued c cyc = e)
    (hoff : localOff false ((e.core c).addr base 0 false) = some off) (hready : e.fillReady c arr half off layout stride) :
    fillOp c cyc arr half base inc layout stride es 0 d =
      ((e.arStep c now base 1 0 inc).fillIssue c now arr off layout stride ((e.core c).fillJobs arr half) es).sync c now := by
  have hfit := fun q hq => (Dev.fillJobs_ready hready (q := q) hq).2
  unfold fillOp Dev.bundleOp
  rw [if_pos hrun]
  dsimp only
  rw [hnow, he]
  refine (if_neg (Dev.length_fillJobs hready).not_lt).trans ?_
  rw [hoff]
  refine (if_neg fun hany => ?_).trans <| (if_neg fun hrange => ?_).trans <| (if_neg fun hany => ?_).trans ?_
  · obtain ⟨p, hp, hlate⟩ := List.any_eq_true.1 hany
    rw [(Dev.fillJobs_ready hready hp).1] at hlate
    cases hlate
  · exact absurd (Dev.fillInRange_of_fits hfit) (Bool.eq_false_iff.1 hrange)
  · obtain ⟨r, hr, hg⟩ := List.any_eq_true.1 hany
    obtain ⟨g, hg, hoffPower⟩ := List.any_eq_true.1 hg
    rw [Dev.powered_arStep, Dev.powered_of_fits hfit (List.mem_range.1 hr) hg] at hoffPower
    cases hoffPower
  · simp only [hitsTgt_zero, Bool.false_eq_true, if_false, List.foldl_fixed]
    rfl

@[simp] theorem CoreChk.tgt_setTgt_same (k : CoreChk) (i : Nat) (t : Tgt) : (k.setTgt i t).tgt i = t :=
  smGet_smSet_same ..

theorem CoreChk.tgt_setTgt_ne (k : CoreChk) {i n : Nat} (t : Tgt) (h : n ≠ i) : (k.setTgt i t).tgt n = k.tgt n :=
  smGet_smSet_ne _ _ _ h

theorem Dev.core_noteFill (d : Dev) (c now arr : Nat) (p : Nat × Job) :
    (d.noteFill c now arr p).core c = (d.core c).setTgt (tgtNo arr p.1)
      { (d.core c).tgt (tgtNo arr p.1) with fillEnd := now + fillCycles p.2.w } := Dev.core_setCore_same ..

/-- The completion noted at a target of which every job has one format. -/
theorem Dev.fillEnd_foldl {c now arr i w : Nat} {js : List (Nat × Job)} (hw : ∀ q ∈ js, tgtNo arr q.1 = i → q.2.w = w)
    (d : Dev) (h : (∃ q ∈ js, tgtNo arr q.1 = i) ∨ ((d.core c).tgt i).fillEnd = now + fillCycles w) :
    (((js.foldl (fun d p => d.noteFill c now arr p) d).core c).tgt i).fillEnd = now + fillCycles w := by
  induction js generalizing d with
  | nil => simpa using h
  | cons p js ih =>
    refine ih (fun q hq => hw q (List.mem_cons_of_mem p hq)) _ ?_
    rw [Dev.core_noteFill]
    by_cases hp : tgtNo arr p.1 = i
    · rw [hp, CoreChk.tgt_setTgt_same, hw p List.mem_cons_self hp]
      exact Or.inr rfl
    · rw [CoreChk.tgt_setTgt_ne _ _ (Ne.symm hp)]
      exact h.imp_left fun ⟨q, hq, hqi⟩ => ⟨q, (List.mem_cons.1 hq).resolve_left (fun hqp => hp (hqp ▸ hqi)), hqi⟩

theorem Dev.vol_foldl_noteFill (d : Dev) (c now arr e : Nat) (js : List (Nat × Job)) :
    (js.foldl (fun d p => d.noteFill c now arr p) d).vol e = d.vol e :=
  foldl_proj (fun d p => Dev.noteFill d c now arr p) (fun d : Dev => d.vol e) (fun _ _ => rfl) js d

theorem Dev.mem_foldl_noteFill (d : Dev) (c now arr : Nat) (js : List (Nat × Job)) :
    (js.foldl (fun d p => d.noteFill c now arr p) d).mem = d.mem :=
  foldl_proj (fun d p => Dev.noteFill d c now arr p) Dev.mem (fun _ _ => rfl) js d

/-! ### What a started fill leaves -/

section
variable {d : Dev} {c now arr off layout stride : Nat} {js : List (Nat × Job)} {es : List Ecc} (hes : ∀ e ∈ es, e.unc = none)
  (hd : d.cameTo c now)
include hes hd

/-- What a fill issues lies ahead of its core, beside the reads of its own cycle. -/
theorem Dev.cameTo_fillIssue : (d.fillIssue c now arr off layout stride js es).cameTo c now := by
  have hview := d.schedView_fillSched c now arr off layout stride js hes (fillLen layout js)
  simp only [Dev.schedView, Prod.mk.injEq] at hview
  obtain ⟨-, -, hwrites, hretry, -⟩ := hview
  rw [Dev.cameTo, Dev.fillIssue, Dev.vol_foldl_noteFill, hwrites, hretry]
  exact hd

theorem Dev.sync_fillIssue : (d.fillIssue c now arr off layout stride js es).sync c now =
    (d.fillIssue c now arr off layout stride js es).settle c now := Dev.sync_of_cameTo (Dev.cameTo_fillIssue hes hd)

theorem Dev.mem_sync_fillIssue : ((d.fillIssue c now arr off layout stride js es).sync c now).mem = d.mem := by
  rw [Dev.sync_fillIssue hes hd, Dev.mem_settle (Dev.cameTo_fillIssue hes hd).1, Dev.fillIssue, Dev.mem_foldl_noteFill]
  exact congrArg (fun x => x.2.2.2.2) (d.schedView_fillSched c now arr off layout stride js hes (fillLen layout js))

/-- The reads of a fill after the first stand ahead of its core. -/
theorem Dev.mem_reads_sync_fillIssue {h r : Nat} {j : Job} (hj : (h, j) ∈ js) (h0 : 0 < r) (hr : r < fillCount j.w layout) :
    { at_ := now + r, kind := fillKind arr h off layout stride r } ∈
      (((d.fillIssue c now arr off layout stride js es).sync c now).vol c).reads := by
  have hreads := congrArg (fun x => x.2.1) (d.schedView_fillSched c now arr off layout stride js hes (fillLen layout js))
  rw [Dev.sync_fillIssue hes hd, Dev.reads_settle, Dev.fillIssue, Dev.vol_foldl_noteFill]
  simp only [Dev.schedView] at hreads
  rw [hreads]
  refine List.mem_filter.2 ⟨List.mem_append_right _ (List.mem_flatMap.2 ⟨r, ?_, ?_⟩), by simpa using h0⟩
  · exact List.mem_range.2 (lt_fillLen.2 ⟨_, hj, hr⟩)
  · exact List.mem_map.2 ⟨_, List.mem_filter.2 ⟨hj, by simpa using hr⟩, rfl⟩

/-- Where one job alone loads a target, its fill completes by its weight format (R129). -/
theorem Dev.fillEnd_sync_fillIssue {h : Nat} {j : Job} (hj : (h, j) ∈ js)
    (hone : ∀ q ∈ js, tgtNo arr q.1 = tgtNo arr h → q.2 = j) :
    ((((d.fillIssue c now arr off layout stride js es).sync c now).core c).tgt (tgtNo arr h)).fillEnd = now + fillCycles j.w := by
  rw [Dev.sync_fillIssue hes hd, CoreChk.tgt, Dev.tgts_settle]
  exact Dev.fillEnd_foldl (fun q hq hqi => congrArg Job.w (hone q hq hqi)) _ (Or.inl ⟨_, hj, rfl⟩)
end

/-! ### The command FILL -/

@[simp] theorem Dev.vol_issued (d : Dev) (c cyc e : Nat) : (d.issued c cyc).vol e = d.vol e := rfl

/-- An operation of a bundle finds its core come to its cycle, and so does what the step of its address register leaves. -/
theorem Dev.cameTo_issued (d : Dev) (c cyc now base n r : Nat) (inc : Bool) :
    (((d.sync c now).issued c cyc).arStep c now base n r inc).cameTo c now := by
  have hview := ((d.sync c now).issued c cyc).schedView_arStep c now base n r inc
  rw [Dev.cameTo, Dev.writes_of_schedView hview, Dev.retry_of_schedView hview, Dev.vol_issued]
  exact d.cameTo_sync c now

theorem exec_fill {s : State} {p : At} {g : Gate} {array half : BitVec 2} {base : BitVec 5} {inc layout : Bool}
    {stride : BitVec 7} {ecc : List Ecc} {bad : BitVec 2}
    (h : s.dev.executes (.fill p g array half base inc layout stride ecc bad) = true) :
    exec (.fill p g array half base inc layout stride ecc bad) s = .next { s with
      dev := s.dev.commit { cw := true, lg := true, mem := true }
        (fillOp p.core.val p.cyc array.toNat half.toNat base.toNat inc (b2n layout) (stride.toNat + 1) ecc bad.toNat
          (s.dev.pstoreCorr p.core.val p.cyc p.corr)) } := by
  change State.run s _ (fun d => d.coreStep (.fill p g array half base inc layout stride ecc bad) _) = _
  rw [State.run, Dev.coreStep_fetched rfl (Dev.executes_cases rfl h).1]
  rfl

theorem b2n_eq_zero_or_one (b : Bool) : b2n b = 0 ∨ b2n b = 1 := by cases b <;> decide

/-- What an operation of a bundle finds is its core brought to its cycle (R158), its cycle noted (R305). -/
theorem Dev.issued_sync_eq (d : Dev) (p : At) :
    ((d.pstoreCorr p.core.val p.cyc p.corr).sync p.core.val (d.cycleOf p)).issued p.core.val p.cyc =
      (d.brought p).setCrew (p.core.val / 8) { (d.brought p).crew (p.core.val / 8) with late := some p.cyc } := rfl

theorem Dev.absCyc_pstoreCorr (d : Dev) (p : At) :
    (d.pstoreCorr p.core.val p.cyc p.corr).absCyc p.core.val p.cyc = d.cycleOf p := by
  simp only [Dev.cycleOf, Dev.absCyc, Dev.crew, Dev.pstoreCorr_cw]

end Sys2Proof.Machine

open Sys2Proof Sys2Proof.Machine

/-- Settles O22: a FILL that is taken schedules its reads behind those that the core has ahead, and the passage of its own
cycle makes the first of them alone. -/
theorem fillSchedulesItsReads : Obligations.FillSchedulesItsReads := by
  intro s p g array half base inc layout stride ecc off c d now k lay st ts hexec hes hoff hready
  have hrun : (s.dev.pstoreCorr c p.cyc p.corr).runs c p.cyc = true := by
    rw [Dev.runs_pstoreCorr]
    exact (Dev.executes_cases rfl hexec).2
  have hnow : (s.dev.pstoreCorr c p.cyc p.corr).absCyc c p.cyc = now := s.dev.absCyc_pstoreCorr p
  have hcame := (s.dev.pstoreCorr c p.cyc p.corr).cameTo_issued c p.cyc now base.toNat 1 0 inc
  obtain ⟨e, he⟩ : ∃ e, ((s.dev.pstoreCorr c p.cyc p.corr).sync c now).issued c p.cyc = e := ⟨_, rfl⟩
  have hbrought : e = d.setCrew (c / 8) { d.crew (c / 8) with late := some p.cyc } := he.symm.trans (s.dev.issued_sync_eq p)
  have hcore : e.core c = k := by rw [hbrought, Dev.core_setCrew]
  have hreg : e.reg = d.reg := by rw [hbrought, Dev.setCrew_reg]
  have hmem : e.mem = d.mem := by rw [hbrought, Dev.setCrew_mem]
  rw [he] at hcame
  clear_value d now
  have harr : ∀ x ∈ ts, x.1 = array.toNat := fun x hx => CoreChk.fst_of_mem_targets array.isLt hx
  have hfillReady : e.fillReady c array.toNat half.toNat off lay st := by
    unfold Dev.fillReady
    rw [hcore]
    intro x hx
    obtain ⟨h, j, hh, hj, hswap, hlines, hgrans⟩ := hready x hx
    rw [harr x hx] at hj hswap
    refine ⟨h, j, hh, hj, hswap, (b2n_eq_zero_or_one layout).imp_right hlines, ?_⟩
    simpa only [Dev.powered, Dev.rd, hreg] using hgrans
  have hfill := fillOp_of_ready (inc := inc) (es := ecc) hrun hnow he (hcore ▸ hoff) hfillReady
  refine ⟨_, (exec_fill hexec).trans (congrArg (fun n => Host.Outcome.next
    { s with dev := s.dev.commit { cw := true, lg := true, mem := true } n }) hfill), ?_, ?_⟩
  · rw [Dev.commit_mem]
    exact (Dev.mem_sync_fillIssue hes hcame).trans ((Dev.mem_of_schedView (e.schedView_arStep ..)).trans hmem)
  · intro x hx h j hh hj
    rw [harr x hx] at hj ⊢
    have hjob : (h, j) ∈ (e.core c).fillJobs array.toNat half.toNat := by
      rw [hcore]
      exact CoreChk.mem_fillJobs.2 ⟨x, hx, hh, hj⟩
    rw [Dev.core_commit _ _ _ _ rfl, Dev.vol_commit _ _ _ _ rfl]
    have hone : ∀ q ∈ (e.core c).fillJobs array.toNat half.toNat,
        tgtNo array.toNat q.1 = tgtNo array.toNat h → q.2 = j := by
      intro q hq hqt
      obtain ⟨-, -, -, hpend⟩ := CoreChk.mem_fillJobs.1 hq
      rw [hqt, hcore] at hpend
      exact Option.some.inj (hpend.symm.trans hj)
    exact ⟨Dev.fillEnd_sync_fillIssue hes hcame hjob hone, fun r h0 hr => Dev.mem_reads_sync_fillIssue hes hcame hjob h0 hr⟩
end

section
/-! SUPPORT. A wave that a rollback has overtaken, and how it lands (R126, R352). -/
namespace Sys2Proof.Machine

/-- The job of entry 127 of array 3. -/
def tagJob : Job := { no := 9 }

/-- A wave of that job in flight, for column 0 of the entry, due in cycle 5. -/
def flyingWave : Wave :=
  { due := 5, arr := 3, half := 0, entry := 127, add := false, vals := [(0, 8)], jobs := [tagJob] }

/-- An operational device after a rollback that has overtaken the wave, so that it lands as a dummy wave (R352); the
checkpoint's entry is the job's. -/
def waveOvertaken : State :=
  { State.reset with
    dev :=
      { State.reset.dev with
        tm := { State.reset.dev.tm with op := true }
        bt := { State.reset.dev.bt with placed := true, locked := true }
        cw :=
          { State.reset.dev.cw with
            cores := [(0, { tag := [(256 * 3 + 127, some tagJob)] })]
            vol := [(0, CoreVol.rolled { waves := [flyingWave] })] } } }

theorem waveOvertaken_inv : waveOvertaken.inv = true := by decide +kernel

/-- The wave lands and the entry is still its job's: a dummy wave changes nothing of it. -/
theorem waveLand_overtaken : ∃ t, exec (.waveLand 0 5 0 0 false) waveOvertaken = .next t ∧
    smGet (fun _ => none) (t.dev.core 0).tag (256 * 3 + 127) = some tagJob := ⟨_, rfl, by decide +kernel⟩

end Sys2Proof.Machine

open Sys2Proof Sys2Proof.Machine

/-- Refutes O24: a wave that a rollback has overtaken is in flight without its jobs and lands as a dummy wave (R352), so the
entry goes on remembering the job that it had, where the statement has it remember the wave's (none). -/
theorem not_wavesLand : ¬ Obligations.WavesLand := by
  intro h
  obtain ⟨t, hexec, -, -, -, htag⟩ := h waveOvertaken 0 5 { flyingWave with vals := [], jobs := [], dummy := true }
    (by decide +kernel) (by decide +kernel) (by decide)
  obtain ⟨t', hexec', hkept⟩ := waveLand_overtaken
  obtain rfl : t = t' := Host.Outcome.next.inj (hexec.symm.trans hexec')
  have hnone : smGet (fun _ => none) (t.dev.core 0).tag (256 * 3 + 127) = none := htag 0 (Or.inl ⟨rfl, by decide⟩)
  exact absurd (hkept.symm.trans hnone) (by decide)
end

section
/-! SUPPORT. The passage of schedule cycles (R158, R162, R170): what of the device it leaves as it is, and on what of the device
its effect at the planes depends. -/

namespace Sys2Proof.Machine

/-! ### Reports that are not device-fatal (R350, R351) -/

/-- What no step of a loop changes. -/
theorem loopN_proj {α γ : Type} (f : Nat → α → α) (g : α → γ) (h : ∀ n x, g (f n x) = g x) (n : Nat) (x : α) :
    g (loopN f n x) = g x := by
  induction n with
  | zero => rfl
  | succ n ih => rw [loopN, h, ih]

/-- The counters in which a report counts that is not device-fatal (R351). -/
def reportCtrs : List Nat := [FLT_CORRECTED, FLT_RECOVERABLE, FLT_ACCEL_FATAL]

theorem fltClass_of_lt {src : Nat} (h : src < 0x30) : fltClass src = 1 ∨ fltClass src = 2 ∨ fltClass src = 3 := by
  unfold fltClass
  split
  · exact Or.inl rfl
  split
  · exact Or.inr (Or.inl rfl)
  · exact Or.inr (Or.inr rfl)

/-- A report that is not device-fatal writes no register and counts in the fault controller alone. -/
theorem Dev.report_of_lt (d : Dev) {r : FltRep} (h : r.src < 0x30) :
    (d.report r).reg.regs = d.reg.regs ∧ ∀ a ∉ reportCtrs, (d.report r).ctr a = d.ctr a := by
  have hcount : ∀ (e : Dev) b m, b ∈ reportCtrs → ((e.bump b).mon m).reg.regs = e.reg.regs ∧
      ∀ a ∉ reportCtrs, ((e.bump b).mon m).ctr a = e.ctr a := fun e b m hb =>
    ⟨by simp, fun a ha => (Dev.ctr_congr (Dev.mon_reg ..) a).trans (e.ctr_bump_ne 1 fun hab => ha (hab ▸ hb))⟩
  unfold Dev.report
  split
  · exact hcount _ _ _ (by simp [reportCtrs])
  · dsimp only
    split
    · obtain ⟨hregs, hctr⟩ := hcount (d.bump FLT_RECOVERABLE) FLT_ACCEL_FATAL (.fault 3 0x24) (by simp [reportCtrs])
      exact ⟨hregs, fun a ha => (hctr a ha).trans (d.ctr_bump_ne 1 fun hab => ha (by simp [hab, reportCtrs]))⟩
    · exact hcount _ _ _ (by simp [reportCtrs])
  · exact hcount _ _ _ (by simp [reportCtrs])
  · next h1 h2 h3 =>
    rcases fltClass_of_lt h with hcls | hcls | hcls
    · exact absurd hcls h1
    · exact absurd hcls h2
    · exact absurd hcls h3

theorem Dev.report_regs (d : Dev) {r : FltRep} (h : r.src < 0x30) : (d.report r).reg.regs = d.reg.regs := (d.report_of_lt h).1

theorem Dev.rd_report (d : Dev) {r : FltRep} (h : r.src < 0x30) (a : Nat) : (d.report r).rd a = d.rd a := by
  rw [Dev.rd, d.report_regs h]
  rfl

theorem Dev.ctr_report_of_lt (d : Dev) {r : FltRep} (h : r.src < 0x30) {a : Nat} (ha : a ∉ reportCtrs) :
    (d.report r).ctr a = d.ctr a := (d.report_of_lt h).2 a ha

/-- Counters below those of the fault controller. -/
theorem notMem_reportCtrs {a : Nat} (h : a < 0x90A00) : a ∉ reportCtrs := by
  simp only [reportCtrs, FLT_CORRECTED, FLT_RECOVERABLE, FLT_ACCEL_FATAL, List.mem_cons, List.not_mem_nil, or_false]
  omega

/-! ### What the passage of cycles leaves -/

/-- The registers in which an access at a plane of one of the 32 cores leaves a fault (R181, R222). -/
def faultReg (a : Nat) : Prop :=
  ∃ c < 32, a = TP_CORE_FAULT c ∨ a = TP_CORE_FAULT_ADDR c ∨ a = CS_CREW_FAULT (c / 8)

/-- What the passage of schedule cycles at a core leaves as it is: the image's segments, the stroke, the crews, the order of
arrival, the started descriptors, the place of the patrol scrub, the registers but for those of faults, and the counters
of the planes. -/
def Dev.steady (d : Dev) : BootSt × Stroke × SMap CrewVol × Nat × (Nat → List GsAct) × (Nat → Nat × Nat) ×
    ({a // ¬ faultReg a} → Word) × (Fin 0x20000 → Ctr) :=
  (d.bt, d.tm.stroke, d.cw.crews, d.cw.arrivals, fun k => (d.core k).acts, fun k => ((d.vol k).scrubT, (d.vol k).scrubW),
    fun a => d.rd a.1, fun a => d.ctr (0x50000 + a))

section
variable {d e : Dev} (h : e.steady = d.steady)
include h

theorem Dev.bt_of_steady : e.bt = d.bt := congrArg (fun x => x.1) h
theorem Dev.stroke_of_steady : e.tm.stroke = d.tm.stroke := congrArg (fun x => x.2.1) h
theorem Dev.crews_of_steady : e.cw.crews = d.cw.crews := congrArg (fun x => x.2.2.1) h
theorem Dev.crew_of_steady (k : Nat) : e.crew k = d.crew k := congrArg (fun m => smGet crew0 m k) (Dev.crews_of_steady h)
theorem Dev.arrivals_of_steady : e.cw.arrivals = d.cw.arrivals := congrArg (fun x => x.2.2.2.1) h
theorem Dev.opList_of_steady (k : Nat) : (e.core k).opList = (d.core k).opList :=
  congrArg (fun x => (x.2.2.2.2.1 k).flatMap (fun a => a.ops)) h
theorem Dev.scrub_of_steady (k : Nat) : ((e.vol k).scrubT, (e.vol k).scrubW) = ((d.vol k).scrubT, (d.vol k).scrubW) :=
  congrArg (fun x => x.2.2.2.2.2.1 k) h
theorem Dev.rd_of_steady {a : Nat} (ha : ¬ faultReg a) : e.rd a = d.rd a :=
  congrArg (fun x => x.2.2.2.2.2.2.1 ⟨a, ha⟩) h
theorem Dev.ctr_of_steady {a : Nat} (h0 : 0x50000 ≤ a) (h1 : a < 0x70000) : e.ctr a = d.ctr a := by
  have := congrArg (fun x => x.2.2.2.2.2.2.2 ⟨a - 0x50000, by omega⟩) h
  simpa only [Dev.steady, Nat.add_sub_cancel' h0] using this
end

theorem Dev.steady_of_cw {d e : Dev} (hbt : e.bt = d.bt) (hst : e.tm.stroke = d.tm.stroke) (hcw : e.cw = d.cw)
    (hrd : ∀ a, ¬ faultReg a → e.rd a = d.rd a) (hctr : ∀ a, 0x50000 ≤ a → a < 0x70000 → e.ctr a = d.ctr a) :
    e.steady = d.steady := by
  simp only [Dev.steady, Dev.core, Dev.vol, hbt, hst, hcw]
  rw [funext fun a : {a // ¬ faultReg a} => hrd a.1 a.2, funext fun a : Fin 0x20000 => hctr (0x50000 + a) (by omega) (by omega)]

theorem Dev.steady_foldl {α : Type} {f : Dev → α → Dev} {l : List α} (h : ∀ d, ∀ x ∈ l, (f d x).steady = d.steady)
    (d : Dev) : (l.foldl f d).steady = d.steady :=
  List.foldlRecOn (motive := fun e => e.steady = d.steady) l f rfl fun e he x hx => (h e x hx).trans he

theorem Dev.steady_report (d : Dev) {r : FltRep} (h : r.src < 0x30) : (d.report r).steady = d.steady :=
  Dev.steady_of_cw (d.report_bt r) (d.report_tm_stroke r) (d.report_cw r) (fun a _ => d.rd_report h a)
    fun _ _ h1 => d.ctr_report_of_lt h (notMem_reportCtrs (by omega))

theorem Dev.steady_bump (d : Dev) {a : Nat} (n : Nat) (h : a < 0x50000 ∨ 0x70000 ≤ a) : (d.bump a n).steady = d.steady :=
  Dev.steady_of_cw rfl rfl rfl (fun _ _ => rfl) fun _ _ _ => d.ctr_bump_ne n (by omega)

theorem Dev.steady_hw (d : Dev) {a : Nat} (v : Word) (h : faultReg a) : (d.hw a v).steady = d.steady :=
  Dev.steady_of_cw rfl rfl rfl (fun _ hb => d.rd_hw_ne v fun hab => hb (hab ▸ h)) fun _ _ _ => rfl

theorem Dev.steady_setCore (d : Dev) {c : Nat} {k : CoreChk} (h : k.acts = (d.core c).acts) :
    (d.setCore c k).steady = d.steady := by
  have hacts : (fun e => ((d.setCore c k).core e).acts) = fun e => (d.core e).acts := funext fun e => by
    by_cases he : e = c
    · rw [he, Dev.core_setCore_same, h]
    · rw [Dev.core_setCore_ne _ _ he]
  unfold Dev.steady
  rw [hacts]
  rfl

theorem Dev.steady_setVol (d : Dev) {c : Nat} {v : CoreVol} (ht : v.scrubT = (d.vol c).scrubT)
    (hw : v.scrubW = (d.vol c).scrubW) : (d.setVol c v).steady = d.steady := by
  have hscrub : (fun e => (((d.setVol c v).vol e).scrubT, ((d.setVol c v).vol e).scrubW)) =
      fun e => ((d.vol e).scrubT, (d.vol e).scrubW) := funext fun e => by
    by_cases he : e = c
    · rw [he, Dev.vol_setVol_same, ht, hw]
    · rw [Dev.vol_setVol_ne _ _ he]
  unfold Dev.steady
  rw [hscrub]
  rfl

theorem Dev.steady_aowStat (d : Dev) {c : Nat} (hc : c < 32) (v : Bool) (st : FStat) : (d.aowStat c v st).steady = d.steady := by
  unfold Dev.aowStat
  split
  · iterate 3 rw [Dev.steady_bump _ _ (by simp only [CO_CTR_SAT, CO_CTR_NAN, CO_CTR_IN_INF]; omega)]
  · iterate 3 rw [Dev.steady_bump _ _ (by simp only [MA_SAT, MA_NAN, MA_IN_INF]; omega)]

section
variable {c : Nat} (hc : c < 32)
include hc

theorem Dev.steady_tpFault (d : Dev) (b : Nat) (w : Bool) (o r : Nat) {s : Nat} (hs : s < 0x30) :
    (d.tpFault c b w o r s).steady = d.steady := by
  unfold Dev.tpFault
  dsimp only
  rw [Dev.steady_report _ hs, Dev.hwOr, Dev.steady_hw _ _ ⟨c, hc, Or.inl rfl⟩]
  split
  · exact d.steady_hw _ ⟨c, hc, Or.inr (Or.inl rfl)⟩
  · rfl

theorem Dev.steady_journalFull (d : Dev) (w : Bool) (o : Nat) : (d.journalFull c w o).steady = d.steady :=
  (Dev.steady_report _ (by simp)).trans (d.steady_hw _ ⟨c, hc, Or.inr (Or.inr rfl)⟩)

omit hc in
theorem Dev.steady_journal {d e : Dev} {off n : Nat} {w : Bool} (h : d.journal c w off n = some e) : e.steady = d.steady := by
  unfold Dev.journal at h
  split at h
  · rw [Option.some.inj h]
  · dsimp only at h
    split at h
    · cases h
    · rw [← Option.some.inj h]
      exact Dev.steady_setVol _ rfl rfl

theorem Dev.steady_planeWrite (d : Dev) (w : Bool) (off : Nat) (bs : List Byte) (aow : Nat) (v : Bool) :
    (d.planeWrite c w off bs aow v).steady = d.steady := by
  unfold Dev.planeWrite
  dsimp only
  split
  · rfl
  split
  · exact Dev.steady_tpFault hc _ _ _ _ _ (by decide)
  split
  · exact Dev.steady_tpFault hc _ _ _ _ _ (by decide)
  split
  · exact Dev.steady_journalFull hc ..
  next e he =>
  rw [← Dev.steady_journal he]
  split
  · rfl
  · exact Dev.steady_aowStat _ hc ..

omit hc in
theorem Dev.steady_doRead (d : Dev) (q : PRead) : (d.doRead c q).steady = d.steady := by
  unfold Dev.doRead
  dsimp only
  split
  all_goals exact Dev.steady_setVol _ (by simp only [CoreVol.fillRows]) (by simp only [CoreVol.fillRows])

omit hc in
theorem CoreChk.setReg_acts (k : CoreChk) (r : Nat) (v : Word) : (k.setReg r v).acts = k.acts := by
  unfold CoreChk.setReg
  repeat' split
  all_goals rfl

theorem Dev.steady_settle (d : Dev) (now : Nat) : (d.settle c now).steady = d.steady := by
  unfold Dev.settle
  extract_lets v k res ups cups ws rs k' k'' v' d' evs
  have hk : k''.acts = (d.core c).acts := foldl_proj _ CoreChk.acts (fun k x => k.setReg_acts ..) ups k
  have hd : d'.steady = d.steady := (Dev.steady_setVol _ (by simp [v', v]) (by simp [v', v])).trans (d.steady_setCore hk)
  rw [← hd]
  refine Dev.steady_foldl (fun d x _ => ?_) d'
  split
  · exact d.steady_planeWrite hc ..
  · exact d.steady_doRead ..
  · rfl

omit hc in
theorem Dev.steady_markFull (d : Dev) (n s e : Nat) : (d.markFull c n s e).steady = d.steady := Dev.steady_setCore _ rfl

theorem Dev.steady_putSlot (d : Dev) (n : Nat) (bs : List Byte) : (d.putSlot c n bs).steady = d.steady := by
  unfold Dev.putSlot
  extract_lets g k r cw r' d1 d2 cw' d3
  split
  · exact Dev.steady_tpFault hc _ _ _ _ _ (by decide)
  split
  · rfl
  have h1 : d1.steady = d.steady := Dev.steady_setCore _ rfl
  have h3 : d3.steady = d2.steady := by
    unfold d3
    split <;> rfl
  rw [Dev.steady_markFull, h3, Dev.steady_planeWrite hc, h1]

theorem Dev.steady_retryHeld (d : Dev) (n : Nat) : (d.retryHeld c n).steady = d.steady := by
  unfold Dev.retryHeld
  split
  · rfl
  split
  · rfl
  · exact Dev.steady_putSlot hc ..

theorem Dev.steady_sync (d : Dev) (now : Nat) : (d.sync c now).steady = d.steady := by
  unfold Dev.sync
  rw [← d.steady_settle hc now]
  generalize d.settle c now = e
  dsimp only
  split
  · rfl
  · rw [Dev.steady_foldl fun d x _ => d.steady_retryHeld hc x.2]
    exact Dev.steady_setVol _ rfl rfl

theorem Dev.steady_syncNow (d : Dev) : (d.syncNow c).steady = d.steady := d.steady_sync hc _
end

/-! ### On what the passage of cycles depends at the planes -/

/-- What accesses at the planes find: the registers, the crews and cores but for the place of the patrol scrub, the stroke and
the memory; no counter and nothing of the fault controller. -/
def Dev.planeView (d : Dev) : SMap Word × CrewSide × (Nat → CoreVol) × Stroke × Mem :=
  (d.reg.regs, { d.cw with vol := [] }, fun k => { d.vol k with scrubT := 0, scrubW := 0 }, d.tm.stroke, d.mem)

theorem Dev.planeView_foldl {α : Type} {f : Dev → α → Dev}
    (hf : ∀ {d e : Dev} x, e.planeView = d.planeView → (f e x).planeView = (f d x).planeView) (l : List α) {d e : Dev}
    (h : e.planeView = d.planeView) : (l.foldl f e).planeView = (l.foldl f d).planeView := by
  induction l generalizing d e with
  | nil => exact h
  | cons x r ih => exact ih (hf x h)

theorem Dev.planeView_aowStat (d : Dev) (c : Nat) (v : Bool) (st : FStat) : (d.aowStat c v st).planeView = d.planeView := by
  unfold Dev.aowStat
  split <;> rfl

theorem Dev.planeView_report (d : Dev) {r : FltRep} (h : r.src < 0x30) : (d.report r).planeView = d.planeView := by
  simp only [Dev.planeView, Dev.vol, d.report_regs h, Dev.report_cw, Dev.report_tm_stroke, Dev.report_mem]

theorem Dev.planeView_ite {p : Prop} [Decidable p] {a b a' b' : Dev} (ht : p → a'.planeView = a.planeView)
    (hf : ¬ p → b'.planeView = b.planeView) : (if p then a' else b').planeView = (if p then a else b).planeView := by
  split
  · exact ht ‹p›
  · exact hf ‹¬ p›

section
variable {d e : Dev} (h : e.planeView = d.planeView)
include h

theorem Dev.rd_of_planeView : e.rd = d.rd :=
  funext fun a => congrArg (fun m => smGet regReset m a) (congrArg (fun x => x.1) h : e.reg.regs = d.reg.regs)
theorem Dev.rf_of_planeView : e.rf = d.rf := by
  funext a lo len
  rw [Dev.rf, Dev.rd_of_planeView h]
  rfl
theorem Dev.core_of_planeView : e.core = d.core :=
  funext fun c => congrArg (fun m => smGet core0 m c) (congrArg (fun x => x.2.1.cores) h : e.cw.cores = d.cw.cores)
theorem Dev.crew_of_planeView : e.crew = d.crew :=
  funext fun k => congrArg (fun m => smGet crew0 m k) (congrArg (fun x => x.2.1.crews) h : e.cw.crews = d.cw.crews)
theorem Dev.held_of_planeView : e.cw.held = d.cw.held := congrArg (fun x => x.2.1.held) h
theorem Dev.stroke_of_planeView : e.tm.stroke = d.tm.stroke := congrArg (fun x => x.2.2.2.1) h
theorem Dev.mem_of_planeView : e.mem = d.mem := congrArg (fun x => x.2.2.2.2) h
theorem Dev.planeRead_of_planeView : e.planeRead = d.planeRead := by
  funext c w off n
  rw [Dev.planeRead, Dev.mem_of_planeView h]
  rfl
theorem Dev.vol_of_planeView (c : Nat) : ∃ t w, e.vol c = { d.vol c with scrubT := t, scrubW := w } := by
  have hv : ({ e.vol c with scrubT := 0, scrubW := 0 } : CoreVol) = { d.vol c with scrubT := 0, scrubW := 0 } :=
    congrArg (fun x => x.2.2.1 c) h
  refine ⟨(e.vol c).scrubT, (e.vol c).scrubW, ?_⟩
  exact congrArg (fun v : CoreVol => { v with scrubT := (e.vol c).scrubT, scrubW := (e.vol c).scrubW }) hv
theorem Dev.poweredAll_of_planeView : e.poweredAll = d.poweredAll := by
  unfold Dev.poweredAll
  rw [Dev.rd_of_planeView h]
theorem Dev.jrnlBlocks_of_planeView : e.jrnlBlocks = d.jrnlBlocks := by
  unfold Dev.jrnlBlocks Dev.journalled
  rw [Dev.rd_of_planeView h]
theorem Dev.writeOk_of_planeView {c off n : Nat} {w : Bool} (hw : d.writeOk c w off n) : e.writeOk c w off n := by
  unfold Dev.writeOk
  rw [Dev.poweredAll_of_planeView h, Dev.jrnlBlocks_of_planeView h]
  exact hw
theorem Dev.ringDesc_of_planeView : e.ringDesc = d.ringDesc := by
  unfold Dev.ringDesc
  rw [Dev.rf_of_planeView h]
theorem Dev.slotFull_of_planeView : e.slotFull = d.slotFull := by
  unfold Dev.slotFull
  rw [Dev.core_of_planeView h, Dev.ringDesc_of_planeView h]
theorem Dev.isWset_of_planeView : e.isWset = d.isWset := by
  unfold Dev.isWset
  rw [Dev.rf_of_planeView h]

theorem Dev.planeView_setMem (m : Mem) : ({ e with mem := m } : Dev).planeView = ({ d with mem := m } : Dev).planeView :=
  congrArg (fun x => (x.1, x.2.1, x.2.2.1, x.2.2.2.1, m)) h

theorem Dev.planeView_hw (a : Nat) (v : Word) : (e.hw a v).planeView = (d.hw a v).planeView :=
  congrArg (fun x => (smSet regReset x.1 a v, x.2)) h

theorem Dev.planeView_hwOr (a m : Nat) : (e.hwOr a m).planeView = (d.hwOr a m).planeView := by
  rw [Dev.hwOr, Dev.rd_of_planeView h]
  exact Dev.planeView_hw h ..

theorem Dev.planeView_setCore (c : Nat) (k : CoreChk) : (e.setCore c k).planeView = (d.setCore c k).planeView :=
  congrArg (fun x => (x.1, { x.2.1 with cores := smSet core0 x.2.1.cores c k }, x.2.2)) h

theorem Dev.planeView_setHeld (l : List (Nat × Nat × List Byte)) :
    ({ e with cw := { e.cw with held := l } } : Dev).planeView = ({ d with cw := { d.cw with held := l } } : Dev).planeView :=
  congrArg (fun x => (x.1, { x.2.1 with held := l }, x.2.2)) h

theorem Dev.planeView_setVol (c : Nat) {v v' : CoreVol}
    (hv : ({ v' with scrubT := 0, scrubW := 0 } : CoreVol) = { v with scrubT := 0, scrubW := 0 }) :
    (e.setVol c v').planeView = (d.setVol c v).planeView := by
  have hset : ∀ (d : Dev) (v : CoreVol), (d.setVol c v).planeView = (d.planeView.1, d.planeView.2.1,
      Function.update d.planeView.2.2.1 c { v with scrubT := 0, scrubW := 0 }, d.planeView.2.2.2) := fun d v => by
    refine Prod.ext rfl (Prod.ext rfl (Prod.ext (funext fun k => ?_) rfl))
    by_cases hk : k = c
    · subst hk
      simp [Dev.planeView]
    · simp [Dev.planeView, hk, Dev.vol_setVol_ne]
  rw [hset, hset, h, hv]

theorem Dev.planeView_tpFault (c b : Nat) (w : Bool) (o r : Nat) {s : Nat} (hs : s < 0x30) :
    (e.tpFault c b w o r s).planeView = (d.tpFault c b w o r s).planeView := by
  unfold Dev.tpFault
  dsimp only
  rw [Dev.planeView_report _ hs, Dev.planeView_report _ hs, Dev.rd_of_planeView h]
  exact Dev.planeView_hwOr (Dev.planeView_ite (fun _ => Dev.planeView_hw h ..) fun _ => h) ..

theorem Dev.planeView_journalFull (c : Nat) (w : Bool) (o : Nat) :
    (e.journalFull c w o).planeView = (d.journalFull c w o).planeView := by
  unfold Dev.journalFull
  rw [Dev.planeView_report _ (by simp), Dev.planeView_report _ (by simp)]
  exact Dev.planeView_hwOr h ..

theorem Dev.planeView_journal (c : Nat) (w : Bool) (off n : Nat) :
    (e.journal c w off n).map Dev.planeView = (d.journal c w off n).map Dev.planeView := by
  obtain ⟨t, u, hv⟩ := Dev.vol_of_planeView h c
  have hent : e.jrnlEntry c w = d.jrnlEntry c w := by
    funext b
    rw [Dev.jrnlEntry, Dev.planeRead_of_planeView h, Dev.stroke_of_planeView h]
    rfl
  unfold Dev.journal
  rw [Dev.jrnlBlocks_of_planeView h, hv, hent, Dev.mem_of_planeView h, Dev.rf_of_planeView h]
  split
  · exact congrArg some h
  dsimp only
  split
  · rfl
  · exact congrArg some (Dev.planeView_setVol (Dev.planeView_setMem h _) c rfl)

theorem Dev.planeView_planeWrite (c : Nat) (w : Bool) (off : Nat) (bs : List Byte) (aow : Nat) (v : Bool) :
    (e.planeWrite c w off bs aow v).planeView = (d.planeWrite c w off bs aow v).planeView := by
  have hj := Dev.planeView_journal h c w off bs.length
  unfold Dev.planeWrite
  rw [Dev.poweredAll_of_planeView h]
  refine Dev.planeView_ite (fun _ => h) fun _ =>
    Dev.planeView_ite (fun _ => Dev.planeView_tpFault h _ _ _ _ _ (by decide)) fun _ =>
    Dev.planeView_ite (fun _ => Dev.planeView_tpFault h _ _ _ _ _ (by decide)) fun _ => ?_
  generalize e.journal c w off bs.length = je at hj ⊢
  generalize d.journal c w off bs.length = jd at hj ⊢
  cases je with
  | none =>
    cases jd with
    | none => exact Dev.planeView_journalFull h ..
    | some d' => cases hj
  | some e' =>
    cases jd with
    | none => cases hj
    | some d' =>
      have h' : e'.planeView = d'.planeView := Option.some.inj hj
      dsimp only
      rw [Dev.mem_of_planeView h', Dev.planeRead_of_planeView h']
      refine Dev.planeView_ite (fun _ => Dev.planeView_setMem h' _) fun _ => ?_
      rw [Dev.planeView_aowStat, Dev.planeView_aowStat]
      exact Dev.planeView_setMem h' _

theorem Dev.planeView_doRead (c : Nat) (q : PRead) : (e.doRead c q).planeView = (d.doRead c q).planeView := by
  obtain ⟨t, u, hv⟩ := Dev.vol_of_planeView h c
  unfold Dev.doRead
  rw [hv, Dev.planeRead_of_planeView h]
  dsimp only
  split
  all_goals exact Dev.planeView_setVol h c rfl

theorem Dev.planeView_settle (c now : Nat) : (e.settle c now).planeView = (d.settle c now).planeView := by
  obtain ⟨t, u, hv⟩ := Dev.vol_of_planeView h c
  unfold Dev.settle
  rw [hv, Dev.core_of_planeView h]
  refine Dev.planeView_foldl (fun x h => ?_) _ (Dev.planeView_setVol (Dev.planeView_setCore h ..) c rfl)
  split
  · exact Dev.planeView_planeWrite h ..
  · exact Dev.planeView_doRead h ..
  · exact h

theorem Dev.planeView_markFull (c n s ep : Nat) : (e.markFull c n s ep).planeView = (d.markFull c n s ep).planeView := by
  unfold Dev.markFull
  rw [Dev.core_of_planeView h, Dev.ringDesc_of_planeView h, Dev.stroke_of_planeView h]
  exact Dev.planeView_setCore h ..

theorem Dev.planeView_setPushed (x : Nat × Nat × List Byte) :
    ({ e with cw := { e.cw with pushed := e.cw.pushed ++ [x] } } : Dev).planeView =
      ({ d with cw := { d.cw with pushed := d.cw.pushed ++ [x] } } : Dev).planeView :=
  congrArg (fun y => (y.1, { y.2.1 with pushed := y.2.1.pushed ++ [x] }, y.2.2)) h

theorem Dev.planeView_putSlot (c n : Nat) (bs : List Byte) : (e.putSlot c n bs).planeView = (d.putSlot c n bs).planeView := by
  unfold Dev.putSlot
  rw [Dev.ringDesc_of_planeView h, Dev.core_of_planeView h, Dev.slotFull_of_planeView h, Dev.held_of_planeView h]
  refine Dev.planeView_ite (fun _ => Dev.planeView_tpFault h _ _ _ _ _ (by decide)) fun _ =>
    Dev.planeView_ite (fun _ => Dev.planeView_setHeld h _) fun _ => Dev.planeView_markFull ?_ ..
  have hw := fun k off => Dev.planeView_planeWrite (Dev.planeView_setCore h c k) c (d.ringDesc c n).word off bs 0 false
  rw [Dev.isWset_of_planeView (hw ..)]
  exact Dev.planeView_ite (fun _ => Dev.planeView_setPushed (hw ..) _) fun _ => hw ..

theorem Dev.planeView_retryHeld (c n : Nat) : (e.retryHeld c n).planeView = (d.retryHeld c n).planeView := by
  unfold Dev.retryHeld
  rw [Dev.core_of_planeView h, Dev.slotFull_of_planeView h, Dev.held_of_planeView h]
  split
  · exact h
  · exact Dev.planeView_ite (fun _ => h) fun _ => Dev.planeView_putSlot (Dev.planeView_setHeld h _) ..

theorem Dev.planeView_sync (c now : Nat) : (e.sync c now).planeView = (d.sync c now).planeView := by
  have hs := Dev.planeView_settle h c now
  unfold Dev.sync
  generalize e.settle c now = e' at hs ⊢
  generalize d.settle c now = d' at hs ⊢
  obtain ⟨t, u, hv⟩ := Dev.vol_of_planeView hs c
  dsimp only
  rw [hv]
  dsimp only
  split
  · exact hs
  · exact Dev.planeView_foldl (fun x h => Dev.planeView_retryHeld h c x.2) _ (Dev.planeView_setVol hs c rfl)

theorem Dev.planeView_syncNow (c : Nat) : (e.syncNow c).planeView = (d.syncNow c).planeView := by
  unfold Dev.syncNow Dev.absCyc
  rw [Dev.crew_of_planeView h]
  exact Dev.planeView_sync h ..
end

end Sys2Proof.Machine
end

section
/-! SUPPORT. Operations on rings (R168 to R170, R304, R305): where they find their core, what their checks leave of it, and what
each does to the ring. -/

namespace Sys2Proof.Machine

/-! ### A core brought to the cycle of an instruction -/

/-- The descriptor registers of a core's rings lie apart from those of faults. -/
theorem not_faultReg_ring {c n : Nat} (hc : c < 32) (hn : n < 32) :
    ¬ faultReg (TP_CORE_RING_BASE c n) ∧ ¬ faultReg (TP_CORE_RING_SIZE c n) ∧ ¬ faultReg (TP_CORE_RING_TAG c n) := by
  simp only [faultReg, TP_CORE_RING_BASE, TP_CORE_RING_SIZE, TP_CORE_RING_TAG, TP_CORE_FAULT, TP_CORE_FAULT_ADDR, CS_CREW_FAULT]
  refine ⟨?_, ?_, ?_⟩
  all_goals
    rintro ⟨e, he, h⟩
    omega

theorem Dev.ringDesc_of_steady {d e : Dev} (h : e.steady = d.steady) {c n : Nat} (hc : c < 32) (hn : n < 32) :
    e.ringDesc c n = d.ringDesc c n := by
  obtain ⟨hbase, hsize, htag⟩ := not_faultReg_ring hc hn
  unfold Dev.ringDesc Dev.rf
  rw [Dev.rd_of_steady h hbase, Dev.rd_of_steady h hsize, Dev.rd_of_steady h htag]

@[simp] theorem Dev.rd_pstoreCorr (d : Dev) (c cyc n a : Nat) : (d.pstoreCorr c cyc n).rd a = d.rd a :=
  Dev.pstoreCorr_proj (fun d => d.rd a) (fun d _ => d.rd_report (by simp) a) (fun _ _ _ => rfl) d c cyc n

@[simp] theorem Dev.pstoreCorr_stroke (d : Dev) (c cyc n : Nat) : (d.pstoreCorr c cyc n).tm.stroke = d.tm.stroke :=
  Dev.pstoreCorr_proj (fun d => d.tm.stroke) (fun d _ => d.report_tm_stroke _) (fun _ _ _ => rfl) d c cyc n

theorem Dev.runsFirst_pstoreCorr (d : Dev) (c cyc n k m : Nat) : (d.pstoreCorr c cyc n).runsFirst k m = d.runsFirst k m :=
  Dev.pstoreCorr_proj (fun d => d.runsFirst k m) (fun d u => by
    obtain ⟨l, hl⟩ := d.report_corrected_flt { src := 0x05, unit := u } rfl
    simp [Dev.runsFirst, Dev.runsCheck, Dev.crewsRun, Dev.accel, Dev.live, hl, FltSt.restarting]) (fun _ _ _ => rfl) d c cyc n

/-- A core as an instruction finds it: the corrections of its fetch counted, what fell due by its cycle landed (R158, R308). -/
def Dev.landed (d : Dev) (p : At) : Dev := (d.pstoreCorr p.core.val p.cyc p.corr).sync p.core.val (d.cycleOf p)

theorem Dev.brought_eq (d : Dev) (p : At) : d.brought p = (d.landed p).reach p.core.val p.cyc := rfl

theorem Dev.steady_landed (d : Dev) (p : At) :
    (d.landed p).steady = (d.pstoreCorr p.core.val p.cyc p.corr).steady := Dev.steady_sync p.core.isLt _ _

theorem Dev.absCyc_landed (d : Dev) (p : At) : (d.landed p).absCyc p.core.val p.cyc = d.cycleOf p := by
  rw [← d.absCyc_pstoreCorr p, Dev.absCyc, Dev.crew_of_steady (d.steady_landed p)]
  rfl

theorem Dev.ringDesc_landed (d : Dev) (p : At) {n : Nat} (hn : n < 32) :
    (d.landed p).ringDesc p.core.val n = d.ringDesc p.core.val n := by
  rw [Dev.ringDesc_of_steady (d.steady_landed p) p.core.isLt hn]
  unfold Dev.ringDesc Dev.rf
  simp only [Dev.rd_pstoreCorr]

theorem Dev.stroke_landed (d : Dev) (p : At) : (d.landed p).tm.stroke = d.tm.stroke :=
  (Dev.stroke_of_steady (d.steady_landed p)).trans (d.pstoreCorr_stroke ..)

/-! ### Beside the crews (R160, R170, R217) -/

/-- What waiting and freezing leave: the registers, the cores, the stroke and the memory. -/
def Dev.besideCrews (d : Dev) : SMap Word × SMap CoreChk × SMap CoreVol × Stroke × Mem :=
  (d.reg.regs, d.cw.cores, d.cw.vol, d.tm.stroke, d.mem)

@[simp] theorem Dev.besideCrews_setCrew (d : Dev) (k : Nat) (x : CrewVol) : (d.setCrew k x).besideCrews = d.besideCrews := rfl
@[simp] theorem Dev.besideCrews_bump (d : Dev) (a n : Nat) : (d.bump a n).besideCrews = d.besideCrews := rfl
@[simp] theorem Dev.besideCrews_reach (d : Dev) (c cyc : Nat) : (d.reach c cyc).besideCrews = d.besideCrews := rfl
@[simp] theorem Dev.besideCrews_issued (d : Dev) (c cyc : Nat) : (d.issued c cyc).besideCrews = d.besideCrews := rfl
@[simp] theorem Dev.besideCrews_freeze (d : Dev) (c at_ n : Nat) : (d.freeze c at_ n).besideCrews = d.besideCrews := by
  unfold Dev.freeze
  split <;> rfl

section
variable {d e : Dev} (h : e.besideCrews = d.besideCrews)
include h

theorem Dev.regs_of_besideCrews : e.reg.regs = d.reg.regs := congrArg (fun x => x.1) h
theorem Dev.cores_of_besideCrews : e.cw.cores = d.cw.cores := congrArg (fun x => x.2.1) h
theorem Dev.stroke_of_besideCrews : e.tm.stroke = d.tm.stroke := congrArg (fun x => x.2.2.2.1) h
theorem Dev.mem_of_besideCrews : e.mem = d.mem := congrArg (fun x => x.2.2.2.2) h
theorem Dev.core_of_besideCrews (c : Nat) : e.core c = d.core c :=
  congrArg (fun m => smGet core0 m c) (Dev.cores_of_besideCrews h)
theorem Dev.vol_of_besideCrews (c : Nat) : e.vol c = d.vol c :=
  congrArg (fun m => smGet vol0 m c) (congrArg (fun x => x.2.2.1) h : e.cw.vol = d.cw.vol)
theorem Dev.ringDesc_of_besideCrews (c n : Nat) : e.ringDesc c n = d.ringDesc c n := by
  unfold Dev.ringDesc Dev.rf Dev.rd
  rw [Dev.regs_of_besideCrews h]
theorem Dev.bndOff_of_besideCrews (c x : Nat) (bnd : Bool) : e.bndOff c x bnd = d.bndOff c x bnd := by
  rw [Dev.bndOff, Dev.core_of_besideCrews h]
  rfl
end

/-! ### Checks (R170, R305) -/

/-- A check that holds lets its operation go on, on the same cores. -/
theorem checked_of_ok {d : Dev} {c cyc ring waited ctr : Nat} {isGet : Bool} {ok : Dev → Bool} (h : ok (d.reach c cyc) = true)
    (f : Nat → Dev → Dev) : ∃ e, checked c cyc ring isGet waited ctr ok f d = f (d.absCyc c cyc) e ∧
      e.besideCrews = d.besideCrews := by
  unfold checked
  dsimp only
  rw [if_pos h]
  exact ⟨_, rfl, by simp⟩

theorem CrewVol.mem_addWait (v : CrewVol) (w : Nat × Nat × Nat × Bool) : w ∈ (v.addWait w).wait := by
  unfold CrewVol.addWait
  split
  · next h => exact List.contains_iff_mem.1 h
  · simp

/-- A check that fails leaves its crew waiting for it, and the cores as they are. -/
theorem checked_of_not_ok {d : Dev} {c cyc ring waited ctr : Nat} {isGet : Bool} {ok : Dev → Bool}
    (h : ok (d.reach c cyc) = false) (f : Nat → Dev → Dev) :
    (c, cyc, ring, isGet) ∈ ((checked c cyc ring isGet waited ctr ok f d).crew (c / 8)).wait ∧
      (checked c cyc ring isGet waited ctr ok f d).cw.cores = d.cw.cores := by
  unfold checked
  dsimp only
  rw [if_neg (by simp [h]), Dev.crew_setCrew_same]
  exact ⟨CrewVol.mem_addWait _ _, rfl⟩

/-- A ring in use, not suppressed (R168, R304). -/
theorem Dev.ringUse_none {d : Dev} {c ring ctx : Nat} {bnd : Bool} (hb : d.bndOff c ctx bnd = false)
    (hs : (d.ringDesc c ring).slots ≠ 0) : d.ringUse c ring ctx bnd = none := by
  rw [Dev.ringUse, if_neg (by simp [hb]), if_neg hs]

/-- A ring operation with a check that may be tried comes to its check on the core brought to its cycle. -/
theorem Dev.ringReady_cases {d : Dev} {i : Instr} {p : At} {ring : BitVec 5} {ctx : Nat} {bnd : Bool}
    (h : d.ringReady i p ring.toNat ctx bnd) (hp : i.coreOp.map CoreOp.loc = some p) : d.fetchedWhole i = true ∧
      (d.pstoreCorr p.core.val p.cyc p.corr).runsFirst p.core.val p.cyc = true ∧
      (d.landed p).ringUse p.core.val ring.toNat ctx bnd = none := by
  obtain ⟨o, ho, rfl⟩ := Option.map_eq_some_iff.1 hp
  obtain ⟨hexec, hbnd, hslots⟩ := h
  rw [Dev.brought_eq, Dev.bndOff_of_besideCrews (Dev.besideCrews_reach ..)] at hbnd
  unfold Dev.executesRing at hexec
  rw [ho] at hexec
  simp only [Bool.and_eq_true] at hexec
  rw [Dev.runsFirst_pstoreCorr]
  refine ⟨hexec.1, hexec.2, Dev.ringUse_none hbnd ?_⟩
  rwa [Dev.ringDesc_landed d o.loc ring.isLt]

/-- An operation that is executed finds its ring on the core brought to its cycle. -/
theorem Dev.executes_ringUse {d : Dev} {p : At} {ring : BitVec 5} {ctx : Nat} {bnd : Bool}
    (hb : (d.brought p).bndOff p.core.val ctx bnd = false) (hs : ((d.brought p).ringDesc p.core.val ring.toNat).slots ≠ 0) :
    ((d.landed p).issued p.core.val p.cyc).ringUse p.core.val ring.toNat ctx bnd = none := by
  have hview : ((d.landed p).issued p.core.val p.cyc).besideCrews = (d.brought p).besideCrews :=
    (Dev.besideCrews_issued ..).trans (Dev.besideCrews_reach ..).symm
  refine Dev.ringUse_none ?_ ?_
  · rwa [Dev.bndOff_of_besideCrews hview]
  · rwa [Dev.ringDesc_of_besideCrews hview]

section
variable {d e : Dev} {c cyc ring ar ctx waited : Nat} {bnd : Bool} (hr : d.runsFirst c cyc = true)
  (he : d.sync c (d.absCyc c cyc) = e) (hu : e.ringUse c ring ctx bnd = none)
include hr he hu

theorem getOp_of_ready : getOp c cyc ring ar ctx bnd waited d =
    checked c cyc ring true waited (TP_SLOT_WAIT c) (fun d => d.getOk c ring)
      (fun now d => if ar = 0 then d else d.arNext c now ar (d.slotAddr c ring ((d.core c).ring ring).tail)) e := by
  rw [getOp, if_neg (by simp [hr])]
  dsimp only
  rw [he, hu]

theorem putcOp_of_ready : putcOp c cyc ring ctx bnd waited d =
    checked c cyc ring false waited (TP_SLOT_WAIT c) (fun d => d.putOk c ring) (fun _ d => d.putComplete c ring) e := by
  rw [putcOp, if_neg (by simp [hr])]
  dsimp only
  rw [he, hu]
end

/-! ### What the operations do to the ring (R169) -/

@[simp] theorem CoreChk.ring_setRing_same (k : CoreChk) (n : Nat) (r : RingPos) : (k.setRing n r).ring n = r := by
  simp [CoreChk.ring, CoreChk.setRing]
@[simp] theorem CoreChk.ring_setTag (k : CoreChk) (i n : Nat) (t : SlotTag) : (k.setTag i t).ring n = k.ring n := rfl
@[simp] theorem CoreChk.tagAt_setTag_same (k : CoreChk) (i : Nat) (t : SlotTag) : (k.setTag i t).tagAt i = t := by
  simp [CoreChk.tagAt, CoreChk.setTag]
@[simp] theorem CoreChk.tagAt_setRing (k : CoreChk) (i n : Nat) (r : RingPos) : (k.setRing n r).tagAt i = k.tagAt i := rfl

@[simp] theorem Dev.vol_arNext_same (d : Dev) (c now reg : Nat) (v : Word) :
    (d.arNext c now reg v).vol c = { d.vol c with arup := (d.vol c).arup ++ [(now + 1, reg, v)] } := by simp [Dev.arNext]

@[simp] theorem Dev.ringDesc_arNext (d : Dev) (c now reg e n : Nat) (v : Word) :
    (d.arNext c now reg v).ringDesc e n = d.ringDesc e n := rfl

/-- PUTC marks the oldest reserved slot FULL with the epoch of its reservation. -/
theorem Dev.core_putComplete {d : Dev} {c n slot ep : Nat} {rest : List (Nat × Nat)}
    (h : ((d.core c).ring n).resv = (slot, ep) :: rest) :
    (d.putComplete c n).core c = ((d.core c).setRing n { (d.core c).ring n with resv := rest }).setTag
      ((d.ringDesc c n).tagBase + slot) { full := true, epoch := ep, at_ := d.tm.stroke } ∧
      (d.putComplete c n).mem = d.mem := by
  unfold Dev.putComplete
  dsimp only
  rw [h]
  dsimp only [Dev.markFull]
  simp
  rfl

/-- The tail of a ring past the slot that its consumer frees (R169). -/
def RingPos.free (r : RingPos) (slots : Nat) : RingPos :=
  if r.tail + 1 ≥ slots then { r with tail := 0, cep := (r.cep + 1) % 8 } else { r with tail := r.tail + 1 }

theorem RingPos.tail_free (r : RingPos) (slots : Nat) :
    (r.free slots).tail = if r.tail + 1 ≥ slots then 0 else r.tail + 1 := by
  unfold RingPos.free
  split <;> rfl

/-- DRAIN frees the slot at the tail and advances the tail. -/
theorem Dev.core_drain (d : Dev) (c n : Nat) : (d.drain c n).core c =
    ((d.core c).setTag ((d.ringDesc c n).tagBase + ((d.core c).ring n).tail)
      { (d.core c).tagAt ((d.ringDesc c n).tagBase + ((d.core c).ring n).tail) with full := false }).setRing n
        (((d.core c).ring n).free (d.ringDesc c n).slots) := Dev.core_setCore_same ..

@[simp] theorem Dev.vol_drain (d : Dev) (c n e : Nat) : (d.drain c n).vol e = d.vol e := rfl

theorem Dev.putOk_of_free {d : Dev} {c n slot ep : Nat} {rest : List (Nat × Nat)}
    (h : ((d.core c).ring n).resv = (slot, ep) :: rest) (hf : d.slotFull c n slot = false) : d.putOk c n = true := by
  unfold Dev.putOk
  rw [h]
  simp [hf]

/-- What PUTR does on a ring in use (R169): its AR takes the address of the slot at the head, which it reserves. -/
def Dev.putr (d : Dev) (c now n ar : Nat) : Dev :=
  let r := (d.core c).ring n
  let e := if ar = 0 then d else d.arNext c now ar (d.slotAddr c n r.head)
  e.setCore c ((e.core c).setRing n (r.reserve (e.ringDesc c n).slots))

theorem Dev.ring_putr (d : Dev) (c now n ar : Nat) :
    ((d.putr c now n ar).core c).ring n = ((d.core c).ring n).reserve (d.ringDesc c n).slots := by
  rw [Dev.putr, Dev.core_setCore_same, CoreChk.ring_setRing_same]
  split
  · rfl
  · rw [Dev.ringDesc_arNext]

theorem Dev.arup_putr (d : Dev) (c now n : Nat) {ar : Nat} (h : ar ≠ 0) :
    ((d.putr c now n ar).vol c).arup = (d.vol c).arup ++ [(now + 1, ar, d.slotAddr c n ((d.core c).ring n).head)] := by
  unfold Dev.putr
  dsimp only
  rw [if_neg h, Dev.vol_setCore, Dev.vol_arNext_same]

@[simp] theorem Dev.mem_putr (d : Dev) (c now n ar : Nat) : (d.putr c now n ar).mem = d.mem := by
  unfold Dev.putr
  dsimp only
  split <;> rfl

/-- What DRAIN does on a ring in use (R169, R170): its slot freed, a held PUT tried again after the cycle. -/
def Dev.drainRetry (d : Dev) (c now n : Nat) : Dev :=
  let e := d.drain c n
  e.setVol c { e.vol c with retry := (e.vol c).retry ++ [(now, n)] }

theorem Dev.core_drainRetry (d : Dev) (c now n : Nat) : (d.drainRetry c now n).core c = (d.drain c n).core c := rfl

theorem Dev.retry_drainRetry (d : Dev) (c now n : Nat) :
    ((d.drainRetry c now n).vol c).retry = (d.vol c).retry ++ [(now, n)] := by
  rw [Dev.drainRetry, Dev.vol_setVol_same, Dev.vol_drain]

@[simp] theorem Dev.mem_drainRetry (d : Dev) (c now n : Nat) : (d.drainRetry c now n).mem = d.mem := rfl

/-! ### The commands (R304, R305) -/

section
variable {s : State} {i : Instr} {p : At} (hp : i.coreOp.map CoreOp.loc = some p)
include hp

/-- A core instruction that is fetched whole takes effect with the corrections of its fetch counted (R308). -/
theorem State.coreRun_fetched (hf : s.dev.fetchedWhole i = true) (w : Writes) (f : Dev → Dev) :
    s.coreRun i w f = .next { s with dev := s.dev.commit w (f (s.dev.pstoreCorr p.core.val p.cyc p.corr)) } := by
  obtain ⟨o, ho, rfl⟩ := Option.map_eq_some_iff.1 hp
  rw [State.coreRun, State.run, Dev.coreStep_fetched ho hf]

/-- An operation of a bundle that is executed takes effect on its core brought to its cycle (R305). -/
theorem State.coreRun_bundleOp (h : s.dev.executes i = true) (w : Writes) (body : Nat → Dev → Dev) :
    s.coreRun i w (fun d => d.bundleOp p.core.val p.cyc body) =
      .next { s with dev := s.dev.commit w (body (s.dev.cycleOf p) ((s.dev.landed p).issued p.core.val p.cyc)) } := by
  obtain ⟨o, ho, rfl⟩ := Option.map_eq_some_iff.1 hp
  rw [State.coreRun, State.run, Dev.coreStep_bundleOp ho h]
  dsimp only
  rw [Dev.absCyc_pstoreCorr]
  rfl
end

/-- What a command that changes cores and memory commits. -/
def State.coresOut (s : State) (d : Dev) : Out := .next { s with dev := s.dev.commit { cw := true, mem := true } d }

section
variable {s : State} {p : At} {g : Gate} {ring : BitVec 5} {ar : BitVec 4} {ctx : BitVec 2} {bnd : Bool} {waited : Nat}

theorem exec_get (h : s.dev.ringReady (.get p g ring ar ctx bnd waited) p ring.toNat ctx.toNat bnd) :
    exec (.get p g ring ar ctx bnd waited) s = s.coresOut
      (checked p.core.val p.cyc ring.toNat true waited (TP_SLOT_WAIT p.core.val) (fun d => d.getOk p.core.val ring.toNat)
        (fun now d => if ar.toNat = 0 then d
          else d.arNext p.core.val now ar.toNat (d.slotAddr p.core.val ring.toNat ((d.core p.core.val).ring ring.toNat).tail))
        (s.dev.landed p)) := by
  obtain ⟨hf, hr, hu⟩ := Dev.ringReady_cases h rfl
  exact (State.coreRun_fetched rfl hf ..).trans
    (congrArg s.coresOut (getOp_of_ready hr (by rw [Dev.absCyc_pstoreCorr, Dev.landed]) hu))

theorem exec_putc (h : s.dev.ringReady (.putc p g ring ctx bnd waited) p ring.toNat ctx.toNat bnd) :
    exec (.putc p g ring ctx bnd waited) s = s.coresOut
      (checked p.core.val p.cyc ring.toNat false waited (TP_SLOT_WAIT p.core.val) (fun d => d.putOk p.core.val ring.toNat)
        (fun _ d => d.putComplete p.core.val ring.toNat) (s.dev.landed p)) := by
  obtain ⟨hf, hr, hu⟩ := Dev.ringReady_cases h rfl
  exact (State.coreRun_fetched rfl hf ..).trans
    (congrArg s.coresOut (putcOp_of_ready hr (by rw [Dev.absCyc_pstoreCorr, Dev.landed]) hu))

section
variable (hb : (s.dev.brought p).bndOff p.core.val ctx.toNat bnd = false)
  (hs : ((s.dev.brought p).ringDesc p.core.val ring.toNat).slots ≠ 0)
include hb hs

theorem exec_putr (h : s.dev.executes (.putr p g ring ar ctx bnd) = true) :
    exec (.putr p g ring ar ctx bnd) s = s.coresOut
      (((s.dev.landed p).issued p.core.val p.cyc).putr p.core.val (s.dev.cycleOf p) ring.toNat ar.toNat) := by
  refine (State.coreRun_bundleOp rfl h ..).trans (congrArg s.coresOut ?_)
  rw [Dev.executes_ringUse hb hs]
  rfl

theorem exec_drain (h : s.dev.executes (.drain p g ring ctx bnd) = true) :
    exec (.drain p g ring ctx bnd) s = s.coresOut
      (((s.dev.landed p).issued p.core.val p.cyc).drainRetry p.core.val (s.dev.cycleOf p) ring.toNat) := by
  refine (State.coreRun_bundleOp rfl h ..).trans (congrArg s.coresOut ?_)
  rw [Dev.executes_ringUse hb hs]
  rfl
end
end

/-! ### The commands on a ring in use -/

/-- A command whose check fails leaves its crew waiting. -/
theorem waits_of_checked {s : State} {i : Instr} {p : At} {n waited ctr : Nat} {isGet : Bool} {ok : Dev → Bool}
    {f : Nat → Dev → Dev}
    (h : exec i s = s.coresOut (checked p.core.val p.cyc n isGet waited ctr ok f (s.dev.landed p)))
    (hok : ok (s.dev.brought p) = false) : ∃ t, exec i s = .next t ∧ waits s t p n isGet := by
  rw [Dev.brought_eq] at hok
  obtain ⟨hwait, hcores⟩ := checked_of_not_ok (d := s.dev.landed p) (c := p.core.val) (cyc := p.cyc) (ring := n)
    (waited := waited) (ctr := ctr) (isGet := isGet) (ok := ok) hok f
  rw [h]
  refine ⟨_, rfl, ?_, ?_⟩
  · rw [Dev.crew_commit { cw := true, mem := true } _ _ _ rfl]
    exact hwait
  · rw [Dev.commit_cw]
    rw [Dev.brought_eq]
    exact hcores.trans (Dev.cores_of_besideCrews (Dev.besideCrews_reach ..)).symm

section
variable {s : State} {p : At} {g : Gate} {ring : BitVec 5} {ar : BitVec 4} {ctx : BitVec 2} {bnd : Bool} {waited : Nat}

theorem exec_get_ok (h : s.dev.ringReady (.get p g ring ar ctx bnd waited) p ring.toNat ctx.toNat bnd)
    (hok : (s.dev.brought p).getOk p.core.val ring.toNat = true) (har : ar ≠ 0) :
    ∃ e : Dev, e.besideCrews = (s.dev.brought p).besideCrews ∧ exec (.get p g ring ar ctx bnd waited) s =
      s.coresOut (e.arNext p.core.val (s.dev.cycleOf p) ar.toNat
        (e.slotAddr p.core.val ring.toNat ((e.core p.core.val).ring ring.toNat).tail)) := by
  obtain ⟨e, he, hview⟩ := checked_of_ok (d := s.dev.landed p) (c := p.core.val) (cyc := p.cyc) (ring := ring.toNat)
    (waited := waited) (ctr := TP_SLOT_WAIT p.core.val) (isGet := true) (ok := fun d => d.getOk p.core.val ring.toNat) hok
    (fun now d => if ar.toNat = 0 then d
      else d.arNext p.core.val now ar.toNat (d.slotAddr p.core.val ring.toNat ((d.core p.core.val).ring ring.toNat).tail))
  refine ⟨e, hview.trans (Dev.besideCrews_reach ..).symm, (exec_get h).trans (congrArg s.coresOut (he.trans ?_))⟩
  rw [if_neg (fun h0 : ar.toNat = 0 => har (BitVec.eq_of_toNat_eq h0)), Dev.absCyc_landed]

theorem exec_putc_ok (h : s.dev.ringReady (.putc p g ring ctx bnd waited) p ring.toNat ctx.toNat bnd)
    (hok : (s.dev.brought p).putOk p.core.val ring.toNat = true) :
    ∃ e : Dev, e.besideCrews = (s.dev.brought p).besideCrews ∧
      exec (.putc p g ring ctx bnd waited) s = s.coresOut (e.putComplete p.core.val ring.toNat) := by
  obtain ⟨e, he, hview⟩ := checked_of_ok (d := s.dev.landed p) (c := p.core.val) (cyc := p.cyc) (ring := ring.toNat)
    (waited := waited) (ctr := TP_SLOT_WAIT p.core.val) (isGet := false) (ok := fun d => d.putOk p.core.val ring.toNat) hok
    (fun _ d => d.putComplete p.core.val ring.toNat)
  exact ⟨e, hview.trans (Dev.besideCrews_reach ..).symm, (exec_putc h).trans (congrArg s.coresOut he)⟩
end

end Sys2Proof.Machine

open Sys2Proof Sys2Proof.Machine

/-- Settles O28: a check is judged on the core brought to its cycle; the operation that it lets go on finds the same ring, since
what waiting and freezing change lies beside the cores, and each operation writes its ring, its tag or its register alone. -/
theorem ringOperations : Obligations.RingOperations := by
  intro s p g ring ar ctx bnd waited c d now n r gd
  have hissued : ((s.dev.landed p).issued c p.cyc).besideCrews = d.besideCrews :=
    (Dev.besideCrews_issued ..).trans (Dev.besideCrews_reach ..).symm
  refine ⟨fun h hok har => ?_, fun h hok => waits_of_checked (exec_get h) hok, fun slot ep rest h hr hf => ?_,
    fun h hok => waits_of_checked (exec_putc h) hok, fun h hb hs => ?_, fun h hb hs => ?_⟩
  · obtain ⟨e, hview, hexec⟩ := exec_get_ok h hok har
    refine ⟨_, hexec, ?_, ?_, ?_⟩
    · rw [Dev.vol_commit _ _ _ _ rfl, Dev.vol_arNext_same, Dev.slotAddr, Dev.vol_of_besideCrews hview,
        Dev.core_of_besideCrews hview, Dev.ringDesc_of_besideCrews hview]
    · rw [Dev.commit_cw]
      exact (Dev.cores_of_besideCrews hview :)
    · rw [Dev.commit_mem]
      exact (Dev.mem_of_besideCrews hview :)
  · obtain ⟨e, hview, hexec⟩ := exec_putc_ok h (Dev.putOk_of_free hr hf)
    have hcore := Dev.core_of_besideCrews hview c
    obtain ⟨hput, hmem⟩ := Dev.core_putComplete (d := e) (c := c) (n := n)
      ((congrArg (fun k => (k.ring n).resv) hcore).trans hr)
    rw [Dev.ringDesc_of_besideCrews hview, hcore, Dev.stroke_of_besideCrews hview, show d.tm.stroke = _ from s.dev.stroke_landed p]
      at hput
    refine ⟨_, hexec, ?_, ?_, ?_⟩
    · rw [Dev.core_commit _ _ _ _ rfl, hput, CoreChk.tagAt_setTag_same]
    · rw [Dev.core_commit _ _ _ _ rfl, hput, CoreChk.ring_setTag, CoreChk.ring_setRing_same]
    · rw [Dev.commit_mem]
      exact hmem.trans (Dev.mem_of_besideCrews hview)
  · refine ⟨_, exec_putr hb hs h, ?_, fun har => ?_, ?_⟩
    · rw [Dev.core_commit _ _ _ _ rfl, Dev.ring_putr, Dev.core_of_besideCrews hissued, Dev.ringDesc_of_besideCrews hissued]
    · rw [Dev.vol_commit _ _ _ _ rfl, Dev.arup_putr _ _ _ _ (fun h0 => har (BitVec.eq_of_toNat_eq h0)), Dev.slotAddr,
        Dev.vol_of_besideCrews hissued, Dev.core_of_besideCrews hissued, Dev.ringDesc_of_besideCrews hissued]
    · rw [Dev.commit_mem]
      exact (Dev.mem_putr ..).trans (Dev.mem_of_besideCrews hissued)
  · have hdrain := ((s.dev.landed p).issued c p.cyc).core_drain c n
    rw [Dev.core_of_besideCrews hissued, Dev.ringDesc_of_besideCrews hissued] at hdrain
    refine ⟨_, exec_drain hb hs h, ?_, ?_, ?_, ?_⟩
    · rw [Dev.core_commit _ _ _ _ rfl, Dev.core_drainRetry, hdrain, CoreChk.tagAt_setRing, CoreChk.tagAt_setTag_same]
    · rw [Dev.core_commit _ _ _ _ rfl, Dev.core_drainRetry, hdrain, CoreChk.ring_setRing_same, RingPos.tail_free]
    · rw [Dev.vol_commit _ _ _ _ rfl, Dev.retry_drainRetry, Dev.vol_of_besideCrews hissued]
    · rw [Dev.commit_mem]
      exact (Dev.mem_drainRetry ..).trans (Dev.mem_of_besideCrews hissued)
end

section
/-! SUPPORT. A plane's faults, and its patrol scrub (R166, R167, R179). -/

namespace Sys2Proof.Machine

/-! ### A fault of a core's planes (R181) -/

@[simp] theorem Dev.mem_tpFault (d : Dev) (c b : Nat) (w : Bool) (o r s : Nat) : (d.tpFault c b w o r s).mem = d.mem := by
  unfold Dev.tpFault
  dsimp only
  split <;> simp

/-- A fault sets its bit. -/
theorem Dev.faultBit_tpFault (d : Dev) (c : Nat) (w : Bool) (o r : Nat) {b s : Nat} (hb : b < 32) (hs : s < 0x30) :
    ((d.tpFault c b w o r s).rd (TP_CORE_FAULT c)).getLsbD b = true := by
  unfold Dev.tpFault
  dsimp only
  rw [Dev.rd_report _ (by exact hs), Dev.hwOr, Dev.rd_hw_same, BitVec.getLsbD_or, BitVec.getLsbD_ofNat]
  simp [hb, Nat.testBit_two_pow_self]

theorem Dev.ctr_tpFault (d : Dev) (c b : Nat) (w : Bool) (o r : Nat) {s a : Nat} (hs : s < 0x30) (ha : a < 0x90A00) :
    (d.tpFault c b w o r s).ctr a = d.ctr a := by
  unfold Dev.tpFault
  dsimp only
  rw [Dev.ctr_report_of_lt _ (by exact hs) (notMem_reportCtrs ha)]
  split <;> rfl

/-! ### Accesses of a block with no engine waiting (R159) -/

theorem Dev.waitAt_nil {d : Dev} (h : ∀ k, k < 32 → ∀ o ∈ (d.core k).opList, opBanks k o = [])
    (l : List (Nat × Bool × Nat)) : d.waitAt l = [] := by
  refine List.eq_nil_iff_forall_not_mem.2 fun x hx => ?_
  obtain ⟨k, hk, hx⟩ := List.mem_flatMap.1 (mem_sortBy hx)
  obtain ⟨hx, hbank⟩ := List.mem_filter.1 hx
  obtain ⟨j, hj, rfl⟩ := List.mem_mapIdx.1 hx
  rw [h k (List.mem_range.1 hk) _ (List.getElem_mem hj)] at hbank
  simp at hbank

/-- Where no engine waits at a plane, a block finds it at the schedule cycle reached. -/
theorem Dev.planeTurn_of_atRest {d : Dev} (h : ∀ k, k < 32 → ∀ o ∈ (d.core k).opList, opBanks k o = []) {c : Nat}
    (hc : c < 32) (w : Bool) (off n : Nat) : d.planeTurn c w off n = d.syncNow c := by
  unfold Dev.planeTurn Dev.serveAhead
  rw [Dev.waitAt_nil (by simpa only [Dev.opList_of_steady (Dev.steady_syncNow hc d)] using h)]
  exact ite_self _

/-! ### The scrub -/

/-- The counter of the corrections of the scrub. -/
def scrubCtr (word : Bool) (c : Nat) : Nat := if word then WP_CORR c else TP_SCRUB_CORR c

/-- The position of the scrub in a plane. -/
def CoreVol.scrubPos (v : CoreVol) (word : Bool) : Nat := if word then v.scrubW else v.scrubT

/-- A device whose scrub of a plane moves on from an entry. -/
def Dev.scrubMoved (d : Dev) (c : Nat) (word : Bool) (e : Nat) : Dev :=
  d.setVol c (if word then { d.vol c with scrubW := (e + 1) % (8 * segEntries word) }
    else { d.vol c with scrubT := (e + 1) % (8 * segEntries word) })

theorem Dev.scrubPos_scrubMoved (d : Dev) (c : Nat) (word : Bool) (e : Nat) :
    ((d.scrubMoved c word e).vol c).scrubPos word = (e + 1) % (8 * segEntries word) := by
  rw [Dev.scrubMoved, Dev.vol_setVol_same]
  cases word <;> rfl

theorem Dev.planeView_scrubMoved (d : Dev) (c : Nat) (word : Bool) (e : Nat) : (d.scrubMoved c word e).planeView = d.planeView := by
  have hself : (d.setVol c (d.vol c)).planeView = d.planeView := by
    have hvol : (d.setVol c (d.vol c)).vol = d.vol := funext fun k => by
      by_cases hk : k = c
      · rw [hk, Dev.vol_setVol_same]
      · rw [Dev.vol_setVol_ne _ _ hk]
    unfold Dev.planeView
    rw [hvol]
    rfl
  rw [← hself]
  exact Dev.planeView_setVol rfl c (by cases word <;> rfl)

/-- What the scrub reports of the errors that it corrects. -/
def scrubReport (c : Nat) (word : Bool) (e p : Nat) : FltRep :=
  { src := if word then 0x02 else 0x01, unit := unitOf 0 c, addr := engAddr word c (scrubOff word e p) }

theorem scrubReport_src (c : Nat) (word : Bool) (e p : Nat) : (scrubReport c word e p).src < 0x30 := by
  cases word <;> simp [scrubReport]

/-- A device whose scrub has read an entry and reported the errors that it corrects. -/
def Dev.scrubRead (d : Dev) (c : Nat) (word : Bool) (corr : List Nat) (e : Nat) : Dev :=
  corr.foldl (fun d p => d.report (scrubReport c word e p)) ((d.scrubMoved c word e).syncNow c)

theorem planeScrub_of_atRest {d : Dev} {c e : Nat} {word : Bool} (hlive : d.live = true) (hc : c < 32) (hrest : d.atRest)
    (hat : d.scrubAt c word (if word then (d.vol c).scrubW else (d.vol c).scrubT) = some e) (corr unc : List Nat) :
    planeScrub c word corr unc d = unc.foldl (fun d p => d.uncorr c word (scrubOff word e p))
      ((d.scrubRead c word corr e).bump (scrubCtr word c) corr.length) := by
  unfold planeScrub
  rw [if_neg (by simp [hlive, hc])]
  dsimp only
  rw [hat]
  dsimp only
  rw [Dev.planeTurn_of_atRest (by exact hrest.2) hc]
  rfl

section
variable (d : Dev) {c : Nat} (hc : c < 32) (word : Bool) (corr : List Nat) (e : Nat)

theorem Dev.planeView_scrubRead : (d.scrubRead c word corr e).planeView = (d.syncNow c).planeView := by
  unfold Dev.scrubRead
  rw [foldl_proj _ Dev.planeView (fun d p => Dev.planeView_report d (scrubReport_src c word e p))]
  exact Dev.planeView_syncNow (d.planeView_scrubMoved ..) c

include hc

theorem Dev.steady_scrubRead : (d.scrubRead c word corr e).steady = (d.scrubMoved c word e).steady := by
  unfold Dev.scrubRead
  rw [foldl_proj _ Dev.steady (fun d p => d.steady_report (scrubReport_src c word e p))]
  exact Dev.steady_syncNow hc _

theorem Dev.scrubPos_scrubRead :
    ((d.scrubRead c word corr e).vol c).scrubPos word = (e + 1) % (8 * segEntries word) := by
  have h := Dev.scrub_of_steady (d.steady_scrubRead hc word corr e) c
  rw [← d.scrubPos_scrubMoved c word e]
  exact congrArg (fun x => if word then x.2 else x.1) h

theorem scrubCtr_bounds : 0x50000 ≤ scrubCtr word c ∧ scrubCtr word c < 0x70000 := by
  cases word <;> simp only [scrubCtr, WP_CORR, TP_SCRUB_CORR, if_true, Bool.false_eq_true, if_false] <;> omega

theorem Dev.ctr_scrubRead : (d.scrubRead c word corr e).ctr (scrubCtr word c) = d.ctr (scrubCtr word c) :=
  Dev.ctr_of_steady (d.steady_scrubRead hc word corr e) (scrubCtr_bounds hc word).1 (scrubCtr_bounds hc word).2

theorem Dev.segLoaded_scrubRead (off : Nat) : (d.scrubRead c word corr e).segLoaded c word off = d.segLoaded c word off := by
  unfold Dev.segLoaded
  rw [Dev.bt_of_steady (d.steady_scrubRead hc word corr e)]
  rfl
end

/-! ### An uncorrectable error (R167, R351) -/

/-- The counter of the uncorrectable errors of a plane. -/
def uncorrCtr (word : Bool) (c : Nat) : Nat := if word then WP_UNCORR c else TP_UNCORR c

theorem Dev.jrnlBlocks_of_steady {d e : Dev} (h : e.steady = d.steady) (c : Nat) (word : Bool) (off n : Nat) :
    e.jrnlBlocks c word off n = d.jrnlBlocks c word off n := by
  have hseg : ¬ faultReg (CS_CORE_JRNL_SEG c) := by
    simp only [faultReg, CS_CORE_JRNL_SEG, TP_CORE_FAULT, TP_CORE_FAULT_ADDR, CS_CREW_FAULT]
    rintro ⟨k, hk, h⟩
    omega
  unfold Dev.jrnlBlocks Dev.journalled
  rw [Dev.rd_of_steady h hseg]

/-- An uncorrectable error of a unit that no image section loaded, counted and reported. -/
def Dev.uncorrNoted (d : Dev) (c : Nat) (word : Bool) (off : Nat) : Dev :=
  (d.bump (uncorrCtr word c)).tpFault c 0 word off 0 0x14

theorem Dev.jrnlBlocks_scrubRead (d : Dev) {c : Nat} (hc : c < 32) (word : Bool) (corr : List Nat) (e off n : Nat) :
    (d.scrubRead c word corr e).jrnlBlocks c word off n = d.jrnlBlocks c word off n :=
  Dev.jrnlBlocks_of_steady (d.steady_scrubRead hc word corr e) ..

/-- What cannot be corrected, in a segment that no image section loaded and whose writes are not journalled, is written as zero. -/
theorem Dev.uncorr_zeroes {d : Dev} {c off : Nat} {word : Bool} (hc : c < 32)
    (hseg : d.segLoaded c word (off / eccUnit word * eccUnit word) = false)
    (hjrnl : d.jrnlBlocks c word (off / eccUnit word * eccUnit word) (eccUnit word) = []) :
    d.uncorr c word off = { d.uncorrNoted c word (off / eccUnit word * eccUnit word) with
      mem := memWrite d.mem (planeAt word c (off / eccUnit word * eccUnit word)) (zeros (eccUnit word)) } := by
  have hnoted : (d.uncorrNoted c word (off / eccUnit word * eccUnit word)).journal c word
      (off / eccUnit word * eccUnit word) (eccUnit word) = some (d.uncorrNoted c word (off / eccUnit word * eccUnit word)) := by
    rw [Dev.journal, Dev.uncorrNoted, Dev.jrnlBlocks_of_steady (Dev.steady_tpFault hc _ _ _ _ _ (by decide)),
      show (d.bump (uncorrCtr word c)).jrnlBlocks = d.jrnlBlocks from rfl, hjrnl]
  have hmem : (d.uncorrNoted c word (off / eccUnit word * eccUnit word)).mem = d.mem := Dev.mem_tpFault ..
  rw [← hmem]
  unfold Dev.uncorr
  dsimp only
  change (if (d.bump (uncorrCtr word c)).segLoaded c word _ = true then _ else _) = _
  rw [show (d.bump (uncorrCtr word c)).segLoaded = d.segLoaded from rfl, if_neg (ne_true_of_eq_false hseg)]
  change (match (d.uncorrNoted ..).journal .. with | none => _ | some d => _) = _
  rw [hnoted]

theorem Dev.ctr_uncorrNoted (d : Dev) {c : Nat} (hc : c < 32) (word : Bool) (off : Nat) :
    (d.uncorrNoted c word off).ctr (scrubCtr word c) = d.ctr (scrubCtr word c) := by
  have hb := scrubCtr_bounds hc word
  rw [Dev.uncorrNoted, Dev.ctr_tpFault _ _ _ _ _ _ (by decide) (by omega), Dev.ctr_bump_ne]
  cases word <;> simp [scrubCtr, uncorrCtr, WP_CORR, WP_UNCORR, TP_SCRUB_CORR, TP_UNCORR]

theorem Dev.vol_uncorrNoted (d : Dev) (c k : Nat) (word : Bool) (off : Nat) : (d.uncorrNoted c word off).vol k = d.vol k :=
  congrArg (fun w : CrewSide => smGet vol0 w.vol k) (Dev.tpFault_cw ..)

theorem exec_planeScrub {s : State} {crew : Fin 4} {core : Fin 8} {word : Bool} {e : Nat} (hlive : s.dev.live = true)
    (hrest : s.dev.atRest) (hat : s.dev.scrubAt (8 * crew.val + core.val) word
      (if word then (s.dev.vol (8 * crew.val + core.val)).scrubW else (s.dev.vol (8 * crew.val + core.val)).scrubT) = some e)
    (corr unc : List Nat) : exec (.planeScrub crew core word corr unc) s =
      s.coresOut (unc.foldl (fun d p => d.uncorr (8 * crew.val + core.val) word (scrubOff word e p))
        ((s.dev.scrubRead (8 * crew.val + core.val) word corr e).bump (scrubCtr word (8 * crew.val + core.val)) corr.length)) :=
  congrArg s.coresOut (planeScrub_of_atRest hlive (by omega) hrest hat corr unc)

end Sys2Proof.Machine

open Sys2Proof Sys2Proof.Machine

/-- Settles O35: with no engine waiting, the scrub finds its plane at the schedule cycle reached; the moved position changes nothing
of what falls due by then, the reports and the count no memory, and an error left over only its own unit. -/
theorem patrolScrub : Obligations.PatrolScrub := by
  intro s crew core word corr e p d c v u off ctr moved e' hlive hrest hat
  have hc : c < 32 := by omega
  have hview := d.planeView_scrubRead (c := c) word corr e
  have hpos := d.scrubPos_scrubRead hc word corr e
  have hctr := d.ctr_scrubRead hc word corr e
  have hcounted := (d.scrubRead c word corr e).ctr_bump_same (scrubCtr word c) corr.length
  have hmem : (d.scrubRead c word corr e).mem = e'.mem := Dev.mem_of_planeView hview
  refine ⟨⟨_, exec_planeScrub hlive hrest hat corr [], ⟨?_, ?_⟩, ?_⟩,
    fun hseg hjrnl => ⟨_, exec_planeScrub hlive hrest hat corr [p], ?_⟩⟩
  · rw [Dev.vol_commit _ _ _ _ rfl]
    exact hpos
  · rw [Dev.ctr_commit]
    exact hcounted.trans (congrArg (ctrAdd · corr.length) hctr)
  · rw [Dev.commit_mem]
    exact hmem
  · have hzero : ((d.scrubRead c word corr e).bump (scrubCtr word c) corr.length).uncorr c word (scrubOff word e p) = _ :=
      Dev.uncorr_zeroes hc ((d.segLoaded_scrubRead hc word corr e off).trans hseg)
        ((Dev.jrnlBlocks_scrubRead d hc word corr e off u).trans hjrnl)
    rw [List.foldl_cons, List.foldl_nil, hzero]
    refine ⟨⟨?_, ?_⟩, ?_, ?_⟩
    · rw [Dev.vol_commit _ _ _ _ rfl]
      exact (congrArg (fun v : CoreVol => v.scrubPos word) (Dev.vol_uncorrNoted ..)).trans hpos
    · rw [Dev.ctr_commit]
      exact (Dev.ctr_uncorrNoted _ hc ..).trans (hcounted.trans (congrArg (ctrAdd · corr.length) hctr))
    · rw [Dev.rd_commit]
      exact Dev.faultBit_tpFault _ _ _ _ _ (by decide) (by decide)
    · rw [Dev.commit_mem]
      exact congrArg (fun m => memWrite m (planeAt word c off) (zeros u)) hmem
end

section
/-! SUPPORT. Operations of an engine at the planes and on the network (R159 to R162, R172 to R174, R347). -/

namespace Sys2Proof.Machine

/-! ### One operation changed -/

theorem getElem?_opsSet (l : List GsAct) (i j : Nat) (f : GsOp → GsOp) :
    ((opsSet l i f).flatMap (fun a => a.ops))[j]? =
      (l.flatMap (fun a => a.ops))[j]?.map (fun o => if j = i then f o else o) := by
  induction l generalizing i j with
  | nil => rfl
  | cons a r ih =>
    unfold opsSet
    split
    · next hi =>
      simp only [List.flatMap_cons, List.getElem?_append, List.length_mapIdx, List.getElem?_mapIdx]
      split
      · rfl
      · have hj : j ≠ i := by omega
        simp [hj]
    · next hi =>
      simp only [List.flatMap_cons, List.getElem?_append]
      split
      · have hj : j ≠ i := by omega
        simp [hj]
      · have hj : (j - a.ops.length = i - a.ops.length) = (j = i) := propext (by omega)
        simp only [ih, hj]

theorem CoreChk.opList_opsSet (k : CoreChk) (i : Nat) (f : GsOp → GsOp) :
    ({ k with acts := opsSet k.acts i f } : CoreChk).opList = k.opList.mapIdx (fun j o => if j = i then f o else o) :=
  List.ext_getElem? fun j => by
    rw [List.getElem?_mapIdx]
    exact getElem?_opsSet ..

/-- An operation of a core changed, on a device that holds the core's operations as they were. -/
theorem Dev.opBecomes_setOpAt {d e : Dev} {c i : Nat} {o : GsOp} {f : GsOp → GsOp}
    (h : (e.core c).opList = (d.core c).opList) (ho : (d.core c).opList[i]? = some o) :
    opBecomes (d.core c) ((e.setOpAt c i f).core c) i (f o) := by
  have hops : ((e.setOpAt c i f).core c).opList = (d.core c).opList.mapIdx (fun j o => if j = i then f o else o) := by
    rw [Dev.setOpAt, Dev.core_setCore_same, CoreChk.opList_opsSet, h]
  rw [opBecomes, hops]
  refine ⟨?_, List.length_mapIdx, fun j hj => ?_⟩
  · simp [ho]
  · simp [hj]

/-- An operation of a core that arrives at a plane. -/
theorem Dev.opBecomes_toPlane {d e : Dev} {c i : Nat} {o : GsOp} {f : GsOp → GsOp}
    (h : (e.core c).opList = (d.core c).opList) (ho : (d.core c).opList[i]? = some o) :
    opBecomes (d.core c) ((e.toPlane c i f).core c) i { f o with since := e.cw.arrivals, promoted := false } :=
  Dev.opBecomes_setOpAt (e := { e with cw := { e.cw with arrivals := e.cw.arrivals + 1 } }) h ho

theorem Dev.opBecomes_commit {w : Writes} {old new : Dev} {k : CoreChk} {c i : Nat} {o : GsOp} (hw : w.cw = true)
    (h : opBecomes k (new.core c) i o) : opBecomes k ((Dev.commit w old new).core c) i o := by
  rwa [Dev.core_commit _ _ _ _ hw]

@[simp] theorem Dev.mem_setOpAt (d : Dev) (c i : Nat) (f : GsOp → GsOp) : (d.setOpAt c i f).mem = d.mem := rfl
@[simp] theorem Dev.rd_setOpAt (d : Dev) (c i a : Nat) (f : GsOp → GsOp) : (d.setOpAt c i f).rd a = d.rd a := rfl
@[simp] theorem Dev.owe_mem (d : Dev) (c : Nat) (o : GsOp) : (d.owe c o).mem = d.mem := by
  unfold Dev.owe
  split <;> rfl
@[simp] theorem Dev.core_owe (d : Dev) (c e : Nat) (o : GsOp) : (d.owe c o).core e = d.core e := by
  unfold Dev.owe
  split <;> rfl

/-! ### Promotion (R160) -/

theorem Dev.ctr_freeze (d : Dev) (c at_ n : Nat) {a : Nat} (h : a < 0x90000) : (d.freeze c at_ n).ctr a = d.ctr a := by
  unfold Dev.freeze
  split
  · rfl
  · exact Dev.ctr_bump_ne _ _ (by simp only [CS_FREEZE]; omega)

@[simp] theorem Dev.core_promoteFreeze (d : Dev) (k : Nat) (w : Bool) (o n c : Nat) :
    (d.promoteFreeze k w o n).core c = d.core c := by
  unfold Dev.promoteFreeze Dev.freeze
  dsimp only
  split <;> rfl

/-- A promotion counts the banks that it takes from scheduled accesses. -/
theorem Dev.ctr_promoteFreeze (d : Dev) {k : Nat} (hk : k < 32) (w : Bool) (o n : Nat) :
    (d.promoteFreeze k w o n).ctr (if w then WP_PROMOTE_FREEZE k else TP_PROMOTE_FREEZE k) =
      ctrAdd (d.ctr (if w then WP_PROMOTE_FREEZE k else TP_PROMOTE_FREEZE k))
        ((spanBanks w o n).filter (fun b =>
          ((d.vol k).occAt (d.absCyc k (d.crew (k / 8)).pos) w).contains b)).eraseDups.length := by
  unfold Dev.promoteFreeze
  dsimp only
  rw [Dev.ctr_freeze, Dev.ctr_bump_same]
  cases w <;> simp only [WP_PROMOTE_FREEZE, TP_PROMOTE_FREEZE, if_true, Bool.false_eq_true, if_false] <;> omega

/-! ### Service at a plane (R159, R161, R162) -/

theorem Dev.planeView_unschedEcc_none (d : Dev) (c : Nat) (w : Bool) (o : Nat) :
    (d.unschedEcc c w o {}).planeView = d.planeView := rfl

theorem Dev.journal_of_writeOk {d : Dev} {c off n : Nat} {w : Bool} (h : d.writeOk c w off n) : d.journal c w off n = some d := by
  rw [Dev.journal, h.2.2.2]

theorem Dev.takesWrite_of_writeOk {d : Dev} {c off n : Nat} {w : Bool} (h : d.writeOk c w off n) :
    d.takesWrite c w off n = true := by
  rw [Dev.takesWrite, Dev.journal_of_writeOk h]
  obtain ⟨-, hfit, hon, -⟩ := h
  simp [hfit, hon]

theorem Dev.planeWrite_of_writeOk {d : Dev} {c off : Nat} {w : Bool} {bs : List Byte} (h : d.writeOk c w off bs.length) :
    d.planeWrite c w off bs = { d with mem := memWrite d.mem (planeAt w c off) bs } := by
  have hj := Dev.journal_of_writeOk h
  obtain ⟨hpos, hfit, hon, -⟩ := h
  unfold Dev.planeWrite
  dsimp only
  rw [if_neg (by omega), if_neg (by omega), if_neg (by simp [hon]), hj]
  rfl

/-- Writes that take effect at once change their bytes alone. -/
theorem Dev.foldl_planeWrite_of_writeOk (ws : List (Nat × Bool × Nat × List Byte)) {d : Dev}
    (h : ∀ w ∈ ws, d.writeOk w.1 w.2.1 w.2.2.1 w.2.2.2.length) :
    ws.foldl (fun (d : Dev) w => d.planeWrite w.1 w.2.1 w.2.2.1 w.2.2.2) d =
      { d with mem := ws.foldl (fun m w => memWrite m (planeAt w.2.1 w.1 w.2.2.1) w.2.2.2) d.mem } := by
  induction ws generalizing d with
  | nil => rfl
  | cons w ws ih =>
    rw [List.foldl_cons, Dev.planeWrite_of_writeOk (h w List.mem_cons_self)]
    exact ih fun x hx => h x (List.mem_cons_of_mem _ hx)

/-- The planes of an operation's writes as they are served: brought to the cycles reached, with no error met. -/
theorem Dev.planeView_reached (ws : List (Nat × Bool × Nat × List Byte)) {d e : Dev} (h : e.planeView = d.planeView) :
    (ws.foldl (fun (d : Dev) w => (d.syncNow w.1).unschedEcc w.1 w.2.1 w.2.2.1 {}) e).planeView =
      (ws.foldl (fun (d : Dev) w => d.syncNow w.1) d).planeView := by
  induction ws generalizing d e with
  | nil => exact h
  | cons w ws ih =>
    refine ih ?_
    rw [Dev.planeView_unschedEcc_none]
    exact Dev.planeView_syncNow h w.1

section
variable {d : Dev} {c i : Nat} {o : GsOp} (hc : c < 32) (ho : (d.core c).opList[i]? = some o)
include hc ho

theorem Dev.serveRead_none {k off : Nat} {word : Bool} (hsrc : planeOf c o.src = some (k, word, off))
    (hfit : off + o.len ≤ planeSize word) (hon : (d.syncNow k).poweredAll k word off o.len = true) :
    (d.serveRead c i o {}).mem = (d.syncNow k).mem ∧
      opBecomes (d.core c) ((d.serveRead c i o {}).core c) i
        { o with data := (d.syncNow k).planeRead k word off o.len, promoted := false, stage := writeStage c o
                 since := if writeStage c o = .writePlane then d.cw.arrivals else o.since } := by
  have hsteady := Dev.steady_syncNow (planeOf_lt hc hsrc) d
  have hops := Dev.opList_of_steady hsteady c
  unfold Dev.serveRead
  rw [hsrc]
  dsimp only
  generalize d.syncNow k = e at hsteady hops hon ⊢
  rw [if_neg (by omega), if_neg (by simp [hon])]
  split
  · next hw =>
    refine ⟨rfl, ?_⟩
    rw [← Dev.arrivals_of_steady hsteady]
    exact Dev.opBecomes_toPlane (e := e.unschedEcc k word off {}) hops ho
  · next hw => exact ⟨rfl, Dev.opBecomes_setOpAt (e := e.unschedEcc k word off {}) hops ho⟩

theorem Dev.serveWrite_none
    (hok : ∀ w ∈ opWrites c o,
      ((opWrites c o).foldl (fun (e : Dev) w => e.syncNow w.1) d).writeOk w.1 w.2.1 w.2.2.1 w.2.2.2.length) :
    opBecomes (d.core c) ((d.serveWrite c i o {}).core c) i { o with stage := .done } ∧
      (d.serveWrite c i o {}).mem = (opWrites c o).foldl (fun m w => memWrite m (planeAt w.2.1 w.1 w.2.2.1) w.2.2.2)
        ((opWrites c o).foldl (fun (e : Dev) w => e.syncNow w.1) d).mem := by
  have hview := Dev.planeView_reached (opWrites c o) (rfl : d.planeView = d.planeView)
  have hsteady : ((opWrites c o).foldl (fun (e : Dev) w => e.syncNow w.1) d).steady = d.steady :=
    Dev.steady_foldl (fun e w hw => Dev.steady_syncNow (core_lt_of_mem_opWrites hc hw) e) d
  unfold Dev.serveWrite
  dsimp only
  generalize (opWrites c o).foldl (fun (d : Dev) w => (d.syncNow w.1).unschedEcc w.1 w.2.1 w.2.2.1 {}) d = e at hview ⊢
  have hok' : ∀ w ∈ opWrites c o, e.writeOk w.1 w.2.1 w.2.2.1 w.2.2.2.length :=
    fun w hw => Dev.writeOk_of_planeView hview (hok w hw)
  rw [Dev.foldl_planeWrite_of_writeOk _ hok', if_pos (List.all_eq_true.2 fun w hw => Dev.takesWrite_of_writeOk (hok' w hw))]
  refine ⟨Dev.opBecomes_setOpAt ?_ ho, ?_⟩
  · rw [Dev.core_owe]
    exact (congrArg CoreChk.opList (congrFun (Dev.core_of_planeView hview) c)).trans (Dev.opList_of_steady hsteady c)
  · rw [Dev.mem_setOpAt, Dev.owe_mem, ← Dev.mem_of_planeView hview]
end

/-! ### Arrival over the network (R172, R174, R347) -/

/-- What a transfer's faults leave: the registers, the crews' side, the memory. -/
def Dev.apartFaults (d : Dev) : SMap Word × CrewSide × Mem := (d.reg.regs, d.cw, d.mem)

theorem Dev.apartFaults_report (d : Dev) {r : FltRep} (h : r.src < 0x30) : (d.report r).apartFaults = d.apartFaults := by
  rw [Dev.apartFaults, d.report_regs h, Dev.report_cw, Dev.report_mem]
  rfl

theorem Dev.apartFaults_netMet (d : Dev) (net : NetErr) : (d.netMet net).apartFaults = d.apartFaults :=
  loopN_proj _ Dev.apartFaults (fun _ d => d.apartFaults_report (by simp)) ..

theorem Dev.apartFaults_nocCrc (d : Dev) : d.nocCrc.apartFaults = d.apartFaults := Dev.apartFaults_report _ (by simp)

theorem Dev.apartFaults_cmnFixed (d : Dev) (off n : Nat) : (d.cmnFixed off n).apartFaults = d.apartFaults :=
  loopN_proj _ Dev.apartFaults (fun _ d => d.apartFaults_report (by simp)) ..

section
variable {d e : Dev} (h : e.apartFaults = d.apartFaults)
include h

theorem Dev.rd_of_apartFaults : e.rd = d.rd :=
  funext fun a => congrArg (fun m => smGet regReset m a) (congrArg (fun x => x.1) h : e.reg.regs = d.reg.regs)
theorem Dev.cw_of_apartFaults : e.cw = d.cw := congrArg (fun x => x.2.1) h
theorem Dev.mem_of_apartFaults : e.mem = d.mem := congrArg (fun x => x.2.2) h
theorem Dev.core_of_apartFaults (c : Nat) : e.core c = d.core c :=
  congrArg (fun w : CrewSide => smGet core0 w.cores c) (Dev.cw_of_apartFaults h)
theorem Dev.rf_of_apartFaults : e.rf = d.rf := by
  funext a lo len
  rw [Dev.rf, Dev.rd_of_apartFaults h]
  rfl
theorem Dev.commonsOn_of_apartFaults : e.commonsOn = d.commonsOn := by
  unfold Dev.commonsOn
  rw [Dev.rd_of_apartFaults h]
theorem Dev.regionOk_of_apartFaults : e.regionOk = d.regionOk := by
  unfold Dev.regionOk Dev.commonsRegion Dev.creditAdmits Dev.creditRegion
  rw [Dev.rf_of_apartFaults h]
theorem Dev.putHeld_of_apartFaults : e.putHeld = d.putHeld := by
  unfold Dev.putHeld Dev.slotFull Dev.ringDesc
  simp only [Dev.core_of_apartFaults h, Dev.rf_of_apartFaults h]
end

theorem Dev.ctr_nocCrc_netMet (d : Dev) (net : NetErr) :
    ((d.netMet net).nocCrc).ctr FLT_NOC_CRC = ctrAdd (d.ctr FLT_NOC_CRC) 1 := by
  have hmem : FLT_NOC_CRC ∉ reportCtrs := by decide
  have hmet : (d.netMet net).ctr FLT_NOC_CRC = d.ctr FLT_NOC_CRC :=
    (loopN_proj _ (fun d : Dev => d.ctr FLT_NOC_CRC) (fun _ d => d.ctr_report_of_lt (by simp) hmem) ..).trans
      (d.ctr_bump_ne net.flits (by decide : FLT_NOC_CRC ≠ FLT_FLIT_REPLAY))
  rw [Dev.nocCrc, Dev.ctr_report_of_lt _ (by simp) hmem, Dev.ctr_bump_same, hmet]

/-- The commons are one memory: their addresses name no core. -/
theorem core_of_engDec_commons {a k off : Nat} (h : engDec a = some (2, k, off)) : k = 0 := by
  unfold engDec at h
  dsimp only at h
  split at h
  · cases h
  split at h
  · split at h <;> cases h
    rfl
  next hsp =>
  split at h
  · cases h
  split at h
  · cases h
  · simp only [Option.some.injEq, Prod.mk.injEq] at h
    exact absurd h.1 hsp

theorem engLocal_of_engDec {c a sp k off : Nat} (h : engDec a = some (sp, k, off)) (hsp : sp ≠ 2) :
    engLocal c a = decide (k = c) := by
  unfold engLocal
  rw [h]
  split
  · next h2 => exact absurd (congrArg Prod.fst (Option.some.inj h2)) hsp
  · next h2 =>
    cases h2
    rfl
  · next h2 => cases h2

/-- The plane that an address outside the commons names, seen from any core. -/
theorem planeOf_of_engDec {c a sp k off : Nat} (h : engDec a = some (sp, k, off)) (hsp : sp ≠ 2) :
    planeOf c a = some (k, decide (sp = 1), off) := by
  unfold planeOf
  rw [engLocal_of_engDec h hsp, h]
  split
  · next h2 => exact absurd (congrArg Prod.fst (Option.some.inj h2)) hsp
  · next h2 =>
    cases h2
    by_cases hk : k = c
    · simp [hk]
    · simp [hk]
  · next h2 => cases h2

/-- CREDIT_REGION is raised at the core that the address names. -/
theorem Dev.creditBad_plane (d : Dev) {c dst sp k off : Nat} (h : engDec dst = some (sp, k, off)) (hsp : sp ≠ 2) :
    d.creditBad c dst = d.tpFault k 7 (decide (sp = 1)) off 0 0x23 := by
  rw [Dev.creditBad, planeOf_of_engDec h hsp]

section
variable {d : Dev} {c i : Nat} {o : GsOp} {net : NetErr} (hup : d.engineUp c = true) (ho : (d.core c).opList[i]? = some o)
include hup ho

/-- A transfer whose CRC fails ends its operation. -/
theorem remoteArrive_bad (hnet : net.bad = true) (hstage : o.stage = .readNet ∨ (o.stage = .writeNet ∧ o.add = none))
    (ecc : Ecc) : remoteArrive c i net ecc d = ((d.netMet net).nocCrc).setOpAt c i (fun o => { o with stage := .done }) := by
  have hgo : ¬ (o.stage ≠ .readNet ∧ (o.stage ≠ .writeNet ∨ o.add.isSome)) := by
    rcases hstage with h | ⟨h, ha⟩
    · simp [h]
    · simp [h, ha]
  unfold remoteArrive
  rw [if_neg (ne_false_of_eq_true hup), ho]
  dsimp only
  rw [if_neg hgo, if_pos hnet]

section
variable (hnet : net.bad = false) (hstage : o.stage = .writeNet) (hadd : o.add = none)
include hnet hstage hadd

/-- A write that no region of its owner admits ends there. -/
theorem remoteArrive_refused (hreg : d.regionOk o = false) (ecc : Ecc) : remoteArrive c i net ecc d =
    ((d.netMet net).creditBad c o.dst).setOpAt c i (fun o => { o with stage := .done }) := by
  rw [← Dev.regionOk_of_apartFaults (d.apartFaults_netMet net)] at hreg
  unfold remoteArrive
  rw [if_neg (ne_false_of_eq_true hup), ho]
  dsimp only
  rw [if_neg (by simp [hstage, hadd]), if_neg (ne_true_of_eq_false hnet), if_neg (by simp [hstage]), if_pos hreg]

variable (hreg : d.regionOk o = true)
include hreg

/-- An admitted write to a plane waits there. -/
theorem remoteArrive_plane (hdst : ∀ x, engDec o.dst ≠ some (2, 0, x)) (ecc : Ecc) : remoteArrive c i net ecc d =
    (d.netMet net).toPlane c i (fun o => { o with stage := .writePlane }) := by
  rw [← Dev.regionOk_of_apartFaults (d.apartFaults_netMet net)] at hreg
  unfold remoteArrive
  rw [if_neg (ne_false_of_eq_true hup), ho]
  dsimp only
  rw [if_neg (by simp [hstage, hadd]), if_neg (ne_true_of_eq_false hnet), if_neg (by simp [hstage]),
    if_neg (ne_false_of_eq_true hreg)]
  split
  · next k off hd => exact absurd (core_of_engDec_commons hd ▸ hd) (hdst off)
  · rfl

/-- An admitted write to powered staging is applied at once. -/
theorem remoteArrive_staging {off : Nat} {ecc : Ecc} (hdst : engDec o.dst = some (2, 0, off)) (hheld : d.putHeld c i = false)
    (hoff : 0x6000000 ≤ off) (hon : d.commonsOn off = true) (hecc : ecc.unc = none) :
    let e := (d.netMet net).cmnFixed off ecc.corr
    remoteArrive c i net ecc d = (({ e with mem := memWrite e.mem (commonsAt off) o.data } : Dev).owe c o).setOpAt c i
      (fun o => { o with stage := .done }) := by
  have hmet := d.apartFaults_netMet net
  have hfixed : ((d.netMet net).cmnFixed off ecc.corr).commonsOn off = true := by
    rw [Dev.commonsOn_of_apartFaults ((Dev.apartFaults_cmnFixed ..).trans hmet), hon]
  rw [← Dev.regionOk_of_apartFaults hmet] at hreg
  rw [← Dev.putHeld_of_apartFaults hmet] at hheld
  rw [← Dev.commonsOn_of_apartFaults hmet] at hon
  unfold remoteArrive
  rw [if_neg (ne_false_of_eq_true hup), ho]
  dsimp only
  rw [if_neg (by simp [hstage, hadd]), if_neg (ne_true_of_eq_false hnet), if_neg (by simp [hstage]),
    if_neg (ne_false_of_eq_true hreg), hdst]
  change (if (d.netMet net).putHeld c i = true then _ else _) = _
  rw [if_neg (ne_true_of_eq_false hheld), if_pos (by simp [hon, hoff]), Dev.commonsEcc, hecc]
  change ((Dev.commonsWrite ((d.netMet net).cmnFixed off ecc.corr) c off o.data).owe c o).setOpAt _ _ _ = _
  rw [Dev.commonsWrite, if_neg (ne_false_of_eq_true hfixed), if_neg (by omega)]
end
end

/-! ### The commands -/

section
variable {d : Dev} {c i : Nat} {o : GsOp} (hup : d.engineUp c = true)
include hup

theorem accessPromote_other {word : Bool} {off len : Nat} (hfit : off + len ≤ planeSize word) :
    accessPromote c (.other word off len) d = d.promoteFreeze c word off len := by
  unfold accessPromote
  rw [if_neg (ne_false_of_eq_true hup)]
  exact if_neg (by omega)

variable (ho : (d.core c).opList[i]? = some o)
include ho

theorem accessPromote_op {k off : Nat} {word : Bool} (hstage : o.stage = .readPlane) (hprom : o.promoted = false)
    (hsrc : planeOf c o.src = some (k, word, off)) : accessPromote c (.op i) d =
      (d.promoteFreeze k word off o.len).setOpAt c i (fun o => { o with promoted := true }) := by
  have hspans : opSpans c o = [(k, word, off, o.len)] := by
    unfold opSpans
    rw [hstage]
    dsimp only
    rw [hsrc]
  unfold accessPromote
  rw [if_neg (ne_false_of_eq_true hup)]
  dsimp only
  rw [ho]
  dsimp only
  rw [hspans, if_neg (by simp [hprom])]
  rfl

variable (hserved : d.servedNow c i o = true)
include hserved

theorem unscheduledAccess_read (hstage : o.stage = .readPlane) (ecc : Ecc) :
    unscheduledAccess c i ecc d = d.serveRead c i o ecc := by
  unfold unscheduledAccess
  rw [if_neg (ne_false_of_eq_true hup), ho]
  dsimp only
  rw [if_neg (ne_false_of_eq_true hserved), hstage]

theorem unscheduledAccess_write (hstage : o.stage = .writePlane) (hheld : d.putHeld c i = false) (ecc : Ecc) :
    unscheduledAccess c i ecc d = d.serveWrite c i o ecc := by
  unfold unscheduledAccess
  rw [if_neg (ne_false_of_eq_true hup), ho]
  dsimp only
  rw [if_neg (ne_false_of_eq_true hserved), hstage]
  exact if_neg (ne_true_of_eq_false hheld)
end

section
variable {s : State} {c : Fin 32} {i : Nat} {net : NetErr} {ecc : Ecc} {e : Dev}

theorem exec_accessPromote {q : PlaneReq} (h : accessPromote c.val q s.dev = e) :
    exec (.accessPromote c q) s = .next { s with dev := s.dev.commit { cw := true } e } := by
  rw [← h]
  rfl

theorem exec_unscheduledAccess (h : unscheduledAccess c.val i ecc s.dev = e) :
    exec (.unscheduledAccess c i ecc) s = s.coresOut e := by
  rw [← h]
  rfl

theorem exec_remoteAccessArrive (h : remoteArrive c.val i net ecc s.dev = e) :
    exec (.remoteAccessArrive c i net ecc) s = s.coresOut e := by
  rw [← h]
  rfl
end

end Sys2Proof.Machine

open Sys2Proof Sys2Proof.Machine

/-- Settles O34: an engine's operation is found again behind the passage of cycles and the faults of its transfer, which leave the
order of its core's operations; a read sees, and a write changes, its plane as the cycles reached leave it. -/
theorem planeAccesses : Obligations.PlaneAccesses := by
  intro s c i k off len word o net ecc d ops freezes hup
  have hmet := d.apartFaults_netMet net
  refine ⟨fun hfit => ⟨_, exec_accessPromote (accessPromote_other hup hfit), ?_, Dev.commit_mem ..⟩,
    fun ho => ⟨?_, ?_, ?_, ?_, ?_, ?_, ?_⟩⟩
  · exact (Dev.ctr_commit ..).trans (Dev.ctr_promoteFreeze _ c.isLt ..)
  · intro e hserved hstage hsrc hfit hon
    obtain ⟨hmem, hop⟩ := Dev.serveRead_none c.isLt ho hsrc hfit hon
    exact ⟨_, exec_unscheduledAccess (unscheduledAccess_read hup ho hserved hstage {}), (Dev.commit_mem ..).trans hmem,
      Dev.opBecomes_commit rfl hop⟩
  · intro ws e hserved hstage hheld hok
    obtain ⟨hop, hmem⟩ := Dev.serveWrite_none c.isLt ho hok
    exact ⟨_, exec_unscheduledAccess (unscheduledAccess_write hup ho hserved hstage hheld {}), Dev.opBecomes_commit rfl hop,
      (Dev.commit_mem ..).trans hmem⟩
  · intro hstage hprom hsrc
    exact ⟨_, exec_accessPromote (accessPromote_op hup ho hstage hprom hsrc),
      Dev.opBecomes_commit rfl (Dev.opBecomes_setOpAt (congrArg CoreChk.opList (Dev.core_promoteFreeze ..)) ho),
      (Dev.ctr_commit ..).trans (Dev.ctr_promoteFreeze _ (planeOf_lt c.isLt hsrc) ..), Dev.commit_mem ..⟩
  · intro hnet hstage hadd hreg hdst
    refine ⟨_, exec_remoteAccessArrive (remoteArrive_plane hup ho hnet hstage hadd hreg hdst ecc),
      Dev.opBecomes_commit rfl ?_, (Dev.commit_mem ..).trans (Dev.mem_of_apartFaults hmet :)⟩
    rw [← congrArg CrewSide.arrivals (Dev.cw_of_apartFaults hmet)]
    exact Dev.opBecomes_toPlane (congrArg CoreChk.opList (Dev.core_of_apartFaults hmet c.val)) ho
  · intro hnet hstage hadd hreg hdst hheld hoff hon hecc
    have hfixed := (Dev.apartFaults_cmnFixed (d.netMet net) off ecc.corr).trans hmet
    refine ⟨_, exec_remoteAccessArrive (remoteArrive_staging hup ho hnet hstage hadd hreg hdst hheld hoff hon hecc),
      Dev.opBecomes_commit rfl (Dev.opBecomes_setOpAt ?_ ho), ?_⟩
    · rw [Dev.core_owe]
      exact congrArg CoreChk.opList (Dev.core_of_apartFaults hfixed c.val)
    · rw [Dev.commit_mem, Dev.mem_setOpAt, Dev.owe_mem, Dev.mem_of_apartFaults hfixed]
      rfl
  · intro sp hnet hstage hadd hreg hdst hsp
    refine ⟨_, exec_remoteAccessArrive (remoteArrive_refused hup ho hnet hstage hadd hreg ecc),
      Dev.opBecomes_commit rfl (Dev.opBecomes_setOpAt ?_ ho), ?_, ?_⟩
    · rw [Dev.creditBad_plane _ hdst hsp, Dev.core, Dev.tpFault_cw]
      exact congrArg CoreChk.opList (Dev.core_of_apartFaults hmet c.val)
    · rw [Dev.commit_mem, Dev.mem_setOpAt, Dev.creditBad_plane _ hdst hsp, Dev.mem_tpFault]
      exact (Dev.mem_of_apartFaults hmet :)
    · rw [Dev.rd_commit, Dev.rd_setOpAt, Dev.creditBad_plane _ hdst hsp]
      exact Dev.faultBit_tpFault _ _ _ _ _ (by decide) (by decide)
  · intro hbad hstage
    have hlost := (Dev.apartFaults_nocCrc (d.netMet net)).trans hmet
    exact ⟨_, exec_remoteAccessArrive (remoteArrive_bad hup ho hbad hstage ecc),
      Dev.opBecomes_commit rfl (Dev.opBecomes_setOpAt (congrArg CoreChk.opList (Dev.core_of_apartFaults hlost c.val)) ho),
      (Dev.commit_mem ..).trans (Dev.mem_of_apartFaults hlost :), (Dev.ctr_commit ..).trans (d.ctr_nocCrc_netMet net)⟩
end

section
/-! SUPPORT. Operations of an engine issued and completed, their credits, and adds that arrive (R174, R200, R202, R207). -/

namespace Sys2Proof.Machine

/-! ### A fault of a core's engine (R210) -/

@[simp] theorem Dev.agFault_cw (d : Dev) (c b s : Nat) : (d.agFault c b s).cw = d.cw := Dev.report_cw ..

/-- A fault sets its bit. -/
theorem Dev.faultBit_agFault (d : Dev) (c : Nat) {b s : Nat} (hb : b < 32) (hs : s < 0x30) :
    ((d.agFault c b s).rd (AG_CORE_FAULT c)).getLsbD b = true := by
  rw [Dev.agFault, Dev.rd_report _ (by exact hs), Dev.hwOr, Dev.rd_hw_same, BitVec.getLsbD_or, BitVec.getLsbD_ofNat]
  simp [hb, Nat.testBit_two_pow_self]

/-! ### GS_OP_ISSUE (R174, R202) -/

/-- The clocks waited are counted alone. -/
theorem Dev.apartFaults_engineWaits (d : Dev) (c n : Nat) : (d.engineWaits c n).apartFaults = d.apartFaults := by
  unfold Dev.engineWaits
  dsimp only
  split <;> split <;> rfl

theorem Dev.ctr_engineWaits_ne (d : Dev) (c n : Nat) {a : Nat} (hw : a ≠ WP_CREDIT_WAIT c) (hf : a ≠ AG_OPS_FULL c) :
    (d.engineWaits c n).ctr a = d.ctr a := by
  unfold Dev.engineWaits
  dsimp only
  split <;> split <;> simp only [Dev.ctr_bump_ne _ _ hw, Dev.ctr_bump_ne _ _ hf]

/-- With 512 operations outstanding the clocks waited count as such. -/
theorem Dev.ctr_engineWaits_full {d : Dev} {c : Nat} (h : 512 ≤ (d.core c).outstanding) (n : Nat) :
    (d.engineWaits c n).ctr (AG_OPS_FULL c) = ctrAdd (d.ctr (AG_OPS_FULL c)) n := by
  have hne : AG_OPS_FULL c ≠ WP_CREDIT_WAIT c := by simp only [AG_OPS_FULL, WP_CREDIT_WAIT]; omega
  unfold Dev.engineWaits
  dsimp only
  rw [if_pos h, Dev.ctr_bump_same]
  split
  · rw [Dev.ctr_bump_ne _ _ hne]
  · rfl

section
variable {d e : Dev} (h : e.apartFaults = d.apartFaults)
include h

theorem Dev.vol_of_apartFaults (c : Nat) : e.vol c = d.vol c :=
  congrArg (fun w : CrewSide => smGet vol0 w.vol c) (Dev.cw_of_apartFaults h)
theorem Dev.grantOf_of_apartFaults : e.grantOf = d.grantOf := by
  unfold Dev.grantOf Dev.commonsRegion Dev.creditRegion
  rw [Dev.rf_of_apartFaults h]
theorem Dev.mayPay_of_apartFaults (c : Nat) : e.mayPay c = d.mayPay c := by
  unfold Dev.mayPay Dev.credLeft
  simp only [Dev.grantOf_of_apartFaults h, Dev.vol_of_apartFaults h]
end

theorem Dev.mayPay_engineWaits (d : Dev) (c n k : Nat) : (d.engineWaits c n).mayPay k = d.mayPay k :=
  Dev.mayPay_of_apartFaults (d.apartFaults_engineWaits c n) k

section
variable {d : Dev} {c i : Nat} {o : GsOp} {q : OpIssue} (hup : d.engineUp c = true)
include hup

theorem gsOpIssue_forced (hf : q.forced = true) (hfull : 512 ≤ (d.core c).outstanding) :
    gsOpIssue c q d = (d.engineWaits c q.clocks).agFault c 2 0x23 := by
  unfold gsOpIssue
  rw [if_neg (ne_false_of_eq_true hup)]
  exact if_pos ⟨hf, hfull⟩

variable (hroom : q.forced = true → (d.core c).outstanding < 512)
include hroom

theorem gsOpIssue_send (hi : (d.core c).opList.findIdx (fun o => d.mayPay c o) = i) (ho : (d.core c).opList[i]? = some o) :
    gsOpIssue c q d = (d.engineWaits c q.clocks).sendWrite c i o := by
  unfold gsOpIssue
  dsimp only
  rw [if_neg (ne_false_of_eq_true hup), if_neg (fun h => absurd (hroom h.1) (Nat.not_lt.2 h.2)),
    Dev.mayPay_engineWaits, hi, ho]

section
variable (hpay : ∀ x ∈ (d.core c).opList, d.mayPay c x = false)
include hpay

theorem gsOpIssue_issue (hi : (d.core c).opList.findIdx (fun o => decide (o.stage = .idle)) = i)
    (ho : (d.core c).opList[i]? = some o) (hout : (d.core c).outstanding < 512) :
    gsOpIssue c q d = (d.engineWaits c q.clocks).issueOp c i o := by
  unfold gsOpIssue
  dsimp only
  rw [if_neg (ne_false_of_eq_true hup), if_neg (fun h => absurd (hroom h.1) (Nat.not_lt.2 h.2)),
    Dev.mayPay_engineWaits, List.findIdx_eq_length_of_false hpay, List.getElem?_length]
  dsimp only
  rw [hi, ho]
  exact if_neg (by omega)

theorem gsOpIssue_full (hfull : 512 ≤ (d.core c).outstanding) : gsOpIssue c q d = d.engineWaits c q.clocks := by
  unfold gsOpIssue
  dsimp only
  rw [if_neg (ne_false_of_eq_true hup), if_neg (fun h => absurd (hroom h.1) (Nat.not_lt.2 h.2)),
    Dev.mayPay_engineWaits, List.findIdx_eq_length_of_false hpay, List.getElem?_length]
  dsimp only
  split
  · rfl
  · exact if_pos hfull
end
end

/-- One more credit of a counter in use. -/
def Dev.useCredit (d : Dev) (c key : Nat) : Dev :=
  let v := d.vol c
  d.setVol c { v with cred := smSet (fun _ => 0) v.cred key (smGet (fun _ => 0) v.cred key + 1) }

theorem Dev.cred_useCredit (d : Dev) (c key : Nat) :
    smGet (fun _ => 0) ((d.useCredit c key).vol c).cred key = smGet (fun _ => 0) (d.vol c).cred key + 1 := by
  simp only [Dev.useCredit, Dev.vol_setVol_same, smGet_smSet_same]

theorem Dev.core_useCredit (d : Dev) (c key e : Nat) : (d.useCredit c key).core e = d.core e := rfl
theorem Dev.ctr_useCredit (d : Dev) (c key a : Nat) : (d.useCredit c key).ctr a = d.ctr a := rfl
theorem Dev.ctr_setOpAt (d : Dev) (c i a : Nat) (f : GsOp → GsOp) : (d.setOpAt c i f).ctr a = d.ctr a := rfl
theorem Dev.ctr_toPlane (d : Dev) (c i a : Nat) (f : GsOp → GsOp) : (d.toPlane c i f).ctr a = d.ctr a := rfl
theorem Dev.vol_setOpAt (d : Dev) (c i e : Nat) (f : GsOp → GsOp) : (d.setOpAt c i f).vol e = d.vol e := rfl

/-- A write sent takes the credit of its entry (R174). -/
theorem Dev.sendWrite_credit {d : Dev} {c i : Nat} {o : GsOp} {e : Nat × Bool} (hcred : o.credit = some e)
    (hgrant : d.grantOf (credKey o.dst e) ≠ 0) :
    d.sendWrite c i o = ((d.useCredit c (credKey o.dst e)).bump (WP_REMOTE_WR c)).setOpAt c i
      (fun o => { o with stage := .writeNet }) := by
  unfold Dev.sendWrite
  rw [hcred]
  dsimp only
  rw [if_neg hgrant]
  rfl

/-- An operation that fetches is issued to the plane of its source, or to the network (R202). -/
theorem Dev.issueOp_fetch {d : Dev} {c i : Nat} {o : GsOp} (hadd : o.add = none) (ho : (d.core c).opList[i]? = some o) :
    opBecomes (d.core c) ((d.issueOp c i o).core c) i (if engLocal c o.src then
        { o with stage := .readPlane, since := d.cw.arrivals, promoted := false }
      else { o with stage := .readNet }) ∧
    (d.issueOp c i o).ctr (AG_OPS c) = ctrAdd (d.ctr (AG_OPS c)) 1 := by
  have hne : AG_OPS c ≠ WP_REMOTE_RD c := by simp only [AG_OPS, WP_REMOTE_RD]; omega
  have hissue : d.issueOp c i o = if engLocal c o.src then
        (d.bump (AG_OPS c)).toPlane c i (fun o => { o with stage := .readPlane })
      else ((d.bump (AG_OPS c)).bump (WP_REMOTE_RD c)).setOpAt c i (fun o => { o with stage := .readNet }) := by
    unfold Dev.issueOp
    rw [hadd]
  rw [hissue]
  split
  · refine ⟨Dev.opBecomes_toPlane (e := d.bump (AG_OPS c)) rfl ho, ?_⟩
    rw [Dev.ctr_toPlane, Dev.ctr_bump_same]
  · refine ⟨Dev.opBecomes_setOpAt (e := (d.bump (AG_OPS c)).bump (WP_REMOTE_RD c)) rfl ho, ?_⟩
    rw [Dev.ctr_setOpAt, Dev.ctr_bump_ne _ _ hne, Dev.ctr_bump_same]

/-! ### GS_OP_COMPLETE (R169, R200) -/

/-- The last operation of a descriptor with PUT completes with its slot. -/
theorem gsOpComplete_last {d : Dev} {c i r sl e : Nat} {o : GsOp} {acts : List GsAct} (hup : d.engineUp c = true)
    (ho : (d.core c).opList[i]? = some o) (hdone : o.stage = .done)
    (hlast : opsDone (d.core c).acts i = (acts, true, some (r, sl, e))) (hfull : d.slotFull c r sl = false) :
    gsOpComplete c i d = ((d.setCore c { d.core c with acts := acts }).markFull c r sl e).bump (AG_DESC_DONE c) := by
  unfold gsOpComplete
  rw [if_neg (ne_false_of_eq_true hup)]
  dsimp only
  rw [ho]
  dsimp only
  rw [if_neg (not_not.2 hdone), hlast]
  exact if_neg (ne_true_of_eq_false hfull)

theorem Dev.core_markFull (d : Dev) (c n s e : Nat) : (d.markFull c n s e).core c =
    (d.core c).setTag ((d.ringDesc c n).tagBase + s) { full := true, epoch := e, at_ := d.tm.stroke } :=
  Dev.core_setCore_same ..

/-- A slot marked FULL is FULL. -/
theorem Dev.slotFull_markFull (d : Dev) (c n s e : Nat) : (d.markFull c n s e).slotFull c n s = true := by
  rw [Dev.slotFull, Dev.core_markFull]
  exact congrArg SlotTag.full (CoreChk.tagAt_setTag_same ..)

theorem Dev.slotFull_commit (w : Writes) (old new : Dev) (c n s : Nat) (h : w.cw = true) :
    (Dev.commit w old new).slotFull c n s = new.slotFull c n s := by
  unfold Dev.slotFull Dev.ringDesc Dev.rf
  simp only [Dev.rd_commit, Dev.core_commit _ _ _ _ h]

/-! ### CREDIT_RETURN (R174) -/

section
variable {d : Dev} {c dst entry : Nat} (hup : d.engineUp c = true) (hdst : dst ≤ 32) (hentry : entry < 16)
include hup hdst hentry

theorem creditReturn_above (hused : smGet (fun _ => 0) (d.vol c).cred (16 * dst + entry) = 0) :
    creditReturn c dst entry d = d.tpFault c 6 false 0 0 0x23 := by
  unfold creditReturn
  rw [if_neg (by simp only [hup, reduceCtorEq, false_or]; omega)]
  exact if_pos hused

theorem creditReturn_owed (hused : 0 < smGet (fun _ => 0) (d.vol c).cred (16 * dst + entry))
    (howed : 0 < smGet (fun _ => 0) (d.vol c).owed (16 * dst + entry)) :
    creditReturn c dst entry d = d.setVol c { d.vol c with
      cred := smSet (fun _ => 0) (d.vol c).cred (16 * dst + entry) (smGet (fun _ => 0) (d.vol c).cred (16 * dst + entry) - 1)
      owed := smSet (fun _ => 0) (d.vol c).owed (16 * dst + entry)
        (smGet (fun _ => 0) (d.vol c).owed (16 * dst + entry) - 1) } := by
  unfold creditReturn
  rw [if_neg (by simp only [hup, reduceCtorEq, false_or]; omega)]
  dsimp only
  rw [if_neg (by omega), if_neg (by omega)]
end

/-! ### BEV_ADD_ARRIVE (R207, R347) -/

theorem Dev.ctr_netMet (d : Dev) (net : NetErr) {a : Nat} (ha : a ∉ reportCtrs) (hr : a ≠ FLT_FLIT_REPLAY) :
    (d.netMet net).ctr a = d.ctr a :=
  (loopN_proj _ (fun d : Dev => d.ctr a) (fun _ d => d.ctr_report_of_lt (by simp) ha) ..).trans (d.ctr_bump_ne net.flits hr)

@[simp] theorem Dev.netMet_cm (d : Dev) (net : NetErr) : (d.netMet net).cm = d.cm :=
  loopN_proj _ Dev.cm (fun _ d => d.report_cm _) ..

@[simp] theorem Dev.netMet_stroke (d : Dev) (net : NetErr) : (d.netMet net).tm.stroke = d.tm.stroke :=
  loopN_proj _ (fun d : Dev => d.tm.stroke) (fun _ d => d.report_tm_stroke _) ..

theorem Dev.ctr_nocCrc (d : Dev) : d.nocCrc.ctr FLT_NOC_CRC = ctrAdd (d.ctr FLT_NOC_CRC) 1 := by
  rw [Dev.nocCrc, Dev.ctr_report_of_lt _ (by simp) (by decide), Dev.ctr_bump_same]

/-- A device that an add of an operation has reached: its operation is done. -/
def Dev.addMet (d : Dev) (c i : Nat) (net : NetErr) : Dev := (d.netMet net).setOpAt c i (fun o => { o with stage := .done })

/-- An add that comes too late, discarded. -/
def Dev.addLate (d : Dev) (c : Nat) (a : CellAdd) : Dev :=
  ((d.bump AG_BEV_LATE).hwOr (AG_CORE_FAULT c) 16).report { src := 0x18, unit := unitOf 0 c, cancel := [a.id] }

theorem bevAddArrive_reached {d : Dev} {c i : Nat} {o : GsOp} {a : CellAdd} {net : NetErr} (hup : d.engineUp c = true)
    (ho : (d.core c).opList[i]? = some o) (hadd : o.add = some a) (hstage : o.stage = .writeNet) :
    bevAddArrive c i net d = if net.bad then (d.addMet c i net).nocCrc
      else if sOlder a.at_ d.tm.stroke then (d.addMet c i net).addLate c a
      else { d.addMet c i net with cm := { d.cm with adds := d.cm.adds ++ [a] } } := by
  rw [← d.netMet_stroke net, ← d.netMet_cm net]
  unfold bevAddArrive
  rw [if_neg (ne_false_of_eq_true hup), ho]
  dsimp only
  rw [hadd]
  dsimp only
  rw [if_neg (not_not.2 hstage)]
  rfl

theorem Dev.opBecomes_addMet {d : Dev} {c i : Nat} {o : GsOp} (ho : (d.core c).opList[i]? = some o) (net : NetErr) :
    opBecomes (d.core c) ((d.addMet c i net).core c) i { o with stage := .done } :=
  Dev.opBecomes_setOpAt (congrArg CoreChk.opList (Dev.core_of_apartFaults (d.apartFaults_netMet net) c)) ho

theorem Dev.addLate_cm (d : Dev) (c : Nat) (a : CellAdd) : (d.addLate c a).cm = d.cm := Dev.report_cm ..

theorem Dev.ctr_addLate (d : Dev) (c : Nat) (a : CellAdd) :
    (d.addLate c a).ctr AG_BEV_LATE = ctrAdd (d.ctr AG_BEV_LATE) 1 := by
  rw [Dev.addLate, Dev.ctr_report_of_lt _ (by simp) (by decide)]
  exact Dev.ctr_bump_same ..

theorem Dev.faultBit_addLate (d : Dev) (c : Nat) (a : CellAdd) :
    ((d.addLate c a).rd (AG_CORE_FAULT c)).getLsbD 4 = true := by
  rw [Dev.addLate, Dev.rd_report _ (by simp), Dev.hwOr, Dev.rd_hw_same, BitVec.getLsbD_or, BitVec.getLsbD_ofNat]
  simp [show Nat.testBit 16 4 = true by decide]

/-! ### The commands -/

section
variable {s : State} {c : Fin 32} {e : Dev}

theorem exec_gsOpIssue {q : OpIssue} (h : gsOpIssue c.val q s.dev = e) :
    exec (.gsOpIssue c q) s = .next { s with dev := s.dev.commit { cw := true, rl := true } e } := by
  rw [← h]
  rfl

theorem exec_gsOpComplete {i : Nat} (h : gsOpComplete c.val i s.dev = e) :
    exec (.gsOpComplete c i) s = .next { s with dev := s.dev.commit { cw := true } e } := by
  rw [← h]
  rfl

theorem exec_creditReturn {dst : Fin 33} {entry : Fin 16} (h : creditReturn c.val dst.val entry.val s.dev = e) :
    exec (.creditReturn c dst entry) s = .next { s with dev := s.dev.commit { cw := true } e } := by
  rw [← h]
  rfl

theorem exec_bevAddArrive {i : Nat} {net : NetErr} (h : bevAddArrive c.val i net s.dev = e) :
    exec (.bevAddArrive c i net) s = .next { s with dev := s.dev.commit { cm := true, cw := true } e } := by
  rw [← h]
  rfl
end

end Sys2Proof.Machine

open Sys2Proof Sys2Proof.Machine

/-- Settles O33: the counts of waiting change no choice of operation; each choice changes its operation, its credit or its slot
alone, and what the network's faults leave lies apart from the crews. -/
theorem engineOperations : Obligations.EngineOperations := by
  intro s c q i o dst entry net d k key used owed hup
  have hwaits := d.apartFaults_engineWaits c.val q.clocks
  have hcore : (d.engineWaits c.val q.clocks).core c.val = k := Dev.core_of_apartFaults hwaits c.val
  have hcount : ∀ {a}, a ≠ WP_CREDIT_WAIT c.val → a ≠ AG_OPS_FULL c.val → (d.engineWaits c.val q.clocks).ctr a = d.ctr a :=
    d.ctr_engineWaits_ne c.val q.clocks
  refine ⟨fun e hroom hi ho hcred hgrant => ?_, fun hpay hi ho hadd hout => ?_, fun hf hpay hfull => ?_, fun hf hfull => ?_,
    fun acts r sl e ho hdone hlast hfull => ?_, fun hused howed => ?_, fun hused => ?_, fun a ho hadd hstage => ?_⟩
  · have hgrant' : (d.engineWaits c.val q.clocks).grantOf (credKey o.dst e) ≠ 0 := by
      rwa [Dev.grantOf_of_apartFaults hwaits]
    refine ⟨_, exec_gsOpIssue ((gsOpIssue_send hup hroom hi ho).trans (Dev.sendWrite_credit hcred hgrant')),
      Dev.opBecomes_commit rfl (Dev.opBecomes_setOpAt ?_ ho), ?_, ?_, Dev.commit_mem ..⟩
    · rw [Dev.core_bump, Dev.core_useCredit, hcore]
    · simp only [used]
      rw [Dev.vol_commit _ _ _ _ rfl, Dev.vol_setOpAt, Dev.vol_bump, Dev.cred_useCredit, Dev.vol_of_apartFaults hwaits]
    · rw [Dev.ctr_commit, Dev.ctr_setOpAt, Dev.ctr_bump_same, Dev.ctr_useCredit, hcount]
      all_goals
        simp only [WP_REMOTE_WR, WP_CREDIT_WAIT, AG_OPS_FULL]
        omega
  · obtain ⟨hop, hctr⟩ := Dev.issueOp_fetch (d := d.engineWaits c.val q.clocks) hadd (hcore ▸ ho)
    rw [hcore, Dev.cw_of_apartFaults hwaits] at hop
    refine ⟨_, exec_gsOpIssue (gsOpIssue_issue hup (fun _ => hout) hpay hi ho hout), Dev.opBecomes_commit rfl hop, ?_,
      Dev.commit_mem ..⟩
    rw [Dev.ctr_commit, hctr, hcount]
    all_goals
      simp only [AG_OPS, WP_CREDIT_WAIT, AG_OPS_FULL]
      omega
  · refine ⟨_, exec_gsOpIssue (gsOpIssue_full hup (fun h => absurd (hf.symm.trans h) (by decide)) hpay hfull), ?_, ?_⟩
    · rw [Dev.commit_cw]
      exact (Dev.cw_of_apartFaults hwaits :)
    · exact (Dev.ctr_commit ..).trans (Dev.ctr_engineWaits_full hfull _)
  · refine ⟨_, exec_gsOpIssue (gsOpIssue_forced hup hf hfull), ?_, ?_⟩
    · rw [Dev.commit_cw, Dev.agFault_cw]
      exact (Dev.cw_of_apartFaults hwaits :)
    · rw [Dev.rd_commit]
      exact Dev.faultBit_agFault _ _ (by decide) (by decide)
  · refine ⟨_, exec_gsOpComplete (gsOpComplete_last hup ho hdone hlast hfull), ?_, ?_, ?_, Dev.commit_mem ..⟩
    · rw [Dev.core_commit _ _ _ _ rfl, Dev.core_bump, Dev.core_markFull, Dev.core_setCore_same]
      rfl
    · rw [Dev.slotFull_commit _ _ _ _ _ _ rfl]
      exact Dev.slotFull_markFull ..
    · exact (Dev.ctr_commit ..).trans (Dev.ctr_bump_same ..)
  · refine ⟨_, exec_creditReturn (creditReturn_owed hup (Nat.le_of_lt_succ dst.isLt) entry.isLt hused howed), ?_, ?_, ?_⟩
    · simp only [used]
      rw [Dev.vol_commit _ _ _ _ rfl, Dev.vol_setVol_same]
      exact smGet_smSet_same ..
    · simp only [owed]
      rw [Dev.vol_commit _ _ _ _ rfl, Dev.vol_setVol_same]
      exact smGet_smSet_same ..
    · rw [Dev.commit_cw]
      rfl
  · refine ⟨_, exec_creditReturn (creditReturn_above hup (Nat.le_of_lt_succ dst.isLt) entry.isLt hused), ?_, ?_⟩
    · rw [Dev.commit_cw]
      exact Dev.tpFault_cw ..
    · rw [Dev.rd_commit]
      exact Dev.faultBit_tpFault _ _ _ _ _ (by decide) (by decide)
  · have hreach := bevAddArrive_reached (net := net) hup ho hadd hstage
    have hmet := Dev.opBecomes_addMet ho net
    refine ⟨fun hbad hold => ?_, fun hbad hold => ?_, fun hbad => ?_⟩
    · rw [hbad, hold, if_neg Bool.false_ne_true, if_neg Bool.false_ne_true] at hreach
      refine ⟨_, exec_bevAddArrive hreach, ?_, Dev.opBecomes_commit rfl hmet⟩
      rw [Dev.commit_cm]
      rfl
    · rw [hbad, hold, if_neg Bool.false_ne_true, if_pos rfl] at hreach
      refine ⟨_, exec_bevAddArrive hreach, ?_, ?_, ?_⟩
      · rw [Dev.commit_cm]
        exact (Dev.addLate_cm ..).trans (d.netMet_cm net)
      · rw [Dev.ctr_commit, Dev.ctr_addLate, Dev.addMet, Dev.ctr_setOpAt, d.ctr_netMet net (by decide) (by decide)]
      · rw [Dev.rd_commit]
        exact Dev.faultBit_addLate ..
    · rw [hbad, if_pos rfl] at hreach
      refine ⟨_, exec_bevAddArrive hreach, ?_, Dev.opBecomes_commit rfl ?_, ?_⟩
      · rw [Dev.commit_cm]
        exact (Dev.report_cm ..).trans (d.netMet_cm net)
      · rw [Dev.core_of_apartFaults (Dev.apartFaults_nocCrc _)]
        exact hmet
      · rw [Dev.ctr_commit, Dev.ctr_nocCrc, Dev.addMet, Dev.ctr_setOpAt, d.ctr_netMet net (by decide) (by decide)]
end

section
/-! SUPPORT. Checks of the engine's queue and of adaptation steps (R170, R201, R252), and the reads of a core itself (R164,
R286). -/

namespace Sys2Proof.Machine

/-! ### Checks that hold, and checks that wait (R170) -/

/-- A core whose check at a schedule cycle holds: its wait over, counted as freeze cycles. -/
def Dev.passed (d : Dev) (c cyc ring : Nat) (isGet : Bool) (waited ctr : Nat) : Dev :=
  let e := d.reach c cyc
  let cr := e.crew (c / 8)
  let n := if cr.wait.contains (c, cyc, ring, isGet) then min waited 64 else 0
  ((e.setCrew (c / 8) { cr with wait := cr.wait.filter (fun x => decide (x ≠ (c, cyc, ring, isGet))) }).bump ctr n).freeze c
    (d.absCyc c cyc) n

theorem checked_passed {d : Dev} {c cyc ring waited ctr : Nat} {isGet : Bool} {ok : Dev → Bool} (h : ok (d.reach c cyc) = true)
    (f : Nat → Dev → Dev) :
    checked c cyc ring isGet waited ctr ok f d = f (d.absCyc c cyc) (d.passed c cyc ring isGet waited ctr) := by
  unfold checked
  dsimp only
  rw [if_pos h]
  rfl

theorem checked_waiting {d : Dev} {c cyc ring waited ctr : Nat} {isGet : Bool} {ok : Dev → Bool}
    (h : ok (d.reach c cyc) = false) (f : Nat → Dev → Dev) : checked c cyc ring isGet waited ctr ok f d =
      (d.reach c cyc).setCrew (c / 8) (((d.reach c cyc).crew (c / 8)).addWait (c, cyc, ring, isGet)) := by
  unfold checked
  dsimp only
  rw [if_neg (ne_true_of_eq_false h)]

section
variable {γ : Type} (g : Dev → γ) (hcrew : ∀ (d : Dev) k x, g (d.setCrew k x) = g d)
  (hbump : ∀ (d : Dev) a n, g (d.bump a n) = g d)
include hcrew hbump

/-- A freeze changes crews and counters alone. -/
theorem Dev.freeze_proj (d : Dev) (c at_ n : Nat) : g (d.freeze c at_ n) = g d := by
  unfold Dev.freeze
  split
  · rfl
  · exact (hbump ..).trans (hcrew ..)

/-- So does a check that holds. -/
theorem Dev.passed_proj (d : Dev) (c cyc ring : Nat) (isGet : Bool) (waited ctr : Nat) :
    g (d.passed c cyc ring isGet waited ctr) = g d :=
  (Dev.freeze_proj g hcrew hbump ..).trans ((hbump ..).trans ((hcrew ..).trans (hcrew ..)))
end

/-- An instruction whose check fails leaves its crew waiting, whatever else its command may act on. -/
theorem waits_of_not_ok {s : State} {p : At} {n waited ctr : Nat} {isGet : Bool} {ok : Dev → Bool} {f : Nat → Dev → Dev}
    {w : Writes} (hw : w.cw = true) (hok : ok (s.dev.brought p) = false) :
    waits s { s with dev := s.dev.commit w (checked p.core.val p.cyc n isGet waited ctr ok f (s.dev.landed p)) } p n isGet := by
  obtain ⟨hwait, hcores⟩ := checked_of_not_ok (d := s.dev.landed p) (c := p.core.val) (cyc := p.cyc) (ring := n)
    (waited := waited) (ctr := ctr) (isGet := isGet) (ok := ok) hok f
  refine ⟨?_, ?_⟩
  · rw [Dev.crew_commit _ _ _ _ hw]
    exact hwait
  · rw [Dev.commit_cw, hw]
    exact hcores.trans (Dev.cores_of_besideCrews (Dev.besideCrews_reach ..)).symm

theorem Dev.runsCheck_pstoreCorr (d : Dev) (c cyc n k m : Nat) : (d.pstoreCorr c cyc n).runsCheck k m = d.runsCheck k m :=
  Dev.pstoreCorr_proj (fun d => d.runsCheck k m) (fun d u => by
    obtain ⟨l, hl⟩ := d.report_corrected_flt { src := 0x05, unit := u } rfl
    simp [Dev.runsCheck, Dev.crewsRun, Dev.accel, Dev.live, hl, FltSt.restarting]) (fun _ _ _ => rfl) d c cyc n

/-- An instruction whose check may be tried finds its core landed (R158, R308). -/
theorem Dev.executesCheck_cases {d : Dev} {i : Instr} {p : At} (h : d.executesCheck i = true)
    (hp : i.coreOp.map CoreOp.loc = some p) : d.fetchedWhole i = true ∧
      (d.pstoreCorr p.core.val p.cyc p.corr).runsCheck p.core.val p.cyc = true ∧
      (d.pstoreCorr p.core.val p.cyc p.corr).sync p.core.val
        ((d.pstoreCorr p.core.val p.cyc p.corr).absCyc p.core.val p.cyc) = d.landed p := by
  obtain ⟨o, ho, rfl⟩ := Option.map_eq_some_iff.1 hp
  unfold Dev.executesCheck at h
  rw [ho] at h
  simp only [Bool.and_eq_true] at h
  rw [Dev.runsCheck_pstoreCorr, Dev.absCyc_pstoreCorr]
  exact ⟨h.1, h.2, rfl⟩

/-! ### Reads of a core itself (R164, R286) -/

/-- An access that lies in its plane, powered, finds its offset. -/
theorem Dev.vecAt_of_planeOk {d : Dev} {c a n off : Nat} {word : Bool} (h : d.planeOk c word a n off) :
    d.vecAt c word a n = (some off, d) := by
  obtain ⟨hoff, hfit, hon⟩ := h
  unfold Dev.vecAt
  rw [hoff]
  dsimp only
  rw [if_neg (by omega), if_neg (ne_false_of_eq_true hon)]

/-- Where no error stands, a read is its bytes. -/
theorem Dev.errsAt_nil {d : Dev} (h : d.cw.upset = []) (sp core off n : Nat) : d.errsAt sp core off n = ([], d) := by
  unfold Dev.errsAt
  rw [h]
  refine Prod.ext rfl ?_
  dsimp only
  rw [List.filter_nil, ← h]

theorem Dev.planeMeet_nil {d : Dev} (h : d.cw.upset = []) (c : Nat) (word : Bool) (off n : Nat) (bs : List Byte) :
    d.planeMeet c word off n bs = (bs, true, d) := by
  unfold Dev.planeMeet
  rw [Dev.errsAt_nil h]
  rfl

/-! ### DESC (R200, R201, R204) -/

/-- What a descriptor reads of its core: registers, cores, errors that stand, memory. -/
def Dev.descView (d : Dev) : SMap Word × SMap CoreChk × List PlaneErr × Mem := (d.reg.regs, d.cw.cores, d.cw.upset, d.mem)

theorem Dev.descView_reach (d : Dev) (c cyc : Nat) : (d.reach c cyc).descView = d.descView := rfl

theorem Dev.descView_passed (d : Dev) (c cyc ring : Nat) (isGet : Bool) (waited ctr : Nat) :
    (d.passed c cyc ring isGet waited ctr).descView = d.descView :=
  Dev.passed_proj Dev.descView (fun _ _ _ => rfl) (fun _ _ _ => rfl) ..

theorem Dev.descView_arStep (d : Dev) (c now base n r : Nat) (inc : Bool) :
    (d.arStep c now base n r inc).descView = d.descView := by
  unfold Dev.arStep
  split <;> rfl

section
variable {d e : Dev} (h : e.descView = d.descView)
include h

theorem Dev.core_of_descView (c : Nat) : e.core c = d.core c :=
  congrArg (fun m => smGet core0 m c) (congrArg (fun x => x.2.1) h : e.cw.cores = d.cw.cores)
theorem Dev.upset_of_descView : e.cw.upset = d.cw.upset := congrArg (fun x => x.2.2.1) h
theorem Dev.mem_of_descView : e.mem = d.mem := congrArg (fun x => x.2.2.2) h
theorem Dev.planeRead_of_descView : e.planeRead = d.planeRead := by
  funext c w off n
  rw [Dev.planeRead, Dev.mem_of_descView h]
  rfl
theorem Dev.planeOk_of_descView {c a n off : Nat} {w : Bool} (hok : d.planeOk c w a n off) : e.planeOk c w a n off := by
  have hrd : e.rd = d.rd :=
    funext fun a => congrArg (fun m => smGet regReset m a) (congrArg (fun x => x.1) h : e.reg.regs = d.reg.regs)
  unfold Dev.planeOk Dev.poweredAll
  rw [hrd]
  exact hok
end

/-- A template with A0 and COUNT replaced where asked (R201, R286). -/
def descBytes (k : CoreChk) (a0s ctx : Nat) (cnt : Bool) (raw : List Byte) : List Byte :=
  let b := if a0s = 0 then raw else patch raw 4 (toLE 4 (k.a0src a0s))
  if cnt then patch b 2 (toLE 2 (k.turn ctx).count) else b

/-- A descriptor without PUT queued for the engine. -/
def Dev.queueDesc (d : Dev) (c : Nat) (b : List Byte) : Dev :=
  let k := d.core c
  d.setCore c { k with descq := k.descq ++ [{ bytes := b }] }

/-- DESC comes to its check on its core landed. -/
theorem descOp_checked {d e : Dev} {c cyc base a0s ctx waited : Nat} {inc cnt bnd : Bool} (hrun : d.runsCheck c cyc = true)
    (he : d.sync c (d.absCyc c cyc) = e) (hbnd : e.bndOff c ctx bnd = false) :
    ∃ f : Nat → Dev → Dev, descOp c cyc base inc a0s cnt ctx bnd waited d =
      checked c cyc 32 false waited (AG_QUEUE_FREEZE c) (fun d => decide ((d.core c).descq.length < 16)) f e ∧
      ∀ now x off, x.cw.upset = [] → x.planeOk c true ((x.core c).addr base 0 false) 32 off →
        ∃ y : Dev, y.descView = x.descView ∧
          let b := descBytes (x.core c) a0s ctx cnt (x.planeRead c true off 32)
          (descBad b = true → f now x = y.agFault c 0 0x16) ∧
          (descBad b = false → bitOf (leAt b 1 1) 2 = false → f now x = y.queueDesc c b) := by
  subst he
  refine ⟨_, (if_neg (ne_false_of_eq_true hrun)).trans (if_neg (ne_true_of_eq_false hbnd)), fun now x off hup hat => ?_⟩
  have hview := x.descView_arStep c now base 1 0 inc
  have hraw : (x.arStep c now base 1 0 inc).planeRead c true off 32 = x.planeRead c true off 32 := by
    rw [Dev.planeRead_of_descView hview]
  refine ⟨_, hview, ?_⟩
  extract_lets b k a y
  rw [show y.vecAt c true a 32 = (some off, y) from Dev.vecAt_of_planeOk (Dev.planeOk_of_descView hview hat)]
  dsimp -zeta only
  rw [Dev.planeMeet_nil ((Dev.upset_of_descView hview).trans hup), hraw]
  dsimp -zeta only
  exact ⟨fun hbad => if_pos hbad,
    fun hgood hput => (if_neg (ne_true_of_eq_false hgood)).trans (if_neg (ne_true_of_eq_false hput))⟩

/-! ### MERGE (R252, R291) -/

/-- An adaptation step started on the record count of an AR. -/
def Dev.startAdapt (d : Dev) (c ar : Nat) : Dev :=
  { d with et := { d.et with
      adapt := some { issued := d.tm.stroke, count := bits ((d.core c).arOf ar).toNat 0 17 }, adStat := 1 } }

theorem Dev.adapt_startAdapt (d : Dev) (c ar : Nat) : (d.startAdapt c ar).et.adapt =
    some { issued := d.tm.stroke, count := ((d.core c).arOf ar).toNat % 2 ^ 17 } := rfl

theorem mergeOp_checked {d e : Dev} {c cyc ar waited : Nat} (hrun : d.runsCheck c cyc = true)
    (he : d.sync c (d.absCyc c cyc) = e) : mergeOp c cyc ar waited d =
      checked c cyc 33 false waited (TP_SLOT_WAIT c) (fun d => !d.adaptLive) (fun _ d => d.startAdapt c ar) e := by
  unfold mergeOp
  rw [if_neg (ne_false_of_eq_true hrun), he]
  rfl

section
variable {s : State} {p : At} {g : Gate} {waited : Nat}

/-- What a command that changes cores, tables and memory commits. -/
def State.tablesOut (s : State) (d : Dev) : Out := .next { s with dev := s.dev.commit { cw := true, et := true, mem := true } d }

theorem exec_merge {ar : BitVec 4} (h : s.dev.executesCheck (.merge p g ar waited) = true) :
    exec (.merge p g ar waited) s = s.tablesOut (checked p.core.val p.cyc 33 false waited (TP_SLOT_WAIT p.core.val)
      (fun d => !d.adaptLive) (fun _ d => d.startAdapt p.core.val ar.toNat) (s.dev.landed p)) := by
  obtain ⟨hf, hrun, hland⟩ := Dev.executesCheck_cases (p := p) h rfl
  exact (State.coreRun_fetched rfl hf ..).trans (congrArg s.tablesOut (mergeOp_checked hrun hland))

theorem exec_desc {base a0src : BitVec 5} {inc cnt bnd : Bool} {ctx : BitVec 2}
    (h : s.dev.executesCheck (.desc p g base inc a0src cnt ctx bnd waited) = true) :
    exec (.desc p g base inc a0src cnt ctx bnd waited) s = s.coresOut (descOp p.core.val p.cyc base.toNat inc a0src.toNat cnt
      ctx.toNat bnd waited (s.dev.pstoreCorr p.core.val p.cyc p.corr)) :=
  State.coreRun_fetched rfl (Dev.executesCheck_cases (p := p) h rfl).1 ..

theorem Dev.descView_passed_landed (d : Dev) (p : At) (ring ctr : Nat) :
    ((d.landed p).passed p.core.val p.cyc ring false waited ctr).descView = (d.brought p).descView :=
  (Dev.descView_passed ..).trans (Dev.descView_reach ..).symm

/-- A DESC that its context does not suppress: its check, and its descriptor where there is room. -/
theorem exec_desc_cases {base a0src : BitVec 5} {inc cnt bnd : Bool} {ctx : BitVec 2}
    (h : s.dev.executesCheck (.desc p g base inc a0src cnt ctx bnd waited) = true)
    (hbnd : (s.dev.brought p).bndOff p.core.val ctx.toNat bnd = false) :
    let d := s.dev.brought p
    let k := d.core p.core.val
    let out := exec (.desc p g base inc a0src cnt ctx bnd waited) s
    (∃ f, out = s.coresOut (checked p.core.val p.cyc 32 false waited (AG_QUEUE_FREEZE p.core.val)
      (fun d => decide ((d.core p.core.val).descq.length < 16)) f (s.dev.landed p))) ∧
    ∀ off, k.descq.length < 16 → d.cw.upset = [] → d.planeOk p.core.val true (k.addr base.toNat 0 false) 32 off →
      ∃ y : Dev, y.descView = d.descView ∧
        let b := descBytes k a0src.toNat ctx.toNat cnt (d.planeRead p.core.val true off 32)
        (descBad b = true → out = s.coresOut (y.agFault p.core.val 0 0x16)) ∧
        (descBad b = false → bitOf (leAt b 1 1) 2 = false → out = s.coresOut (y.queueDesc p.core.val b)) := by
  intro d k out
  rw [Dev.brought_eq, Dev.bndOff_of_besideCrews (Dev.besideCrews_reach ..)] at hbnd
  obtain ⟨-, hrun, hland⟩ := Dev.executesCheck_cases (p := p) h rfl
  obtain ⟨f, hf, hbody⟩ := descOp_checked (base := base.toNat) (a0s := a0src.toNat) (waited := waited) (inc := inc)
    (cnt := cnt) hrun hland hbnd
  have hexec : out = _ := (exec_desc h).trans (congrArg s.coresOut hf)
  refine ⟨⟨f, hexec⟩, fun off hroom hup hat => ?_⟩
  have hx := s.dev.descView_passed_landed (waited := waited) p 32 (AG_QUEUE_FREEZE p.core.val)
  have hcore := Dev.core_of_descView hx p.core.val
  have hok : decide ((((s.dev.landed p).reach p.core.val p.cyc).core p.core.val).descq.length < 16) = true := by
    rw [← Dev.brought_eq]
    exact decide_eq_true hroom
  rw [checked_passed (ok := fun d => decide ((d.core p.core.val).descq.length < 16)) hok] at hexec
  have hat' := Dev.planeOk_of_descView hx hat
  rw [show k = _ from hcore.symm] at hat'
  obtain ⟨y, hy, hbad, hgood⟩ := hbody ((s.dev.landed p).absCyc p.core.val p.cyc) _ off ((Dev.upset_of_descView hx).trans hup)
    hat'
  rw [hcore, Dev.planeRead_of_descView hx] at hbad hgood
  exact ⟨y, hy.trans hx, fun hb => hexec.trans (congrArg s.coresOut (hbad hb)),
    fun hb hput => hexec.trans (congrArg s.coresOut (hgood hb hput))⟩
end

end Sys2Proof.Machine

open Sys2Proof Sys2Proof.Machine

/-- Settles O29: each check is judged on the core brought to its cycle, and the wait that it ends changes nothing that the
template or the tables are read from. -/
theorem descriptorsAndMerges : Obligations.DescriptorsAndMerges := by
  intro s p g base inc cnt a0src ctx bnd ar waited off c d k raw b0 b i
  have hbytes : descBytes k a0src.toNat ctx.toNat cnt raw = b := by
    have hsrc : (a0src.toNat = 0) = (a0src = 0) := propext ⟨fun h => BitVec.eq_of_toNat_eq h, fun h => h ▸ rfl⟩
    simp only [descBytes, hsrc]
    rfl
  refine ⟨fun h hbnd hroom hup hat hb hput => ?_, fun h hbnd hroom hup hat hb => ?_, fun h hbnd hfull => ?_,
    fun h hlive => ?_, fun h hlive => ?_⟩
  · obtain ⟨y, hy, -, hgood⟩ := (exec_desc_cases h hbnd).2 off hroom hup hat
    rw [hbytes] at hgood
    refine ⟨_, hgood hb hput, ?_, ?_⟩
    · rw [Dev.core_commit _ _ _ _ rfl, Dev.queueDesc, Dev.core_setCore_same, Dev.core_of_descView hy]
    · rw [Dev.commit_mem]
      exact (Dev.mem_of_descView hy :)
  · obtain ⟨y, hy, hbad, -⟩ := (exec_desc_cases h hbnd).2 off hroom hup hat
    rw [hbytes] at hbad
    refine ⟨_, hbad hb, ?_, ?_⟩
    · rw [Dev.core_commit _ _ _ _ rfl, Dev.core, Dev.agFault_cw]
      exact congrArg CoreChk.descq (Dev.core_of_descView hy c)
    · rw [Dev.rd_commit]
      exact Dev.faultBit_agFault _ _ (by decide) (by decide)
  · obtain ⟨⟨f, hexec⟩, -⟩ := exec_desc_cases h hbnd
    exact ⟨_, hexec, waits_of_not_ok rfl (decide_eq_false (Nat.not_lt.2 hfull))⟩
  · have hexec := exec_merge h
    rw [checked_passed (by rw [← Dev.brought_eq]; exact congrArg (!·) hlive)] at hexec
    have hx := s.dev.descView_passed_landed (waited := waited) p 33 (TP_SLOT_WAIT c)
    refine ⟨_, hexec, ?_, ?_⟩
    · rw [Dev.commit_et]
      rfl
    · rw [Dev.commit_et]
      rw [pick_true, Dev.adapt_startAdapt, Dev.core_of_descView hx, Dev.passed_proj (fun d => d.tm.stroke) (fun _ _ _ => rfl)
        (fun _ _ _ => rfl), s.dev.stroke_landed p]
  · exact ⟨_, exec_merge h, waits_of_not_ok rfl (congrArg (!·) hlive), by
      rw [checked_waiting (by rw [← Dev.brought_eq]; exact congrArg (!·) hlive), Dev.commit_et]
      rfl⟩
end

section
/-! SUPPORT. The broadcast of window rows by their map (R194 to R196, R293, R298). -/

namespace Sys2Proof.Machine

/-! ### Scheduled reads that meet no uncorrectable error write no register (R164, R165) -/

theorem Dev.regs_corrected (d : Dev) (c : Nat) (w : Bool) (o n : Nat) : (d.corrected_ c w o n).reg.regs = d.reg.regs :=
  loopN_proj _ (fun d : Dev => d.reg.regs) (fun _ d => d.report_regs (by cases w <;> simp)) ..

theorem Dev.regs_corrFreeze (d : Dev) (c due : Nat) : (d.corrFreeze c due).reg.regs = d.reg.regs := by
  unfold Dev.corrFreeze
  dsimp only
  split
  · rfl
  · exact Dev.freeze_proj (fun d : Dev => d.reg.regs) (fun _ _ _ => rfl) (fun _ _ _ => rfl) ..

theorem Dev.regs_readEcc (d : Dev) (c : Nat) (w : Bool) (at_ : Nat → Nat) (due : Nat) {e : Ecc} (h : e.unc = none) :
    (d.readEcc c w at_ due e).2.reg.regs = d.reg.regs := by
  unfold Dev.readEcc
  rw [h]
  dsimp only
  split
  · rw [Dev.regs_corrFreeze, Dev.regs_corrected]
  · exact d.regs_corrected ..

theorem Dev.regs_occupy (d : Dev) (c : Nat) (w : Bool) (at_ : Nat) (bs : List Nat) :
    (d.occupy c w at_ bs).reg.regs = d.reg.regs := by
  unfold Dev.occupy
  dsimp only
  rw [Dev.freeze_proj (fun d : Dev => d.reg.regs) (fun _ _ _ => rfl) (fun _ _ _ => rfl), Dev.bump_reg_regs]
  rfl

theorem Dev.reads_of_schedView {d e : Dev} {c : Nat} (h : e.schedView c = d.schedView c) : (e.vol c).reads = (d.vol c).reads :=
  congrArg (fun x => x.2.1) h

theorem Dev.rd_of_regs {d e : Dev} (h : e.reg.regs = d.reg.regs) : e.rd = d.rd :=
  funext fun a => congrArg (fun m => smGet regReset m a) h

theorem Dev.rd_occupy (d : Dev) (c : Nat) (w : Bool) (at_ : Nat) (bs : List Nat) : (d.occupy c w at_ bs).rd = d.rd :=
  Dev.rd_of_regs (d.regs_occupy ..)

/-- Map words read whole: their bytes, with the registers and the scheduled accesses as they were. -/
theorem Dev.schedRead_good (d : Dev) (c : Nat) (w : Bool) (off n due : Nat) {e : Ecc} (h : e.unc = none) :
    ∃ y : Dev, d.schedRead c w off n due e = (d.planeRead c w off n, y) ∧ y.schedView c = d.schedView c ∧ y.rd = d.rd := by
  obtain ⟨hopen, hview⟩ := d.readEcc_good c w (eccAt (eccUnit w) off) due h
  refine ⟨_, ?_, hview, Dev.rd_of_regs (d.regs_readEcc c w _ due h)⟩
  unfold Dev.schedRead
  dsimp only
  rw [hopen]
  rfl

/-- The read of a broadcast appended to the core's scheduled reads. -/
theorem Dev.feedRead_good (d : Dev) (c at_ land : Nat) (lanes scales : List (Option Nat)) (grans banks : List Nat) (gated : Bool)
    (sec : Option SecId) {e : Ecc} (h : e.unc = none) :
    ((d.feedRead c at_ land lanes scales grans banks gated sec e).vol c).reads = (d.vol c).reads ++
      [{ at_ := at_
         kind := if gated then .feed land (List.replicate 128 none) (List.replicate 4 none) none
           else .feed land lanes scales sec }] ∧
    (d.feedRead c at_ land lanes scales grans banks gated sec e).mem = d.mem := by
  obtain ⟨hopen, hview⟩ := (d.occupy c false at_ banks).readEcc_good c false (fun g => grans.getD g 0) land h
  rw [Dev.schedView_occupy] at hview
  unfold Dev.feedRead
  dsimp only
  rw [hopen, Dev.vol_setVol_same]
  dsimp only
  rw [Dev.reads_of_schedView hview]
  exact ⟨rfl, (Dev.mem_of_schedView hview :)⟩

/-! ### FEED_MAP -/

theorem mem_granulesOf {l : List Nat} {g : Nat} (h : g ∈ granulesOf l) : ∃ a ∈ l, a / 16 * 16 = g :=
  List.mem_map.1 (List.mem_eraseDups.1 h)

/-- The bytes of chunk `ch` of the row that each segment takes, lane by lane (R194). -/
def mapLanes (win : Win) (kw ch : Nat) (rows : List (Option Nat)) : List (Option Nat) :=
  (List.range 128).map (fun l => (rows.getD (l / (128 / 2 ^ win.logP)) none).map
    (fun n => win.byteAt kw (l / (128 / 2 ^ win.logP)) ch n (l % (128 / 2 ^ win.logP))))

/-- The scale bytes of the rows, with MX. -/
def mapScales (win : Win) (kw row ch : Nat) (mx : Bool) (rows : List (Option Nat)) : List (Option Nat) :=
  if mx then [0, 32, 64, 96].map (fun l => (rows.getD (l / (128 / 2 ^ win.logP)) none).map
    (fun n => win.scaleAt kw row ch n l)) else [none, none, none, none]

/-- Whether every byte that a broadcast names lies in the powered tile plane. -/
def Dev.feedOn (d : Dev) (c : Nat) (lanes scales : List (Option Nat)) : Prop :=
  ∀ a ∈ lanes.filterMap id ++ scales.filterMap id, a / 16 * 16 + 16 ≤ planeSize false ∧ d.powered c false (a / 16 * 16) = true

theorem Dev.feedOn_of_rd {d e : Dev} {c : Nat} {lanes scales : List (Option Nat)} (hrd : e.rd = d.rd)
    (h : d.feedOn c lanes scales) : e.feedOn c lanes scales := by
  unfold Dev.feedOn Dev.powered
  rw [hrd]
  exact h

theorem Dev.feedOn_granules {d : Dev} {c : Nat} {lanes scales : List (Option Nat)} (h : d.feedOn c lanes scales) :
    (granulesOf (lanes.filterMap id ++ scales.filterMap id)).any (fun g => decide (g + 16 > planeSize false)) = false ∧
    (granulesOf (lanes.filterMap id ++ scales.filterMap id)).any (fun g => !(d.powered c false g)) = false := by
  refine ⟨List.any_eq_false.2 fun g hg => ?_, List.any_eq_false.2 fun g hg => ?_⟩
  all_goals
    obtain ⟨a, ha, rfl⟩ := mem_granulesOf hg
    obtain ⟨hfit, hon⟩ := h a ha
  · simpa using hfit
  · simpa using hon

section
variable (c cyc r w base entry pass ch : Nat) (estep mx bound : Bool) (ctx : Nat) {me e : Ecc} (hme : me.unc = none)
  (he : e.unc = none)
include hme he

/-- What a FEED_MAP does at its cycle: it appends the read of the rows that its map words name. -/
theorem feedMap_body : ∃ f : Nat → Dev → Dev,
    feedMap c cyc r w base entry pass ch estep mx bound ctx me e = (fun d => d.bundleOp c cyc f) ∧
    ∀ (now first : Nat) (d : Dev),
      let k := d.core c
      let win := smGet (fun _ => ({} : Win)) k.wins w
      let i := if estep then entry + r else entry
      let gated := k.feedOff bound ctx i
      let rows := if gated then [] else mapRows (d.planeRead c true first (2 * 2 ^ win.logP)) pass win
      let lanes := mapLanes win w ch rows
      let scales := mapScales win w (k.winRow win w) ch mx rows
      (mx = true → 2 ^ win.logP ≠ 8) →
      d.planeOk c true ((k.addr base 0 false + 2 * (win.k * i + 2 ^ win.logP * pass)) % 2 ^ 32) (2 * 2 ^ win.logP) first →
      d.feedOn c lanes scales →
      ((f now d).vol c).reads = (d.vol c).reads ++
        [{ at_ := now + 6
           kind := if gated then .feed (now + 14) (List.replicate 128 none) (List.replicate 4 none) none
             else .feed (now + 14) lanes scales (k.secOf ctx) }] ∧
      (f now d).mem = d.mem := by
  refine ⟨_, rfl, ?_⟩
  intro now first d k win i gated rows lanes scales hp hat hon
  extract_lets win' p a seg row
  rw [if_neg (fun h => hp h.1 h.2), show d.vecAt c true a (2 * p) = (some first, d) from Dev.vecAt_of_planeOk hat]
  dsimp -zeta only
  extract_lets x rows' lanes' sc scales' grans
  obtain ⟨y, hread, hview, hrd⟩ := x.schedRead_good c true first (2 * p) (now + 6) hme
  have hx : x.schedView c = d.schedView c := d.schedView_occupy ..
  have hxrd : x.rd = d.rd := d.rd_occupy ..
  have hws : x.planeRead c true first (2 * p) = d.planeRead c true first (2 * p) := by
    rw [Dev.planeRead, Dev.mem_of_schedView hx]
    rfl
  have hrows : rows' = rows := by
    simp only [rows', hread, hws]
    rfl
  have hlanes : lanes' = lanes := by
    simp only [lanes', hrows]
    rfl
  have hscales : scales' = scales := by
    simp only [scales', sc, hrows]
    rfl
  obtain ⟨hfit, hpow⟩ := Dev.feedOn_granules (Dev.feedOn_of_rd (hrd.trans hxrd) hon)
  rw [← hlanes, ← hscales] at hfit hpow ⊢
  rw [hread, if_neg (ne_true_of_eq_false hfit), if_neg (ne_true_of_eq_false hpow)]
  obtain ⟨hreads, hmem⟩ := y.feedRead_good c (now + 6) (now + 14) lanes' scales' grans (win.banks w row ch mx) gated
    (k.secOf ctx) he
  rw [Dev.reads_of_schedView (hview.trans hx)] at hreads
  exact ⟨hreads, hmem.trans (Dev.mem_of_schedView (hview.trans hx))⟩
end

section
variable {d e : Dev} (h : e.besideCrews = d.besideCrews)
include h

theorem Dev.planeRead_of_besideCrews : e.planeRead = d.planeRead := by
  funext c w off n
  rw [Dev.planeRead, Dev.mem_of_besideCrews h]
  rfl
theorem Dev.planeOk_of_besideCrews : e.planeOk = d.planeOk := by
  unfold Dev.planeOk Dev.poweredAll Dev.rd
  rw [Dev.regs_of_besideCrews h]
theorem Dev.feedOn_of_besideCrews : e.feedOn = d.feedOn := by
  unfold Dev.feedOn Dev.powered Dev.rd
  rw [Dev.regs_of_besideCrews h]
end

theorem exec_feedMap {s : State} {p : At} {g : Gate} {r : BitVec 4} {w : BitVec 3} {base : BitVec 5} {entry pass : BitVec 7}
    {chunk : BitVec 6} {estep mx : Bool} {err : MapErr}
    (h : s.dev.executes (.feedMap p g r w base entry pass chunk estep mx err) = true) {f : Nat → Dev → Dev}
    (hf : feedMap p.core.val p.cyc r.toNat w.toNat base.toNat entry.toNat pass.toNat chunk.toNat estep mx g.bound
      g.ctxFeed.toNat err.map err.row = (fun d => d.bundleOp p.core.val p.cyc f)) :
    exec (.feedMap p g r w base entry pass chunk estep mx err) s =
      s.coresOut (f (s.dev.cycleOf p) ((s.dev.landed p).issued p.core.val p.cyc)) :=
  (congrArg (s.coreRun _ _) hf).trans (State.coreRun_bundleOp rfl h ..)

end Sys2Proof.Machine

open Sys2Proof Sys2Proof.Machine

/-- Settles O19: the map words are read as the core finds them at issue, and neither their read nor the banks of the rows changes
what the rows' read is made of. -/
theorem mapFeed : Obligations.MapFeed := by
  intro s p g r w base entry pass chunk estep mx map ecc first c d now k win segs seg i gated rows lanes scales hexec hmap
    hecc hmx
    hat hon
  have hview : ((s.dev.landed p).issued c p.cyc).besideCrews = d.besideCrews :=
    (Dev.besideCrews_issued ..).trans (Dev.besideCrews_reach ..).symm
  obtain ⟨f, hf, hbody⟩ := feedMap_body c p.cyc r.toNat w.toNat base.toNat entry.toNat pass.toNat chunk.toNat estep mx g.bound
    g.ctxFeed.toNat hmap hecc
  have hread := hbody now first ((s.dev.landed p).issued c p.cyc)
  rw [Dev.core_of_besideCrews hview, Dev.planeRead_of_besideCrews hview, Dev.planeOk_of_besideCrews hview,
    Dev.feedOn_of_besideCrews hview, Dev.vol_of_besideCrews hview, Dev.mem_of_besideCrews hview] at hread
  obtain ⟨hreads, hmem⟩ := hread hmx hat hon
  refine ⟨_, exec_feedMap hexec hf, ?_, ?_⟩
  · rw [Dev.vol_commit _ _ _ _ rfl]
    exact hreads
  · rw [Dev.commit_mem]
    exact hmem
end

section
/-! SUPPORT. What an engine finds as it starts a descriptor (R159, R200, R203): where the passage of schedule cycles leaves the
queues and the other cores, and the reads of lists with no engine waiting. -/

namespace Sys2Proof.Machine

/-! ### Queues and other cores beside the passage of cycles -/

/-- What the passage of schedule cycles at core `c` leaves beside `Dev.steady`: the errors that stand, every core's descriptor
queue and window rows, the volatile part of the other cores. -/
def Dev.aside (d : Dev) (c : Nat) : List PlaneErr × (Nat → List QDesc × SMap Nat) × ({e // e ≠ c} → CoreVol) :=
  (d.cw.upset, fun e => ((d.core e).descq, (d.core e).rowOf), fun e => d.vol e.1)

section
variable {d e : Dev} {c : Nat} (h : e.aside c = d.aside c)
include h

theorem Dev.upset_of_aside : e.cw.upset = d.cw.upset := congrArg (fun x => x.1) h
theorem Dev.descq_of_aside (k : Nat) : (e.core k).descq = (d.core k).descq := congrArg (fun x => (x.2.1 k).1) h
theorem Dev.rowOf_of_aside (k : Nat) : (e.core k).rowOf = (d.core k).rowOf := congrArg (fun x => (x.2.1 k).2) h
theorem Dev.vol_of_aside {k : Nat} (hk : k ≠ c) : e.vol k = d.vol k := congrArg (fun x => x.2.2 ⟨k, hk⟩) h
end

theorem Dev.aside_of_cw {d e : Dev} (c : Nat) (h : e.cw = d.cw) : e.aside c = d.aside c := by
  unfold Dev.aside Dev.core Dev.vol
  rw [h]

theorem Dev.aside_foldl {α : Type} {f : Dev → α → Dev} {c : Nat} (h : ∀ d x, (f d x).aside c = d.aside c) (l : List α)
    (d : Dev) : (l.foldl f d).aside c = d.aside c := foldl_proj f (fun d => d.aside c) h l d

theorem Dev.aside_setVol (d : Dev) (c : Nat) (v : CoreVol) : (d.setVol c v).aside c = d.aside c := by
  have hvol : (fun e : {e // e ≠ c} => (d.setVol c v).vol e.1) = fun e => d.vol e.1 :=
    funext fun e => Dev.vol_setVol_ne _ _ e.2
  unfold Dev.aside
  rw [hvol]
  rfl

theorem Dev.aside_setCore (d : Dev) (c : Nat) {k : CoreChk} (hq : k.descq = (d.core c).descq) (hr : k.rowOf = (d.core c).rowOf) :
    (d.setCore c k).aside c = d.aside c := by
  have hcore : (fun e => (((d.setCore c k).core e).descq, ((d.setCore c k).core e).rowOf)) =
      fun e => ((d.core e).descq, (d.core e).rowOf) := funext fun e => by
    by_cases he : e = c
    · rw [he, Dev.core_setCore_same, hq, hr]
    · rw [Dev.core_setCore_ne _ _ he]
  unfold Dev.aside
  rw [hcore]
  rfl

theorem Dev.aside_journal {d e : Dev} {c off n : Nat} {w : Bool} (h : d.journal c w off n = some e) : e.aside c = d.aside c := by
  unfold Dev.journal at h
  split at h
  · rw [Option.some.inj h]
  · dsimp only at h
    split at h
    · cases h
    · rw [← Option.some.inj h, Dev.aside_setVol]
      rfl

theorem Dev.aside_planeWrite (d : Dev) (c : Nat) (w : Bool) (off : Nat) (bs : List Byte) (aow : Nat) (v : Bool) :
    (d.planeWrite c w off bs aow v).aside c = d.aside c := by
  unfold Dev.planeWrite
  dsimp only
  split
  · rfl
  split
  · exact Dev.aside_of_cw c (Dev.tpFault_cw ..)
  split
  · exact Dev.aside_of_cw c (Dev.tpFault_cw ..)
  split
  · exact Dev.aside_of_cw c (Dev.journalFull_cw ..)
  next e he =>
  rw [← Dev.aside_journal he]
  split
  · exact Dev.aside_of_cw c rfl
  · exact Dev.aside_of_cw c (Dev.aowStat_cw ..)

theorem Dev.aside_doRead (d : Dev) (c : Nat) (q : PRead) : (d.doRead c q).aside c = d.aside c := by
  unfold Dev.doRead
  dsimp only
  split
  all_goals exact Dev.aside_setVol ..

theorem CoreChk.setReg_queues (k : CoreChk) (r : Nat) (v : Word) :
    ((k.setReg r v).descq, (k.setReg r v).rowOf) = (k.descq, k.rowOf) := by
  unfold CoreChk.setReg
  repeat' split
  all_goals rfl

theorem Dev.aside_settle (d : Dev) (c now : Nat) : (d.settle c now).aside c = d.aside c := by
  unfold Dev.settle
  extract_lets v k res ups cups ws rs k' k'' v' d' evs
  have hk : (k''.descq, k''.rowOf) = ((d.core c).descq, (d.core c).rowOf) :=
    foldl_proj _ (fun k : CoreChk => (k.descq, k.rowOf)) (fun k x => k.setReg_queues ..) ups k
  have hd : d'.aside c = d.aside c :=
    (Dev.aside_setVol ..).trans (d.aside_setCore c (congrArg Prod.fst hk) (congrArg Prod.snd hk))
  rw [← hd]
  refine Dev.aside_foldl (fun d x => ?_) _ d'
  split
  · exact d.aside_planeWrite ..
  · exact d.aside_doRead ..
  · rfl

theorem Dev.aside_putSlot (d : Dev) (c n : Nat) (bs : List Byte) : (d.putSlot c n bs).aside c = d.aside c := by
  unfold Dev.putSlot
  extract_lets g k r cw r' d1 d2 cw' d3
  split
  · exact Dev.aside_of_cw c (Dev.tpFault_cw ..)
  split
  · rfl
  have h1 : d1.aside c = d.aside c := Dev.aside_setCore _ _ rfl rfl
  have h3 : d3.aside c = d2.aside c := by
    unfold d3
    split <;> rfl
  rw [Dev.markFull, Dev.aside_setCore, h3, Dev.aside_planeWrite, h1]
  all_goals rfl

theorem Dev.aside_retryHeld (d : Dev) (c n : Nat) : (d.retryHeld c n).aside c = d.aside c := by
  unfold Dev.retryHeld
  split
  · rfl
  split
  · rfl
  · exact Dev.aside_putSlot ..

theorem Dev.aside_syncNow (d : Dev) (c : Nat) : (d.syncNow c).aside c = d.aside c := by
  unfold Dev.syncNow Dev.sync
  rw [← d.aside_settle c (d.absCyc c (d.crew (c / 8)).pos)]
  dsimp only
  split
  · rfl
  · rw [Dev.aside_foldl fun d (x : Nat × Nat) => d.aside_retryHeld c x.2, Dev.aside_setVol]

theorem Dev.acts_of_steady {d e : Dev} (h : e.steady = d.steady) (k : Nat) : (e.core k).acts = (d.core k).acts :=
  congrArg (fun x => x.2.2.2.2.1 k) h

/-! ### A core that stands at the cycle reached (R158) -/

/-- Whether a core stands at the schedule cycle that its crew has reached. -/
def Dev.cameNow (d : Dev) (c : Nat) : Prop := d.cameTo c (d.absCyc c (d.crew (c / 8)).pos)

theorem Dev.cameNow_congr {d e : Dev} {c : Nat} (hcrew : ∀ k, e.crew k = d.crew k) (hvol : e.vol c = d.vol c)
    (h : d.cameNow c) : e.cameNow c := by
  unfold Dev.cameNow Dev.cameTo Dev.absCyc
  rw [hcrew, hvol]
  exact h

theorem Dev.cameNow_of_cw {d e : Dev} {c : Nat} (h : e.cw = d.cw) (hcame : d.cameNow c) : e.cameNow c := by
  unfold Dev.cameNow Dev.cameTo Dev.absCyc Dev.crew Dev.vol
  rw [h]
  exact hcame

theorem Dev.cameNow_setCore {d : Dev} {c : Nat} (h : d.cameNow c) (e : Nat) (k : CoreChk) : (d.setCore e k).cameNow c := by
  have hcrew : ∀ j, (d.setCore e k).crew j = d.crew j := fun j => by
    unfold Dev.crew
    rw [Dev.setCore_cw_crews]
  have hvol : (d.setCore e k).vol c = d.vol c := by
    unfold Dev.vol
    rw [Dev.setCore_cw_vol]
  exact Dev.cameNow_congr hcrew hvol h

/-- A core brought to the cycle reached stands there, and the passage of cycles at another leaves it so. -/
theorem Dev.cameNow_syncNow {d : Dev} {c k : Nat} (hk : k < 32) (h : k = c ∨ d.cameNow c) : (d.syncNow k).cameNow c := by
  have hcrew := Dev.crew_of_steady (Dev.steady_syncNow hk d)
  by_cases hkc : k = c
  · subst hkc
    have hcame := d.cameTo_sync k (d.absCyc k (d.crew (k / 8)).pos)
    unfold Dev.cameNow Dev.absCyc
    rw [hcrew]
    exact hcame
  · exact Dev.cameNow_congr hcrew (Dev.vol_of_aside (d.aside_syncNow k) (Ne.symm hkc)) (h.resolve_left hkc)

/-- Its planes are then as the cycle finds them. -/
theorem Dev.mem_syncNow {d : Dev} {c : Nat} (h : d.cameNow c) : (d.syncNow c).mem = d.mem := by
  rw [Dev.syncNow, Dev.sync_of_cameTo h]
  exact Dev.mem_settle h.1

/-! ### The reads of an engine with none waiting (R159, R203) -/

theorem engDec_lt {a sp k off : Nat} (h : engDec a = some (sp, k, off)) (hsp : sp ≠ 2) : k < 32 :=
  planeOf_lt (c := 0) (by decide) (planeOf_of_engDec h hsp)

/-- What an engine's turn at an address leaves: with no engine waiting, the passage of cycles alone. -/
theorem Dev.engTurn_cases (d : Dev) (a : Nat) : d.engTurn a = d ∨ ∃ k < 32, d.engTurn a = d.syncNow k := by
  unfold Dev.engTurn
  split
  · exact Or.inl rfl
  · next hne hd => exact Or.inr ⟨_, engDec_lt hd hne, rfl⟩
  · exact Or.inl rfl

theorem Dev.engTurn_proj {γ : Type} (g : Dev → γ) {d : Dev} (h : ∀ k < 32, g (d.syncNow k) = g d) (a : Nat) :
    g (d.engTurn a) = g d := by
  rcases d.engTurn_cases a with he | ⟨k, hk, he⟩
  · rw [he]
  · rw [he, h k hk]

theorem Dev.steady_engTurn (d : Dev) (a : Nat) : (d.engTurn a).steady = d.steady :=
  Dev.engTurn_proj Dev.steady (fun _ hk => Dev.steady_syncNow hk d) a

theorem Dev.planeGet_of_atRest {d : Dev} (h : d.atRest) {k off n : Nat} {w : Bool} (hk : k < 32) (hfit : off + n ≤ planeSize w)
    (hon : d.poweredAll k w off n = true) :
    d.planeGet k w off n = (((d.syncNow k).planeSight k w off n).planeRead k w off n, true, d.syncNow k) := by
  unfold Dev.planeGet
  dsimp only
  rw [if_neg (by omega), if_neg (ne_false_of_eq_true hon), Dev.planeTurn_of_atRest h.2 hk,
    Dev.planeMeet_nil ((Dev.upset_of_aside (d.aside_syncNow k)).trans h.1)]

theorem Dev.commonsMeet_nil {d : Dev} (h : d.cw.upset = []) (off n : Nat) :
    d.commonsMeet off n = (d.commonsRead off n, true, d) := by
  unfold Dev.commonsMeet
  rw [Dev.errsAt_nil h]
  rfl

/-- An engine with none waiting reads what its turn sees. -/
theorem Dev.engGet_of_atRest {d : Dev} (h : d.atRest) (c : Nat) {a n : Nat} (hon : d.engOn a n = true) :
    d.engGet c a n = (some (d.engSees a n, true), d.engTurn a) := by
  unfold Dev.engOn at hon
  unfold Dev.engGet Dev.engSees Dev.engTurn
  split at hon
  · next hd =>
    simp only [hd, hon, Dev.commonsMeet_nil h.1]
    rfl
  · next sp k off hne hd =>
    simp only [Bool.and_eq_true, decide_eq_true_eq] at hon
    obtain ⟨hfit, hpow⟩ := hon
    have hget := Dev.planeGet_of_atRest h (engDec_lt hd hne) hfit hpow
    simp only [hd, hget]
    rw [if_neg (by omega), if_neg (ne_false_of_eq_true hpow)]
  · cases hon

end Sys2Proof.Machine
end

section
/-! SUPPORT. WINDOW, SPREAD and COPY as they start (R192 to R194, R202, R204). -/

namespace Sys2Proof.Machine

/-! ### A descriptor started (R200) -/

/-- A descriptor started at core `c`. -/
def Dev.addAct (d : Dev) (c : Nat) (a : GsAct) : Dev := d.setCore c { d.core c with acts := (d.core c).acts ++ [a] }

theorem startDesc_started {d x : Dev} {c op : Nat} {q : QDesc} {rest : List QDesc} {ops : List GsOp}
    {start : Dev → Nat → List Byte → Option (List GsOp) × Dev} (hup : d.engineUp c = true)
    (hq : (d.core c).descq = q :: rest) (hop : leAt q.bytes 0 1 % 16 = op)
    (hs : start (d.taken c rest) c q.bytes = (some ops, x)) (hne : ops ≠ []) :
    startDesc c op start d = x.addAct c { op := op, ops := ops, put := q.put } := by
  simp only [Dev.engineUp, Bool.and_eq_true, Bool.not_eq_true', decide_eq_true_eq] at hup
  obtain ⟨⟨hacc, hroll⟩, hc⟩ := hup
  unfold Dev.taken at hs
  unfold startDesc
  rw [if_neg (by simp only [hacc, hroll, Bool.true_eq_false, Bool.false_eq_true, false_or, ge_iff_le, not_le, hc])]
  simp only [hq, hop, hs, List.isEmpty_eq_false_iff.2 hne, ne_eq, not_true_eq_false, if_false, Bool.false_and,
    Bool.false_eq_true]
  rfl

/-- What a started descriptor leaves once the instruction has executed. -/
theorem started_commit {s : State} {x : Dev} {c : Nat} {a : GsAct} {w : Writes} (hcw : w.cw = true) (hmem : w.mem = true) :
    let t := s.dev.commit w (x.addAct c a)
    (t.core c).descq = (x.core c).descq ∧ (t.core c).acts = (x.core c).acts ++ [a] ∧ (t.core c).rowOf = (x.core c).rowOf ∧
      t.mem = x.mem := by
  dsimp only
  rw [Dev.core_commit _ _ _ _ hcw, Dev.commit_mem, hmem, pick_true, Dev.addAct, Dev.core_setCore_same]
  exact ⟨rfl, rfl, rfl, rfl⟩

theorem Dev.descq_taken (d : Dev) (c : Nat) (rest : List QDesc) : ((d.taken c rest).core c).descq = rest := by
  unfold Dev.taken
  rw [Dev.core_setCore_same]

theorem Dev.cameNow_taken (d : Dev) {c : Nat} (hc : c < 32) (rest : List QDesc) : (d.taken c rest).cameNow c :=
  Dev.cameNow_setCore (Dev.cameNow_syncNow hc (Or.inl rfl)) _ _

/-! ### Feature maps and credit entries (R173, R184) -/

section
variable {d e : Dev} (h : e.steady = d.steady)
include h

theorem Dev.poweredAll_of_steady (c : Nat) (w : Bool) (off n : Nat) :
    e.poweredAll c w off n = d.poweredAll c w off n := by
  have hreg : ¬ faultReg (if w then WP_CORE_POWER c else TP_CORE_POWER c) := by
    cases w <;> simp only [faultReg, WP_CORE_POWER, TP_CORE_POWER, TP_CORE_FAULT, TP_CORE_FAULT_ADDR, CS_CREW_FAULT] <;>
      rintro ⟨k, hk, hh⟩ <;> split at hh <;> omega
  unfold Dev.poweredAll
  rw [Dev.rd_of_steady h hreg]

theorem Dev.writeOk_of_steady {c off n : Nat} {w : Bool} (hw : d.writeOk c w off n) : e.writeOk c w off n := by
  unfold Dev.writeOk
  rw [Dev.poweredAll_of_steady h, Dev.jrnlBlocks_of_steady h]
  exact hw

section
variable {f : Nat} (hf : f < 16)
include hf

theorem Dev.rd_fmapCfg_of_steady : e.rd (AG_FMAP_CFG f) = d.rd (AG_FMAP_CFG f) := by
  refine Dev.rd_of_steady h ?_
  simp only [faultReg, AG_FMAP_CFG, TP_CORE_FAULT, TP_CORE_FAULT_ADDR, CS_CREW_FAULT]
  rintro ⟨k, hk, hh⟩
  omega

theorem Dev.fmapRow_of_steady : e.fmapRow f = d.fmapRow f := by
  unfold Dev.fmapRow Dev.rf
  rw [Dev.rd_fmapCfg_of_steady h hf]

theorem Dev.fmapOff_of_steady (i : Nat) : e.fmapOff f i = d.fmapOff f i := by
  unfold Dev.fmapOff Dev.rf
  rw [Dev.rd_fmapCfg_of_steady h hf, Dev.fmapRow_of_steady h hf]

theorem Dev.fmapAt_of_steady (i : Nat) : e.fmapAt f i = d.fmapAt f i := by
  unfold Dev.fmapAt
  rw [Dev.fmapOff_of_steady h hf]

theorem Dev.fmapFits_of_steady (i : Nat) : e.fmapFits f i = d.fmapFits f i := by
  unfold Dev.fmapFits
  rw [Dev.fmapOff_of_steady h hf, Dev.fmapRow_of_steady h hf]

theorem Dev.rowOps_of_steady (p lb nr kk : Nat) (t : Nat × Nat × Nat) : e.rowOps f p lb nr kk t = d.rowOps f p lb nr kk t := by
  unfold Dev.rowOps
  rw [Dev.fmapAt_of_steady h hf, Dev.fmapRow_of_steady h hf]
end

theorem Dev.creditAdmits_of_steady {k i : Nat} (hk : k < 32) (hi : i < 16) (w : Bool) (off n : Nat) :
    e.creditAdmits k i w off n = d.creditAdmits k i w off n := by
  have hreg : ¬ faultReg (WP_CORE_CREDIT_BASE k i) ∧ ¬ faultReg (WP_CORE_CREDIT_LIMIT k i) ∧
      ¬ faultReg (WP_CORE_CREDIT_GRANT k i) := by
    simp only [faultReg, WP_CORE_CREDIT_BASE, WP_CORE_CREDIT_LIMIT, WP_CORE_CREDIT_GRANT, TP_CORE_FAULT, TP_CORE_FAULT_ADDR,
      CS_CREW_FAULT]
    refine ⟨?_, ?_, ?_⟩
    all_goals
      rintro ⟨j, hj, hh⟩
      omega
  obtain ⟨hbase, hlimit, hgrant⟩ := hreg
  unfold Dev.creditAdmits Dev.creditRegion Dev.rf
  rw [Dev.rd_of_steady h hbase, Dev.rd_of_steady h hlimit, Dev.rd_of_steady h hgrant]

theorem Dev.creditFor_of_steady (c dst n : Nat) : e.creditFor c dst n = d.creditFor c dst n := by
  unfold Dev.creditFor
  split
  · rfl
  · next sp k off hne hd =>
    have hfind : e.spreadEntry k (decide (sp = 1)) off n = d.spreadEntry k (decide (sp = 1)) off n := by
      unfold Dev.spreadEntry
      rw [List.find?_congr fun i hi => Dev.creditAdmits_of_steady h (engDec_lt hd hne) (List.mem_range.1 hi) ..]
    rw [hfind]
  · rfl
end

/-! ### Lists (R186) and moves (R202) -/

theorem wordsOf_eq (bs : List Byte) (n : Nat) : wordsOf bs n = (List.range n).map fun i => leAt bs (4 * i) 4 := by
  induction n generalizing bs with
  | zero => rfl
  | succ n ih =>
    rw [wordsOf, ih, List.range_succ_eq_map, List.map_cons, List.map_map]
    refine congrArg _ (List.map_congr_left fun i _ => ?_)
    simp only [leAt, List.drop_drop, Function.comp, Nat.mul_succ, Nat.add_comm]

theorem flatten_mapIdx_range {α β : Type} (f : Nat → α → List β) (g : Nat → α) (n : Nat) :
    (((List.range n).map g).mapIdx f).flatten = (List.range n).flatMap fun i => f i (g i) := by
  rw [List.flatMap_def]
  congr 1
  refine List.ext_getElem (by simp) fun i hi _ => ?_
  simp

theorem cut64_ne_nil (n src dst : Nat) {len : Nat} (h : len ≠ 0) : cut64 (n + 1) src dst len ≠ [] := by
  rw [cut64, if_neg h]
  exact List.cons_ne_nil _ _

theorem Dev.fmapRow_ne_zero (d : Dev) (f : Nat) : d.fmapRow f ≠ 0 := by
  unfold Dev.fmapRow
  omega

theorem Dev.rowOps_ne_nil (d : Dev) (f p lb nr kk : Nat) (t : Nat × Nat × Nat) : d.rowOps f p lb nr kk t ≠ [] :=
  by
  unfold Dev.rowOps
  exact fun h => cut64_ne_nil 39 _ _ (d.fmapRow_ne_zero f) (List.map_eq_nil_iff.1 h)

/-- Every pair that the walk visits adds one map word (R193). -/
theorem Walk.length_map_put (w : Walk) (p j : Nat) (site : Option Nat) : (w.put p site j).map.length = w.map.length + 1 := by
  unfold Walk.put
  dsimp only
  split
  · exact List.length_append
  · split
    all_goals exact List.length_append

theorem length_map_winWalk (ws : List Nat) (kind k p count : Nat) (sh : Nat × Nat) :
    (winWalk ws kind sh k p count).map.length = count * k := by
  have hfold : ∀ (l : List Nat) (w : Walk),
      (l.foldl (fun w q => w.put p (srcWord ws kind sh (q / k) (q % k)) (q % k)) w).map.length = w.map.length + l.length := by
    intro l
    induction l with
    | nil => exact fun _ => rfl
    | cons q l ih =>
      intro w
      rw [List.foldl_cons, ih, Walk.length_map_put, List.length_cons]
      omega
  rw [winWalk, hfold, List.length_range]
  exact Nat.zero_add _

theorem length_flatMap_toLE (n : Nat) (l : List Nat) : (l.flatMap (toLE n)).length = n * l.length := by
  induction l with
  | nil => rfl
  | cons x l ih =>
    rw [List.flatMap_cons, List.length_append, ih, List.length_cons]
    rw [toLE_length, Nat.mul_succ, Nat.add_comm]

/-! ### SPREAD and COPY (R204) -/

/-- The writes of a SPREAD of core `c` from its buffer at `a1`. -/
def Dev.spreadWrites (d : Dev) (c a1 : Nat) (b : List Byte) : List GsOp :=
  let f := bits (leAt b 16 4) 0 4
  let site (i : Nat) : Nat := bits (leAt (d.engSees (leAt b 4 4) (4 * leAt b 2 2)) (4 * i) 4) 0 23
  (List.range (leAt b 2 2)).flatMap fun i =>
    (cut64 40 (a1 + 16 * bits (leAt b 16 4) 16 12 * i) (d.fmapAt f (site i)) (d.fmapRow f)).map fun x =>
      { src := x.1, dst := x.2.1, len := x.2.2, credit := d.creditFor c x.2.1 x.2.2 }

theorem Dev.startSpread_of_atRest {d : Dev} (hrest : d.atRest) {c a1 : Nat} {b : List Byte} (hpos : 0 < leAt b 2 2)
    (hmax : leAt b 2 2 ≤ 128) (hloc : localAddr c (leAt b 8 4) = some a1) (hlist : engSpan (leAt b 4 4) (4 * leAt b 2 2) = true)
    (hon : d.engOn (leAt b 4 4) (4 * leAt b 2 2) = true)
    (hbuf : engSpan a1 (16 * bits (leAt b 16 4) 16 12 * (leAt b 2 2 - 1) + d.fmapRow (bits (leAt b 16 4) 0 4)) = true)
    (hfit : ∀ i < leAt b 2 2, d.fmapFits (bits (leAt b 16 4) 0 4)
      (bits (leAt (d.engSees (leAt b 4 4) (4 * leAt b 2 2)) (4 * i) 4) 0 23) = true) :
    d.startSpread c b =
      (some (d.spreadWrites c a1 b), (d.engTurn (leAt b 4 4)).bump (AG_SPREAD_ROWS c) (leAt b 2 2)) := by
  have hs := d.steady_engTurn (leAt b 4 4)
  have hf : bits (leAt b 16 4) 0 4 < 16 := Nat.mod_lt _ (by decide)
  unfold Dev.startSpread
  simp only [hloc, hlist, hbuf, Dev.engGet_of_atRest hrest c hon, wordsOf_eq, List.map_map, flatten_mapIdx_range,
    Dev.fmapFits_of_steady hs hf, Dev.fmapAt_of_steady hs hf, Dev.creditFor_of_steady hs]
  rw [if_neg (by simp only [Bool.true_eq_false, or_false]; omega), if_neg]
  · rfl
  · simpa using hfit

theorem Dev.spreadWrites_ne_nil (d : Dev) (c a1 : Nat) {b : List Byte} (hpos : 0 < leAt b 2 2) : d.spreadWrites c a1 b ≠ [] := by
  unfold Dev.spreadWrites
  intro h
  exact cut64_ne_nil 39 _ _ (d.fmapRow_ne_zero _) (List.map_eq_nil_iff.1 (List.flatMap_eq_nil_iff.1 h 0 (List.mem_range.2 hpos)))

/-- The moves of a COPY (R204). -/
def copyMoves (c : Nat) (b : List Byte) : List GsOp :=
  let a1 := leAt b 8 4
  (List.range (leAt b 2 2)).flatMap fun i => (cut64 4 (leAt b 4 4 + 64 * i) (a1 + 64 * i) 64).map fun x =>
    { src := x.1, dst := x.2.1, len := x.2.2
      credit := if engLocal c a1 then none else some (bits (leAt b 16 4) 0 4, bitOf (leAt b 16 4) 4) }

theorem Dev.startCopy_of_engSpan (d : Dev) (c : Nat) {b : List Byte} (hpos : 0 < leAt b 2 2)
    (hsrc : engSpan (leAt b 4 4) (64 * leAt b 2 2) = true) (hdst : engSpan (leAt b 8 4) (64 * leAt b 2 2) = true) :
    d.startCopy c b = (some (copyMoves c b), d) := by
  unfold Dev.startCopy
  dsimp only
  rw [if_neg (by simp only [hsrc, hdst, Bool.true_eq_false, or_false]; omega)]
  rfl

theorem copyMoves_ne_nil (c : Nat) {b : List Byte} (hpos : 0 < leAt b 2 2) : copyMoves c b ≠ [] := by
  unfold copyMoves
  intro h
  exact cut64_ne_nil 3 _ _ (by decide) (List.map_eq_nil_iff.1 (List.flatMap_eq_nil_iff.1 h 0 (List.mem_range.2 hpos)))

/-! ### WINDOW (R192 to R194) -/

theorem Dev.opBanks_of_steady {d e : Dev} (h : e.steady = d.steady) (hrest : d.atRest) :
    ∀ k, k < 32 → ∀ o ∈ (e.core k).opList, opBanks k o = [] :=
  fun k hk o ho => hrest.2 k hk o (by rwa [Dev.opList_of_steady h] at ho)

section
variable {d : Dev} (hrest : ∀ k, k < 32 → ∀ o ∈ (d.core k).opList, opBanks k o = []) {c : Nat} (hc : c < 32)
include hrest hc

/-- A block of the device that finds no access waiting writes after the schedule cycle that the crew has reached (R159). -/
theorem Dev.unschedWrite_of_atRest {w : Bool} {off : Nat} {bs : List Byte} (hw : d.writeOk c w off bs.length) :
    d.unschedWrite c w off bs = { d.syncNow c with mem := memWrite (d.syncNow c).mem (planeAt w c off) bs } := by
  rw [Dev.unschedWrite, Dev.planeTurn_of_atRest hrest hc,
    Dev.planeWrite_of_writeOk (Dev.writeOk_of_steady (Dev.steady_syncNow hc d) hw)]

theorem Dev.aside_unschedWrite (w : Bool) (off : Nat) (bs : List Byte) : (d.unschedWrite c w off bs).aside c = d.aside c := by
  rw [Dev.unschedWrite, Dev.planeTurn_of_atRest hrest hc]
  exact (Dev.aside_planeWrite ..).trans (d.aside_syncNow c)

theorem Dev.steady_unschedWrite (w : Bool) (off : Nat) (bs : List Byte) : (d.unschedWrite c w off bs).steady = d.steady := by
  rw [Dev.unschedWrite, Dev.planeTurn_of_atRest hrest hc]
  exact (Dev.steady_planeWrite hc ..).trans (Dev.steady_syncNow hc d)
end

/-- The shape of a WINDOW's source list, its words counted, and the walk over them. -/
def Dev.winShape (d : Dev) (b : List Byte) : Nat × Nat :=
  d.listShape (bits (leAt b 16 4) 7 2) (leAt b 1 1 % 4) (bits (leAt b 16 4) 0 7)
def Dev.winWords (d : Dev) (b : List Byte) : Nat := (d.winShape b).1 * leAt b 2 2
def Dev.winFound (d : Dev) (b : List Byte) : Walk :=
  winWalk (wordsOf (d.engSees (leAt b 4 4) (4 * d.winWords b)) (d.winWords b)) (bits (leAt b 16 4) 7 2) (d.winShape b)
    (bits (leAt b 16 4) 0 7) (2 ^ bits (leAt b 16 4) 9 2) (leAt b 2 2)

/-- Its map words as bytes (R192). -/
def Dev.winMap (d : Dev) (b : List Byte) : List Byte := (d.winFound b).map.flatMap (toLE 2)

theorem Dev.length_winMap (d : Dev) (b : List Byte) :
    (d.winMap b).length = 2 * (leAt b 2 2 * bits (leAt b 16 4) 0 7) := by
  rw [Dev.winMap, length_flatMap_toLE, Dev.winFound, length_map_winWalk]

/-- The row size noted beside a granule group (R194). -/
def CoreChk.noteRow (k : CoreChk) (gran row : Nat) : CoreChk := { k with rowOf := smSet (fun _ => 0) k.rowOf gran row }

theorem CoreChk.descq_noteRow (k : CoreChk) (gran row : Nat) : (k.noteRow gran row).descq = k.descq := rfl
theorem CoreChk.rowOf_noteRow (k : CoreChk) (gran row : Nat) : smGet (fun _ => 0) (k.noteRow gran row).rowOf gran = row :=
  smGet_smSet_same ..

/-- The source list read, the rows and hits counted, and ROW noted beside the granule group. -/
def Dev.winNoted (d : Dev) (c : Nat) (b : List Byte) (wo : Nat) : Dev :=
  let e := ((d.engTurn (leAt b 4 4)).bump (AG_WIN_ROWS c) (d.winFound b).tags.length).bump (AG_WIN_HITS c) (d.winFound b).hits
  e.setCore c ((e.core c).noteRow (8 * (wo / 1024) + wo % 1024 / 128) (d.fmapRow (bits (leAt b 16 4) 11 4)))

theorem Dev.steady_winNoted (d : Dev) (c : Nat) (b : List Byte) (wo : Nat) : (d.winNoted c b wo).steady = d.steady := by
  have hrows : 0x70000 ≤ AG_WIN_ROWS c ∧ 0x70000 ≤ AG_WIN_HITS c := by
    unfold AG_WIN_ROWS AG_WIN_HITS
    omega
  refine (Dev.steady_setCore _ ?_).trans ((Dev.steady_bump _ _ (Or.inr hrows.2)).trans
    ((Dev.steady_bump _ _ (Or.inr hrows.1)).trans (d.steady_engTurn _)))
  rfl

/-- The row fetches of the sites found, into the window at `wo`. -/
def Dev.winFetches (d : Dev) (b : List Byte) (wo : Nat) : List GsOp :=
  (d.winFound b).tags.flatMap fun t =>
    d.rowOps (bits (leAt b 16 4) 11 4) (2 ^ bits (leAt b 16 4) 9 2) (wo / 1024) (bits (leAt b 20 4) 0 13) (wo % 1024 / 128) t

theorem Dev.winFetches_ne_nil {d : Dev} {b : List Byte} (wo : Nat) (h : (d.winFound b).tags ≠ []) : d.winFetches b wo ≠ [] := by
  unfold Dev.winFetches
  obtain ⟨t, ht⟩ := List.exists_mem_of_ne_nil _ h
  exact fun hnil => d.rowOps_ne_nil _ _ _ _ _ t (List.flatMap_eq_nil_iff.1 hnil t ht)

section
variable {d : Dev} (hrest : d.atRest) {c : Nat} (hc : c < 32) {mx : Bool} {b : List Byte} {wo mo : Nat}
  (hwin : localOff false (leAt b 12 4) = some wo) (hmap : localOff true (leAt b 8 4) = some mo)
  (hmx : mx = true → 2 ^ bits (leAt b 16 4) 9 2 ≠ 8)
  (hlim : windowFits (wo / 1024) (bits (leAt b 20 4) 0 13) (d.fmapRow (bits (leAt b 16 4) 11 4)) (2 ^ bits (leAt b 16 4) 9 2)
    (bits (leAt b 16 4) 0 7) (leAt b 2 2) (leAt b 4 4) mo (d.winShape b).1 = true)
  (hon : d.engOn (leAt b 4 4) (4 * d.winWords b) = true)
  (hfit : ∀ x ∈ (d.winFound b).tags, d.fmapFits (bits (leAt b 16 4) 11 4) x.1 = true)
include hrest hc hwin hmap hmx hlim hon hfit

theorem Dev.startWindow_of_atRest :
    d.startWindow mx c b = (some (d.winFetches b wo), (d.winNoted c b wo).unschedWrite c true mo (d.winMap b)) := by
  have hs := d.steady_winNoted c b wo
  have hleft : ((d.winNoted c b wo).unschedWrite c true mo (d.winMap b)).steady = d.steady :=
    (Dev.steady_unschedWrite (Dev.opBanks_of_steady hs hrest) hc ..).trans hs
  unfold Dev.startWindow
  extract_lets count p0 k kind p f nr row sh words
  have hlim' : windowFits (wo / 1024) nr row p k count (leAt b 4 4) mo sh.1 = true := hlim
  have hget : d.engGet c (leAt b 4 4) (4 * words) = _ := Dev.engGet_of_atRest hrest c hon
  rw [if_neg (fun h => hmx h.1 h.2)]
  simp -zeta only [hwin, hmap]
  extract_lets lb kk
  rw [if_neg (ne_false_of_eq_true hlim'), hget]
  dsimp -zeta only
  extract_lets wk d1 x1 d2 d3
  have hfits : ¬ (wk.tags.any fun t => !(d.engTurn (leAt b 4 4)).fmapFits f t.1) = true := by
    simp only [Dev.fmapFits_of_steady (d.steady_engTurn _) (show f < 16 from Nat.mod_lt _ (by decide)), List.any_eq_true,
      Bool.not_eq_true', not_exists, not_and, Bool.not_eq_false]
    exact hfit
  rw [if_neg hfits]
  refine congrArg (fun l => (some l, d3)) (List.flatMap_congr fun t _ => ?_)
  exact Dev.rowOps_of_steady hleft (Nat.mod_lt _ (by decide)) ..

end

theorem Dev.cameNow_engTurn {d : Dev} {c : Nat} (h : d.cameNow c) (a : Nat) : (d.engTurn a).cameNow c := by
  rcases d.engTurn_cases a with he | ⟨k, hk, he⟩
  · rwa [he]
  · rw [he]
    exact Dev.cameNow_syncNow hk (Or.inr h)

theorem Dev.cameNow_winNoted {d : Dev} {c : Nat} (h : d.cameNow c) (b : List Byte) (wo : Nat) :
    (d.winNoted c b wo).cameNow c :=
  Dev.cameNow_setCore (Dev.cameNow_of_cw (Dev.bump_cw ..) (Dev.cameNow_of_cw (Dev.bump_cw ..) (Dev.cameNow_engTurn h _))) _ _

theorem Dev.mem_winNoted (d : Dev) (c : Nat) (b : List Byte) (wo : Nat) :
    (d.winNoted c b wo).mem = (d.engTurn (leAt b 4 4)).mem := by
  unfold Dev.winNoted
  rw [Dev.setCore_mem, Dev.bump_mem, Dev.bump_mem]

theorem Dev.queues_winNoted (d : Dev) (c : Nat) (b : List Byte) (wo : Nat) :
    ((d.winNoted c b wo).core c).descq = (d.core c).descq ∧
      smGet (fun _ => 0) ((d.winNoted c b wo).core c).rowOf (8 * (wo / 1024) + wo % 1024 / 128) =
        d.fmapRow (bits (leAt b 16 4) 11 4) := by
  have hq : ((d.engTurn (leAt b 4 4)).core c).descq = (d.core c).descq :=
    Dev.engTurn_proj (fun d => (d.core c).descq) (fun k _ => Dev.descq_of_aside (d.aside_syncNow k) c) _
  unfold Dev.winNoted
  rw [Dev.core_setCore_same, CoreChk.descq_noteRow, CoreChk.rowOf_noteRow, Dev.core_bump, Dev.core_bump]
  exact ⟨hq, rfl⟩

/-- What a WINDOW that starts leaves (R192, R194): the queue, ROW beside the granule group, the map in the word plane. -/
theorem Dev.winLeft {d : Dev} (hrest : d.atRest) {c : Nat} (hc : c < 32) (hcame : d.cameNow c) {b : List Byte} {mo : Nat}
    (wo : Nat) (hw : d.writeOk c true mo (2 * (leAt b 2 2 * bits (leAt b 16 4) 0 7))) :
    let y := (d.winNoted c b wo).unschedWrite c true mo (d.winMap b)
    y.steady = d.steady ∧ (y.core c).descq = (d.core c).descq ∧
      smGet (fun _ => 0) (y.core c).rowOf (8 * (wo / 1024) + wo % 1024 / 128) = d.fmapRow (bits (leAt b 16 4) 11 4) ∧
      y.mem = memWrite ((d.engTurn (leAt b 4 4)).syncNow c).mem (planeAt true c mo) (d.winMap b) := by
  intro y
  have hs := d.steady_winNoted c b wo
  have hrest' := Dev.opBanks_of_steady hs hrest
  have hy : y = _ := Dev.unschedWrite_of_atRest (bs := d.winMap b) hrest' hc
    (by rw [length_winMap]; exact Dev.writeOk_of_steady hs hw)
  have haside := Dev.aside_unschedWrite hrest' hc true mo (d.winMap b)
  have hmem : ((d.winNoted c b wo).syncNow c).mem = ((d.engTurn (leAt b 4 4)).syncNow c).mem := by
    rw [Dev.mem_syncNow (Dev.cameNow_winNoted hcame b wo), Dev.mem_syncNow (Dev.cameNow_engTurn hcame _),
      Dev.mem_winNoted]
  obtain ⟨hq, hrow⟩ := d.queues_winNoted c b wo
  refine ⟨(Dev.steady_unschedWrite hrest' hc ..).trans hs, ?_, ?_, ?_⟩
  · exact (Dev.descq_of_aside haside c).trans hq
  · rw [Dev.rowOf_of_aside haside c, hrow]
  · rw [hy, ← hmem]


/-! ### The instructions -/

section
variable {s : State} {i : Instr} {c op : Nat} {q : QDesc} {rest : List QDesc} {x : Dev} {ops : List GsOp}
  {start : Dev → Nat → List Byte → Option (List GsOp) × Dev}

/-- An instruction that starts a descriptor takes it off the queue and appends what it started to the core's (R200). -/
theorem exec_started {w : Writes} (hcw : w.cw = true) (hmem : w.mem = true)
    (hexec : exec i s = .next { s with dev := s.dev.commit w (startDesc c op start s.dev) }) (hup : s.dev.engineUp c = true)
    (hq : (s.dev.core c).descq = q :: rest) (hop : leAt q.bytes 0 1 % 16 = op)
    (hs : start (s.dev.taken c rest) c q.bytes = (some ops, x)) (hne : ops ≠ [])
    (hdescq : (x.core c).descq = ((s.dev.taken c rest).core c).descq)
    (hacts : (x.core c).acts = ((s.dev.taken c rest).core c).acts) :
    ∃ t, exec i s = .next t ∧ t.dev.mem = x.mem ∧ (t.dev.core c).rowOf = (x.core c).rowOf ∧ (t.dev.core c).descq = rest ∧
      (t.dev.core c).acts = ((s.dev.taken c rest).core c).acts ++ [{ op := op, ops := ops, put := q.put }] := by
  rw [startDesc_started hup hq hop hs hne] at hexec
  obtain ⟨hqueue, hact, hrow, hm⟩ :=
    started_commit (s := s) (x := x) (c := c) (a := { op := op, ops := ops, put := q.put }) hcw hmem
  exact ⟨_, hexec, hm, hrow, hqueue.trans (hdescq.trans (s.dev.descq_taken c rest)), hact.trans (by rw [hacts])⟩
end

end Sys2Proof.Machine

open Sys2Proof Sys2Proof.Machine

/-- Settles O31: an engine that finds no access waiting leaves its registers, its queue and the started descriptors as they are
while it reads its list, and WINDOW alone writes. -/
theorem descriptorsStart : Obligations.DescriptorsStart := by
  intro s c q rest mx d b count a0 p0 started hup hq hrest
  have hc := c.isLt
  have hcame : d.cameNow c.val := s.dev.cameNow_taken hc rest
  refine ⟨?_, ?_, ?_⟩
  · intro wo mo hop k p f nr sh words wk hwin hmap hmx hlim hon hfit hw htags
    obtain ⟨hs, hqueue, hrow, hmem⟩ := Dev.winLeft hrest hc hcame wo hw
    obtain ⟨t, ht, htmem, htrow, htq, hta⟩ := exec_started (i := .window { core := c, mx := mx })
      (w := { cw := true, mem := true }) rfl rfl rfl hup hq hop
      (Dev.startWindow_of_atRest hrest hc hwin hmap hmx hlim hon hfit) (Dev.winFetches_ne_nil wo htags)
      hqueue (Dev.acts_of_steady hs c.val)
    exact ⟨t, ht, ⟨htq, hta⟩, htrow ▸ hrow, htmem.trans hmem⟩
  · intro a1 hop f row stride site hpos hmax hloc hlist hon hbuf hfit
    have hs := d.steady_engTurn a0
    have hqueue : ((d.engTurn a0).core c.val).descq = (d.core c.val).descq :=
      Dev.engTurn_proj (fun d => (d.core c.val).descq) (fun k _ => Dev.descq_of_aside (d.aside_syncNow k) c.val) a0
    obtain ⟨t, ht, htmem, -, htq, hta⟩ := exec_started (i := .spread c) (w := { cw := true, mem := true })
      rfl rfl rfl hup hq hop (Dev.startSpread_of_atRest hrest hpos hmax hloc hlist hon hbuf hfit)
      (d.spreadWrites_ne_nil _ _ hpos)
      hqueue (Dev.acts_of_steady hs c.val)
    exact ⟨t, ht, htmem, htq, hta⟩
  · intro hop a1 hpos hsrc hdst
    obtain ⟨t, ht, htmem, -, htq, hta⟩ := exec_started (i := .copy c) (w := { cw := true, mem := true })
      rfl rfl rfl hup hq hop (d.startCopy_of_engSpan c.val hpos hsrc hdst) (copyMoves_ne_nil _ hpos) rfl rfl
    exact ⟨t, ht, htmem, htq, hta⟩
end

section
/-! SUPPORT. SCATTER_BEV as it starts (R205 to R207): reads that meet no error and nothing due. -/

namespace Sys2Proof.Machine

section
variable {d : Dev} (hcalm : d.calm)
include hcalm

/-- With nothing due, a read that an engine makes changes nothing. -/
theorem Dev.engTurn_of_calm (a : Nat) : d.engTurn a = d := Dev.engTurn_proj id (fun k hk => (hcalm.2 k hk).1) a

theorem Dev.engGet_of_calm (c : Nat) {a n : Nat} (hon : d.engOn a n = true) :
    d.engGet c a n = (some (d.engSees a n, true), d) := by
  rw [Dev.engGet_of_atRest hcalm.1 c hon, Dev.engTurn_of_calm hcalm]

/-- A read of a plane that can be trusted changes nothing. -/
theorem Dev.planeGet_of_calm {k off n : Nat} {w : Bool} (hk : k < 32) (hok : (d.planeGet k w off n).2.1 = true) :
    (d.planeGet k w off n).2.2 = d := by
  by_cases hfit : off + n ≤ planeSize w
  · by_cases hon : d.poweredAll k w off n = true
    · rw [Dev.planeGet_of_atRest hcalm.1 hk hfit hon]
      exact (hcalm.2 k hk).1
    · unfold Dev.planeGet at hok
      dsimp only at hok
      rw [if_neg (by omega), if_pos (Bool.not_eq_true _ ▸ hon)] at hok
      cases hok
  · unfold Dev.planeGet at hok
    dsimp only at hok
    rw [if_pos (by omega)] at hok
    cases hok

/-- A key as the read of a site's record or coarse entry gives it (R188, R191). -/
def keyRead (r : List Byte × Bool × Dev) : Nat × Bool × Dev := (leNat r.1 % 2 ^ 63, r.2.1, r.2.2)

omit hcalm in
theorem Dev.siteKey_zero (d : Dev) (h : Nat) :
    d.siteKey false 0 h = keyRead (d.planeGet (h % 32) false (d.recAddr false h % 0x800000) 8) := by
  unfold Dev.siteKey
  extract_lets readAt
  rw [if_pos rfl]
  unfold readAt
  rcases d.planeGet (h % 32) false (d.recAddr false h % 0x800000) 8 with ⟨bs, ok, e⟩
  rfl

omit hcalm in
theorem Dev.siteKey_coarse (d : Dev) {l : Nat} (hl : l ≠ 0) (h : Nat) :
    d.siteKey false l h = keyRead (d.planeGet (h % 32) false (d.entryAt l h).2 8) := by
  unfold Dev.siteKey
  extract_lets readAt
  rw [if_neg hl]
  unfold readAt
  rw [if_neg Bool.false_ne_true, show (d.entryAt l h).1 = h % 32 from rfl]
  rcases d.planeGet (h % 32) false (d.entryAt l h).2 8 with ⟨bs, ok, e⟩
  rfl

theorem Dev.siteKey_of_calm {l h : Nat} (hok : (d.siteKey false l h).2.1 = true) :
    d.siteKey false l h = ((d.siteKey false l h).1, true, d) := by
  have hread : ∃ off, d.siteKey false l h = keyRead (d.planeGet (h % 32) false off 8) := by
    by_cases hl : l = 0
    · exact ⟨_, hl ▸ d.siteKey_zero h⟩
    · exact ⟨_, d.siteKey_coarse hl h⟩
  obtain ⟨off, hkey⟩ := hread
  rw [hkey] at hok ⊢
  exact Prod.ext rfl (Prod.ext hok (Dev.planeGet_of_calm hcalm (Nat.mod_lt _ (by decide)) hok))

/-- The keys and rows of a work list, all of which can be read (R206). -/
theorem Dev.bevRows_of_calm (c l stride : Nat) (hs : List Nat) (a : Nat)
    (h : ∀ i (hi : i < hs.length), d.engOn (a + stride * i) 16 = true ∧ (d.siteKey false l hs[i]).2.1 = true) :
    Dev.bevRows c l false stride hs a d =
      (some (hs.mapIdx fun i h => ((d.siteKey false l h).1, wordsOf (d.engSees (a + stride * i) 16) 4)), d) := by
  induction hs generalizing a with
  | nil => rfl
  | cons x r ih =>
    obtain ⟨hon, hkey⟩ := h 0 (Nat.succ_pos _)
    have hrest := ih (a + stride) fun i hi => by
      have := h (i + 1) (Nat.succ_lt_succ hi)
      rwa [show a + stride * (i + 1) = a + stride + stride * i by ring] at this
    unfold Dev.bevRows
    rw [List.getElem_cons_zero] at hkey
    rw [Nat.mul_zero, Nat.add_zero] at hon
    rw [Dev.siteKey_of_calm hcalm hkey]
    simp only [Dev.engGet_of_calm hcalm c hon, hrest, Bool.and_self, if_true, List.mapIdx_cons, Nat.mul_zero, Nat.add_zero,
      Nat.mul_succ, Nat.add_assoc, Nat.add_comm stride]

theorem Dev.bevLists_of_calm (c : Nat) {ah aw count : Nat} (hhead : d.engOn ah 32 = true)
    (hlist : d.engOn aw (4 * count) = true) :
    d.bevLists c ah aw count =
      (some (d.engSees ah 32, (List.range count).map fun i => bits (leAt (d.engSees aw (4 * count)) (4 * i) 4) 0 23), d) := by
  unfold Dev.bevLists
  simp only [Dev.engGet_of_calm hcalm c hhead, Dev.engGet_of_calm hcalm c hlist, wordsOf_eq, List.map_map]
  rfl
end

/-- The add of a row of a SCATTER_BEV of core `c` under the header `h` (R206, R207). -/
def Dev.bevAdd (d : Dev) (c l : Nat) (h : List Byte) (x : Nat × List Nat) : CellAdd :=
  let v : Stroke := BitVec.ofNat 48 (leAt h 0 6)
  let cell := d.project x.1 l (d.poseAt (sAdd v 1))
  let w (n : Nat) : Word := BitVec.ofNat 32 (x.2.getD n 0)
  { id := (d.headerId h).1, gx := cell.1, gy := cell.2, v0 := w 0, v1 := w 1, v2 := w 2, v3 := w 3
    at_ := sAdd v (d.rf AG_BEV_CFG 0 9), core := c, issued := d.tm.stroke, frame := (d.headerId h).2.1 }

/-- The rows of a SCATTER_BEV descriptor: the key of each site and the words of its row. -/
def Dev.bevSites (d : Dev) (a2 : Nat) (b : List Byte) : List (Nat × List Nat) :=
  let count := leAt b 2 2
  ((List.range count).map fun i => bits (leAt (d.engSees (leAt b 8 4) (4 * count)) (4 * i) 4) 0 23).mapIdx fun i h =>
    ((d.siteKey false (leAt b 1 1 % 4) h).1, wordsOf (d.engSees (a2 + 16 * bits (leAt b 16 4) 0 12 * i) 16) 4)

/-- On one chip, every cell is its own (R394). -/
theorem Dev.cellOwner_of_one {d : Dev} (h : d.rl.countM1 = 0) (gx gy : Int) : d.cellOwner gx gy = d.rl.chip := by
  unfold Dev.cellOwner
  rw [if_pos (Or.inl h)]

/-- A SCATTER_BEV of a sector that is no golden sector, on one chip, starts one add per row; beside counters and the parts
that the cell memory expects, nothing changes. -/
theorem Dev.startBev_of_calm {d : Dev} (hcalm : d.calm) (c : Nat) {b : List Byte} {a2 : Nat} (hpos : 0 < leAt b 2 2)
    (hmax : leAt b 2 2 ≤ 16384) (hhead : engSpan (leAt b 4 4) 32 = true) (hlist : engSpan (leAt b 8 4) (4 * leAt b 2 2) = true)
    (honh : d.engOn (leAt b 4 4) 32 = true) (honl : d.engOn (leAt b 8 4) (4 * leAt b 2 2) = true)
    (hrows : ∀ i, i < leAt b 2 2 → d.engOn (a2 + 16 * bits (leAt b 16 4) 0 12 * i) 16 = true ∧
      (d.siteKey false (leAt b 1 1 % 4) (bits (leAt (d.engSees (leAt b 8 4) (4 * leAt b 2 2)) (4 * i) 4) 0 23)).2.1 = true)
    (hloc : localAddr c (leAt b 12 4) = some a2)
    (hspan : engSpan a2 (16 * bits (leAt b 16 4) 0 12 * (leAt b 2 2 - 1) + 16) = true)
    (hgold : bitOf (leAt (d.engSees (leAt b 4 4) 32) 12 1) 6 = false) (hone : d.rl.countM1 = 0) :
    ∃ x, d.startBev c b = (some ((d.bevSites a2 b).map fun r =>
      { add := some (d.bevAdd c (leAt b 1 1 % 4) (d.engSees (leAt b 4 4) 32) r) }), x) ∧ x.cw = d.cw ∧ x.mem = d.mem := by
  have hread := Dev.bevRows_of_calm hcalm c (leAt b 1 1 % 4) (16 * bits (leAt b 16 4) 0 12)
    ((List.range (leAt b 2 2)).map fun i => bits (leAt (d.engSees (leAt b 8 4) (4 * leAt b 2 2)) (4 * i) 4) 0 23) a2
    fun i hi => by
      rw [List.length_map, List.length_range] at hi
      rw [List.getElem_map, List.getElem_range]
      exact hrows i hi
  unfold Dev.startBev
  extract_lets count a1 l stride
  simp -zeta only [hloc]
  rw [if_neg (by simp only [hhead, hlist, hspan, count, a1, stride, Bool.true_eq_false, or_false]; omega)]
  rw [Dev.bevLists_of_calm hcalm c honh honl]
  dsimp -zeta only
  extract_lets gold v inside
  have hgold' : gold = false := hgold
  clear_value gold
  subst hgold'
  rw [show Dev.bevRows c l false stride _ a2 d = (some (d.bevSites a2 b), d) from hread]
  dsimp -zeta only
  extract_lets pose at_ adds keep d1 own mine e gone cm d2 d3
  have hkeep : keep = adds := List.filter_eq_self.2 fun _ _ => rfl
  obtain ⟨hcw1, hmem1, hrl1⟩ : d1.cw = d.cw ∧ d1.mem = d.mem ∧ d1.rl = d.rl := ⟨d.bump_cw .., d.bump_mem .., d.bump_rl ..⟩
  obtain ⟨hcw, hmem, hrl⟩ : d2.cw = d.cw ∧ d2.mem = d.mem ∧ d2.rl = d.rl := by
    unfold d2
    split
    · exact ⟨hcw1, hmem1, hrl1⟩
    · dsimp -zeta only
      exact ⟨hcw1, hmem1, hrl1⟩
  have hd3 : d3 = d2 := by
    refine List.foldl_fixed' (fun k => ?_) _
    extract_lets n
    have hn : k ≠ d2.rl.chip → n = 0 := fun hk => List.countP_eq_zero.2 fun a _ => by
      have hown : own a = d1.rl.chip := Dev.cellOwner_of_one (hrl1.symm ▸ hone) a.gx a.gy
      rw [hown, hrl1, ← hrl, decide_eq_true_eq]
      exact Ne.symm hk
    by_cases hk : k = d2.rl.chip
    · rw [if_pos (Or.inl hk)]
    · rw [if_pos (Or.inr (hn hk))]
  refine ⟨d3, ?_, hd3 ▸ hcw, hd3 ▸ hmem⟩
  rw [hkeep, List.map_map]
  rfl

theorem Dev.length_bevSites (d : Dev) (a2 : Nat) (b : List Byte) : (d.bevSites a2 b).length = leAt b 2 2 := by
  simp [Dev.bevSites]

theorem Dev.getElem?_bevSites (d : Dev) (a2 : Nat) {b : List Byte} {i : Nat} (hi : i < leAt b 2 2) :
    (d.bevSites a2 b)[i]? = some
      ((d.siteKey false (leAt b 1 1 % 4) (bits (leAt (d.engSees (leAt b 8 4) (4 * leAt b 2 2)) (4 * i) 4) 0 23)).1,
        wordsOf (d.engSees (a2 + 16 * bits (leAt b 16 4) 0 12 * i) 16) 4) := by
  simp [Dev.bevSites, hi]

theorem Dev.cell_bevAdd (d : Dev) (c l : Nat) (h : List Byte) (x : Nat × List Nat) :
    ((d.bevAdd c l h x).gx, (d.bevAdd c l h x).gy) = d.project x.1 l (d.poseAt (sAdd (BitVec.ofNat 48 (leAt h 0 6)) 1)) :=
  Prod.mk.eta

/-- The four lanes of a row are its words (R207). -/
theorem Dev.lanes_bevAdd (d : Dev) (c l key : Nat) (h bs : List Byte) :
    [(d.bevAdd c l h (key, wordsOf bs 4)).v0, (d.bevAdd c l h (key, wordsOf bs 4)).v1,
      (d.bevAdd c l h (key, wordsOf bs 4)).v2, (d.bevAdd c l h (key, wordsOf bs 4)).v3] =
      (List.range 4).map fun n => BitVec.ofNat 32 (leAt bs (4 * n) 4) := by
  rw [wordsOf_eq]
  rfl

end Sys2Proof.Machine

open Sys2Proof Sys2Proof.Machine

/-- Settles O32: with nothing due and no error, the engine's reads of the header, the list, the keys and the rows change
nothing, and on one chip every part of the sector stays with it. -/
theorem scatterStarts : Obligations.ScatterStarts := by
  intro s c q rest h a2 d b count l stride v site hup hq hop hpos hmax hcalm hhead hlist hsees honh honl hrows hloc hspan
    hgold hone
  subst hsees
  obtain ⟨x, hx, hcw, hmem⟩ := Dev.startBev_of_calm hcalm c.val hpos hmax hhead hlist honh honl hrows hloc hspan hgold hone
  have hcore : ∀ k, x.core k = d.core k := fun k => congrArg (fun w : CrewSide => smGet core0 w.cores k) hcw
  have hlen := d.length_bevSites a2 b
  have hsites : d.bevSites a2 b ≠ [] := List.ne_nil_of_length_pos (hlen ▸ hpos)
  obtain ⟨t, ht, htmem, -, htq, hta⟩ := exec_started (i := .scatterBev c)
    (w := { cm := true, cw := true, rl := true, mem := true }) rfl rfl rfl hup hq hop hx (mt List.map_eq_nil_iff.1 hsites)
    (congrArg CoreChk.descq (hcore c.val)) (congrArg CoreChk.acts (hcore c.val))
  refine ⟨t, ht, htq, htmem.trans hmem, _, hta, (List.length_map _).trans hlen, fun i hi => ?_⟩
  refine ⟨d.bevAdd c.val l (d.engSees (leAt b 4 4) 32)
    ((d.siteKey false l (site i)).1, wordsOf (d.engSees (a2 + stride * i) 16) 4), ?_, ?_, ?_, ?_⟩
  · rw [List.getElem?_map, d.getElem?_bevSites a2 hi, Option.map_some]
  · exact d.cell_bevAdd ..
  · rfl
  · exact d.lanes_bevAdd ..
end

section
/-! SUPPORT. A crew that does not run (R215, R217, R352): every core instruction comes to an operation that asks first whether
its crew executes at its schedule cycle, and so do the stops of a crew and the counts of a fetch. -/

namespace Sys2Proof.Machine

/-- An operation without effect while the crews are held. -/
def heldStill (f : Dev → Dev) : Prop := ∀ d : Dev, d.crewsRun = false → f d = d

section
variable {d : Dev} (h : d.crewsRun = false)
include h

theorem Dev.runsCheck_crewsRun (c cyc : Nat) : d.runsCheck c cyc = false := by simp [Dev.runsCheck, h]
theorem Dev.runsFirst_crewsRun (c cyc : Nat) : d.runsFirst c cyc = false := by
  simp [Dev.runsFirst, Dev.runsCheck_crewsRun h]

theorem Dev.haltAt_held (c cyc bit : Nat) : d.haltAt c cyc bit = d := if_neg (by simp [Dev.runs_crewsRun h])
theorem Dev.bundleIllegal_held (k cyc : Nat) : d.bundleIllegal k cyc = d := if_neg (by simp [Dev.runs_crewsRun h])
theorem Dev.pstoreCorr_held (c cyc n : Nat) : d.pstoreCorr c cyc n = d := if_neg (by simp [Dev.runs_crewsRun h])

/-- Whatever the fetch of an instruction finds, a held crew stops at nothing and carries out nothing. -/
theorem Dev.coreStep_held {f : Dev → Dev} (hf : heldStill f) (i : Instr) : d.coreStep i f = d := by
  unfold Dev.coreStep
  simp only [Dev.pstoreCorr_held h, Dev.bundleIllegal_held h, Dev.pstoreUncorr, Dev.haltAt_held h, hf d h, ite_self]
  split
  · rfl
  · split
    · rfl
    · split
      · rfl
      · split <;> rfl
end

theorem State.coreRun_held {s : State} (h : s.dev.crewsRun = false) {f : Dev → Dev} (hf : heldStill f) (i : Instr)
    (w : Writes) : s.coreRun i w f = .next s := by
  rw [State.coreRun, State.run, Dev.coreStep_held h hf, Dev.commit_self]

theorem heldStill_bundleOp {c cyc : Nat} {body : Nat → Dev → Dev} : heldStill (fun d => d.bundleOp c cyc body) :=
  fun _ h => Dev.bundleOp_held (Dev.runs_crewsRun h) body

theorem heldStill_firstOp {c cyc : Nat} {body : Nat → Dev → Dev} : heldStill (fun d => d.firstOp c cyc body) :=
  fun _ h => if_neg (by simp [Dev.runs_crewsRun h])

/-- An operation with a check, of a ring or not. -/
theorem heldStill_check {c cyc : Nat} {body : Dev → Dev} :
    heldStill (fun d => if d.runsCheck c cyc = false then d else body d) :=
  fun _ h => if_pos (Dev.runsCheck_crewsRun h ..)

theorem heldStill_ring {c cyc : Nat} {body : Dev → Dev} :
    heldStill (fun d => if d.runsFirst c cyc = false then d else body d) :=
  fun _ h => if_pos (Dev.runsFirst_crewsRun h ..)

/-- Each core instruction's command by the slot it stands in: the S slot comes first, the checks of MERGE, DESC, GET and PUTC are
tried by tests of their own, every other operation is one of its bundle. -/
theorem exec_coreOp_held {i : Instr} {o : CoreOp} (ho : i.coreOp = some o) (s : State) :
    ∃ w f, exec i s = s.coreRun i w f ∧ heldStill f := by
  cases i
  case turn | release | digopen | digclose => exact ⟨_, _, rfl, heldStill_firstOp⟩
  case merge | desc => exact ⟨_, _, rfl, heldStill_check⟩
  case get | putc => exact ⟨_, _, rfl, heldStill_ring⟩
  case wave | fill | wake | split | wb | wbr | job => exact ⟨_, _, rfl, heldStill_bundleOp⟩
  case lda | lds | adda | setr | win | feedMap | feedDir | feedLin => exact ⟨_, _, rfl, heldStill_bundleOp⟩
  case add | sub | mul | and | or | xor | shl | shrl | shra | cmp | sel | fadd | fsub | fmul | fma | fmin | fmax | fcmp
      | cvt | unpk | mxb | fn | red | vld | vst | vgath | vscat | bcast | lane | coreid =>
    exact ⟨_, _, rfl, heldStill_bundleOp⟩
  case putr | drain => exact ⟨_, _, rfl, heldStill_bundleOp⟩
  all_goals cases ho

end Sys2Proof.Machine

open Sys2Proof Sys2Proof.Machine

/-- Settles O10: a core instruction's command is carried out by operations that change nothing while the crews are held. -/
theorem heldCrewExecutesNothing : Obligations.HeldCrewExecutesNothing := by
  intro i o s ho h
  obtain ⟨w, f, hexec, hf⟩ := exec_coreOp_held ho s
  exact hexec.trans (State.coreRun_held h hf i w)
end

section
/-! SUPPORT. A TURN in the stroke after a restoration stroke (R216, R352). -/
namespace Sys2Proof.Machine

/-- A group of level 0 for core 0. -/
def waitingGroup : Group := { id := ⟨3, 7, 2⟩, count := 40 }

/-- An operational device in the stroke after a restoration stroke, a group of level 0 queued for core 0. -/
def turnResumed : State :=
  { State.reset with
    dev :=
      { State.reset.dev with
        tm := { State.reset.dev.tm with op := true }
        bt := { State.reset.dev.bt with placed := true, locked := true }
        flt := { State.reset.dev.flt with resumed := true }
        cw := { State.reset.dev.cw with seq := { State.reset.dev.cw.seq with queues := [(0, [waitingGroup])] } } } }

theorem turnResumed_inv : turnResumed.inv = true := by decide +kernel

/-- The crews run again in that stroke, and every TURN of it binds a null group: the group stays in its queue (R352). -/
theorem turn_turnResumed : ∃ t, exec (.turn { core := 0, cyc := 5 } {} 0 0) turnResumed = .next t ∧
    t.dev.cw.seq.queues = [(0, [waitingGroup])] ∧
    (t.dev.vol 0).ctxup = [(6, 0, { bound := true, null := true })] := ⟨_, rfl, by decide +kernel, by decide +kernel⟩

end Sys2Proof.Machine

open Sys2Proof Sys2Proof.Machine

/-- Refutes O26: in the stroke after a restoration stroke a TURN binds a null group though a group of its level is queued
(R352), so the group that the statement has taken off the queue stays in it. -/
theorem not_turnsAndReleases : ¬ Obligations.TurnsAndReleases := by
  intro h
  obtain ⟨hturn, -⟩ := h turnResumed { core := 0, cyc := 5 } {} 0 0
  obtain ⟨t, hexec, hseq, -⟩ := hturn waitingGroup { turnResumed.dev.cw.seq with queues := [] } (by decide +kernel)
    (by decide +kernel) (by decide +kernel)
  obtain ⟨t', hexec', hkept, -⟩ := turn_turnResumed
  obtain rfl : t = t' := Host.Outcome.next.inj (hexec.symm.trans hexec')
  exact absurd (hkept.symm.trans (congrArg SeqChk.queues hseq)) (by decide)
end

section
/-! SUPPORT. The digest channel of a core and the digest unit (R226, R227, R293). -/
namespace Sys2Proof.Machine

/-! ### Operations of the S slot -/

/-- An operation of the S slot that is executed takes effect on its core brought to its cycle, before the other slots' (R305). -/
theorem State.coreRun_firstOp {s : State} {i : Instr} {p : At} (hp : i.coreOp.map CoreOp.loc = some p)
    (h : s.dev.executes i = true) (w : Writes) (body : Nat → Dev → Dev) :
    s.coreRun i w (fun d => d.firstOp p.core.val p.cyc body) =
      .next { s with dev := s.dev.commit w (body (s.dev.cycleOf p) (s.dev.brought p)) } := by
  obtain ⟨o, ho, rfl⟩ := Option.map_eq_some_iff.1 hp
  obtain ⟨hwhole, hruns⟩ := Dev.executes_cases ho h
  rw [State.coreRun, State.run, Dev.coreStep_fetched ho hwhole, Dev.firstOp, if_pos (by rw [Dev.runs_pstoreCorr]; exact hruns),
    Dev.absCyc_pstoreCorr]
  rfl

/-! ### Whether digests are reported (R226) -/

/-- Asking whether a sector's digests are reported notes the answer beside the sector and changes nothing else. -/
theorem Dev.digSetting_snd (d : Dev) (g : Group) :
    ∃ q, (d.digSetting g).2 = { d with cw := { d.cw with seq := q } } := by
  unfold Dev.digSetting
  dsimp only
  split
  · exact ⟨_, rfl⟩
  · split <;> exact ⟨_, rfl⟩

@[simp] theorem Dev.core_digSetting (d : Dev) (g : Group) (c : Nat) : (d.digSetting g).2.core c = d.core c := by
  obtain ⟨q, hq⟩ := d.digSetting_snd g
  rw [hq]
  rfl

@[simp] theorem Dev.mem_digSetting (d : Dev) (g : Group) : (d.digSetting g).2.mem = d.mem := by
  obtain ⟨q, hq⟩ := d.digSetting_snd g
  rw [hq]

/-- The answer does not depend on the cores. -/
@[simp] theorem Dev.digSetting_setCore (d : Dev) (c : Nat) (k : CoreChk) (g : Group) :
    ((d.setCore c k).digSetting g).1 = (d.digSetting g).1 := by
  unfold Dev.digSetting
  dsimp only [Dev.setCore_cw_seq, Dev.setCore_lg]
  split
  · rfl
  · split <;> rfl

/-! ### The digest unit takes a group's CRC (R227) -/

@[simp] theorem Dev.core_digTake (d : Dev) (o : DigOpen) (c : Nat) : (d.digTake o).core c = d.core c := by
  unfold Dev.digTake
  dsimp only
  split
  · exact d.core_digSetting ..
  · exact d.core_digSetting ..

/-- What a search finds, or takes where it finds nothing, has what the element taken has and the search asks for. -/
theorem getD_find?_of {α : Type} {p : α → Bool} {P : α → Prop} {l : List α} {x : α} (hx : P x)
    (hp : ∀ a, p a = true → P a) : P ((l.find? p).getD x) := by
  cases h : l.find? p with
  | none => exact hx
  | some a => exact hp a (List.find?_some h)

/-- Of a sector whose digests are reported, the group's CRC and byte count stand beside the sector and the point. -/
theorem Dev.digTake_of_reported {d : Dev} {o : DigOpen} (h : (d.digSetting o.grp).1 = true) :
    ∃ a ∈ (d.digTake o).lg.digs, a.id = o.grp.id ∧ a.point = o.point ∧ (o.grp.n, o.crc, o.len) ∈ a.groups := by
  unfold Dev.digTake
  dsimp only
  rw [if_neg (by simp [h])]
  refine ⟨_, List.mem_append_right _ (List.mem_singleton_self _), ?_, ?_, List.mem_append_right _ (List.mem_singleton_self _)⟩
  · refine getD_find?_of (P := fun a : DigAcc => a.id = o.grp.id) rfl fun a ha => ?_
    simp only [Bool.and_eq_true, decide_eq_true_eq] at ha
    obtain ⟨⟨⟨⟨hid, -⟩, -⟩, -⟩, -⟩ := ha
    exact hid
  · refine getD_find?_of (P := fun a : DigAcc => a.point = o.point) rfl fun a ha => ?_
    simp only [Bool.and_eq_true, decide_eq_true_eq] at ha
    obtain ⟨⟨-, hpoint⟩, -⟩ := ha
    exact hpoint

/-! ### The commands (R291, R293) -/

section
variable {s : State} {p : At} {g : Gate} {point : BitVec 8} {gr : Group} {o : DigOpen}

/-- What a command that changes cores, the digest unit and memory commits. -/
def State.digestOut (s : State) (d : Dev) : Out := .next { s with dev := s.dev.commit { cw := true, lg := true, mem := true } d }

theorem exec_digopen_group (h : s.dev.executes (.digopen p g point) = true)
    (hdig : ((s.dev.brought p).core p.core.val).dig = none)
    (hnull : (((s.dev.brought p).core p.core.val).turn g.ctxOut.toNat).null = false)
    (hgrp : (((s.dev.brought p).core p.core.val).turn g.ctxOut.toNat).grp = some gr) :
    exec (.digopen p g point) s = s.coresOut (((s.dev.brought p).digSetting gr).2.setCore p.core.val
      { (s.dev.brought p).core p.core.val with dig := some { grp := gr, point := point.toNat } }) := by
  refine (State.coreRun_firstOp rfl h ..).trans (congrArg s.coresOut ?_)
  dsimp only
  rw [if_neg (ne_true_of_eq_false hnull), hdig, hgrp]
  dsimp only
  rw [Dev.core_digSetting]

theorem exec_digopen_null (h : s.dev.executes (.digopen p g point) = true)
    (hnull : (((s.dev.brought p).core p.core.val).turn g.ctxOut.toNat).null = true) :
    exec (.digopen p g point) s = s.coresOut (s.dev.brought p) :=
  (State.coreRun_firstOp rfl h ..).trans (congrArg s.coresOut (if_pos hnull))

theorem exec_digclose_open (h : s.dev.executes (.digclose p g) = true)
    (hnull : (((s.dev.brought p).core p.core.val).turn g.ctxOut.toNat).null = false)
    (hdig : ((s.dev.brought p).core p.core.val).dig = some o) :
    exec (.digclose p g) s = s.digestOut (((s.dev.brought p).setCore p.core.val
      { (s.dev.brought p).core p.core.val with dig := none }).digTake o) := by
  refine (State.coreRun_firstOp rfl h ..).trans (congrArg s.digestOut ?_)
  dsimp only
  rw [if_neg (ne_true_of_eq_false hnull), hdig]

theorem exec_digclose_null (h : s.dev.executes (.digclose p g) = true)
    (hnull : (((s.dev.brought p).core p.core.val).turn g.ctxOut.toNat).null = true) :
    exec (.digclose p g) s = s.digestOut (s.dev.brought p) :=
  (State.coreRun_firstOp rfl h ..).trans (congrArg s.digestOut (if_pos hnull))
end

theorem Dev.lg_commit (w : Writes) (old new : Dev) (h : w.lg = true) : (Dev.commit w old new).lg = new.lg := by
  rw [Dev.commit_lg, h]
  rfl

/-- The first digest whose last group has come out of formation leaves the unit for the checkpoint (R227, R228). -/
theorem digestComplete_lg {d : Dev} {a : DigAcc} {r : List DigAcc}
    (h : takeFirst (fun (a : DigAcc) => decide (a.need ≤ a.groups.length)) d.lg.digs = some (a, r)) :
    (digestComplete d).lg =
      { d.lg with digs := r, done := d.lg.done ++ [{ stroke := d.tm.stroke, acc := a, value := a.value }] } := by
  unfold digestComplete
  rw [h]
  dsimp only
  split
  · exact Dev.mon_lg ..
  · rfl

end Sys2Proof.Machine

open Sys2Proof Sys2Proof.Machine

/-- Settles O27: each command of the channel by the state of its context and its channel, the completed digest by the first that
the unit finds. -/
theorem digestChannel : Obligations.DigestChannel := by
  intro s p g point gr o c d
  refine ⟨fun h hdig hnull hgrp => ⟨_, exec_digopen_group h hdig hnull hgrp, ?_, ?_⟩,
    fun h hnull hdig hrep => ⟨_, exec_digclose_open h hnull hdig, ?_, ?_⟩,
    fun h hnull => ⟨_, exec_digopen_null h hnull, ?_⟩, fun h hnull => ⟨_, exec_digclose_null h hnull, ?_, ?_⟩,
    fun a r h => ⟨_, rfl, ?_, ?_⟩⟩
  · rw [Dev.core_commit _ _ _ _ rfl, Dev.core_setCore_same]
  · rw [Dev.commit_mem]
    exact (Dev.setCore_mem ..).trans (Dev.mem_digSetting ..)
  · rw [Dev.core_commit _ _ _ _ rfl, Dev.core_digTake, Dev.core_setCore_same]
  · rw [Dev.lg_commit _ _ _ rfl]
    exact Dev.digTake_of_reported ((Dev.digSetting_setCore ..).trans hrep)
  · rw [Dev.commit_cw]
    rfl
  · rw [Dev.commit_cw]
    rfl
  · rw [Dev.lg_commit _ _ _ rfl]
  · rw [Dev.lg_commit _ _ _ rfl, digestComplete_lg h]
  · rw [Dev.lg_commit _ _ _ rfl, digestComplete_lg h]
end

section
/-! SUPPORT. The end of a crew's program, and the waits that expire (R170, R201, R215, R217, R273, R308). -/
namespace Sys2Proof.Machine

/-! ### A fault of a core's program (R308) -/

@[simp] theorem Dev.coFault_cw (d : Dev) (c b bs cyc s : Nat) : (d.coFault c b bs cyc s).cw = d.cw := by
  unfold Dev.coFault
  dsimp only
  rw [Dev.report_cw, Dev.hwOr_cw]
  split <;> rfl

/-- A fault sets its bit. -/
theorem Dev.faultBit_coFault (d : Dev) (c bs cyc : Nat) {b s : Nat} (hb : b < 32) (hs : s < 0x30) :
    ((d.coFault c b bs cyc s).rd (CO_CORE_FAULT c)).getLsbD b = true := by
  unfold Dev.coFault
  dsimp only
  rw [Dev.rd_report _ (by exact hs), Dev.hwOr, Dev.rd_hw_same, BitVec.getLsbD_or, BitVec.getLsbD_ofNat]
  simp [hb, Nat.testBit_two_pow_self]

/-- It is one of its core alone. -/
theorem Dev.rd_coFault_ne (d : Dev) (b bs cyc : Nat) {c e s : Nat} (hs : s < 0x30) (h : e ≠ c) :
    (d.coFault c b bs cyc s).rd (CO_CORE_FAULT e) = d.rd (CO_CORE_FAULT e) := by
  have hreg : CO_CORE_FAULT e ≠ CO_CORE_FAULT c := by simp only [CO_CORE_FAULT]; omega
  have hat : CO_CORE_FAULT e ≠ CO_CORE_FAULT_AT c := by simp only [CO_CORE_FAULT, CO_CORE_FAULT_AT]; omega
  unfold Dev.coFault
  dsimp only
  rw [Dev.rd_report _ (by exact hs), Dev.hwOr, Dev.rd_hw_ne _ _ hreg]
  split
  · exact Dev.rd_hwN_ne _ _ hat
  · rfl

theorem Dev.ctr_coFault (d : Dev) (c b bs cyc : Nat) {s a : Nat} (hs : s < 0x30) (ha : a < 0x90A00) :
    (d.coFault c b bs cyc s).ctr a = d.ctr a := by
  unfold Dev.coFault
  dsimp only
  rw [Dev.ctr_report_of_lt _ (by exact hs) (notMem_reportCtrs ha)]
  split <;> rfl

/-- A bundle of which no slot executes stops the program of the crew that fetches it. -/
theorem Dev.haltAt_of_runs {d : Dev} {c cyc b : Nat} (h : d.runs c cyc = true) (hb : b < 32) :
    ((d.haltAt c cyc b).crew (c / 8)).halted = true ∧ ((d.haltAt c cyc b).rd (CO_CORE_FAULT c)).getLsbD b = true := by
  unfold Dev.haltAt
  rw [if_pos h]
  refine ⟨?_, Dev.faultBit_coFault _ _ _ _ hb (by decide)⟩
  rw [Dev.crew, Dev.coFault_cw, ← Dev.crew, Dev.crew_setCrew_same]

/-- So does an illegal one, of every core of a crew. -/
theorem Dev.bundleIllegal_of_runs {d : Dev} {k cyc : Nat} (h : d.runs (8 * k) cyc = true) :
    ((d.bundleIllegal k cyc).crew k).halted = true ∧
      ((d.bundleIllegal k cyc).rd (CO_CORE_FAULT (8 * k))).getLsbD 1 = true := by
  obtain ⟨hhalt, hbit⟩ := Dev.haltAt_of_runs (b := 1) h (by decide)
  rw [Nat.mul_div_cancel_left k (by decide)] at hhalt
  unfold Dev.bundleIllegal
  rw [if_pos h]
  constructor
  · rw [Dev.crew, foldl_proj _ Dev.cw (fun d _ => Dev.coFault_cw d ..) _ _]
    exact hhalt
  · rw [foldl_proj _ (fun d : Dev => d.rd (CO_CORE_FAULT (8 * k)))
      (fun d _ => Dev.rd_coFault_ne d _ _ _ (by decide) (by omega)) _ _]
    exact hbit

theorem Dev.stopIllegal_of_none {d : Dev} {k cyc : Nat} (h : d.badBefore k cyc = none) : d.stopIllegal k cyc = d := by
  unfold Dev.stopIllegal
  rw [h]

theorem Dev.stopIllegal_of_some {d : Dev} {k cyc t : Nat} (h : d.badBefore k cyc = some t) :
    d.stopIllegal k cyc = d.bundleIllegal k t := by
  unfold Dev.stopIllegal
  rw [h]

/-! ### The cycles of a program (R281) -/

/-- The schedule cycles of a crew's program: the spans of its bundles; with none stored, the cycles that its commands took. -/
def Dev.share (d : Dev) (k real golden : Nat) : Nat :=
  if d.prog k = [] then real + golden else shareOf (d.prog k) false + shareOf (d.prog k) true

theorem Dev.share_eq (d : Dev) (k real golden : Nat) : d.share k real golden =
    (if d.prog k = [] then real else shareOf (d.prog k) false) + (if d.prog k = [] then golden else shareOf (d.prog k) true) := by
  unfold Dev.share
  split <;> rfl

/-! ### What a crew finds in the fetch of bundles without an operation (R308) -/

/-- What tells a crew where its program stands: the crews and their programs, the stroke and its length, whether the crews run,
the registers. -/
def Dev.crewSight (d : Dev) : CrewSide × Nat × Stroke × Bool × SMap Word :=
  (d.cw, d.tm.len, d.tm.stroke, d.crewsRun, d.reg.regs)

theorem Dev.crewSight_report_corr (d : Dev) (u : Nat) : (d.report { src := 0x05, unit := u }).crewSight = d.crewSight := by
  obtain ⟨l, hl⟩ := d.report_corrected_flt { src := 0x05, unit := u } rfl
  have hregs := d.report_regs (r := { src := 0x05, unit := u }) (by simp)
  simp [Dev.crewSight, Dev.crewsRun, Dev.accel, Dev.live, hl, FltSt.restarting, hregs]

theorem Dev.crewSight_pstoreCorr (d : Dev) (c cyc n : Nat) : (d.pstoreCorr c cyc n).crewSight = d.crewSight :=
  Dev.pstoreCorr_proj Dev.crewSight (fun d u => d.crewSight_report_corr u) (fun _ _ _ => rfl) d c cyc n

section
variable {d e : Dev} (h : e.crewSight = d.crewSight)
include h

theorem Dev.cw_of_crewSight : e.cw = d.cw := congrArg (fun x => x.1) h
theorem Dev.len_of_crewSight : e.tm.len = d.tm.len := congrArg (fun x => x.2.1) h
theorem Dev.crewsRun_of_crewSight : e.crewsRun = d.crewsRun := congrArg (fun x => x.2.2.2.1) h
theorem Dev.rd_of_crewSight (a : Nat) : e.rd a = d.rd a :=
  congrArg (fun m => smGet regReset m a) (congrArg (fun x => x.2.2.2.2) h : e.reg.regs = d.reg.regs)
theorem Dev.crew_of_crewSight (k : Nat) : e.crew k = d.crew k := by
  rw [Dev.crew, Dev.cw_of_crewSight h]
  rfl
theorem Dev.prog_of_crewSight (k : Nat) : e.prog k = d.prog k := by
  have hstroke : e.tm.stroke = d.tm.stroke := congrArg (fun x => x.2.2.1) h
  rw [Dev.prog, Dev.progSlot, Dev.cw_of_crewSight h, hstroke]
  rfl
theorem Dev.share_of_crewSight (k real golden : Nat) : e.share k real golden = d.share k real golden := by
  rw [Dev.share, Dev.prog_of_crewSight h]
  rfl
theorem Dev.runs_of_crewSight (c cyc : Nat) : e.runs c cyc = d.runs c cyc := by
  rw [Dev.runs, Dev.crewsRun_of_crewSight h, Dev.crew_of_crewSight h, Dev.len_of_crewSight h]
  rfl
theorem Dev.badBefore_of_crewSight (k cyc : Nat) : e.badBefore k cyc = d.badBefore k cyc := by
  have hrd : e.rd = d.rd := funext (Dev.rd_of_crewSight h)
  unfold Dev.badBefore Dev.bundleFits Dev.ringDesc Dev.rf
  rw [Dev.prog_of_crewSight h, hrd]
end

/-- Where the fetches met no uncorrectable error, corrections alone were counted. -/
theorem Dev.idleFetch_eq {e : CrewEnd} (h : e.unc = none) (d : Dev) :
    d.idleFetch e = e.corr.foldl (fun d x => d.pstoreCorr (8 * e.crew.val + x.1.val) x.2 1) d := by
  unfold Dev.idleFetch
  rw [h]

theorem Dev.crewSight_idleFetch {e : CrewEnd} (h : e.unc = none) (d : Dev) : (d.idleFetch e).crewSight = d.crewSight := by
  rw [Dev.idleFetch_eq h]
  exact foldl_proj _ Dev.crewSight (fun d _ => Dev.crewSight_pstoreCorr d ..) _ _

theorem Dev.ctr_pstoreCorr (d : Dev) (cyc n : Nat) {c a : Nat} (h : a ≠ CO_CTR_PSTORE_CORR c) (ha : a < 0x90A00) :
    (d.pstoreCorr c cyc n).ctr a = d.ctr a := by
  unfold Dev.pstoreCorr
  split
  · exact (loopN_proj _ (fun d : Dev => d.ctr a) (fun _ d => Dev.ctr_report_of_lt d (by simp) (notMem_reportCtrs ha)) _ _).trans
      (d.ctr_bump_ne n h)
  · rfl

/-- Counters of the sequencer beside the cores'. -/
theorem Dev.ctr_idleFetch {e : CrewEnd} (h : e.unc = none) (d : Dev) {a : Nat} (h0 : 0x90000 ≤ a) (ha : a < 0x90A00) :
    (d.idleFetch e).ctr a = d.ctr a := by
  rw [Dev.idleFetch_eq h]
  refine foldl_proj _ (fun d : Dev => d.ctr a) (fun d x => Dev.ctr_pstoreCorr d _ _ ?_ ha) _ _
  have hk := e.crew.isLt
  have hi := x.1.isLt
  simp only [CO_CTR_PSTORE_CORR]
  omega

/-! ### The end of a program (R215, R273, R281) -/

theorem Dev.crew_countBundles_same (d : Dev) (k n : Nat) :
    (d.countBundles k n).crew k = { d.crew k with bundles := max n (d.crew k).bundles } := by
  unfold Dev.countBundles
  exact Dev.crew_setCrew_same ..

theorem Dev.ctr_countBundles (d : Dev) (n : Nat) {k a : Nat} (hk : k < 4) (ha : 0x90000 ≤ a) :
    (d.countBundles k n).ctr a = d.ctr a := by
  unfold Dev.countBundles
  dsimp only
  rw [Dev.ctr_congr (Dev.setCrew_reg ..)]
  refine List.foldlRecOn (motive := fun e : Dev => e.ctr a = d.ctr a) _ _ rfl fun e he i hi => ?_
  have hi8 := List.mem_range.1 hi
  rw [← he]
  exact e.ctr_bump_ne _ (by simp only [CO_CTR_BUNDLES]; omega)

@[simp] theorem Dev.schedCount_cw (d : Dev) (k real golden : Nat) : (d.schedCount k real golden).cw = d.cw := by
  unfold Dev.schedCount
  dsimp only
  split
  · exact foldl_proj _ Dev.cw (fun d _ => Dev.coFault_cw d ..) _ _
  · rfl

theorem Dev.ctr_schedCount (d : Dev) (k real golden : Nat) {a : Nat} (ha : a < 0x90A00) :
    (d.schedCount k real golden).ctr a = d.ctr a := by
  unfold Dev.schedCount
  dsimp only
  split
  · exact foldl_proj _ (fun d : Dev => d.ctr a) (fun d _ => Dev.ctr_coFault d _ _ _ _ (by decide) ha) _ _
  · rfl

/-- A crew whose program has ended: it waits for the boundary, the rest of the stroke and its bundles counted. -/
def Dev.endCrew (d : Dev) (k real golden : Nat) : Dev :=
  let cr := d.crew k
  let e := (d.setCrew k { cr with waiting := true, pos := real + golden }).bump (CS_WAIT k)
    (d.tm.len - real - golden - cr.frozen)
  (e.countBundles k (bundlesOf (d.prog k)).length).schedCount k real golden

/-- The MARKs of its end (R313). -/
def Dev.markEnd (d : Dev) (k : Nat) : Dev :=
  let e := d.mon (.mark (.crewEnd k))
  if (List.range 4).all (fun i => (e.crew i).waiting) then e.mon (.mark (.heads (e.tm.stroke - 1))) else e

theorem Dev.waiting_endCrew (d : Dev) (k real golden : Nat) : ((d.endCrew k real golden).crew k).waiting = true := by
  unfold Dev.endCrew
  dsimp only
  rw [Dev.crew, Dev.schedCount_cw, ← Dev.crew, Dev.crew_countBundles_same, Dev.crew_bump, Dev.crew_setCrew_same]

theorem Dev.ctr_endCrew (d : Dev) (real golden : Nat) {k : Nat} (hk : k < 4) : (d.endCrew k real golden).ctr (CS_WAIT k) =
    ctrAdd (d.ctr (CS_WAIT k)) (d.tm.len - real - golden - (d.crew k).frozen) := by
  have hlow : CS_WAIT k < 0x90A00 := by simp only [CS_WAIT]; omega
  have hhigh : 0x90000 ≤ CS_WAIT k := by simp only [CS_WAIT]; omega
  unfold Dev.endCrew
  dsimp only
  rw [Dev.ctr_schedCount _ _ _ _ hlow, Dev.ctr_countBundles _ _ hk hhigh, Dev.ctr_bump_same,
    Dev.ctr_congr (Dev.setCrew_reg ..)]

@[simp] theorem Dev.markEnd_cw (d : Dev) (k : Nat) : (d.markEnd k).cw = d.cw := by
  unfold Dev.markEnd
  dsimp only
  split
  · exact (Dev.mon_cw ..).trans (Dev.mon_cw ..)
  · exact Dev.mon_cw ..

@[simp] theorem Dev.ctr_markEnd (d : Dev) (k a : Nat) : (d.markEnd k).ctr a = d.ctr a := by
  unfold Dev.markEnd
  dsimp only
  split
  · exact Dev.ctr_congr ((Dev.mon_reg ..).trans (Dev.mon_reg ..)) a
  · exact Dev.ctr_congr (Dev.mon_reg ..) a

section
variable {d : Dev} {k real golden : Nat}

/-- A program that ends within its stroke, no bundle of it being illegal: its crew waits for the boundary, the rest of the stroke
counted. -/
theorem programEnd_of_fits (hk : k < 4) (hrun : d.crewsRun = true) (hw : (d.crew k).waiting = false)
    (hh : (d.crew k).halted = false) (hc : (d.crew k).wait = []) (hfit : d.share k real golden + (d.crew k).frozen ≤ d.tm.len)
    (hbad : d.badBefore k (d.share k real golden) = none) :
    ((programEnd k real golden d).crew k).waiting = true ∧ (programEnd k real golden d).ctr (CS_WAIT k) =
      ctrAdd (d.ctr (CS_WAIT k)) (d.tm.len - d.share k real golden - (d.crew k).frozen) := by
  rw [Dev.share_eq] at hfit hbad ⊢
  have hend : programEnd k real golden d = (d.endCrew k (if d.prog k = [] then real else shareOf (d.prog k) false)
      (if d.prog k = [] then golden else shareOf (d.prog k) true)).markEnd k := by
    unfold programEnd
    dsimp only
    rw [Dev.stopIllegal_of_none hbad, if_neg (by
      simp only [hrun, hw, hh, hc, List.isEmpty_nil, Bool.true_eq_false, Bool.false_eq_true, false_or]
      omega)]
    rfl
  rw [hend, Dev.ctr_markEnd, Dev.ctr_endCrew _ _ _ hk, ← Nat.sub_sub, Dev.crew, Dev.markEnd_cw, ← Dev.crew]
  exact ⟨Dev.waiting_endCrew .., rfl⟩

/-- An illegal bundle before the end: its crew has stopped there. -/
theorem programEnd_of_illegal {t : Nat} (hrun : d.runs (8 * k) t = true) (hbad : d.badBefore k (d.share k real golden) = some t) :
    ((programEnd k real golden d).crew k).halted = true ∧
      ((programEnd k real golden d).rd (CO_CORE_FAULT (8 * k))).getLsbD 1 = true := by
  obtain ⟨hhalt, hbit⟩ := Dev.bundleIllegal_of_runs hrun
  have hend : programEnd k real golden d = d.bundleIllegal k t := by
    unfold programEnd
    dsimp only
    rw [← Dev.share_eq, Dev.stopIllegal_of_some hbad, if_pos (by simp [hhalt])]
  rw [hend]
  exact ⟨hhalt, hbit⟩
end

/-! ### Checks that still fail after 64 freeze cycles (R170, R201) -/

/-- A freeze leaves the checks for which a crew waits. -/
theorem Dev.wait_freeze (d : Dev) (c at_ n k : Nat) : ((d.freeze c at_ n).crew k).wait = (d.crew k).wait := by
  unfold Dev.freeze
  split
  · rfl
  · rw [Dev.crew_bump]
    by_cases hk : k = c / 8
    · rw [hk, Dev.crew_setCrew_same]
    · rw [Dev.crew_setCrew_ne _ _ hk]

/-- The check of a core that no longer holds its crew, its 64 freeze cycles counted. -/
def Dev.expired (d : Dev) (c ctr : Nat) (w : Nat × Nat × Nat × Bool) : Dev :=
  let cr := d.crew (c / 8)
  let e := d.setCrew (c / 8) { cr with wait := cr.wait.filter (fun x => decide (x ≠ w)) }
  (e.bump ctr 64).freeze c (e.absCyc c w.2.1) 64

theorem Dev.not_mem_wait_expired (d : Dev) (c ctr : Nat) (w : Nat × Nat × Nat × Bool) :
    ∀ x ∈ ((d.expired c ctr w).crew (c / 8)).wait, x ≠ w := by
  intro x hx
  rw [Dev.expired, Dev.wait_freeze, Dev.crew_bump, Dev.crew_setCrew_same] at hx
  exact of_decide_eq_true (List.mem_filter.1 hx).2

theorem Dev.ctr_expired (d : Dev) (c ctr : Nat) (w : Nat × Nat × Nat × Bool) {a : Nat} (ha : a < 0x90000) (hne : a ≠ ctr) :
    (d.expired c ctr w).ctr a = d.ctr a := (Dev.ctr_freeze _ _ _ _ ha).trans (Dev.ctr_bump_ne _ _ hne)

section
variable (d : Dev) (c b ring slot : Nat)

@[simp] theorem Dev.slotFault_cw : (d.slotFault c b ring slot).cw = d.cw := Dev.tpFault_cw ..

theorem Dev.faultBit_slotFault {b : Nat} (hb : b < 32) : ((d.slotFault c b ring slot).rd (TP_CORE_FAULT c)).getLsbD b = true :=
  Dev.faultBit_tpFault _ _ _ _ _ hb (by decide)

theorem Dev.ctr_slotFault {a : Nat} (ha : a < 0x90A00) : (d.slotFault c b ring slot).ctr a =
    (d.bump (if b = 3 then TP_SLOT_UNDERRUN c else TP_SLOT_OVERRUN c)).ctr a :=
  Dev.ctr_tpFault _ _ _ _ _ _ (by decide) ha
end

/-- The fault of an expired check is counted once: in SLOT_UNDERRUN of a GET, in SLOT_OVERRUN of a PUT. -/
theorem Dev.ctr_slotFault_expired (d : Dev) (w : Nat × Nat × Nat × Bool) (b ring slot : Nat) {c : Nat} (hc : c < 32) :
    ((d.expired c (TP_SLOT_WAIT c) w).slotFault c b ring slot).ctr (if b = 3 then TP_SLOT_UNDERRUN c else TP_SLOT_OVERRUN c) =
      ctrAdd (d.ctr (if b = 3 then TP_SLOT_UNDERRUN c else TP_SLOT_OVERRUN c)) 1 := by
  obtain ⟨a, ha⟩ : ∃ a, (if b = 3 then TP_SLOT_UNDERRUN c else TP_SLOT_OVERRUN c) = a := ⟨_, rfl⟩
  obtain ⟨hlow, hne⟩ : a < 0x90000 ∧ a ≠ TP_SLOT_WAIT c := by
    rw [← ha]
    simp only [TP_SLOT_UNDERRUN, TP_SLOT_OVERRUN, TP_SLOT_WAIT]
    split <;> omega
  rw [Dev.ctr_slotFault _ _ _ _ _ (by rw [ha]; omega), ha, Dev.ctr_bump_same, Dev.ctr_expired _ _ _ _ hlow hne]

section
variable {d : Dev} {c : Nat} {w : Nat × Nat × Nat × Bool}

theorem slotWaitExpire_of_wait
    (h : (d.crew (c / 8)).wait.find? (fun w => decide (w.1 = c) && decide (w.2.2.1 < 32) && !(d.waitOk w)) = some w) :
    ∃ slot, slotWaitExpire c d = (d.expired c (TP_SLOT_WAIT c) w).slotFault c (if w.2.2.2 then 3 else 4) w.2.2.1 slot := by
  unfold slotWaitExpire
  dsimp only
  rw [h]
  dsimp only
  split
  · exact ⟨_, rfl⟩
  · exact ⟨_, rfl⟩

theorem slotWaitExpire_of_held {hd : Nat × Nat × List Byte} {rest : List (Nat × Nat × List Byte)}
    (h : (d.crew (c / 8)).wait.find? (fun w => decide (w.1 = c) && decide (w.2.2.1 < 32) && !(d.waitOk w)) = none)
    (ht : takeFirst (fun (h : Nat × Nat × List Byte) => decide (h.1 = c) && d.slotFull c h.2.1 ((d.core c).ring h.2.1).head)
      d.cw.held = some (hd, rest)) :
    slotWaitExpire c d =
      ({ d with cw := { d.cw with held := rest } } : Dev).slotFault c 4 hd.2.1 ((d.core c).ring hd.2.1).head := by
  unfold slotWaitExpire
  dsimp only
  rw [h]
  dsimp only
  rw [ht]

theorem descQueueTimeout_of_wait
    (h : (d.crew (c / 8)).wait.find? (fun w => decide (w.1 = c) && decide (w.2.2.1 = 32) && !(d.waitOk w)) = some w) :
    descQueueTimeout c d = (d.expired c (AG_QUEUE_FREEZE c) w).agFault c 1 0x12 := by
  unfold descQueueTimeout
  dsimp only
  rw [h]
  rfl
end

end Sys2Proof.Machine

open Sys2Proof Sys2Proof.Machine

/-- Settles O30: the end of a program is judged on what the fetches without an operation leave, which is corrections counted; an
expired check is the first of its core that still fails. -/
theorem programEndsAndTimeouts : Obligations.ProgramEndsAndTimeouts := by
  intro s e real golden core w h rest c k d crew cr share fails
  have hc : c < 32 := core.isLt
  refine ⟨fun hrun hw hh hwait hfit hunc hbad => ⟨_, rfl, ?_⟩, fun t0 hrun hbad hunc => ⟨_, rfl, ?_⟩,
    fun hfind => ⟨_, rfl, ?_⟩, fun hfind htake => ⟨_, rfl, ?_⟩, fun hfind => ⟨_, rfl, ?_⟩⟩
  · have hsight := d.crewSight_idleFetch hunc
    have hcrew := Dev.crew_of_crewSight hsight crew
    have hshare : (d.idleFetch e).share crew real golden = share := Dev.share_of_crewSight hsight ..
    have hctr : (d.idleFetch e).ctr (CS_WAIT crew) = d.ctr (CS_WAIT crew) :=
      d.ctr_idleFetch hunc (by simp only [CS_WAIT]; omega) (by have := e.crew.isLt; simp only [CS_WAIT]; omega)
    rw [Dev.crew_commit _ _ _ _ rfl, Dev.ctr_commit]
    have hend := programEnd_of_fits (real := real) (golden := golden) e.crew.isLt
      ((Dev.crewsRun_of_crewSight hsight).trans hrun) (hcrew ▸ hw) (hcrew ▸ hh) (hcrew ▸ hwait)
      (by rw [hshare, hcrew, Dev.len_of_crewSight hsight]; exact hfit)
      (by rw [hshare, Dev.badBefore_of_crewSight hsight]; exact hbad)
    rw [hshare, hcrew, hctr, Dev.len_of_crewSight hsight] at hend
    exact hend
  · have hsight := d.crewSight_idleFetch hunc
    have hshare : (d.idleFetch e).share crew real golden = share := Dev.share_of_crewSight hsight ..
    rw [Dev.crew_commit _ _ _ _ rfl, Dev.rd_commit]
    exact programEnd_of_illegal ((Dev.runs_of_crewSight hsight ..).trans hrun)
      (by rw [hshare, Dev.badBefore_of_crewSight hsight]; exact hbad)
  · obtain ⟨slot, hslot⟩ := slotWaitExpire_of_wait hfind
    rw [Dev.crew_commit _ _ _ _ rfl, Dev.rd_commit, Dev.ctr_commit, Dev.ctr_commit, hslot]
    refine ⟨?_, Dev.faultBit_slotFault _ _ _ _ (by split <;> decide), ?_⟩
    · rw [Dev.crew, Dev.slotFault_cw]
      exact d.not_mem_wait_expired _ _ _
    · cases hget : w.2.2.2 <;> exact Dev.ctr_slotFault_expired _ _ _ _ _ hc
  · rw [Dev.commit_cw, Dev.rd_commit, slotWaitExpire_of_held hfind htake]
    exact ⟨congrArg CrewSide.held (Dev.slotFault_cw ..), Dev.faultBit_slotFault _ _ _ _ (by decide)⟩
  · rw [Dev.crew_commit _ _ _ _ rfl, Dev.rd_commit, descQueueTimeout_of_wait hfind]
    refine ⟨?_, Dev.faultBit_agFault _ _ (by decide) (by decide)⟩
    rw [Dev.crew, Dev.agFault_cw]
    exact d.not_mem_wait_expired _ _ _
end

section
/-! SUPPORT. Rows of the tables in the store (R244, R250, R349): the engine's accesses with the base pointers that they use, and the
row protocol. -/
namespace Sys2Proof.Machine

/-! ### Critical values used (R348, R349) -/

theorem Dev.fatal_deviceFatal (d : Dev) (r : FltRep) : (d.deviceFatal r).flt.fatal = true := by
  unfold Dev.deviceFatal
  dsimp only
  split
  · next h => exact (Dev.fltLog_flt_fatal ..).trans h
  · rw [Dev.fltLog_flt_fatal, Dev.irq_flt]

theorem Dev.fatal_useCritical {d : Dev} {held : Bool} (h : held = false ∨ d.flt.fatal = true) :
    (d.useCritical held).flt.fatal = true := by
  unfold Dev.useCritical
  split
  · next hheld => exact h.resolve_left (by simp [hheld])
  · exact d.fatal_deviceFatal _

@[simp] theorem Dev.useCritical_et (d : Dev) (held : Bool) : (d.useCritical held).et = d.et := by
  unfold Dev.useCritical
  split
  · rfl
  · exact d.report_et _

@[simp] theorem Dev.useCritical_stroke (d : Dev) (held : Bool) : (d.useCritical held).tm.stroke = d.tm.stroke := by
  unfold Dev.useCritical
  split
  · rfl
  · exact d.report_tm_stroke _

/-! ### Accesses to a row (R349, R430) -/

section
variable (d : Dev) (cls : Nat) (w : Bool) (t : Nat) (ver : Word) (i off n : Nat)

@[simp] theorem Dev.rowReq_et : (d.rowReq cls w t ver i off n).et = d.et :=
  (Dev.storeReq_et ..).trans (d.useCritical_et _)

@[simp] theorem Dev.rowReq_stroke : (d.rowReq cls w t ver i off n).tm.stroke = d.tm.stroke :=
  (congrArg TimeSt.stroke (Dev.storeReq_tm ..)).trans (d.useCritical_stroke _)

variable {d t ver}

theorem Dev.fatal_rowReq (h : d.baseHeld t ver = false ∨ d.flt.fatal = true) :
    (d.rowReq cls w t ver i off n).flt.fatal = true :=
  (congrArg FltSt.fatal (Dev.storeReq_flt ..)).trans (Dev.fatal_useCritical h)

/-- Through a pointer that agrees with its complement the engine asks the store and does nothing else. -/
theorem Dev.rowReq_of_held (h : d.baseHeld t ver = true) :
    d.rowReq cls w t ver i off n = d.storeReq cls w (d.rowAt t ver i + off) n := by
  unfold Dev.rowReq Dev.useCritical
  rw [if_pos h]

theorem Dev.baseHeld_congr {e : Dev} (h : e.reg = d.reg) (t : Nat) (ver : Word) : e.baseHeld t ver = d.baseHeld t ver := by
  unfold Dev.baseHeld Dev.rowBase Dev.tByRow Dev.rf Dev.rd Dev.agrees
  rw [h]
end

/-- What an access that a row's base pointer serves leaves of the store: where the pointer agrees with its complement these bytes,
and else the device-fatal condition (R349). -/
def Dev.rowLeft (d e : Dev) (t : Nat) (ver : Word) (m : Mem) : Prop :=
  (d.baseHeld t ver = true → e.xs.mem = m) ∧ (d.baseHeld t ver = false → e.flt.fatal = true)

section
variable {d : Dev} {t : Nat} {ver : Word}

theorem Dev.rowLeft_rowReq (cls : Nat) (w : Bool) (i off n : Nat) :
    d.rowLeft (d.rowReq cls w t ver i off n) t ver d.xs.mem :=
  ⟨fun h => by rw [Dev.rowReq_of_held cls w i off n h, Dev.storeReq_xs_mem],
    fun h => Dev.fatal_rowReq cls w i off n (Or.inl h)⟩

/-- A second access to the row, after the first. -/
theorem Dev.rowLeft_rowReq_rowReq (cls cls' : Nat) (w w' : Bool) (i i' off off' n n' : Nat) :
    d.rowLeft ((d.rowReq cls w t ver i off n).rowReq cls' w' t ver i' off' n') t ver d.xs.mem := by
  refine ⟨fun h => ?_, fun h => Dev.fatal_rowReq cls' w' i' off' n' (Or.inr (Dev.fatal_rowReq cls w i off n (Or.inl h)))⟩
  rw [Dev.rowReq_of_held cls w i off n h, Dev.rowReq_of_held, Dev.storeReq_xs_mem, Dev.storeReq_xs_mem]
  rwa [Dev.baseHeld_congr (Dev.storeReq_reg ..)]

/-- The bytes put there afterwards. -/
theorem Dev.rowLeft_map {e e' : Dev} {m : Mem} (h : d.rowLeft e t ver m) (f : Mem → Mem) (hm : e'.xs.mem = f e.xs.mem)
    (hf : e'.flt.fatal = e.flt.fatal) : d.rowLeft e' t ver (f m) :=
  ⟨fun hb => hm.trans (congrArg f (h.1 hb)), fun hb => hf.trans (h.2 hb)⟩

theorem Dev.rowLeft_congr {e e' : Dev} {m : Mem} (h : d.rowLeft e t ver m) (hm : e'.xs.mem = e.xs.mem)
    (hf : e'.flt.fatal = e.flt.fatal) : d.rowLeft e' t ver m := Dev.rowLeft_map h id hm hf

theorem Dev.rowLeft_commit {e : Dev} {m : Mem} (h : d.rowLeft e t ver m) {w : Writes} (hx : w.xs = false) (hf : w.flt = false) :
    d.rowLeft (d.commit w e) t ver m := by
  refine Dev.rowLeft_congr h ?_ ?_
  · rw [Dev.commit_xs, hx]
    rfl
  · rw [Dev.commit_flt, hf]
    rfl
end

theorem Dev.et_commit (d e : Dev) {w : Writes} (hw : w.et = true) : (d.commit w e).et = e.et := by
  rw [Dev.commit_et, hw]
  rfl

/-! ### The row protocol (R244, R250) -/

/-- A row's slot read and then written as the protocol has it (R244): the bytes `f` of those that it held. -/
def Dev.slotChanged (d : Dev) (t row : Nat) (f : List Byte → List Byte) : Dev :=
  let n := 32 + 2 * d.tSize t
  let e := (d.rowReq 4 false t 0 row 0 n).rowReq 4 true t 0 row 0 n
  { e with xs := e.xs.put (d.rowAt t 0 row) (f (memRead d.xs.mem (d.rowAt t 0 row) n)) }

theorem Dev.rowLeft_slotChanged (d : Dev) (t row : Nat) (f : List Byte → List Byte) :
    d.rowLeft (d.slotChanged t row f) t 0
      (memWrite d.xs.mem (d.rowAt t 0 row) (f (memRead d.xs.mem (d.rowAt t 0 row) (32 + 2 * d.tSize t)))) :=
  have h : d.rowLeft _ t 0 d.xs.mem :=
    Dev.rowLeft_rowReq_rowReq 4 4 false true row row 0 0 (32 + 2 * d.tSize t) (32 + 2 * d.tSize t)
  Dev.rowLeft_map h (fun m => memWrite m _ _) rfl rfl

@[simp] theorem Dev.slotChanged_et (d : Dev) (t row : Nat) (f : List Byte → List Byte) : (d.slotChanged t row f).et = d.et := by
  simp [Dev.slotChanged]

section
variable {d : Dev} {i row : Nat} {o : UpdOp}

theorem Dev.unrestored_rowReq (d : Dev) (cls : Nat) (w : Bool) (t : Nat) (ver : Word) (k off n t' row : Nat) :
    (d.rowReq cls w t ver k off n).unrestored t' row = d.unrestored t' row := by
  unfold Dev.unrestored
  rw [Dev.rowReq_et]

/-- The next row of the oldest operation that has one, its slot's last write in effect and no aborted write of it to be restored. -/
theorem rowWrite_of_next {data : List Byte} {rest : List (Nat × List Byte)}
    (hfind : d.et.ops.findIdx? (fun o => !o.aborted && !o.complete && !o.todo.isEmpty) = some i) (hop : d.et.ops[i]? = some o)
    (htodo : o.todo = (row, data) :: rest) (hrest : d.unrestored o.table row = false)
    (hlast : bitOf (leAt (memRead d.xs.mem (d.rowAt o.table 0 row) (32 + 2 * d.tSize o.table)) 10 1) 0 = true ∨
      sLe (BitVec.ofNat 48 (leAt (memRead d.xs.mem (d.rowAt o.table 0 row) (32 + 2 * d.tSize o.table)) 4 6)) d.tm.stroke = true) :
    rowWrite d = (d.slotChanged o.table row (slotWrite (d.tSize o.table) · data o.effect)).setOp i
      { o with todo := rest, done := o.done ++ [row] } := by
  unfold rowWrite
  simp only [hfind, hop, htodo]
  rw [if_pos ⟨by rw [Dev.unrestored_rowReq, hrest]; decide, by rwa [Dev.rowReq_stroke]⟩]
  rfl

/-- The next row of an aborted operation; the operation ends with its last one. -/
theorem rowRestore_of_done {dn : List Nat} (hfind : d.et.ops.findIdx? (fun o => o.aborted) = some i)
    (hop : d.et.ops[i]? = some o) (hdone : o.done = row :: dn) :
    let e := d.slotChanged o.table row (slotRestore (d.tSize o.table))
    rowRestore d = { e with et := { e.et with
      ops := if dn = [] then e.et.ops.eraseIdx i else setAt e.et.ops i { o with done := dn } } } := by
  unfold rowRestore
  simp only [hfind, hop, hdone]
  cases dn <;> rfl
end

/-- The sweep's place moved on (R244). -/
def Dev.swept (d : Dev) : Dev := { d with et := { d.et with sweep := d.sweepNext d.et.sweep } }

/-- A slot's flags read by the sweep, and SETTLED set (R244). -/
def Dev.slotSettled (d : Dev) (t r : Nat) : Dev :=
  let a := d.rowAt t 0 r + 10
  let e := (d.rowReq 4 false t 0 r 0 32).rowReq 4 true t 0 r 10 1
  { e with xs := { e.xs with mem := memSet e.xs.mem a (BitVec.ofNat 8 (memNat d.xs.mem a 1 + 1)) } }

theorem Dev.rowLeft_slotSettled (d : Dev) (t r : Nat) :
    d.rowLeft (d.slotSettled t r) t 0 (memSet d.xs.mem (d.rowAt t 0 r + 10)
      (BitVec.ofNat 8 (memNat d.xs.mem (d.rowAt t 0 r + 10) 1 + 1))) :=
  have h : d.rowLeft _ t 0 d.xs.mem := Dev.rowLeft_rowReq_rowReq 4 4 false true r r 0 10 32 1
  Dev.rowLeft_map h (fun m => memSet m _ _) rfl rfl

@[simp] theorem Dev.slotSettled_et (d : Dev) (t r : Nat) : (d.slotSettled t r).et = d.et := by simp [Dev.slotSettled]

/-- A visit of the sweep to a slot not SETTLED whose write lies 2^20 strokes back, its operation no longer live. -/
theorem settledSweep_one_of_old {d : Dev} {t r : Nat} (hat : d.et.sweep = (t, r)) (hen : d.tEn t = true) (hrow : d.tByRow t = true)
    (hfl : bitOf (memNat d.xs.mem (d.rowAt t 0 r + 10) 1) 0 = false)
    (hback : 2 ^ 20 ≤ subMod d.tm.stroke.toNat (memNat d.xs.mem (d.rowAt t 0 r + 4) 6) 48)
    (hold : older (memNat d.xs.mem (d.rowAt t 0 r + 4) 6) d.tm.stroke.toNat 48 = true)
    (hops : ∀ y ∈ d.et.ops, y.table = t → y.effect.toNat ≠ memNat d.xs.mem (d.rowAt t 0 r + 4) 6) :
    settledSweep 1 d = d.swept.slotSettled t r := by
  have hnone : d.et.ops.any (fun o => decide (o.table = t) &&
      decide (o.effect.toNat = memNat d.xs.mem (d.rowAt t 0 r + 4) 6)) = false := by
    simpa using hops
  change d.sweepOne = _
  unfold Dev.sweepOne Dev.swept
  rw [hat]
  dsimp only
  rw [if_pos ⟨hen, hrow⟩, if_pos]
  · rfl
  · rw [Dev.rowReq_stroke, Dev.rowReq_et]
    exact ⟨ne_true_of_eq_false hfl, hback, hold, ne_true_of_eq_false hnone⟩

end Sys2Proof.Machine
end

section
/-! SUPPORT. The update path at the host's rings (R251, R407, R412): an entry written, a record fetched, a record decided. -/
namespace Sys2Proof.Machine

/-! ### Rings of the host interface (R407 to R411, R416) -/

@[simp] theorem Dev.ring_setRing_same (d : Dev) (rr : Nat) (r : RingSt) : (d.setRing rr r).ring rr = r := by
  simp [Dev.ring, Dev.setRing]

theorem Dev.ring_congr {d e : Dev} (h : e.hi.rings = d.hi.rings) (rr : Nat) : e.ring rr = d.ring rr := by
  unfold Dev.ring
  rw [h]

@[simp] theorem Dev.ring_ringStatus (d : Dev) (rr k : Nat) : (d.ringStatus rr).ring k = d.ring k := by
  refine Dev.ring_congr ?_ k
  unfold Dev.ringStatus Dev.hostWrite
  rfl

theorem Dev.ring_commit (d e : Dev) {w : Writes} (hw : w.hi = true) (rr : Nat) : (d.commit w e).ring rr = e.ring rr :=
  Dev.ring_congr (by rw [Dev.commit_hi_rings, hw]; rfl) rr

theorem Dev.fetchq_commit (d e : Dev) {w : Writes} (hw : w.hi = true) : (d.commit w e).hi.fetchq = e.hi.fetchq := by
  rw [Dev.commit_hi_fetchq, hw]
  rfl

/-- The host interface and what goes out change alone, the records fetched stay as they are, and PROD of a ring becomes p. -/
def Dev.hostSide (d e : Dev) (rr : Nat) (p : BitVec 32) : Prop :=
  ∃ h o, e = { d with hi := h, out := o } ∧ h.fetchq = d.hi.fetchq ∧ (e.ring rr).prod = p

theorem Dev.hostSide_msixSend {d e : Dev} {rr : Nat} {p : BitVec 32} (h : d.hostSide e rr p) (v : Nat) :
    d.hostSide (e.msixSend v) rr p := by
  obtain ⟨x, o, rfl, hq, hp⟩ := h
  unfold Dev.msixSend
  dsimp only
  split
  · exact ⟨_, _, rfl, hq, hp⟩
  · exact ⟨_, _, rfl, hq, hp⟩

theorem Dev.hostSide_setRing {d e : Dev} {rr : Nat} {p : BitVec 32} (h : d.hostSide e rr p) {r : RingSt} (hr : r.prod = p) :
    d.hostSide (e.setRing rr r) rr p := by
  obtain ⟨x, o, rfl, hq, -⟩ := h
  exact ⟨_, _, rfl, hq, by rw [Dev.ring_setRing_same, hr]⟩

theorem Dev.hostSide_irqRing {d e : Dev} {rr : Nat} {p : BitVec 32} (h : d.hostSide e rr p) : d.hostSide (e.irqRing rr) rr p := by
  unfold Dev.irqRing
  extract_lets v cnt us r hi f
  have hf : d.hostSide f rr p := by
    obtain ⟨x, o, rfl, hq, hp⟩ := h
    exact ⟨_, _, rfl, hq, hp⟩
  have hp : r.prod = p := by
    obtain ⟨x, o, -, -, hp⟩ := h
    exact hp
  have hpf : (f.ring rr).prod = p := (congrArg RingSt.prod (Dev.ring_congr rfl rr)).trans hp
  split
  · exact Dev.hostSide_msixSend (Dev.hostSide_setRing (r := { f.ring rr with unsig := 0, timer := false }) hf hpf) _
  · exact Dev.hostSide_setRing hf hp

/-- An entry written to a ring with room. -/
theorem Dev.hostSide_ringPut {d : Dev} {rr : Nat} (h : (d.ring rr).used < d.ringSize rr) (slot : Nat) (s : Stroke)
    (bs : List Byte) : d.hostSide (d.ringPut rr slot s bs) rr ((d.ring rr).prod + 1) := by
  unfold Dev.ringPut
  dsimp only
  rw [if_neg (Nat.not_le.2 h)]
  refine Dev.hostSide_irqRing ⟨_, _, rfl, rfl, ?_⟩
  rw [Dev.ring_ringStatus, Dev.ring_setRing_same]

/-- The next record of ring 05, fetched. -/
theorem updateFetch_of_room {d : Dev} (hact : (d.ring 5).active = true) (hnew : (d.ring 5).prod ≠ (d.ring 5).fetched)
    (hroom : d.complRoom = true) :
    ((updateFetch d).ring 5).fetched = (d.ring 5).fetched + 1 ∧ (updateFetch d).hi.fetchq = d.hi.fetchq ++
      [memRead d.hi.mem (d.ringBase 5 + 272 * ((d.ring 5).fetched.toNat % d.ringSize 5)) 272] := by
  unfold updateFetch
  dsimp only
  rw [if_neg (by simp [hact, hnew, hroom])]
  exact ⟨by rw [Dev.ring_ringStatus, Dev.ring_setRing_same], rfl⟩

/-! ### Registers and counters beside a device-fatal report (R338, R361) -/

section
variable {a : Nat} (ha : 0xA0000 ≤ a) (d : Dev)
include ha

/-- The fault log counts and notes below the registers of the tables. -/
theorem Dev.rd_ctr_fltLog (r : FltRep) (act : Nat) (st : Stroke) (fr : BitVec 32) (tm n : Nat) (co : Bool) :
    (d.fltLog r act st fr tm n co).rd a = d.rd a ∧ (d.fltLog r act st fr tm n co).ctr a = d.ctr a := by
  have hne : ∀ b < 0xA0000, a ≠ b := fun b hb => by omega
  unfold Dev.fltLog
  extract_lets fl req ent flt lost flt' e
  have he : e.rd a = d.rd a ∧ e.ctr a = d.ctr a := by
    unfold e
    split
    · exact ⟨Dev.rd_congr (d.storeReq_reg ..) a, Dev.ctr_congr (d.storeReq_reg ..) a⟩
    · exact ⟨rfl, d.ctr_bump_ne 1 (hne _ (by decide))⟩
  split
  · exact he
  · refine ⟨(Dev.rd_congr (Dev.irq_reg ..) a).trans ?_, (Dev.ctr_congr (Dev.irq_reg ..) a).trans he.2⟩
    exact (Dev.rd_hw_ne _ _ (hne CS_FLT_LAST_STROKE_HI (by decide))).trans
      ((Dev.rd_hw_ne _ _ (hne CS_FLT_LAST_STROKE_LO (by decide))).trans
        ((e.rd_hw_ne _ (hne CS_FLT_LAST (by decide))).trans he.1))

theorem Dev.rd_ctr_deviceFatal (r : FltRep) : (d.deviceFatal r).rd a = d.rd a ∧ (d.deviceFatal r).ctr a = d.ctr a := by
  have hlog : ∀ (e : Dev) fr tm, e.reg = d.reg → (e.fltLog r 6 e.tm.stroke fr tm 1 false).rd a = d.rd a ∧
      (e.fltLog r 6 e.tm.stroke fr tm 1 false).ctr a = d.ctr a := fun e fr tm he => by
    obtain ⟨hrd, hctr⟩ := Dev.rd_ctr_fltLog ha e r 6 e.tm.stroke fr tm 1 false
    exact ⟨hrd.trans (Dev.rd_congr he a), hctr.trans (Dev.ctr_congr he a)⟩
  unfold Dev.deviceFatal
  dsimp only
  split
  · exact hlog _ _ _ (d.mon_reg _)
  · exact hlog _ _ _ ((Dev.irq_reg ..).trans (d.mon_reg _))

theorem Dev.rd_ctr_rowReq (cls : Nat) (w : Bool) (t : Nat) (ver : Word) (i off n : Nat) :
    (d.rowReq cls w t ver i off n).rd a = d.rd a ∧ (d.rowReq cls w t ver i off n).ctr a = d.ctr a := by
  have hcrit : (d.useCritical (d.baseHeld t ver)).rd a = d.rd a ∧ (d.useCritical (d.baseHeld t ver)).ctr a = d.ctr a := by
    unfold Dev.useCritical
    split
    · exact ⟨rfl, rfl⟩
    · exact Dev.rd_ctr_deviceFatal ha d _
  exact ⟨(Dev.rd_congr (Dev.storeReq_reg ..) a).trans hcrit.1, (Dev.ctr_congr (Dev.storeReq_reg ..) a).trans hcrit.2⟩
end

theorem Dev.rowReq_hi_rings (d : Dev) (cls : Nat) (w : Bool) (t : Nat) (ver : Word) (i off n : Nat) :
    (d.rowReq cls w t ver i off n).hi.rings = d.hi.rings := by
  unfold Dev.rowReq Dev.useCritical
  rw [Dev.storeReq_hi]
  split
  · rfl
  · exact d.report_hi_rings _

theorem Dev.rowReq_hi_fetchq (d : Dev) (cls : Nat) (w : Bool) (t : Nat) (ver : Word) (i off n : Nat) :
    (d.rowReq cls w t ver i off n).hi.fetchq = d.hi.fetchq := by
  unfold Dev.rowReq Dev.useCritical
  rw [Dev.storeReq_hi]
  split
  · rfl
  · exact d.report_hi_fetchq _

/-! ### Update records decided (R251, R412) -/

theorem Dev.logIn_eq (d : Dev) (e : LogEnt) : ∃ l, d.logIn e = { d with lg := l } := by
  unfold Dev.logIn
  split <;> exact ⟨_, rfl⟩

/-- The oldest record fetched is taken out, to be decided. -/
def Dev.recordTaken (d : Dev) (q : List (List Byte)) : Dev :=
  { d with hi := { d.hi with fetchq := q, decided := d.hi.decided + 1 } }

/-- A record refused leaves the tables as they are. -/
def Dev.recordRefused (d : Dev) (bs : List Byte) (q : List (List Byte)) : Dev :=
  ((d.recordTaken q).bump HI_UPD_REFUSED).bump ET_UPD_CRC (b2n (decide (d.updStatus bs = 1)))

/-- A record accepted is counted and its row taken into its table. -/
def Dev.recordAccepted (d : Dev) (bs : List Byte) (q : List (List Byte)) : Dev :=
  let t := leAt bs 0 1 % 64
  ((d.recordTaken q).bump HI_UPD_ACCEPTED).takeRow t (leAt bs 4 4) ((bs.drop 16).take (d.tSize t))

/-- What a record's decision leaves beside the input log, the host's side and what goes out; its completion stands in ring 06. -/
def Dev.completed (d y e : Dev) (q : List (List Byte)) : Prop :=
  ∃ l h o, e = { y with lg := l, hi := h, out := o } ∧ h.fetchq = q ∧ (e.ring 6).prod = (d.ring 6).prod + 1

theorem Dev.completed_ringPut {d y : Dev} {q : List (List Byte)} (hr : y.hi.rings = d.hi.rings)
    (hs : y.rd (HI_RING_CFG 6) = d.rd (HI_RING_CFG 6)) (hq : y.hi.fetchq = q) (hroom : (d.ring 6).used < d.ringSize 6)
    (l : RecSt) (s : Stroke) (bs : List Byte) : d.completed y (({ y with lg := l } : Dev).ringPut 6 16 s bs) q := by
  have hring : y.ring 6 = d.ring 6 := Dev.ring_congr hr 6
  have hroom' : (y.ring 6).used < y.ringSize 6 := by
    unfold Dev.ringSize Dev.rf
    rw [hring, hs]
    exact hroom
  obtain ⟨h, o, he, hfetch, hprod⟩ := Dev.hostSide_ringPut (d := { y with lg := l }) hroom' 16 s bs
  exact ⟨l, h, o, he, hfetch.trans hq, hprod.trans (congrArg (·.prod + 1) hring)⟩

section
variable {d : Dev} {bs : List Byte} {q : List (List Byte)} (hfetch : d.hi.fetchq = bs :: q) (hact : (d.ring 6).active = true)
  (hroom : (d.ring 6).used < d.ringSize 6) (hturn : d.tm.op = false ∨ d.hi.decided < 4)
include hfetch hact hroom hturn

/-- The record is decided by its status, and its completion written. -/
theorem updateRecord_eq : ∃ e s c, updateRecord d =
    (if d.updStatus bs = 0 then (d.recordAccepted bs q).logIn e else d.recordRefused bs q).ringPut 6 16 s c := by
  unfold updateRecord
  rw [hfetch]
  dsimp only
  rw [if_neg]
  · exact ⟨_, _, _, rfl⟩
  · rcases hturn with h | h <;> simp [hact, hroom, h]

theorem updateRecord_of_refused (h : d.updStatus bs ≠ 0) : d.completed (d.recordRefused bs q) (updateRecord d) q := by
  obtain ⟨e, s, c, hdecided⟩ := updateRecord_eq hfetch hact hroom hturn
  rw [hdecided, if_neg h]
  exact Dev.completed_ringPut (y := d.recordRefused bs q) rfl rfl rfl hroom d.lg s c
end

/-! ### Rows accepted (R249, R251) -/

/-- A row of a versioned table goes to the copy not in force. -/
theorem Dev.rowLeft_takeRow {d : Dev} {t : Nat} (h : d.tByRow t = false) (i : Nat) (row : List Byte) :
    d.rowLeft (d.takeRow t i row) t (d.tVer t + 1) (memWrite d.xs.mem (d.rowAt t (d.tVer t + 1) i) row) := by
  unfold Dev.takeRow
  rw [if_neg (ne_true_of_eq_false h)]
  exact Dev.rowLeft_map (Dev.rowLeft_rowReq (t := t) (ver := d.tVer t + 1) 4 true i 0 row.length)
    (fun m => memWrite m _ row) rfl rfl

/-- A row of a row-by-row table becomes an update operation. -/
theorem Dev.takeRow_of_byRow {d : Dev} {t : Nat} (h : d.tByRow t = true) (i : Nat) (row : List Byte) :
    d.takeRow t i row = d.addOp { table := t, todo := [(i, row)], effect := d.effectOf t } := if_pos h

/-- A row taken leaves the rings of the host as they are, and the counters from those of the tables on. -/
theorem Dev.host_takeRow (d : Dev) {t : Nat} (ht : t < 64) (i : Nat) (row : List Byte) :
    (d.takeRow t i row).hi.rings = d.hi.rings ∧ (d.takeRow t i row).hi.fetchq = d.hi.fetchq ∧
      (d.takeRow t i row).rd (HI_RING_CFG 6) = d.rd (HI_RING_CFG 6) ∧
      ∀ a, 0xA0000 ≤ a → (d.takeRow t i row).ctr a = d.ctr a := by
  cases h : d.tByRow t with
  | false =>
    unfold Dev.takeRow
    rw [if_neg (ne_true_of_eq_false h)]
    exact ⟨d.rowReq_hi_rings .., d.rowReq_hi_fetchq .., (Dev.rd_ctr_rowReq (by decide) d ..).1,
      fun a ha => (Dev.rd_ctr_rowReq ha d ..).2⟩
  | true =>
    rw [Dev.takeRow_of_byRow h]
    have hlo : HI_RING_CFG 6 ≠ ET_TABLE_EFFECT_LO t := by simp only [HI_RING_CFG, ET_TABLE_EFFECT_LO]; omega
    have hhi : HI_RING_CFG 6 ≠ ET_TABLE_EFFECT_HI t := by simp only [HI_RING_CFG, ET_TABLE_EFFECT_HI]; omega
    exact ⟨rfl, rfl, (Dev.rd_hw_ne _ _ hhi).trans (Dev.rd_hw_ne _ _ hlo), fun _ _ => rfl⟩

/-- The record accepted is counted, and the next ones and ring 06 are as before. -/
theorem Dev.host_recordAccepted (d : Dev) (bs : List Byte) (q : List (List Byte)) :
    (d.recordAccepted bs q).hi.rings = d.hi.rings ∧ (d.recordAccepted bs q).hi.fetchq = q ∧
      (d.recordAccepted bs q).rd (HI_RING_CFG 6) = d.rd (HI_RING_CFG 6) ∧
      (d.recordAccepted bs q).ctr HI_UPD_ACCEPTED = ctrAdd (d.ctr HI_UPD_ACCEPTED) 1 := by
  obtain ⟨hr, hq, hs, hctr⟩ := ((d.recordTaken q).bump HI_UPD_ACCEPTED).host_takeRow (t := leAt bs 0 1 % 64)
    (Nat.mod_lt _ (by decide)) (leAt bs 4 4) ((bs.drop 16).take (d.tSize (leAt bs 0 1 % 64)))
  exact ⟨hr, hq, hs, (hctr _ (by decide)).trans (Dev.ctr_bump_same ..)⟩

theorem updateRecord_of_accepted {d : Dev} {bs : List Byte} {q : List (List Byte)} (hfetch : d.hi.fetchq = bs :: q)
    (hact : (d.ring 6).active = true) (hroom : (d.ring 6).used < d.ringSize 6) (hturn : d.tm.op = false ∨ d.hi.decided < 4)
    (h : d.updStatus bs = 0) : d.completed (d.recordAccepted bs q) (updateRecord d) q := by
  obtain ⟨e, s, c, hdecided⟩ := updateRecord_eq hfetch hact hroom hturn
  obtain ⟨l, hl⟩ := (d.recordAccepted bs q).logIn_eq e
  obtain ⟨hr, hq, hs, -⟩ := d.host_recordAccepted bs q
  rw [hdecided, if_pos h, hl]
  exact Dev.completed_ringPut (y := d.recordAccepted bs q) hr hs hq hroom l s c

end Sys2Proof.Machine

open Sys2Proof Sys2Proof.Machine

/-- Settles O43: each command of the row protocol by what it leaves of the one slot, and a record by its decision, which its
completion leaves as it is. -/
theorem rowsAndUpdates : Obligations.RowsAndUpdates := by
  rintro ⟨d, pending⟩ i o row data bs rest dn q
  dsimp only
  refine ⟨fun hfind hop htodo hrest hlast => ⟨_, rfl, ?_, ?_⟩, fun hfind hop hdone => ⟨_, rfl, ?_, ?_⟩,
    fun tab r hat hen hrow hfl hback hold hops => ⟨_, rfl, ?_, ?_⟩, fun hact hnew hroom => ⟨_, rfl, ?_, ?_⟩,
    fun hfetch hact hroom hturn => ⟨fun hst => ⟨_, rfl, ?_⟩, fun hst hrow => ⟨_, rfl, ?_⟩, fun hst hrow => ⟨_, rfl, ?_⟩⟩⟩
  · have hleft := d.rowLeft_slotChanged o.table row (slotWrite (d.tSize o.table) · data o.effect)
    rw [rowWrite_of_next hfind hop htodo hrest hlast]
    exact Dev.rowLeft_commit (w := { et := true }) hleft rfl rfl
  · rw [Dev.et_commit _ _ rfl, rowWrite_of_next hfind hop htodo hrest hlast, Dev.setOp, Dev.slotChanged_et]
  · have hleft := d.rowLeft_slotChanged o.table row (slotRestore (d.tSize o.table))
    rw [rowRestore_of_done hfind hop hdone]
    exact Dev.rowLeft_commit (w := { et := true }) hleft rfl rfl
  · rw [Dev.et_commit _ _ rfl, rowRestore_of_done hfind hop hdone]
    dsimp only
    rw [Dev.slotChanged_et]
  · rw [Dev.et_commit _ _ rfl, settledSweep_one_of_old hat hen hrow hfl hback hold hops, Dev.slotSettled_et, Dev.swept, hat]
  · have hleft := d.swept.rowLeft_slotSettled tab r
    rw [settledSweep_one_of_old hat hen hrow hfl hback hold hops]
    exact Dev.rowLeft_commit (d := d) (w := { et := true }) hleft rfl rfl
  · rw [Dev.ring_commit _ _ rfl]
    exact (updateFetch_of_room hact hnew hroom).1
  · rw [Dev.fetchq_commit _ _ rfl]
    exact (updateFetch_of_room hact hnew hroom).2
  · obtain ⟨l, h, out, he, hq, hprod⟩ := updateRecord_of_refused hfetch hact hroom hturn hst
    rw [Dev.fetchq_commit _ _ rfl, Dev.commit_xs, Dev.et_commit _ _ rfl, Dev.ring_commit _ _ rfl, Dev.ctr_commit, hprod, he]
    exact ⟨hq, rfl, rfl, rfl, (Dev.ctr_bump_ne _ _ (by decide)).trans (Dev.ctr_bump_same ..)⟩
  · obtain ⟨l, h, out, he, hq, hprod⟩ := updateRecord_of_accepted hfetch hact hroom hturn hst
    obtain ⟨-, -, -, hctr⟩ := d.host_recordAccepted bs q
    have hleft := Dev.rowLeft_takeRow (d := (d.recordTaken q).bump HI_UPD_ACCEPTED) hrow (leAt bs 4 4)
      ((bs.drop 16).take (d.tSize (leAt bs 0 1 % 64)))
    refine ⟨?_, Dev.rowLeft_commit (d := d) (w := { et := true, lg := true, hi := true }) ?_ rfl rfl, ?_, ?_⟩
    · rw [Dev.fetchq_commit _ _ rfl, he, hq]
    · rw [he]
      exact hleft
    · rw [Dev.ring_commit _ _ rfl, hprod]
    · rw [Dev.ctr_commit, he]
      exact hctr
  · obtain ⟨l, h, out, he, hq, hprod⟩ := updateRecord_of_accepted hfetch hact hroom hturn hst
    have htake : d.recordAccepted bs q = _ := Dev.takeRow_of_byRow (d := (d.recordTaken q).bump HI_UPD_ACCEPTED) hrow _ _
    obtain ⟨-, -, -, hctr⟩ := d.host_recordAccepted bs q
    rw [Dev.fetchq_commit _ _ rfl, Dev.commit_xs, Dev.et_commit _ _ rfl, Dev.ctr_commit, he]
    refine ⟨hq, ?_, ?_, hctr⟩
    · rw [htake]
      rfl
    · rw [htake]
      rfl
end

section
/-! SUPPORT. The end of a lookup whose ring number no ring has (R168, R169, R241). -/
namespace Sys2Proof.Machine

/-- A lookup of one row of table 0 into word 0x400 of core 1's word plane, its read issued, for request ring 48 of core 0. A core
has 32 rings (R168): where its ring registers, carried on, would hold the tag base of ring 48, core 1 has its fault register
(`ringTag48_eq_fault`). -/
def lookRing48 : Lookup :=
  { table := 0, putTo := none, count := 1, dest := engAddr true 1 0x400, tag := 0, core := 0, ring := 48, slot := 0,
    issue := 0, ver := 0, idx := [0], sent := 1 }

/-- An operational device with that lookup in flight, the first slot tag of core 0 FULL and core 1's word plane unpowered. -/
def lookingRing48 : State :=
  let d := (State.reset.dev.hwN (ET_TABLE_CFG 0) (2 ^ 30)).hwN (WP_CORE_POWER 1) 0
  { State.reset with
    dev :=
      { d with
        tm := { d.tm with op := true }
        bt := { d.bt with placed := true, locked := true }
        et := { d.et with lookups := [lookRing48] }
        cw := { d.cw with cores := [(0, { tags := [(0, { full := true })] })] } } }

theorem lookingRing48_inv : lookingRing48.inv = true := by decide +kernel

theorem ringTag48_eq_fault : TP_CORE_RING_TAG 0 48 = TP_CORE_FAULT 1 := rfl

/-- The row's write raises POWERED_DOWN at core 1 (R179), and the DRAIN that follows finds another tag base: the slot tag at
which the lookup's ring stood before stays FULL. -/
theorem lookupRowReturn_lookingRing48 : ∃ t, exec (.lookupRowReturn 0 false) lookingRing48 = .next t ∧
    t.dev.rd (TP_CORE_FAULT 1) = 2 ∧
    ((t.dev.core 0).tagAt ((lookingRing48.dev.ringDesc 0 48).tagBase + ((lookingRing48.dev.core 0).ring 48).tail)).full = true :=
  ⟨_, rfl, by decide +kernel, by decide +kernel⟩

end Sys2Proof.Machine

open Sys2Proof Sys2Proof.Machine

/-- Refutes O42: the statement bounds the table and the core of the lookup that ends, and not its ring. For ring 48 of core 0 the
register that would hold the tag base is the fault register of core 1, which the last row's write changes, so that the DRAIN frees
another slot tag than the one that the statement names. -/
theorem not_lookupsServed : ¬ Obligations.LookupsServed := by
  intro h
  obtain ⟨-, hreturn⟩ := h lookingRing48 0 0 false lookRing48 (by decide +kernel) (by decide +kernel)
  obtain ⟨-, hlast⟩ := hreturn (by decide +kernel) rfl (by decide) (by decide) (by decide) (by decide +kernel)
  obtain ⟨t, hexec, -, hfree, -⟩ := hlast (by decide) rfl rfl
  obtain ⟨t', hexec', -, hfull⟩ := lookupRowReturn_lookingRing48
  obtain rfl : t = t' := Host.Outcome.next.inj (hexec.symm.trans hexec')
  exact absurd (hfull.symm.trans hfree) (by decide)
end

section
/-! SUPPORT. An adaptation merge that uses a base pointer which differs from its complement (R253, R349, R361). -/
namespace Sys2Proof.Machine

/-- An operational device whose adaptation step of one record waits to be merged. The record, of table 0 and row 0, is read from
the store as it stands after reset; the table takes row-by-row adaptation in FP32 (R240), and the complement held for its base
pointer is that of another value. -/
def mergeUnheld : State :=
  let d := (State.reset.dev.hwN ET_MERGE_SIZE 1).hwN (ET_TABLE_CFG 0) (7 * 2 ^ 28)
  let d := (d.hwN (ET_TABLE_FMT 0) 9).setComp (ET_TABLE_COPY0 0) 1
  { State.reset with
    dev :=
      { d with
        tm := { d.tm with op := true }
        bt := { d.bt with placed := true, locked := true }
        et := { d.et with adapt := some { issued := 0, count := 1 } }
        xs := { d.xs with ready := true } } }

theorem mergeUnheld_inv : mergeUnheld.inv = true := by decide +kernel

/-- The mismatch is device-fatal as the merge reads the row in force (R349), and the entry of the fault log lies in the store
(R361), which held nothing before. -/
theorem adaptMerge_mergeUnheld : mergeUnheld.dev.xs.mem = [] ∧
    ∃ t, exec .adaptMerge mergeUnheld = .next t ∧ t.dev.flt.fatal = true ∧ t.dev.xs.mem ≠ [] :=
  ⟨rfl, _, rfl, by decide +kernel, by decide +kernel⟩

end Sys2Proof.Machine

open Sys2Proof Sys2Proof.Machine

/-- Refutes O44: a merge within its limits and without a repeated key reads the row in force through the table's base pointer,
and where that pointer differs from its complement the report is device-fatal (R349) and logged in the store (R361), whose bytes the
statement leaves as they are. -/
theorem not_mergesAbortsSessions : ¬ Obligations.MergesAbortsSessions := by
  intro h
  obtain ⟨hmerge, -⟩ := h mergeUnheld { issued := 0, count := 1 } 0 0
  obtain ⟨happly, -⟩ := hmerge rfl rfl (by decide +kernel)
  obtain ⟨t, hexec, -, -, -, -, hkept, -⟩ := happly (by decide +kernel) (by decide +kernel) (by decide +kernel)
  obtain ⟨hempty, t', hexec', -, hlogged⟩ := adaptMerge_mergeUnheld
  obtain rfl : t = t' := Host.Outcome.next.inj (hexec.symm.trans hexec')
  exact hlogged (hkept.trans hempty)
end

section
/-! SUPPORT. The encoding of core instructions (R285 to R304): fields packed side by side are read back one by one, a bundle's
slots apart from one another, and each slot's operation from its word. -/

namespace Sys2Proof
open Machine

/-! ### Fields packed side by side -/

/-- A field that lies below what is added. -/
theorem bits_add_mul_of_dvd {m lo len : Nat} (h : 2 ^ (lo + len) ∣ m) (x y : Nat) : bits (x + m * y) lo len = bits x lo len := by
  obtain ⟨k, rfl⟩ := h
  rw [bits, bits, Nat.shiftRight_eq_div_pow, Nat.shiftRight_eq_div_pow, Nat.pow_add, Nat.mul_assoc, Nat.mul_assoc,
    Nat.add_mul_div_left _ _ (by positivity), Nat.add_mul_mod_self_left]

/-- A field of what is added from the field's first bit on. -/
theorem bits_add_mul_of_eq {m lo x : Nat} (h : m = 2 ^ lo) (hx : x < m) (len y : Nat) :
    bits (x + m * y) lo len = bits y 0 len := by
  subst h
  rw [bits, bits, Nat.shiftRight_eq_div_pow, Nat.add_mul_div_left _ _ (by positivity), Nat.div_eq_of_lt hx, Nat.zero_add,
    Nat.shiftRight_zero]

theorem bits_of_lt {x len : Nat} (h : x < 2 ^ len) : bits x 0 len = x := Nat.mod_eq_of_lt h

/-- A mark as a field of one bit. -/
theorem b2n_eq_toNat (b : Bool) : b2n b = (BitVec.ofBool b).toNat := by cases b <;> rfl

theorem toNat_ofBool_beq_one (b : Bool) : ((BitVec.ofBool b).toNat == 1) = b := by cases b <;> rfl

/-! ### The slots of a bundle (R289, R290) -/

/-- Whether the words of the slots fit their slots. -/
def Slots.fit (s : Slots) : Prop :=
  s.op < 2 ^ 4 ∧ s.arg < 2 ^ 18 ∧ s.mw < 2 ^ 32 ∧ s.mx < 2 ^ 32 ∧ s.w < 2 ^ 32 ∧ s.a < 2 ^ 48 ∧ s.v < 2 ^ 48 ∧ s.g < 2 ^ 32

theorem gateOf_word {o : CoreOp} (h : o.slots.fit) : gateOf o.word = o.gate := by
  obtain ⟨hop, harg, -⟩ := h
  simp (disch := omega) only [gateOf, b2n_eq_toNat, CoreOp.word, Gate.word, bitOf, bits_add_mul_of_dvd, bits_add_mul_of_eq, bits_of_lt,
    toNat_ofBool_beq_one, BitVec.ofNat_toNat, BitVec.setWidth_eq]

/-- The bundle of a core instruction holds the words of its slots, each in its place. -/
theorem decodeBundle_word {o : CoreOp} (h : o.slots.fit) (p : At) (x : Phys) : decodeBundle p x o.word =
    (decodeS p o.gate x o.slots.op o.slots.arg).toList ++ (decodeMW p o.gate x o.slots.mw).toList ++
      (decodeMX p o.gate x (bits o.slots.mx 0 4) o.slots.mx).toList ++ (decodeW p o.gate x (bits o.slots.w 0 4) o.slots.w).toList ++
      (decodeA p o.gate x (bits o.slots.a 0 4) o.slots.a).toList ++ (decodeV p o.gate x (bits o.slots.v 0 6) o.slots.v).toList ++
      (decodeG p o.gate x (bits o.slots.g 0 4) o.slots.g).toList := by
  have hgate := gateOf_word h
  obtain ⟨hop, harg, hmw, hmx, hw, ha, hv, hg⟩ := h
  unfold decodeBundle
  rw [hgate]
  simp (disch := omega) only [b2n_eq_toNat, CoreOp.word, Gate.word, bits_add_mul_of_dvd, bits_add_mul_of_eq, bits_of_lt]

/-! ### The words of the V slot (R300) -/

theorem vecOf_code (f : VecF) {op : Nat} (h : op < 2 ^ 6) : vecOf (f.code op) = f := by
  simp (disch := omega) only [vecOf, b2n_eq_toNat, VecF.code, bitOf, bits_add_mul_of_dvd, bits_add_mul_of_eq, bits_of_lt,
    toNat_ofBool_beq_one, BitVec.ofNat_toNat, BitVec.setWidth_eq]

theorem memOf_code (f : VecM) {op : Nat} (h : op < 2 ^ 6) : memOf (f.code op) = f := by
  simp (disch := omega) only [memOf, b2n_eq_toNat, VecM.code, bitOf, bits_add_mul_of_dvd, bits_add_mul_of_eq, bits_of_lt,
    toNat_ofBool_beq_one, BitVec.ofNat_toNat, BitVec.setWidth_eq]

theorem VecF.code_lt (f : VecF) {op : Nat} (h : op < 2 ^ 6) : f.code op < 2 ^ 48 := by
  rw [VecF.code, b2n_eq_toNat]
  omega

theorem VecM.code_lt (f : VecM) {op : Nat} (h : op < 2 ^ 6) : f.code op < 2 ^ 48 := by
  rw [VecM.code, b2n_eq_toNat, b2n_eq_toNat]
  omega

theorem bits_vecCode (f : VecF) {op : Nat} (h : op < 2 ^ 6) : bits (f.code op) 0 6 = op := by
  simp (disch := omega) only [VecF.code, bits_add_mul_of_dvd, bits_of_lt]

theorem bits_memCode (f : VecM) {op : Nat} (h : op < 2 ^ 6) : bits (f.code op) 0 6 = op := by
  simp (disch := omega) only [VecM.code, bits_add_mul_of_dvd, bits_of_lt]

/-! ### A bundle with one slot in use (R285) -/

@[simp] theorem bits_zero (lo len : Nat) : bits 0 lo len = 0 := by simp [bits]

section
variable (p : At) (r : Nat) (g : Gate) (x : Phys) {op arg w : Nat}

@[simp] theorem decodeS_zero : decodeS p g x 0 w = none := rfl
@[simp] theorem decodeMW_zero : decodeMW p g x 0 = none := rfl
@[simp] theorem decodeMX_zero : decodeMX p g x 0 w = none := rfl
@[simp] theorem decodeW_zero : decodeW p g x 0 w = none := rfl
@[simp] theorem decodeA_zero : decodeA p g x 0 w = none := rfl
@[simp] theorem decodeV_zero : decodeV p g x 0 w = none := rfl
@[simp] theorem decodeG_zero : decodeG p g x 0 w = none := rfl

theorem decodeBundle_s (ho : op < 2 ^ 4) (ha : arg < 2 ^ 18) :
    decodeBundle p x (coreAt p r g { op := op, arg := arg }).word = (decodeS p g x op arg).toList := by
  rw [decodeBundle_word (by simpa [Slots.fit, coreAt] using ⟨ho, ha⟩)]
  simp [coreAt]

theorem decodeBundle_mw (h : w < 2 ^ 32) :
    decodeBundle p x (coreAt p r g { mw := w }).word = (decodeMW p g x w).toList := by
  rw [decodeBundle_word (by simpa [Slots.fit, coreAt] using h)]
  simp [coreAt]

theorem decodeBundle_mx (h : w < 2 ^ 32) :
    decodeBundle p x (coreAt p r g { mx := w }).word = (decodeMX p g x (bits w 0 4) w).toList := by
  rw [decodeBundle_word (by simpa [Slots.fit, coreAt] using h)]
  simp [coreAt]

theorem decodeBundle_w (h : w < 2 ^ 32) :
    decodeBundle p x (coreAt p r g { w := w }).word = (decodeW p g x (bits w 0 4) w).toList := by
  rw [decodeBundle_word (by simpa [Slots.fit, coreAt] using h)]
  simp [coreAt]

theorem decodeBundle_a (h : w < 2 ^ 48) :
    decodeBundle p x (coreAt p r g { a := w }).word = (decodeA p g x (bits w 0 4) w).toList := by
  rw [decodeBundle_word (by simpa [Slots.fit, coreAt] using h)]
  simp [coreAt]

theorem decodeBundle_v (h : w < 2 ^ 48) :
    decodeBundle p x (coreAt p r g { v := w }).word = (decodeV p g x (bits w 0 6) w).toList := by
  rw [decodeBundle_word (by simpa [Slots.fit, coreAt] using h)]
  simp [coreAt]

theorem decodeBundle_g (h : w < 2 ^ 32) :
    decodeBundle p x (coreAt p r g { g := w }).word = (decodeG p g x (bits w 0 4) w).toList := by
  rw [decodeBundle_word (by simpa [Slots.fit, coreAt] using h)]
  simp [coreAt]
end

/-! ### Each instruction by its slot (R291 to R304) -/

section
variable {p : At} {r : Nat} {g : Gate} {x : Phys} {op : Nat}

/-- A register operation of the V slot. -/
theorem decodeBundle_vecCode {mk : VecF → Instr} (ho : op < 2 ^ 6) (h : ∀ v, decodeV p g x op v = some (mk (vecOf v))) (f : VecF) :
    decodeBundle p x (coreAt p r g { v := f.code op }).word = [mk f] := by
  rw [decodeBundle_v _ _ _ _ (f.code_lt ho), bits_vecCode f ho, h, vecOf_code f ho]
  rfl

/-- A memory operation of the V slot. -/
theorem decodeBundle_memCode {mk : VecM → Instr} (ho : op < 2 ^ 6) (h : ∀ v, decodeV p g x op v = some (mk (memOf v))) (f : VecM) :
    decodeBundle p x (coreAt p r g { v := f.code op }).word = [mk f] := by
  rw [decodeBundle_v _ _ _ _ (f.code_lt ho), bits_memCode f ho, h, memOf_code f ho]
  rfl
end

/-- Every core instruction is read back from its bundle: its slot's word holds its operands side by side. -/
theorem decodeBundle_coreOp {i : Instr} {o : CoreOp} (ho : i.coreOp = some o) : decodeBundle o.loc i.phys o.word = [i] := by
  cases i
  case turn | release | digopen | digclose | merge =>
    obtain rfl := Option.some.inj ho
    refine (decodeBundle_s _ _ _ _ (by decide) (by omega)).trans ?_
    simp (disch := omega) only [decodeS, bits_add_mul_of_dvd, bits_add_mul_of_eq, bits_of_lt, BitVec.ofNat_toNat,
      BitVec.setWidth_eq]
    rfl
  case wave =>
    obtain rfl := Option.some.inj ho
    simp only [Instr.phys, b2n_eq_toNat]
    refine (decodeBundle_mw _ _ _ _ (by omega)).trans ?_
    simp (disch := omega) only [decodeMW, bitOf, bits_add_mul_of_dvd, bits_add_mul_of_eq, bits_of_lt, toNat_ofBool_beq_one,
      BitVec.ofNat_toNat, BitVec.setWidth_eq]
    rfl
  case fill | job | wake | split =>
    obtain rfl := Option.some.inj ho
    simp only [Instr.phys, b2n_eq_toNat]
    refine (decodeBundle_mx _ _ _ _ (by omega)).trans ?_
    simp (disch := omega) only [decodeMX, bitOf, bits_add_mul_of_dvd, bits_add_mul_of_eq, bits_of_lt, toNat_ofBool_beq_one,
      BitVec.ofNat_toNat, BitVec.setWidth_eq]
    rfl
  case wb | wbr =>
    obtain rfl := Option.some.inj ho
    simp only [Instr.phys, b2n_eq_toNat]
    refine (decodeBundle_w _ _ _ _ (by omega)).trans ?_
    simp (disch := omega) only [decodeW, bitOf, bits_add_mul_of_dvd, bits_add_mul_of_eq, bits_of_lt, toNat_ofBool_beq_one,
      BitVec.ofNat_toNat, BitVec.setWidth_eq]
    rfl
  case lda | lds | adda | setr | win | feedMap | feedDir | feedLin =>
    obtain rfl := Option.some.inj ho
    simp only [Instr.phys, b2n_eq_toNat]
    refine (decodeBundle_a _ _ _ _ (by omega)).trans ?_
    simp (disch := omega) only [decodeA, bitOf, bits_add_mul_of_dvd, bits_add_mul_of_eq, bits_of_lt, toNat_ofBool_beq_one,
      BitVec.ofNat_toNat, BitVec.setWidth_eq]
    rfl
  case add | sub | mul | and | or | xor | shl | shrl | shra | cmp | sel | fadd | fsub | fmul | fma | fmin | fmax | fcmp
      | cvt | unpk | mxb | fn | red | lane | coreid =>
    obtain rfl := Option.some.inj ho
    exact decodeBundle_vecCode (by decide) (fun _ => rfl) _
  case vld p g r f ecc =>
    obtain rfl := Option.some.inj ho
    exact decodeBundle_memCode (mk := fun f => .vld p g r f ecc) (by decide) (fun _ => rfl) f
  case vgath p g r f ecc =>
    obtain rfl := Option.some.inj ho
    exact decodeBundle_memCode (mk := fun f => .vgath p g r f ecc) (by decide) (fun _ => rfl) f
  case vst | vscat =>
    obtain rfl := Option.some.inj ho
    exact decodeBundle_memCode (by decide) (fun _ => rfl) _
  case bcast =>
    obtain rfl := Option.some.inj ho
    refine (decodeBundle_v _ _ _ _ (by omega)).trans ?_
    simp (disch := omega) only [decodeV, bits_add_mul_of_dvd, bits_add_mul_of_eq, bits_of_lt, BitVec.ofNat_toNat,
      BitVec.setWidth_eq]
    rfl
  case desc | get | putr | putc | drain =>
    obtain rfl := Option.some.inj ho
    simp only [Instr.phys, b2n_eq_toNat]
    refine (decodeBundle_g _ _ _ _ (by omega)).trans ?_
    simp (disch := omega) only [decodeG, bitOf, bits_add_mul_of_dvd, bits_add_mul_of_eq, bits_of_lt, toNat_ofBool_beq_one,
      BitVec.ofNat_toNat, BitVec.setWidth_eq]
    rfl
  all_goals cases ho

end Sys2Proof

open Sys2Proof Sys2Proof.Machine

/-- Settles O8: every core instruction is read back from the words that its slot's fields make, well-formed or not. -/
theorem bundleRoundTrip : Obligations.BundleRoundTrip := fun _ _ ho _ => decodeBundle_coreOp ho

/-- Settles O9: the words add up the fields of the slot tables, and decoding them is computation. -/
theorem bundlesFromTheManual : Obligations.BundlesFromTheManual := by
  unfold Obligations.BundlesFromTheManual
  decide
end

section
/-! SUPPORT. An operation of a bundle as its command carries it out: where it finds its core, and what the command leaves (R285,
R305). -/

namespace Sys2Proof.Machine

/-- A core brought to a cycle as an operation of a bundle finds it there: no check of the cycle is to come. -/
def Dev.opAt (d : Dev) (p : At) : Dev :=
  d.setCrew (p.core.val / 8) { d.crew (p.core.val / 8) with late := some p.cyc }

section
variable (d : Dev) (p : At)

theorem Dev.issued_landed : (d.landed p).issued p.core.val p.cyc = (d.brought p).opAt p := rfl
@[simp] theorem Dev.core_opAt : (d.opAt p).core = d.core := rfl
@[simp] theorem Dev.vol_opAt : (d.opAt p).vol = d.vol := rfl
@[simp] theorem Dev.cores_opAt : (d.opAt p).cw.cores = d.cw.cores := rfl
@[simp] theorem Dev.mem_opAt : (d.opAt p).mem = d.mem := rfl
@[simp] theorem Dev.reg_opAt : (d.opAt p).reg = d.reg := rfl
end

theorem Dev.core_of_cw {d e : Dev} (h : e.cw = d.cw) : e.core = d.core := by
  funext c
  rw [Dev.core, h]
  rfl

theorem Dev.vol_of_cw {d e : Dev} (h : e.cw = d.cw) : e.vol = d.vol := by
  funext c
  rw [Dev.vol, h]
  rfl

/-- A core instruction that is executed leaves what its operation makes of the core brought to its cycle. -/
theorem exec_bundleOp {s : State} {i : Instr} {p : At} {w : Writes} {body : Nat → Dev → Dev}
    (hp : i.coreOp.map CoreOp.loc = some p) (hexec : exec i s = s.coreRun i w (fun d => d.bundleOp p.core.val p.cyc body))
    (h : s.dev.executes i = true) (hcw : w.cw = true) (hmem : w.mem = true) :
    let x := body (s.dev.cycleOf p) ((s.dev.brought p).opAt p)
    ∃ t, exec i s = .next t ∧ t.dev.cw = x.cw ∧ t.dev.mem = x.mem ∧ t.dev.reg = x.reg :=
  ⟨_, hexec.trans (State.coreRun_bundleOp hp h ..), (Dev.commit_cw ..).trans (by rw [hcw]; rfl),
    (Dev.commit_mem ..).trans (by rw [hmem]; rfl), Dev.commit_reg ..⟩

end Sys2Proof.Machine
end

section
/-! SUPPORT. The vector unit (R146 to R148, R300 to R303): what its operations put on their way, and the integer operations as
arithmetic on signed numbers. -/

namespace Sys2Proof.Machine

/-! ### Results on their way (R301) -/

section
variable {s : State} {i : Instr} {p : At} {vd lat : Nat} {body : Nat → Dev → Dev} (hp : i.coreOp.map CoreOp.loc = some p)
  (hexec : exec i s = s.coreRun i { cw := true, mem := true } (fun d => d.bundleOp p.core.val p.cyc body))
include hp hexec

/-- A result appended to those on their way to a core's registers, on a device whose cores and memory are as they were. -/
theorem exec_vput (h : s.dev.executes i = true) {e : Dev} {due : Nat} {l : List Nat}
    (he : body (s.dev.cycleOf p) ((s.dev.brought p).opAt p) = e.vput p.core.val due vd l)
    (hcw : e.cw = ((s.dev.brought p).opAt p).cw) (hmem : e.mem = (s.dev.brought p).mem) :
    let d := s.dev.brought p
    let c := p.core.val
    ∃ t, exec i s = .next t ∧ (t.dev.vol c).vres = (d.vol c).vres ++ [{ due := due, vd := vd, lanes := l }] ∧
      (t.dev.vol c).writes = (d.vol c).writes ∧ t.dev.cw.cores = d.cw.cores ∧ t.dev.mem = d.mem ∧
      ∀ k, k ≠ c → t.dev.vol k = d.vol k := by
  obtain ⟨t, ht, htcw, htmem, -⟩ := exec_bundleOp hp hexec h rfl rfl
  rw [he] at htcw htmem
  generalize s.dev.brought p = d at *
  have hvol : e.vol = d.vol := (Dev.vol_of_cw hcw).trans (d.vol_opAt p)
  refine ⟨t, ht, ?_, ?_, ?_, htmem.trans hmem, fun k hk => ?_⟩
  · rw [Dev.vol_of_cw htcw, Dev.vol_vput_same, hvol]
  · rw [Dev.vol_of_cw htcw, Dev.vol_vput_same, hvol]
  · rw [htcw, Dev.vput_cores, hcw, Dev.cores_opAt]
  · rw [Dev.vol_of_cw htcw, Dev.vol_vput_ne _ _ _ _ hk, hvol]

theorem vecResult_of_vput {val : CoreChk → Nat → Nat}
    (hbody : ∀ now d, ∃ e l, body now d = Dev.vput e p.core.val (now + lat) vd l ∧ e.cw = d.cw ∧ e.mem = d.mem ∧
      l = (List.range 256).map (val (d.core p.core.val))) : VecResult s i p vd lat val := by
  intro h
  obtain ⟨e, l, he, hcw, hmem, hl⟩ := hbody (s.dev.cycleOf p) ((s.dev.brought p).opAt p)
  rw [Dev.core_opAt] at hl
  rw [Dev.mem_opAt] at hmem
  subst hl
  exact exec_vput hp hexec h he hcw hmem
end

theorem lanes256_eq (f : Nat → Nat × FStat) : ∃ st, lanes256 f = ((List.range 256).map (fun i => (f i).1), st) := by
  simp [lanes256]

/-- A lane operation of three registers. -/
theorem vecResult_of_vecOp {s : State} {i : Instr} {p : At} {f : VecF} {lat : Nat} {fn : Nat → Nat → Nat → Nat × FStat}
    {val : CoreChk → Nat → Nat} (hp : i.coreOp.map CoreOp.loc = some p)
    (hexec : exec i s = s.coreRun i { cw := true, mem := true }
      (vecOp p.core.val p.cyc f.vd.toNat f.va.toNat f.vb.toNat f.vc.toNat lat fn))
    (hval : ∀ k j, (fn (k.va f j) (k.vb f j) (k.vc f j)).1 = val k j) : VecResult s i p f.vd.toNat lat val := by
  refine vecResult_of_vput hp hexec fun now d => ?_
  obtain ⟨st, hst⟩ := lanes256_eq fun j => fn ((d.core p.core.val).va f j) ((d.core p.core.val).vb f j) ((d.core p.core.val).vc f j)
  simp only [CoreChk.va, CoreChk.vb, CoreChk.vc] at hst hval
  simp only [hst, hval]
  exact ⟨d.coStat p.core.val st, _, rfl, rfl, rfl, rfl⟩

/-! ### Constants (R301) -/

theorem vecResult_of_constOp {s : State} {i : Instr} {p : At} {vd : Nat} {val : Nat → Nat} (hp : i.coreOp.map CoreOp.loc = some p)
    (hexec : exec i s = s.coreRun i { cw := true, mem := true } (constOp p.core.val p.cyc vd val)) :
    VecResult s i p vd 2 (fun _ => val) := vecResult_of_vput hp hexec fun _ d => ⟨d, _, rfl, rfl, rfl, rfl⟩

/-! ### Packed lanes (R302) -/

theorem map_getD_of_length {l : List Nat} {n : Nat} (h : l.length = n) : (List.range n).map (fun i => l.getD i 0) = l := by
  refine List.ext_getElem (by simp [h]) fun i _ hi => ?_
  simp [List.getElem?_eq_getElem hi]

theorem length_packLanes (w : Nat) (xs : List Nat) : (packLanes w xs).length = 256 := by simp [packLanes]

theorem vecResult_cvt (s : State) (p : At) (g : Gate) (f : VecF) : VecResult s (.cvt p g f) p f.vd.toNat 4 (fun k i =>
    (packLanes (cvtBits f.sub.toNat) ((List.range 256).map (fun j => (cvtLane f.ty.toNat f.sub.toNat (k.va f j)).1))).getD i 0) := by
  refine vecResult_of_vput rfl rfl fun now d => ?_
  obtain ⟨st, hst⟩ := lanes256_eq fun j => cvtLane f.ty.toNat f.sub.toNat (lane ((d.core p.core.val).vreg f.va.toNat) j)
  simp only [hst]
  exact ⟨d.coStat p.core.val st, _, rfl, rfl, rfl, (map_getD_of_length (length_packLanes ..)).symm⟩

theorem vecResult_unpk (s : State) (p : At) (g : Gate) (f : VecF) : VecResult s (.unpk p g f) p f.vd.toNat 4 (fun k i =>
    (unpkElem f.ty.toNat f.sub.toNat (unpackElem (if f.sub.toNat = 1 then 16 else 8) (k.vreg f.va.toNat) i)).1) := by
  refine vecResult_of_vput rfl rfl fun now d => ?_
  obtain ⟨st, hst⟩ := lanes256_eq fun j => unpkElem f.ty.toNat f.sub.toNat
    (unpackElem (if f.sub.toNat = 1 then 16 else 8) ((d.core p.core.val).vreg f.va.toNat) j)
  simp only [hst]
  exact ⟨d.coStat p.core.val st, _, rfl, rfl, rfl, rfl⟩

/-! ### MX blocks (R148) -/

/-- Block b of the lanes of VA. -/
def CoreChk.mxBlockOf (k : CoreChk) (f : VecF) (b : Nat) : List Nat × Nat × FStat × Bool :=
  mxBlock f.sub.toNat ((List.range 32).map (fun j => k.va f (32 * b + j)))

/-- The bytes that MXB leaves: the elements of the 8 blocks, then their scales (R302). -/
def CoreChk.mxLanes (k : CoreChk) (f : VecF) : List Nat :=
  packLanes 8 (((List.range 8).map (k.mxBlockOf f)).flatMap (fun b => b.1) ++
    ((List.range 8).map (k.mxBlockOf f)).map (fun b => b.2.1))

theorem vecResult_mxb (s : State) (p : At) (g : Gate) (f : VecF) :
    VecResult s (.mxb p g f) p f.vd.toNat 4 (fun k i => (k.mxLanes f).getD i 0) := by
  refine vecResult_of_vput (vd := f.vd.toNat) (lat := 4) rfl rfl fun _ d => ?_
  exact ⟨_, (d.core p.core.val).mxLanes f, rfl, (Dev.bump_cw ..).trans (Dev.coStat_cw ..),
    (Dev.bump_mem ..).trans (Dev.coStat_mem ..), (map_getD_of_length (length_packLanes ..)).symm⟩

/-! ### Reductions (R147) -/

/-- Free values pad lanes, and only the count of free values drawn changes. -/
theorem Dev.padFree_eq (n : Nat) (d : Dev) (l : List Nat) : ∃ free m, d.padFree n l = (l ++ free, { d with free := m }) := by
  induction n generalizing d l with
  | zero => exact ⟨[], d.free, by simp [Dev.padFree]⟩
  | succ n ih =>
    obtain ⟨free, m, h⟩ := ih d.fresh.2 (l ++ [d.fresh.1.toNat % 2 ^ 32])
    exact ⟨_ :: free, m, h.trans (by rw [List.append_assoc]; rfl)⟩

theorem bitOf_toNat {w : Nat} (x : BitVec w) (i : Nat) : bitOf x.toNat i = x.getLsbD i := by
  rw [bitOf, bits, BitVec.getLsbD, Nat.testBit_eq_decide_div_mod_eq, Nat.shiftRight_eq_div_pow]
  rfl

/-- What RED does at its cycle: the tree's results are put on their way, with free values in the other lanes. -/
theorem redOp_body (c cyc vd va ty sub : Nat) : ∃ body : Nat → Dev → Dev,
    redOp c cyc vd va ty sub = (fun d => d.bundleOp c cyc body) ∧ ∀ now d, ∃ free, ∃ e : Dev,
      body now d = e.vput c (now + 12) vd ((redLevels (redFn ty sub) (if bitOf sub 2 then 5 else 8)
        ((List.range 256).map (lane ((d.core c).vreg va))) {}).1 ++ free) ∧ e.cw = d.cw ∧ e.mem = d.mem := by
  refine ⟨_, rfl, fun now d => ?_⟩
  dsimp only
  generalize redLevels (redFn ty sub) (if bitOf sub 2 then 5 else 8) ((List.range 256).map (lane ((d.core c).vreg va))) {} = x
  obtain ⟨free, m, hfree⟩ := Dev.padFree_eq (256 - x.1.length) (d.coStat c x.2) x.1
  rw [hfree]
  exact ⟨free, _, rfl, rfl, rfl⟩

theorem exec_red {s : State} {p : At} {g : Gate} {f : VecF} (h : s.dev.executes (.red p g f) = true) :
    ∃ t free, exec (.red p g f) s = .next t ∧
      (t.dev.vol p.core.val).vres = ((s.dev.brought p).vol p.core.val).vres ++
        [{ due := s.dev.cycleOf p + 12, vd := f.vd.toNat
           lanes := (redLevels (redFn f.ty.toNat f.sub.toNat) (if f.sub.getLsbD 2 then 5 else 8)
             ((List.range 256).map (((s.dev.brought p).core p.core.val).va f)) {}).1 ++ free }] ∧
      t.dev.cw.cores = (s.dev.brought p).cw.cores ∧ t.dev.mem = (s.dev.brought p).mem := by
  obtain ⟨body, hop, hbody⟩ := redOp_body p.core.val p.cyc f.vd.toNat f.va.toNat f.ty.toNat f.sub.toNat
  obtain ⟨free, e, he, hcw, hmem⟩ := hbody (s.dev.cycleOf p) ((s.dev.brought p).opAt p)
  rw [bitOf_toNat, Dev.core_opAt] at he
  rw [Dev.mem_opAt] at hmem
  obtain ⟨t, hexec, hvres, -, hcores, hmem, -⟩ :=
    exec_vput (i := .red p g f) rfl (congrArg (s.coreRun _ _) hop) h he hcw hmem
  exact ⟨t, free, hexec, hvres, hcores, hmem⟩

/-! ### Integer operations (R301) -/

theorem sext_eq_laneInt (x : Nat) : sext 32 x = laneInt x := by
  rw [laneInt, BitVec.toInt_eq_toNat_cond, BitVec.toNat_ofNat, sext]
  split <;> split <;> omega

theorem wrapN_eq_ofInt (i : Int) : wrapN 32 i = (BitVec.ofInt 32 i).toNat := by
  rw [wrapN, BitVec.toNat_ofInt]

theorem intRes_fst (sat : Bool) (i : Int) : (intRes sat i).1 = satOrWrap sat i := by
  cases sat
  · exact wrapN_eq_ofInt i
  · rw [satOrWrap, ← wrapN_eq_ofInt]
    refine congrArg (wrapN 32) ?_
    unfold clampI
    simp only [if_true]
    split
    · omega
    · split <;> omega

theorem iShra_eq (a b : Nat) : iShra a b = ((BitVec.ofNat 32 a).sshiftRight (b % 32)).toNat := by
  rw [iShra, wrapN_eq_ofInt, sext_eq_laneInt, fdiv, Int.fdiv_eq_ediv_of_nonneg _ (by positivity)]
  rw [BitVec.sshiftRight, Int.shiftRight_eq_div_pow]
  simp [laneInt]

theorem iCmp_eq (sub a b : Nat) : iCmp sub a b = if (match sub with
    | 0 => decide (laneInt a = laneInt b)
    | 1 => decide (laneInt a ≠ laneInt b)
    | 2 => decide (laneInt a < laneInt b)
    | _ => decide (laneInt a ≤ laneInt b)) then 2 ^ 32 - 1 else 0 := by
  simp only [iCmp, sext_eq_laneInt]
  rfl

theorem selLane_eq (ty : BitVec 2) (a b x : Nat) : selLane ty.toNat a b x =
    if ty = 1 then (if x % 2 ^ 16 = 0 then b else a) % 2 ^ 16 else if x = 0 then b else a := by
  by_cases h : ty = 1
  · subst h
    simp [selLane, tyLane, ite_not]
  · have h1 : ty.toNat ≠ 1 := fun h1 => h (BitVec.eq_of_toNat_eq h1)
    rw [if_neg h, selLane, tyLane, tyLane, if_neg h1, if_neg h1, ite_not]

end Sys2Proof.Machine

open Sys2Proof Sys2Proof.Machine

/-- Settles O12: each operation is one lane operation of the vector unit, and its lanes are arithmetic on signed numbers. -/
theorem integerLanes : Obligations.IntegerLanes := by
  intro s p g f
  refine ⟨vecResult_of_vecOp rfl rfl fun k j => ?_, vecResult_of_vecOp rfl rfl fun k j => ?_,
    vecResult_of_vecOp rfl rfl fun k j => ?_, vecResult_of_vecOp rfl rfl fun _ _ => rfl,
    vecResult_of_vecOp rfl rfl fun _ _ => rfl, vecResult_of_vecOp rfl rfl fun _ _ => rfl,
    vecResult_of_vecOp rfl rfl fun k j => ?_, vecResult_of_vecOp rfl rfl fun k j => ?_,
    vecResult_of_vecOp rfl rfl fun k j => iShra_eq .., vecResult_of_vecOp rfl rfl fun k j => iCmp_eq ..,
    vecResult_of_vecOp rfl rfl fun k j => ?_⟩
  · rw [iAdd, intRes_fst, sext_eq_laneInt, sext_eq_laneInt]
  · rw [iSub, intRes_fst, sext_eq_laneInt, sext_eq_laneInt]
  · rw [iMul, intRes_fst, sext_eq_laneInt, sext_eq_laneInt]
  · rw [Nat.shiftLeft_eq]
    rfl
  · rw [Nat.shiftRight_eq_div_pow]
    rfl
  · exact selLane_eq ..

/-- Settles O13: each operation is one lane operation of the vector unit, of the model's arithmetic (R133). -/
theorem floatLanes : Obligations.FloatLanes := fun _ _ _ _ =>
  ⟨vecResult_of_vecOp rfl rfl fun _ _ => rfl, vecResult_of_vecOp rfl rfl fun _ _ => rfl,
    vecResult_of_vecOp rfl rfl fun _ _ => rfl, vecResult_of_vecOp rfl rfl fun _ _ => rfl,
    vecResult_of_vecOp rfl rfl fun _ _ => rfl, vecResult_of_vecOp rfl rfl fun _ _ => rfl,
    vecResult_of_vecOp rfl rfl fun _ _ => rfl, vecResult_of_vecOp rfl rfl fun _ _ => rfl⟩

/-- Settles O14: conversions and blocks are packed lanes, constants lanes of their own, and a reduction's other lanes are free. -/
theorem conversionsAndConstants : Obligations.ConversionsAndConstants := by
  intro s p g f
  exact ⟨vecResult_cvt s p g f, vecResult_unpk s p g f, vecResult_mxb s p g f, fun _ _ => vecResult_of_constOp rfl rfl,
    vecResult_of_constOp rfl rfl, vecResult_of_constOp rfl rfl, exec_red⟩
end

section
/-! SUPPORT. The A slot's registers and windows (R288, R298). -/

namespace Sys2Proof.Machine

/-! ### Address registers (R288, R298) -/

/-- What an operation of the A slot that sets a register leaves beside the registers: memory, results and writes on their way,
and the other cores. -/
def Dev.sameBesideAddr (t d : Dev) (c : Nat) : Prop :=
  t.mem = d.mem ∧ (t.vol c).vres = (d.vol c).vres ∧ (t.vol c).writes = (d.vol c).writes ∧
    ∀ e, e ≠ c → t.core e = d.core e ∧ t.vol e = d.vol e

/-- A register given its value from the next schedule cycle on. -/
theorem exec_arNext {s : State} {i : Instr} {p : At} {reg : Nat} {v : CoreChk → Word} (hp : i.coreOp.map CoreOp.loc = some p)
    (hexec : exec i s = s.coreRun i { cw := true, mem := true }
      (fun d => d.bundleOp p.core.val p.cyc (fun now d => d.arNext p.core.val now reg (v (d.core p.core.val)))))
    (h : s.dev.executes i = true) :
    let c := p.core.val
    let d := s.dev.brought p
    ∃ t, exec i s = .next t ∧
      (t.dev.vol c).arup = (d.vol c).arup ++ [(s.dev.cycleOf p + 1, reg, v (d.core c))] ∧ t.dev.core c = d.core c ∧
      t.dev.sameBesideAddr d c := by
  obtain ⟨t, ht, hcw, hmem, -⟩ := exec_bundleOp hp hexec h rfl rfl
  generalize s.dev.brought p = d at *
  have hcore : t.dev.core = d.core := (Dev.core_of_cw hcw).trans rfl
  have hvol := Dev.vol_of_cw hcw
  refine ⟨t, ht, ?_, congrFun hcore _, hmem, ?_, ?_, fun e he => ⟨congrFun hcore e, ?_⟩⟩
  all_goals rw [hvol]
  · rw [Dev.vol_arNext_same]
    rfl
  · rw [Dev.vol_arNext_same]
    rfl
  · rw [Dev.vol_arNext_same]
    rfl
  · exact Dev.vol_setVol_ne _ _ he

theorem CoreChk.arOf_setReg (k : CoreChk) {n : Nat} (h : n < 16) (v : Word) : (k.setReg n v).arOf n = v := by
  rw [CoreChk.setReg, if_pos h]
  exact smGet_smSet_same ..

theorem CoreChk.asOf_setReg (k : CoreChk) {n : Nat} (h : n < 16) (v : Word) : (k.setReg (16 + n) v).asOf n = v := by
  rw [CoreChk.setReg, if_neg (by omega), if_pos (by omega), Nat.add_sub_cancel_left]
  exact smGet_smSet_same ..

/-! ### Windows (R298) -/

theorem exec_win {s : State} {p : At} {g : Gate} {w : BitVec 3} {lb n : BitVec 13} {logP : BitVec 2} {cM1 : BitVec 6}
    {kk : BitVec 7} (h : s.dev.executes (.win p g w lb n logP cM1 kk) = true) :
    let c := p.core.val
    let d := s.dev.brought p
    ∃ t, exec (.win p g w lb n logP cM1 kk) s = .next t ∧
      smGet (fun _ => ({} : Win)) (t.dev.core c).wins w.toNat =
        { lb := lb.toNat, n := n.toNat, logP := logP.toNat, c := cM1.toNat + 1, k := kk.toNat } ∧
      t.dev.vol c = d.vol c ∧ t.dev.sameBesideAddr d c := by
  obtain ⟨t, ht, hcw, hmem, -⟩ := exec_bundleOp (p := p) (w := { cw := true, mem := true }) rfl rfl h rfl rfl
  generalize s.dev.brought p = d at *
  have hcore := Dev.core_of_cw hcw
  have hvol : t.dev.vol = d.vol := (Dev.vol_of_cw hcw).trans rfl
  refine ⟨t, ht, ?_, congrFun hvol _, hmem, by rw [hvol], by rw [hvol], fun e he => ⟨?_, congrFun hvol e⟩⟩
  · rw [hcore, Dev.core_setCore_same, smGet_smSet_same]
  · rw [hcore]
    exact Dev.core_setCore_ne _ _ he

end Sys2Proof.Machine

open Sys2Proof Sys2Proof.Machine

/-- Settles O17: a register's value is appended to those that fall due in the next cycle, a window is set in its core at once. -/
theorem addressRegisters : Obligations.AddressRegisters := by
  intro s p g reg imm w lb n logP cM1 kk c d now same
  exact ⟨exec_arNext (v := fun _ => imm) rfl rfl, exec_arNext (v := fun k => k.arOf reg.toNat + imm) rfl rfl,
    exec_arNext (v := fun _ => imm) rfl rfl, exec_arNext (v := fun _ => imm) rfl rfl,
    fun k _ h => ⟨k.arOf_setReg h imm, k.asOf_setReg h imm⟩, fun _ => ⟨rfl, rfl, rfl⟩, exec_win⟩
end

section
/-! SUPPORT. What an access of a bundle to a plane leaves: the banks it takes and the errors it corrects change no result, no
write and no byte (R154 to R165, R301). -/

namespace Sys2Proof.Machine

/-! ### Banks and corrections -/

/-- A core's volatile state beside the banks taken and the freezes asked for corrections. -/
def CoreVol.calm (v : CoreVol) : CoreVol := { v with occ := [], corr := [] }

/-- What a scheduled access leaves besides what it is issued for: the cores, core `c` beside its banks and freezes, memory,
registers. -/
def Dev.accView (d : Dev) (c : Nat) : SMap CoreChk × CoreVol × Mem × SMap Word :=
  (d.cw.cores, (d.vol c).calm, d.mem, d.reg.regs)

section
variable (d : Dev) (c : Nat)

theorem Dev.accView_setVol (v : CoreVol) : (d.setVol c v).accView c = (d.cw.cores, v.calm, d.mem, d.reg.regs) := by
  rw [Dev.accView, Dev.vol_setVol_same]
  rfl

theorem Dev.accView_bump (a n : Nat) : (d.bump a n).accView c = d.accView c := by
  rw [Dev.accView, Dev.bump_reg_regs]
  rfl

theorem Dev.accView_freeze (e at_ n : Nat) : (d.freeze e at_ n).accView c = d.accView c :=
  Dev.freeze_proj (fun d : Dev => d.accView c) (fun _ _ _ => rfl) (fun d _ _ => d.accView_bump c ..) ..

theorem Dev.accView_occupy (w : Bool) (at_ : Nat) (bs : List Nat) : (d.occupy c w at_ bs).accView c = d.accView c := by
  unfold Dev.occupy
  dsimp only
  rw [Dev.accView_freeze, Dev.accView_bump, Dev.accView_setVol]
  rfl

theorem Dev.accView_corrFreeze (due : Nat) : (d.corrFreeze c due).accView c = d.accView c := by
  unfold Dev.corrFreeze
  dsimp only
  split
  · rfl
  · rw [Dev.accView_freeze, Dev.accView_bump, Dev.accView_setVol]
    rfl

theorem Dev.accView_corrected (w : Bool) (o n : Nat) : (d.corrected_ c w o n).accView c = d.accView c :=
  loopN_proj _ (fun d : Dev => d.accView c) (fun _ e => by
    simp only [Dev.accView, Dev.vol, Dev.report_cw, Dev.report_mem]
    rw [e.report_regs (by cases w <;> simp)]) ..

theorem Dev.readEcc_calm (w : Bool) (at_ : Nat → Nat) (due : Nat) {e : Ecc} (h : e.unc = none) :
    (d.readEcc c w at_ due e).1 = [] ∧ (d.readEcc c w at_ due e).2.accView c = d.accView c := by
  refine ⟨(d.readEcc_good c w at_ due h).1, ?_⟩
  unfold Dev.readEcc
  rw [h]
  dsimp only
  split
  · rw [Dev.accView_corrFreeze, Dev.accView_corrected]
  · exact d.accView_corrected ..

/-- A scheduled read that meets no uncorrectable error gives its bytes. -/
theorem Dev.schedRead_calm (w : Bool) (off n due : Nat) {e : Ecc} (h : e.unc = none) :
    (d.schedRead c w off n due e).1 = d.planeRead c w off n ∧ (d.schedRead c w off n due e).2.accView c = d.accView c := by
  obtain ⟨hopen, hview⟩ := d.readEcc_calm c w (eccAt (eccUnit w) off) due h
  refine ⟨?_, hview⟩
  unfold Dev.schedRead
  dsimp only
  rw [hopen]
  rfl
end

section
variable {d e : Dev} {c : Nat} (h : e.accView c = d.accView c)
include h

theorem Dev.cores_of_accView : e.cw.cores = d.cw.cores := congrArg (fun x => x.1) h
theorem Dev.calm_of_accView : (e.vol c).calm = (d.vol c).calm := congrArg (fun x => x.2.1) h
theorem Dev.mem_of_accView : e.mem = d.mem := congrArg (fun x => x.2.2.1) h
theorem Dev.regs_of_accView : e.reg.regs = d.reg.regs := congrArg (fun x => x.2.2.2) h
theorem Dev.rd_of_accView : e.rd = d.rd := Dev.rd_of_regs (Dev.regs_of_accView h)
theorem Dev.core_of_accView : e.core = d.core := by
  funext k
  rw [Dev.core, Dev.cores_of_accView h]
  rfl
theorem Dev.vres_of_accView : (e.vol c).vres = (d.vol c).vres := (congrArg CoreVol.vres (Dev.calm_of_accView h) :)
theorem Dev.arup_of_accView : (e.vol c).arup = (d.vol c).arup := (congrArg CoreVol.arup (Dev.calm_of_accView h) :)
theorem Dev.writes_of_accView : (e.vol c).writes = (d.vol c).writes := (congrArg CoreVol.writes (Dev.calm_of_accView h) :)
theorem Dev.feeds_of_accView : (e.vol c).feeds = (d.vol c).feeds := (congrArg CoreVol.feeds (Dev.calm_of_accView h) :)
theorem Dev.reads_of_accView : (e.vol c).reads = (d.vol c).reads := (congrArg CoreVol.reads (Dev.calm_of_accView h) :)
theorem Dev.planeRead_of_accView (k : Nat) (w : Bool) (o n : Nat) : e.planeRead k w o n = d.planeRead k w o n := by
  rw [Dev.planeRead, Dev.mem_of_accView h]
  rfl
theorem Dev.planeOk_of_accView {k : Nat} {w : Bool} {a n o : Nat} (hok : d.planeOk k w a n o) : e.planeOk k w a n o := by
  rw [Dev.planeOk, Dev.poweredAll, Dev.rd_of_accView h]
  exact hok
end

/-! ### The step of an address register (R288) -/

section
variable (d : Dev) (c now base n r : Nat) (inc : Bool)

/-- INC steps the address register at the end of the span, and changes nothing else. -/
theorem Dev.arStep_eq :
    d.arStep c now base n r inc = d.setVol c { d.vol c with arup := (d.vol c).arup ++ arUps d c now base n r inc } ∨
      arUps d c now base n r inc = [] ∧ d.arStep c now base n r inc = d := by
  unfold Dev.arStep arUps
  by_cases h : inc = true ∧ r + 1 = n
  · rw [if_pos (by simpa using h), if_pos h]
    exact .inl rfl
  · rw [if_neg (by simpa using h), if_neg h]
    exact .inr ⟨rfl, rfl⟩

theorem Dev.accView_arStep : (d.arStep c now base n r inc).accView c =
    (d.cw.cores, CoreVol.calm { d.vol c with arup := (d.vol c).arup ++ arUps d c now base n r inc }, d.mem, d.reg.regs) := by
  obtain h | ⟨hno, h⟩ := d.arStep_eq c now base n r inc
  · rw [h, Dev.accView_setVol]
  · rw [h, hno, List.append_nil]
    rfl
end

/-! ### Scheduled writes (R158, R160) -/

/-- A core's volatile state with one write more on its way. -/
def CoreVol.addWrite (v : CoreVol) (w : PWrite) : CoreVol := { v with writes := v.writes ++ [w] }

theorem CoreVol.calm_addWrite {u v : CoreVol} (h : u.calm = v.calm) (w : PWrite) : (u.addWrite w).calm = (v.addWrite w).calm :=
  congrArg (fun v => v.addWrite w) h

section
variable (d : Dev) (c : Nat) {at_ a x off : Nat} {word : Bool} {bs : List Byte} (aow : Nat) (vec : Bool)
  (ha : engDec a = some (b2n word, x, off)) (hfit : off + bs.length ≤ planeSize word)
include ha hfit

/-- A write that fits its plane takes its banks, and is appended. -/
theorem Dev.schedWrite_fits :
    let e := d.occupy c word at_ (writeBanks word off bs.length aow)
    d.schedWrite c at_ a bs aow vec = e.setVol c ((e.vol c).addWrite
      { at_ := at_, word := word, off := off, bytes := bs, aow := aow, vec := vec }) := by
  have hword : decide (b2n word = 1) = word := by cases word <;> rfl
  have hplane : b2n word ≠ 2 := by cases word <;> decide
  generalize b2n word = sp at ha hword hplane
  intro e
  unfold Dev.schedWrite
  rw [ha]
  split
  next h =>
    cases h
    exact absurd rfl hplane
  next h =>
    cases h
    rw [hword]
    dsimp only
    rw [if_neg (not_lt.2 hfit), if_pos rfl]
    rfl
  next h => cases h

theorem Dev.accView_schedWrite : (d.schedWrite c at_ a bs aow vec).accView c =
    (d.cw.cores, ((d.vol c).addWrite { at_ := at_, word := word, off := off, bytes := bs, aow := aow, vec := vec }).calm,
      d.mem, d.reg.regs) := by
  have hview := d.accView_occupy c word at_ (writeBanks word off bs.length aow)
  rw [d.schedWrite_fits c aow vec ha hfit, Dev.accView_setVol, CoreVol.calm_addWrite (Dev.calm_of_accView hview),
    Dev.cores_of_accView hview, Dev.mem_of_accView hview, Dev.regs_of_accView hview]
end

end Sys2Proof.Machine
end

section
/-! SUPPORT. Loads, stores, gather and scatter of the vector unit (R157, R158, R301). -/

namespace Sys2Proof.Machine

/-! ### Words of a load -/

theorem words4_eq (bs : List Byte) (n : Nat) :
    words4 bs n = (List.range n).map (fun i => leNat ((bs.drop (4 * i)).take 4)) := by
  induction n generalizing bs with
  | zero => rfl
  | succ n ih =>
    rw [words4, ih, List.range_succ_eq_map, List.map_cons, List.map_map]
    refine congrArg₂ _ (by simp [leAt]) (List.map_congr_left fun i _ => ?_)
    simp [List.drop_drop, Nat.mul_add, Nat.add_comm]

theorem memRead_take (m : Mem) (a : Nat) {k n : Nat} (h : k ≤ n) : (memRead m a n).take k = memRead m a k := by
  induction n generalizing a k with
  | zero => rw [Nat.le_zero.1 h]; rfl
  | succ n ih =>
    cases k with
    | zero => rfl
    | succ k => rw [memRead, List.take_succ_cons, ih _ (Nat.le_of_succ_le_succ h), memRead]

theorem memRead_drop (m : Mem) (a i n : Nat) : (memRead m a n).drop i = memRead m (a + i) (n - i) := by
  induction i generalizing a n with
  | zero => rfl
  | succ i ih =>
    cases n with
    | zero => rw [Nat.zero_sub]; rfl
    | succ n => rw [memRead, List.drop_succ_cons, ih, Nat.add_assoc, Nat.add_comm 1, Nat.add_sub_add_right]

theorem Dev.planeRead_part (d : Dev) (c : Nat) (w : Bool) (off : Nat) {i k n : Nat} (h : i + k ≤ n) :
    ((d.planeRead c w off n).drop i).take k = d.planeRead c w (off + i) k := by
  have hat : planeAt w c off + i = planeAt w c (off + i) := by cases w <;> simp only [planeAt] <;> exact Nat.add_assoc ..
  rw [Dev.planeRead, memRead_drop, memRead_take _ _ (by omega), hat]
  rfl

theorem Dev.words4_planeRead (d : Dev) (c : Nat) (w : Bool) (off n : Nat) :
    words4 (d.planeRead c w off (4 * n)) n = (List.range n).map (fun i => leNat (d.planeRead c w (off + 4 * i) 4)) := by
  rw [words4_eq]
  refine List.map_congr_left fun i hi => ?_
  rw [d.planeRead_part c w off (by have := List.mem_range.1 hi; omega)]

/-! ### The step of the address register -/

section
variable (d : Dev) (c now base n r : Nat) (inc : Bool)

theorem Dev.cores_arStep : (d.arStep c now base n r inc).cw.cores = d.cw.cores :=
  congrArg (fun x => x.1) (d.accView_arStep c now base n r inc)
theorem Dev.mem_arStep : (d.arStep c now base n r inc).mem = d.mem :=
  congrArg (fun x => x.2.2.1) (d.accView_arStep c now base n r inc)
theorem Dev.regs_arStep : (d.arStep c now base n r inc).reg.regs = d.reg.regs :=
  congrArg (fun x => x.2.2.2) (d.accView_arStep c now base n r inc)
theorem Dev.arup_arStep : ((d.arStep c now base n r inc).vol c).arup = (d.vol c).arup ++ arUps d c now base n r inc :=
  congrArg (fun x => x.2.1.arup) (d.accView_arStep c now base n r inc)
theorem Dev.vres_arStep : ((d.arStep c now base n r inc).vol c).vres = (d.vol c).vres :=
  congrArg (fun x => x.2.1.vres) (d.accView_arStep c now base n r inc)
theorem Dev.writes_arStep : ((d.arStep c now base n r inc).vol c).writes = (d.vol c).writes :=
  congrArg (fun x => x.2.1.writes) (d.accView_arStep c now base n r inc)

theorem Dev.planeOk_arStep {d : Dev} {w : Bool} {a m off : Nat} (h : d.planeOk c w a m off) :
    (d.arStep c now base n r inc).planeOk c w a m off := by
  rw [Dev.planeOk, Dev.poweredAll, Dev.rd_of_regs (d.regs_arStep c now base n r inc)]
  exact h

theorem Dev.planeRead_arStep (w : Bool) (o m : Nat) : (d.arStep c now base n r inc).planeRead c w o m = d.planeRead c w o m := by
  rw [Dev.planeRead, Dev.mem_arStep]
  rfl
end

/-! ### VLD and VST -/

/-- A result appended after an access. -/
theorem Dev.vput_of_accView {d e : Dev} {c : Nat} (h : e.accView c = d.accView c) (due vd : Nat) (l : List Nat) :
    ((e.vput c due vd l).vol c).vres = (d.vol c).vres ++ [{ due := due, vd := vd, lanes := l }] ∧
    ((e.vput c due vd l).vol c).arup = (d.vol c).arup ∧ ((e.vput c due vd l).vol c).writes = (d.vol c).writes ∧
    (e.vput c due vd l).mem = d.mem := by
  rw [Dev.vput, Dev.vol_setVol_same, ← Dev.vres_of_accView h, ← Dev.arup_of_accView h, ← Dev.writes_of_accView h,
    ← Dev.mem_of_accView h]
  exact ⟨rfl, rfl, rfl, rfl⟩

theorem engDec_of_localOff {word : Bool} {a off : Nat} (h : localOff word a = some off) :
    ∃ x, engDec a = some (b2n word, x, off) := by
  unfold localOff at h
  split at h
  next sp x o he =>
    obtain ⟨hsp, ⟨⟩⟩ := Option.ite_none_right_eq_some.1 h
    exact ⟨x, hsp ▸ he⟩
  next => cases h

theorem length_lanesLE (n : Nat) (f : Nat → Nat) : ((List.range n).flatMap (fun i => toLE 4 (f i))).length = n * 4 := by
  simp [List.length_flatMap]

section
variable (c cyc r span v base : Nat) (inc word : Bool)

/-- What a load leaves: its result is due, and its address register steps. -/
theorem vldOp_body {e : Ecc} (he : e.unc = none) : ∃ f : Nat → Dev → Dev,
    vldOp c cyc r span v base inc word e = (fun d => d.bundleOp c cyc f) ∧
    ∀ (now off : Nat) (d : Dev), d.planeOk c word ((d.core c).addr base r inc) 1024 off →
      ((f now d).vol c).vres = (d.vol c).vres ++
        [{ due := now + (if word then 6 else 8), vd := v
           lanes := (List.range 256).map (fun i => leNat (d.planeRead c word (off + 4 * i) 4)) }] ∧
      ((f now d).vol c).arup = (d.vol c).arup ++ arUps d c now base span r inc ∧
      ((f now d).vol c).writes = (d.vol c).writes ∧ (f now d).mem = d.mem := by
  refine ⟨_, rfl, fun now off d hok => ?_⟩
  dsimp only
  rw [Dev.vecAt_of_planeOk (Dev.planeOk_arStep c now base span r inc hok), ← d.words4_planeRead,
    ← d.planeRead_arStep c now base span r inc, ← d.vres_arStep c now base span r inc, ← d.arup_arStep c now base span r inc,
    ← d.writes_arStep c now base span r inc, ← d.mem_arStep c now base span r inc]
  generalize d.arStep c now base span r inc = y
  have htaken := y.accView_occupy c word now (spanBanks word off 1024)
  dsimp only
  generalize y.occupy c word now (spanBanks word off 1024) = z at htaken ⊢
  obtain ⟨hread, hview⟩ := z.schedRead_calm c word off 1024 (now + if word = true then 6 else 8) he
  rw [hread, Dev.planeRead_of_accView htaken]
  exact Dev.vput_of_accView (hview.trans htaken) ..

/-- What a store leaves: its write is on its way, and its address register steps. -/
theorem vstOp_body (aow : Nat) : ∃ f : Nat → Dev → Dev,
    vstOp c cyc r span v base inc word aow = (fun d => d.bundleOp c cyc f) ∧
    ∀ (now off : Nat) (d : Dev), d.planeOk c word ((d.core c).addr base r inc) 1024 off →
      ((f now d).vol c).writes = (d.vol c).writes ++
        [{ at_ := now + 2, word := word, off := off, aow := aow, vec := true
           bytes := (List.range 256).flatMap (fun i => toLE 4 (lane ((d.core c).vreg v) i)) }] ∧
      ((f now d).vol c).arup = (d.vol c).arup ++ arUps d c now base span r inc ∧
      ((f now d).vol c).vres = (d.vol c).vres ∧ (f now d).mem = d.mem := by
  refine ⟨_, rfl, fun now off d hok => ?_⟩
  dsimp only
  rw [Dev.vecAt_of_planeOk (Dev.planeOk_arStep c now base span r inc hok), ← d.vres_arStep c now base span r inc,
    ← d.arup_arStep c now base span r inc, ← d.writes_arStep c now base span r inc, ← d.mem_arStep c now base span r inc]
  obtain ⟨hat, hfit, -⟩ := hok
  obtain ⟨x, hdec⟩ := engDec_of_localOff hat
  generalize d.arStep c now base span r inc = y
  have hview := y.accView_schedWrite c (at_ := now + 2)
    (bs := (List.range 256).flatMap (fun i => toLE 4 (lane ((d.core c).vreg v) i))) aow true hdec (by rw [length_lanesLE]; exact hfit)
  refine ⟨congrArg (fun x => x.2.1.writes) hview, congrArg (fun x => x.2.1.arup) hview, congrArg (fun x => x.2.1.vres) hview,
    congrArg (fun x => x.2.2.1) hview⟩
end

/-! ### VGATH and VSCAT -/

/-- Addresses that all lie in the word plane, powered, find their offsets. -/
theorem Dev.gatherAt_of_on {d : Dev} {c a : Nat} {b offs : List Nat} (hat : (gatherOffs a b).map (localOff true) = offs.map some)
    (hon : ∀ o ∈ offs, o + 4 ≤ planeSize true ∧ d.poweredAll c true o 4 = true) : d.gatherAt c a b = (some offs, d) := by
  unfold Dev.gatherAt
  rw [hat]
  have hget : (offs.map some).map (fun o => o.getD 0) = offs := by simp
  have hfind : offs.find? (fun o => !(d.poweredAll c true o 4)) = none :=
    List.find?_eq_none.2 fun o ho => by simp [(hon o ho).2]
  dsimp only
  rw [hget, hfind, if_neg]
  simp only [List.any_map, List.any_eq_true, not_exists, not_and]
  intro o ho
  simpa using (hon o ho).1

theorem Dev.gatherOn_arStep {d : Dev} (c now base n r : Nat) (inc : Bool) {offs : List Nat}
    (hon : ∀ o ∈ offs, o + 4 ≤ planeSize true ∧ d.poweredAll c true o 4 = true) :
    ∀ o ∈ offs, o + 4 ≤ planeSize true ∧ (d.arStep c now base n r inc).poweredAll c true o 4 = true := by
  unfold Dev.poweredAll
  rw [Dev.rd_of_regs (d.regs_arStep c now base n r inc)]
  exact hon

section
variable (c cyc r span v vb base : Nat) (inc : Bool)

/-- What a gather leaves: its result is due. -/
theorem vgathOp_body {e : Ecc} (he : e.unc = none) : ∃ f : Nat → Dev → Dev,
    vgathOp c cyc r span v vb base inc e = (fun d => d.bundleOp c cyc f) ∧
    ∀ (now : Nat) (offs : List Nat) (d : Dev),
      (gatherOffs ((d.core c).addr base r inc) ((d.core c).vreg vb)).map (localOff true) = offs.map some →
      (∀ o ∈ offs, o + 4 ≤ planeSize true ∧ d.poweredAll c true o 4 = true) →
      ((f now d).vol c).vres = (d.vol c).vres ++
        [{ due := now + 6, vd := v
           lanes := offs.map (fun o => leNat (d.planeRead c true o 4)) ++ List.replicate 192 0 }] ∧ (f now d).mem = d.mem := by
  refine ⟨_, rfl, fun now offs d hat hon => ?_⟩
  have hread := fun o => d.planeRead_arStep c now base span r inc true o 4
  dsimp only
  rw [Dev.gatherAt_of_on hat (Dev.gatherOn_arStep c now base span r inc hon), ← d.vres_arStep c now base span r inc,
    ← d.mem_arStep c now base span r inc]
  simp only [← hread]
  generalize d.arStep c now base span r inc = y
  have htaken := y.accView_occupy c true now (wordBanks offs)
  generalize y.occupy c true now (wordBanks offs) = z at htaken ⊢
  obtain ⟨hopen, hview⟩ := z.readEcc_calm c true (fun j => offs.getD j 0 / 4 * 4) (now + 6) he
  obtain ⟨hvres, -, -, hmem⟩ := Dev.vput_of_accView (hview.trans htaken) (now + 6) v
    (offs.map (fun o => leNat (y.planeRead c true o 4)) ++ List.replicate 192 0)
  have hlanes : ((offs.map (fun o => z.planeRead c true o 4)).zip offs).map (fun w => leNat (overlay w.1 w.2 [])) =
      offs.map (fun o => leNat (y.planeRead c true o 4)) := by
    rw [← List.map_prod_right_eq_zip, List.map_map]
    exact List.map_congr_left fun o _ => congrArg leNat (Dev.planeRead_of_accView htaken ..)
  rw [hopen, hlanes]
  exact ⟨hvres, hmem⟩

/-- What a scatter leaves: a write for each of its words, in ascending order. -/
theorem vscatOp_body (aow : Nat) : ∃ f : Nat → Dev → Dev,
    vscatOp c cyc r span v vb base inc aow = (fun d => d.bundleOp c cyc f) ∧
    ∀ (now : Nat) (offs : List Nat) (d : Dev),
      (gatherOffs ((d.core c).addr base r inc) ((d.core c).vreg vb)).map (localOff true) = offs.map some →
      (∀ o ∈ offs, o + 4 ≤ planeSize true ∧ d.poweredAll c true o 4 = true) →
      ((f now d).vol c).writes = (d.vol c).writes ++ offs.mapIdx (fun j o =>
        { at_ := now + 2, word := true, off := o, aow := aow, vec := true, bytes := toLE 4 (lane ((d.core c).vreg v) j) }) ∧
      (f now d).mem = d.mem := by
  refine ⟨_, rfl, fun now offs d hat hon => ?_⟩
  dsimp only
  rw [Dev.gatherAt_of_on hat (Dev.gatherOn_arStep c now base span r inc hon), ← d.writes_arStep c now base span r inc,
    ← d.mem_arStep c now base span r inc]
  generalize d.arStep c now base span r inc = y
  dsimp only
  have htaken := y.accView_occupy c true (now + 2) (if aow ≠ 0 then wordBanks offs ++ wordBanks offs else wordBanks offs)
  rw [← Dev.writes_of_accView htaken, ← Dev.mem_of_accView htaken]
  generalize y.occupy c true (now + 2) _ = z
  exact ⟨by rw [Dev.vol_setVol_same], rfl⟩
end

/-! ### The instructions -/

/-- As `exec_bundleOp`, for an operation whose body has a name, by what is read of a core. -/
theorem exec_bundleOp_of_eq {s : State} {i : Instr} {p : At} {w : Writes} {op : Dev → Dev} {body : Nat → Dev → Dev}
    (hp : i.coreOp.map CoreOp.loc = some p) (hexec : exec i s = s.coreRun i w op)
    (hop : op = (fun d => d.bundleOp p.core.val p.cyc body)) (h : s.dev.executes i = true) (hcw : w.cw = true)
    (hmem : w.mem = true) :
    ∃ t, exec i s = .next t ∧ t.dev.core = (body (s.dev.cycleOf p) ((s.dev.brought p).opAt p)).core ∧
      t.dev.vol = (body (s.dev.cycleOf p) ((s.dev.brought p).opAt p)).vol ∧
      t.dev.mem = (body (s.dev.cycleOf p) ((s.dev.brought p).opAt p)).mem ∧
      t.dev.rd = (body (s.dev.cycleOf p) ((s.dev.brought p).opAt p)).rd := by
  obtain ⟨t, ht, hx, hm, hreg⟩ := exec_bundleOp hp (hexec.trans (congrArg _ hop)) h hcw hmem
  exact ⟨t, ht, Dev.core_of_cw hx, Dev.vol_of_cw hx, hm, Dev.rd_of_regs (congrArg (fun r => r.regs) hreg)⟩

section
variable {s : State} {p : At} {g : Gate} {r : BitVec 4} {f : VecM} {ecc : Ecc} {off : Nat} {offs : List Nat}

theorem exec_vld (he : ecc.unc = none) (h : s.dev.executes (.vld p g r f ecc) = true) :
    let c := p.core.val
    let d := s.dev.brought p
    let now := s.dev.cycleOf p
    d.planeOk c f.word ((d.core c).addr f.base.toNat r.toNat f.inc) 1024 off →
    ∃ t, exec (.vld p g r f ecc) s = .next t ∧
      (t.dev.vol c).vres = (d.vol c).vres ++
        [{ due := now + (if f.word then 6 else 8), vd := f.vd.toNat
           lanes := (List.range 256).map (fun i => leNat (d.planeRead c f.word (off + 4 * i) 4)) }] ∧
      (t.dev.vol c).arup = (d.vol c).arup ++ arUps d c now f.base.toNat g.span r.toNat f.inc ∧
      (t.dev.vol c).writes = (d.vol c).writes ∧ t.dev.mem = d.mem := by
  obtain ⟨body, hbody, hdo⟩ := vldOp_body p.core.val p.cyc r.toNat g.span f.vd.toNat f.base.toNat f.inc f.word he
  obtain ⟨t, ht, -, hvol, hmem, -⟩ := exec_bundleOp_of_eq (p := p) (w := { cw := true, mem := true }) rfl rfl hbody h rfl rfl
  generalize s.dev.brought p = d at *
  dsimp only
  intro hok
  refine ⟨t, ht, ?_⟩
  rw [hvol, hmem]
  exact hdo _ off (d.opAt p) hok

theorem exec_vst (h : s.dev.executes (.vst p g r f) = true) :
    let c := p.core.val
    let d := s.dev.brought p
    let now := s.dev.cycleOf p
    d.planeOk c f.word ((d.core c).addr f.base.toNat r.toNat f.inc) 1024 off →
    ∃ t, exec (.vst p g r f) s = .next t ∧
      (t.dev.vol c).writes = (d.vol c).writes ++
        [{ at_ := now + 2, word := f.word, off := off, aow := f.aow.toNat, vec := true
           bytes := (List.range 256).flatMap (fun i => toLE 4 (lane ((d.core c).vreg f.va.toNat) i)) }] ∧
      (t.dev.vol c).arup = (d.vol c).arup ++ arUps d c now f.base.toNat g.span r.toNat f.inc ∧
      (t.dev.vol c).vres = (d.vol c).vres ∧ t.dev.mem = d.mem := by
  obtain ⟨body, hbody, hdo⟩ := vstOp_body p.core.val p.cyc r.toNat g.span f.va.toNat f.base.toNat f.inc f.word f.aow.toNat
  obtain ⟨t, ht, -, hvol, hmem, -⟩ := exec_bundleOp_of_eq (p := p) (w := { cw := true, mem := true }) rfl rfl hbody h rfl rfl
  generalize s.dev.brought p = d at *
  dsimp only
  intro hok
  refine ⟨t, ht, ?_⟩
  rw [hvol, hmem]
  exact hdo _ off (d.opAt p) hok

theorem exec_vgath (he : ecc.unc = none) (h : s.dev.executes (.vgath p g r f ecc) = true) :
    let c := p.core.val
    let d := s.dev.brought p
    (gatherOffs ((d.core c).addr f.base.toNat r.toNat f.inc) ((d.core c).vreg f.vb.toNat)).map (localOff true) =
      offs.map some →
    (∀ o ∈ offs, o + 4 ≤ planeSize true ∧ d.poweredAll c true o 4 = true) →
    ∃ t, exec (.vgath p g r f ecc) s = .next t ∧
      (t.dev.vol c).vres = (d.vol c).vres ++
        [{ due := s.dev.cycleOf p + 6, vd := f.vd.toNat
           lanes := offs.map (fun o => leNat (d.planeRead c true o 4)) ++ List.replicate 192 0 }] ∧
      t.dev.mem = d.mem := by
  obtain ⟨body, hbody, hdo⟩ :=
    vgathOp_body p.core.val p.cyc r.toNat g.span f.vd.toNat f.vb.toNat f.base.toNat f.inc he
  obtain ⟨t, ht, -, hvol, hmem, -⟩ := exec_bundleOp_of_eq (p := p) (w := { cw := true, mem := true }) rfl rfl hbody h rfl rfl
  generalize s.dev.brought p = d at *
  dsimp only
  intro hat hon
  refine ⟨t, ht, ?_⟩
  rw [hvol, hmem]
  exact hdo _ offs (d.opAt p) hat hon

theorem exec_vscat (h : s.dev.executes (.vscat p g r f) = true) :
    let c := p.core.val
    let d := s.dev.brought p
    (gatherOffs ((d.core c).addr f.base.toNat r.toNat f.inc) ((d.core c).vreg f.vb.toNat)).map (localOff true) =
      offs.map some →
    (∀ o ∈ offs, o + 4 ≤ planeSize true ∧ d.poweredAll c true o 4 = true) →
    ∃ t, exec (.vscat p g r f) s = .next t ∧
      (t.dev.vol c).writes = (d.vol c).writes ++ offs.mapIdx (fun j o =>
        { at_ := s.dev.cycleOf p + 2, word := true, off := o, aow := f.aow.toNat, vec := true
          bytes := toLE 4 (lane ((d.core c).vreg f.va.toNat) j) }) ∧
      t.dev.mem = d.mem := by
  obtain ⟨body, hbody, hdo⟩ :=
    vscatOp_body p.core.val p.cyc r.toNat g.span f.va.toNat f.vb.toNat f.base.toNat f.inc f.aow.toNat
  obtain ⟨t, ht, -, hvol, hmem, -⟩ := exec_bundleOp_of_eq (p := p) (w := { cw := true, mem := true }) rfl rfl hbody h rfl rfl
  generalize s.dev.brought p = d at *
  dsimp only
  intro hat hon
  refine ⟨t, ht, ?_⟩
  rw [hvol, hmem]
  exact hdo _ offs (d.opAt p) hat hon
end

end Sys2Proof.Machine

open Sys2Proof Sys2Proof.Machine

/-- Settles O15: an access that lies in its plane takes its banks, then its result is due or its write is on its way. -/
theorem vectorMemory : Obligations.VectorMemory := by
  intro s p g r f ecc off c d now hok
  exact ⟨fun h he => exec_vld he h hok, fun h => exec_vst h hok⟩

/-- Settles O16: with all 64 words in reach, the gather's result is due and the scatter's writes are on their way. -/
theorem gatherAndScatter : Obligations.GatherAndScatter := by
  intro s p g r f ecc offs c d now hat hon
  exact ⟨fun h he => exec_vgath he h hat hon, fun h => exec_vscat h hat hon⟩
end

section
/-! SUPPORT. A write-back of a context that a rollback has left (R293, R352). -/
namespace Sys2Proof.Machine

/-- An operational device after a rollback: context 0 of core 0 was bound to a group, and is now quiet (R352). -/
def contextQuiet : State :=
  { State.reset with
    dev :=
      { State.reset.dev with
        tm := { State.reset.dev.tm with op := true }
        bt := { State.reset.dev.bt with placed := true, locked := true }
        cw :=
          { State.reset.dev.cw with
            cores := [(0, { ctx := [(0, TurnCtx.rolled { bound := true, grp := some { id := ⟨3, 7, 2⟩, count := 40 } })] })] } } }

theorem contextQuiet_inv : contextQuiet.inv = true := by decide +kernel

/-- A write-back without BOUND in that context writes nothing, and is not one of those that R293 suppresses: it does not count. -/
theorem wb_contextQuiet : ∃ t,
    exec (.wb { core := 0, cyc := 5 } {} 0 1 0 0 false 0 1 false 0 false 0 { ecc := {} }) contextQuiet = .next t ∧
    t.dev.ctr (CO_CTR_SUPPRESSED 0) = {} := ⟨_, rfl, by decide +kernel⟩

end Sys2Proof.Machine

open Sys2Proof Sys2Proof.Machine

/-- Refutes O25: a write-back that its context suppresses because a rollback has left the context quiet (R352) does not count in
SUPPRESSED, which counts those suppressed by R293 alone (R310); the statement has every suppressed write-back count. -/
theorem not_writeBacks : ¬ Obligations.WriteBacks := by
  intro h
  obtain ⟨-, hquiet, -⟩ := h contextQuiet { core := 0, cyc := 5 } {} 0 1 0 0 false 0 1 false 0 {} 0 0 0 0 false {} []
  obtain ⟨t, hexec, -, -, hcount⟩ := hquiet (by decide +kernel) rfl (by decide +kernel) (by decide +kernel)
  obtain ⟨t', hexec', hkept⟩ := wb_contextQuiet
  obtain rfl : t = t' := Host.Outcome.next.inj (hexec.symm.trans hexec')
  exact absurd (hkept.symm.trans hcount) (by decide +kernel)
end

section
/-! SUPPORT. A core brought to a schedule cycle: what of its volatile state has been taken out and what stays (R158, R288,
R299, R305). -/

namespace Sys2Proof.Machine

/-! ### What settles -/

/-- A core's volatile state without what has fallen due by a schedule cycle. -/
def CoreVol.settledAt (v : CoreVol) (now : Nat) : CoreVol :=
  { v with
    vres := v.vres.filter (fun x => decide (now < x.due))
    arup := v.arup.filter (fun x => decide (now < x.1))
    ctxup := v.ctxup.filter (fun x => decide (now < x.1))
    writes := v.writes.filter (fun x => decide (now ≤ x.at_))
    reads := v.reads.filter (fun x => decide (now < x.at_))
    bcast := v.bcast.filter (fun x => decide (now ≤ x.at_ + 2))
    corr := v.corr.filter (fun x => decide (now < x))
    occ := v.occ.filter (fun x => decide (now ≤ x.at_)) }

/-- The part of a core's volatile state that neither a read, a write nor a drained ring changes. -/
def CoreVol.still (v : CoreVol) : CoreVol := { v with jfill := 0, wSh := [], sSh := [], feeds := [], retry := [] }

theorem Dev.still_of_pipeView {d e : Dev} {c : Nat} (h : e.pipeView c = d.pipeView c) : (e.vol c).still = (d.vol c).still :=
  congrArg (fun x : CoreChk × CoreVol => x.2.still) h

theorem Dev.still_settle (d : Dev) (c now : Nat) : ((d.settle c now).vol c).still = ((d.vol c).settledAt now).still := by
  unfold Dev.settle
  extract_lets v k res ups cups ws rs k' k'' v' d' evs
  have hv : (d'.vol c).still = v'.still := by
    rw [Dev.vol_setVol_same]
  refine (Dev.still_of_pipeView (Dev.pipeView_foldl (fun d e => ?_) ..)).trans hv
  split
  · exact d.pipeView_planeWrite ..
  · exact d.pipeView_doRead ..
  · rfl

theorem Dev.still_sync (d : Dev) (c now : Nat) : ((d.sync c now).vol c).still = ((d.vol c).settledAt now).still := by
  rw [← d.still_settle c now]
  unfold Dev.sync
  dsimp only
  split
  · rfl
  · refine (Dev.still_of_pipeView (Dev.pipeView_foldl (fun d (x : Nat × Nat) => d.pipeView_retryHeld c x.2) ..)).trans ?_
    rw [Dev.vol_setVol_same]
    rfl

theorem Dev.arrs_sync (d : Dev) (c now : Nat) : ((d.sync c now).vol c).arrs = (d.vol c).arrs :=
  (congrArg CoreVol.arrs (d.still_sync c now) :)
theorem Dev.reads_sync (d : Dev) (c now : Nat) :
    ((d.sync c now).vol c).reads = (d.vol c).reads.filter (fun x => decide (now < x.at_)) :=
  (congrArg CoreVol.reads (d.still_sync c now) :)
theorem Dev.arup_sync (d : Dev) (c now : Nat) :
    ((d.sync c now).vol c).arup = (d.vol c).arup.filter (fun x => decide (now < x.1)) :=
  (congrArg CoreVol.arup (d.still_sync c now) :)

/-! ### The pins' reset as the passage of cycles leaves it -/

theorem Dev.pm_foldl {α : Type} {f : Dev → α → Dev} (h : ∀ d x, (f d x).pm = d.pm) (l : List α) (d : Dev) :
    (l.foldl f d).pm = d.pm := foldl_proj f Dev.pm h l d

theorem Dev.journal_pm {d e : Dev} {c off n : Nat} {w : Bool} (h : d.journal c w off n = some e) : e.pm = d.pm := by
  unfold Dev.journal at h
  dsimp only at h
  repeat' split at h
  all_goals cases h
  all_goals rfl

@[simp] theorem Dev.tpFault_pm (d : Dev) (c b : Nat) (w : Bool) (o r s : Nat) : (d.tpFault c b w o r s).pm = d.pm := by
  unfold Dev.tpFault
  dsimp only
  rw [Dev.report_pm, Dev.hwOr_pm]
  split <;> rfl

@[simp] theorem Dev.planeWrite_pm (d : Dev) (c : Nat) (w : Bool) (off : Nat) (bs : List Byte) (aow : Nat) (v : Bool) :
    (d.planeWrite c w off bs aow v).pm = d.pm := by
  unfold Dev.planeWrite
  dsimp only
  split
  · rfl
  split
  · exact d.tpFault_pm ..
  split
  · exact d.tpFault_pm ..
  split
  · rw [Dev.journalFull, Dev.report_pm, Dev.hwOr_pm]
  · next e he =>
    rw [← Dev.journal_pm he]
    split
    · rfl
    · unfold Dev.aowStat
      split <;> rfl

@[simp] theorem Dev.doRead_pm (d : Dev) (c : Nat) (q : PRead) : (d.doRead c q).pm = d.pm := by
  unfold Dev.doRead
  dsimp only
  split <;> rfl

theorem Dev.settle_pm (d : Dev) (c now : Nat) : (d.settle c now).pm = d.pm := by
  unfold Dev.settle
  dsimp only
  rw [Dev.pm_foldl fun d e => ?_]
  · rfl
  · split <;> simp

theorem Dev.putSlot_pm (d : Dev) (c n : Nat) (bs : List Byte) : (d.putSlot c n bs).pm = d.pm := by
  unfold Dev.putSlot
  dsimp only
  split
  · exact d.tpFault_pm ..
  split
  · rfl
  rw [Dev.markFull, Dev.setCore_pm]
  split
  · exact Dev.planeWrite_pm ..
  · exact Dev.planeWrite_pm ..

theorem Dev.sync_pm (d : Dev) (c now : Nat) : (d.sync c now).pm = d.pm := by
  rw [← d.settle_pm c now]
  unfold Dev.sync
  dsimp only
  split
  · rfl
  · refine (Dev.pm_foldl (fun d x => ?_) ..).trans rfl
    unfold Dev.retryHeld
    split
    · rfl
    · split
      · rfl
      · exact (Dev.putSlot_pm ..).trans rfl

@[simp] theorem Dev.vol_reach (d : Dev) (c cyc : Nat) : (d.reach c cyc).vol = d.vol := rfl

theorem Dev.vol_brought (d : Dev) (p : At) : (d.brought p).vol = (d.landed p).vol := by
  rw [Dev.brought_eq, Dev.vol_reach]

theorem Dev.brought_pm (d : Dev) (p : At) : (d.brought p).pm = d.pm := by
  rw [Dev.brought_eq, Dev.reach, Dev.setCrew_pm, Dev.landed, Dev.sync_pm]
  exact Dev.pstoreCorr_proj Dev.pm (fun d _ => d.report_pm _) (fun _ _ _ => rfl) d ..

/-! ### A core ready for what its cycle issues -/

/-- A core brought to a schedule cycle: nothing that is due by then waits. -/
def Dev.readyAt (d : Dev) (c now : Nat) : Prop :=
  d.cameTo c now ∧ (∀ r ∈ (d.vol c).reads, now < r.at_) ∧ ∀ x ∈ (d.vol c).arup, now < x.1

theorem Dev.readyAt_of_vol {d e : Dev} (h : e.vol = d.vol) (c now : Nat) : e.readyAt c now ↔ d.readyAt c now := by
  rw [Dev.readyAt, Dev.cameTo, h]
  rfl

theorem Dev.readyAt_sync (d : Dev) (c now : Nat) : (d.sync c now).readyAt c now := by
  refine ⟨d.cameTo_sync c now, fun r hr => ?_, fun x hx => ?_⟩
  · rw [Dev.reads_sync] at hr
    simpa using (List.mem_filter.1 hr).2
  · rw [Dev.arup_sync] at hx
    simpa using (List.mem_filter.1 hx).2

theorem Dev.readyAt_brought (d : Dev) (p : At) : (d.brought p).readyAt p.core.val (d.cycleOf p) := by
  rw [Dev.readyAt_of_vol (d.vol_brought p)]
  exact Dev.readyAt_sync ..

/-! ### A command of a core that no bundle holds -/

/-- A core's volatile state beside the place of its patrol scrub. -/
def CoreVol.unscrubbed (v : CoreVol) : CoreVol := { v with scrubT := 0, scrubW := 0 }

/-- A command whose operation a core's crew executes, of a bundle of none: what it leaves of a core that is, beside the place of
its patrol scrub, the one brought to its cycle. -/
theorem exec_runOp {s : State} {i : Instr} {p : At} {w : Writes} {op : Dev → Dev} {body : Nat → Dev → Dev}
    (hexec : exec i s = s.run w op) (hop : op s.dev = s.dev.bundleOp p.core.val p.cyc body)
    (h : s.dev.runs p.core.val p.cyc = true) (hcw : w.cw = true) :
    ∃ t y, exec i s = .next t ∧ t.dev.vol = (body (s.dev.cycleOf p) y).vol ∧ t.dev.rd = (body (s.dev.cycleOf p) y).rd ∧
      (y.vol p.core.val).unscrubbed = ((s.dev.brought p).vol p.core.val).unscrubbed := by
  have hcorr : s.dev.planeView = (s.dev.pstoreCorr p.core.val p.cyc p.corr).planeView :=
    (Dev.pstoreCorr_proj Dev.planeView (fun d _ => d.planeView_report (by simp)) (fun _ _ _ => rfl) s.dev ..).symm
  have hbody : op s.dev =
      body (s.dev.cycleOf p) ((s.dev.sync p.core.val (s.dev.cycleOf p)).issued p.core.val p.cyc) := by
    exact hop.trans (if_pos h)
  refine ⟨_, (s.dev.sync p.core.val (s.dev.cycleOf p)).issued p.core.val p.cyc, hexec, ?_, ?_, ?_⟩
  · rw [← hbody]
    exact funext fun c => Dev.vol_commit _ _ _ c hcw
  · rw [← hbody]
    exact funext fun a => Dev.rd_commit ..
  · rw [Dev.vol_brought, Dev.vol_issued, Dev.landed]
    exact congrArg (fun x => x.2.2.1 p.core.val) (Dev.planeView_sync hcorr ..)

end Sys2Proof.Machine
end

section
/-! SUPPORT. The broadcast that lands in a schedule cycle (R299). -/

namespace Sys2Proof.Machine

/-! ### The broadcast of a cycle -/

theorem CoreVol.feedAt_cons {v : CoreVol} {f : Feed} {l : List Feed} {now : Nat} (h : v.bcast = f :: l) (hf : f.at_ = now) :
    v.feedAt now = f := by
  rw [CoreVol.feedAt, h, List.find?_cons_of_pos (by simpa using hf)]

theorem CoreVol.feedAt_congr {u v : CoreVol} (h : u.bcast = v.bcast) (now : Nat) : u.feedAt now = v.feedAt now := by
  rw [CoreVol.feedAt, h]
  rfl

/-! ### FEED_LAND -/

/-- The broadcast that lands where two or more feeds are due. -/
def clashFeed (now : Nat) : Feed := { at_ := now, lanes := List.replicate 128 0, scales := [0, 0, 0, 0] }

/-- What lands at a schedule cycle: the one feed that is due, or zeros for two and more. -/
def landsAt (now : Nat) : List Feed → List Feed
  | [] => []
  | [f] => [f]
  | _ => [clashFeed now]

theorem landsAt_of_two_le {now : Nat} {l : List Feed} (h : 2 ≤ l.length) : landsAt now l = [clashFeed now] := by
  match l with
  | _ :: _ :: _ => rfl

/-- A FEED_LAND takes the feeds that are due and puts what lands before the broadcasts. -/
theorem feedLand_body (c cyc : Nat) : ∃ f : Nat → Dev → Dev,
    feedLand c cyc = (fun d => d.bundleOp c cyc f) ∧ ∀ (now : Nat) (d : Dev) (due : List Feed),
      (d.vol c).feeds.filter (fun f => decide (f.at_ = now)) = due →
      ((f now d).vol c).feeds = (d.vol c).feeds.filter (fun f => decide (now < f.at_)) ∧
      ((f now d).vol c).bcast = landsAt now due ++ (d.vol c).bcast ∧
      (2 ≤ due.length → ((f now d).rd (CO_CORE_FAULT c)).getLsbD 2 = true) := by
  refine ⟨_, rfl, fun now d due hdue => ?_⟩
  dsimp only
  rw [hdue]
  match due with
  | [] =>
    rw [Dev.vol_setVol_same]
    exact ⟨rfl, rfl, fun h => absurd h (by decide)⟩
  | [f] =>
    rw [Dev.vol_setVol_same, Dev.vol_setVol_same]
    exact ⟨rfl, rfl, fun h => absurd h (by simp)⟩
  | f :: g :: l =>
    refine ⟨?_, ?_, fun _ => Dev.faultBit_coFault _ _ _ _ (by decide) (by decide)⟩
    · rw [Dev.vol_of_cw (Dev.coFault_cw ..), Dev.vol_setVol_same, Dev.vol_setVol_same]
    · rw [Dev.vol_of_cw (Dev.coFault_cw ..), Dev.vol_setVol_same, Dev.vol_setVol_same]
      rfl

/-- What FEED_LAND leaves: the feeds of later cycles, and what lands before the broadcasts of earlier ones. -/
theorem exec_feedLand {s : State} {p : At} (h : s.dev.runs p.core.val p.cyc = true) :
    let c := p.core.val
    let d := s.dev.brought p
    let now := s.dev.cycleOf p
    let due := (d.vol c).feeds.filter (fun f => decide (f.at_ = now))
    ∃ t, exec (.feedLand p.core p.cyc) s = .next t ∧
      (t.dev.vol c).feeds = (d.vol c).feeds.filter (fun f => decide (now < f.at_)) ∧
      (t.dev.vol c).bcast = landsAt now due ++ (d.vol c).bcast ∧
      (2 ≤ due.length → (t.dev.rd (CO_CORE_FAULT c)).getLsbD 2 = true) := by
  obtain ⟨body, hbody, hdo⟩ := feedLand_body p.core.val p.cyc
  obtain ⟨t, y, ht, hvol, hrd, hy⟩ := exec_runOp (p := p) (i := .feedLand p.core p.cyc) (w := { cw := true, mem := true })
    rfl (congrFun hbody _) h rfl
  generalize s.dev.brought p = d at *
  have hfeeds : (y.vol p.core.val).feeds = (d.vol p.core.val).feeds := (congrArg CoreVol.feeds hy :)
  have hbcast : (y.vol p.core.val).bcast = (d.vol p.core.val).bcast := (congrArg CoreVol.bcast hy :)
  have hdone := hdo (s.dev.cycleOf p) y _ rfl
  rw [hfeeds, hbcast] at hdone
  dsimp only
  refine ⟨t, ht, ?_⟩
  rw [hvol, hrd]
  exact hdone

end Sys2Proof.Machine

open Sys2Proof Sys2Proof.Machine

/-- Settles O20: the feeds that are due are taken, and what lands stands before the broadcasts of earlier cycles. -/
theorem feedsLand : Obligations.FeedsLand := by
  intro s core cyc p c d now due h
  obtain ⟨t, ht, hleft, hlands, hclash⟩ := exec_feedLand (p := p) h
  change _ = landsAt now due ++ (d.vol c).bcast at hlands
  refine ⟨t, ht, ?_, fun f hf => ?_, fun hl => ⟨?_, hclash hl⟩, fun hnone => ?_⟩
  · rw [hleft]
    exact List.all_eq_true.2 fun f hf => (List.mem_filter.1 hf).2
  · have hmem : f ∈ due := hf ▸ List.mem_singleton_self f
    exact CoreVol.feedAt_cons (l := (d.vol c).bcast) (by rw [hlands, hf]; rfl) (by simpa using (List.mem_filter.1 hmem).2)
  · have hclashes : landsAt now due = [clashFeed now] := landsAt_of_two_le hl
    have hfeed : (t.dev.vol c).feedAt now = clashFeed now :=
      CoreVol.feedAt_cons (l := (d.vol c).bcast) (by rw [hlands, hclashes]; rfl) rfl
    rw [hfeed]
    rfl
  · exact CoreVol.feedAt_congr (by rw [hlands, hnone]; rfl) now
end

section
/-! SUPPORT. Broadcasts of 128 bytes of the tile plane (R298): read in the cycle of their issue. -/

namespace Sys2Proof.Machine

/-! ### The read of a broadcast -/

/-- A core's volatile state with one scheduled read more. -/
def CoreVol.addRead (v : CoreVol) (q : PRead) : CoreVol := { v with reads := v.reads ++ [q] }

theorem CoreVol.calm_addRead {u v : CoreVol} (h : u.calm = v.calm) (q : PRead) : (u.addRead q).calm = (v.addRead q).calm :=
  congrArg (fun v => v.addRead q) h

/-- The read that a broadcast makes. -/
def feedReadOf (at_ land : Nat) (lanes scales : List (Option Nat)) (gated : Bool) (sec : Option SecId) : PRead :=
  { at_ := at_
    kind := if gated then .feed land (List.replicate 128 none) (List.replicate 4 none) none else .feed land lanes scales sec }

theorem Dev.accView_feedRead (d : Dev) (c at_ land : Nat) (lanes scales : List (Option Nat)) (grans banks : List Nat) (gated : Bool)
    (sec : Option SecId) {e : Ecc} (h : e.unc = none) :
    (d.feedRead c at_ land lanes scales grans banks gated sec e).accView c =
      (d.cw.cores, ((d.vol c).addRead (feedReadOf at_ land lanes scales gated sec)).calm, d.mem, d.reg.regs) := by
  obtain ⟨hopen, hview⟩ := (d.occupy c false at_ banks).readEcc_calm c false (fun g => grans.getD g 0) land h
  rw [Dev.accView_occupy] at hview
  unfold Dev.feedRead
  dsimp only
  rw [hopen, Dev.accView_setVol, Dev.cores_of_accView hview, Dev.mem_of_accView hview, Dev.regs_of_accView hview]
  exact congrArg (fun v => (_, v, _)) (CoreVol.calm_addRead (Dev.calm_of_accView hview) _)

/-! ### A read that settles alone -/

/-- Where one read is due and no write, the passage of cycles makes that read. -/
theorem Dev.settle_read {d : Dev} {c now : Nat} {q : PRead} (hw : ∀ w ∈ (d.vol c).writes, now ≤ w.at_)
    (hq : (d.vol c).reads.filter (fun x => decide (x.at_ ≤ now)) = [q]) :
    ∃ k, d.settle c now = ((d.setCore c k).setVol c ((d.vol c).settledAt now)).doRead c q := by
  unfold Dev.settle
  extract_lets v k res ups cups ws rs k' k'' v' d' evs
  have hws : ws = [] := List.filter_eq_nil_iff.2 fun w hwm => by simpa using hw w hwm
  have hevs : evs = [(2 * q.at_, none, some q)] := by
    simp only [evs, hws, show rs = [q] from hq]
    rfl
  refine ⟨k'', ?_⟩
  rw [hevs]
  rfl

/-! ### The bytes of a broadcast -/

/-- A byte that a broadcast names; zero where it names none. -/
def Dev.byteOr (d : Dev) (c : Nat) (o : Option Nat) : Nat := match o with
  | some a => ((d.planeRead c false a 1).getD 0 0).toNat
  | none => 0

/-- A broadcast read without an error. -/
theorem Dev.doRead_feed (d : Dev) (c at_ land : Nat) (lanes scales : List (Option Nat)) (sec : Option SecId) :
    d.doRead c { at_ := at_, kind := .feed land lanes scales sec } = d.setVol c { d.vol c with feeds := (d.vol c).feeds ++
      [{ at_ := land, lanes := lanes.map (d.byteOr c), scales := scales.map (d.byteOr c), sec := sec }] } := rfl

theorem memRead_eq_map (m : Mem) (a n : Nat) : memRead m a n = (List.range n).map (fun i => memGet m (a + i)) := by
  induction n generalizing a with
  | zero => rfl
  | succ n ih =>
    rw [memRead, ih, List.range_succ_eq_map, List.map_cons, List.map_map]
    exact congrArg _ (List.map_congr_left fun i _ => by simp [Nat.add_assoc, Nat.add_comm 1])

theorem Dev.bytes_eq (d : Dev) (c off n : Nat) :
    (List.range n).map (fun i => d.byteOr c (some (off + i))) = (d.planeRead c false off n).map (fun b => b.toNat) := by
  rw [Dev.planeRead, memRead_eq_map, List.map_map]
  refine List.map_congr_left fun i _ => ?_
  simp [Dev.byteOr, Dev.planeRead, memRead, planeAt, Nat.add_assoc]

/-- The broadcast that a read without an error delivers. -/
def Dev.feedOf (d : Dev) (c land : Nat) (lanes scales : List (Option Nat)) (gated : Bool) (sec : Option SecId) : Feed :=
  if gated then
    { at_ := land, lanes := (List.replicate 128 none).map (d.byteOr c), scales := (List.replicate 4 none).map (d.byteOr c)
      sec := none }
  else { at_ := land, lanes := lanes.map (d.byteOr c), scales := scales.map (d.byteOr c), sec := sec }

theorem Dev.feedOf_of_mem {d e : Dev} (h : e.mem = d.mem) : e.feedOf = d.feedOf := by
  unfold Dev.feedOf Dev.byteOr Dev.planeRead
  rw [h]

theorem Dev.doRead_feedReadOf (d : Dev) (c at_ land : Nat) (lanes scales : List (Option Nat)) (gated : Bool) (sec : Option SecId) :
    d.doRead c (feedReadOf at_ land lanes scales gated sec) = d.setVol c { d.vol c with feeds := (d.vol c).feeds ++
      [d.feedOf c land lanes scales gated sec] } := by
  cases gated <;> rfl

/-- The broadcast of 128 bytes with its scale bytes, as its read delivers it. -/
theorem Dev.bytesFeed_eq (d : Dev) (c land off sc : Nat) (mx gated : Bool) (sec : Option SecId) :
    d.bytesFeed c land off sc mx gated sec = d.feedOf c land ((List.range 128).map (fun i => some (off + i)))
      (((List.range 4).map (fun i => sc + i)).map (fun a => if mx then some a else none)) gated sec := by
  unfold Dev.bytesFeed Dev.feedOf
  rw [← d.bytes_eq, ← d.bytes_eq]
  simp only [List.map_map, List.map_replicate]
  cases gated <;> cases mx <;> rfl

/-- A broadcast's read, issued in the cycle in which it is made: what the core's passage to that cycle leaves. -/
theorem Dev.sync_feedRead {d y : Dev} {c now land : Nat} {lanes scales : List (Option Nat)} {gated : Bool} {sec : Option SecId}
    (hready : d.readyAt c now)
    (hy : (y.vol c).calm = ((d.vol c).addRead (feedReadOf now land lanes scales gated sec)).calm) (hm : y.mem = d.mem) :
    ((y.sync c now).vol c).feeds = (d.vol c).feeds ++ [d.feedOf c land lanes scales gated sec] ∧
    ((y.sync c now).vol c).arup = (d.vol c).arup ∧ (y.sync c now).mem = d.mem := by
  obtain ⟨⟨hwrites, hretry⟩, hreads, harup⟩ := hready
  have hyw : (y.vol c).writes = (d.vol c).writes := (congrArg CoreVol.writes hy :)
  have hyt : (y.vol c).retry = (d.vol c).retry := (congrArg CoreVol.retry hy :)
  have hyr : (y.vol c).reads = (d.vol c).reads ++ [feedReadOf now land lanes scales gated sec] := (congrArg CoreVol.reads hy :)
  have hya : (y.vol c).arup = (d.vol c).arup := (congrArg CoreVol.arup hy :)
  have hyf : (y.vol c).feeds = (d.vol c).feeds := (congrArg CoreVol.feeds hy :)
  have hcame : y.cameTo c now := ⟨fun w hw => hwrites w (hyw ▸ hw), fun x hx => hretry x (hyt ▸ hx)⟩
  have hq : (y.vol c).reads.filter (fun x => decide (x.at_ ≤ now)) = [feedReadOf now land lanes scales gated sec] := by
    rw [hyr, List.filter_append, List.filter_eq_nil_iff.2 fun r hr => by simpa using hreads r hr]
    simp [feedReadOf]
  obtain ⟨k, hsettle⟩ := Dev.settle_read hcame.1 hq
  rw [Dev.sync_of_cameTo hcame, hsettle, Dev.doRead_feedReadOf, Dev.vol_setVol_same, Dev.vol_setVol_same]
  refine ⟨?_, ?_, hm⟩
  · rw [← Dev.feedOf_of_mem (e := (y.setCore c k).setVol c ((y.vol c).settledAt now)) hm, ← hyf]
    rfl
  · rw [← hya]
    exact List.filter_eq_self.2 fun x hx => by simpa using harup x (hya ▸ hx)

/-! ### The two feeds -/

/-- What a broadcast of 128 bytes leaves: it is read in the cycle of its issue. -/
theorem Dev.feed128_on {d : Dev} {c now off sc : Nat} {mx : Bool} (gated : Bool) (sec : Option SecId) {e : Ecc} (he : e.unc = none)
    (hready : d.readyAt c now) (hoff : d.spanOk c false off 128) (hsc : mx = true → d.spanOk c false sc 4) :
    ((d.feed128 c now off sc mx gated sec e).vol c).feeds = (d.vol c).feeds ++
      [d.bytesFeed c (now + 8) off sc mx gated sec] ∧
    ((d.feed128 c now off sc mx gated sec e).vol c).arup = (d.vol c).arup ∧ (d.feed128 c now off sc mx gated sec e).mem = d.mem := by
  obtain ⟨hfit, hon⟩ := hoff
  unfold Dev.feed128
  rw [if_neg (not_or.2 ⟨not_lt.2 hfit, fun h => absurd (hsc h.1).1 (not_le.2 h.2)⟩),
    if_neg (not_or.2 ⟨ne_false_of_eq_true hon, fun h => absurd (hsc h.1).2 (ne_true_of_eq_false h.2)⟩), Dev.bytesFeed_eq]
  extract_lets scs grans lanes scales
  have hview := d.accView_feedRead c now (now + 8) lanes scales grans (grans.map (fun g => tileBank (g / 16))) gated sec he
  exact Dev.sync_feedRead hready (congrArg (fun x => x.2.1) hview) (congrArg (fun x => x.2.2.1) hview)

section
variable {d : Dev} {c now : Nat} (base n r : Nat) (inc : Bool)

theorem Dev.feeds_arStep (d : Dev) (c now : Nat) : ((d.arStep c now base n r inc).vol c).feeds = (d.vol c).feeds :=
  congrArg (fun x => x.2.1.feeds) (d.accView_arStep c now base n r inc)

theorem Dev.spanOk_arStep {w : Bool} {off m : Nat} (h : d.spanOk c w off m) :
    (d.arStep c now base n r inc).spanOk c w off m := by
  rw [Dev.spanOk, Dev.poweredAll, Dev.rd_of_regs (d.regs_arStep c now base n r inc)]
  exact h

/-- A register's value comes with the next cycle. -/
theorem Dev.readyAt_arStep (h : d.readyAt c now) : (d.arStep c now base n r inc).readyAt c now := by
  obtain ⟨⟨hwrites, hretry⟩, hreads, harup⟩ := h
  have hcalm := congrArg (fun x => x.2.1) (d.accView_arStep c now base n r inc)
  have hyw : ((d.arStep c now base n r inc).vol c).writes = (d.vol c).writes := d.writes_arStep ..
  have hyt : ((d.arStep c now base n r inc).vol c).retry = (d.vol c).retry := (congrArg CoreVol.retry hcalm :)
  have hyr : ((d.arStep c now base n r inc).vol c).reads = (d.vol c).reads := (congrArg CoreVol.reads hcalm :)
  refine ⟨⟨hyw ▸ hwrites, hyt ▸ hretry⟩, hyr ▸ hreads, fun x hx => ?_⟩
  rw [Dev.arup_arStep, List.mem_append] at hx
  obtain hx | hx := hx
  · exact harup x hx
  · unfold arUps at hx
    split at hx
    · rw [List.mem_singleton.1 hx]
      exact Nat.lt_succ_self now
    · cases hx
end

section
variable (c cyc r span base entry stride ch : Nat) (estep inc mx bound : Bool) (ctx : Nat) {e : Ecc} (he : e.unc = none)
include he

theorem feedDir_body : ∃ f : Nat → Dev → Dev,
    feedDir c cyc r base entry stride ch estep mx bound ctx e = (fun d => d.bundleOp c cyc f) ∧
    ∀ (now o : Nat) (d : Dev),
      let i := if estep then entry + r else entry
      let off := o + i * (16 * stride) + 128 * ch
      let sc := o + i * (16 * stride) + mxElems (16 * stride) + 4 * ch
      d.readyAt c now → localOff false ((d.core c).addr base 0 false) = some o → d.spanOk c false off 128 →
      (mx = true → d.spanOk c false sc 4) →
      ((f now d).vol c).feeds = (d.vol c).feeds ++
        [d.bytesFeed c (now + 8) off sc mx ((d.core c).feedOff bound ctx i) ((d.core c).secOf ctx)] ∧ (f now d).mem = d.mem := by
  refine ⟨_, rfl, ?_⟩
  intro now o d i off sc hready ho hoff hsc
  dsimp only
  rw [ho]
  obtain ⟨hfeeds, -, hmem⟩ :=
    Dev.feed128_on ((d.core c).feedOff bound ctx i) ((d.core c).secOf ctx) he hready hoff hsc
  exact ⟨hfeeds, hmem⟩

theorem feedLin_body : ∃ f : Nat → Dev → Dev,
    feedLin c cyc r span base inc mx bound ctx e = (fun d => d.bundleOp c cyc f) ∧
    ∀ (now o : Nat) (d : Dev),
      d.readyAt c now → localOff false ((d.core c).addr base r inc) = some o → d.spanOk c false o 128 →
      (mx = true → d.spanOk c false (o + 128) 4) →
      ((f now d).vol c).feeds = (d.vol c).feeds ++
        [d.bytesFeed c (now + 8) o (o + 128) mx ((d.core c).feedOff bound ctx 0) ((d.core c).secOf ctx)] ∧
      ((f now d).vol c).arup = (d.vol c).arup ++ arUps d c now base span r inc ∧ (f now d).mem = d.mem := by
  refine ⟨_, rfl, fun now o d hready ho hoff hsc => ?_⟩
  dsimp only
  rw [ho]
  obtain ⟨hfeeds, harup, hmem⟩ := Dev.feed128_on ((d.core c).feedOff bound ctx 0) ((d.core c).secOf ctx) he
    (Dev.readyAt_arStep base span r inc hready) (Dev.spanOk_arStep base span r inc hoff)
    fun h => Dev.spanOk_arStep base span r inc (hsc h)
  refine ⟨hfeeds.trans ?_, harup.trans (d.arup_arStep ..), hmem.trans (d.mem_arStep ..)⟩
  rw [Dev.feeds_arStep, Dev.bytesFeed_eq, Dev.bytesFeed_eq, Dev.feedOf_of_mem (d.mem_arStep ..)]
end

/-! ### The instructions -/

section
variable {s : State} {p : At} {g : Gate} {r : BitVec 4} {base : BitVec 5} {entry : BitVec 7} {stride : BitVec 12}
  {chunk : BitVec 6} {estep inc mx : Bool} {ecc : Ecc} {o : Nat}

theorem exec_feedDir (he : ecc.unc = none) (h : s.dev.executes (.feedDir p g r base entry stride chunk estep mx ecc) = true) :
    let c := p.core.val
    let d := s.dev.brought p
    let k := d.core c
    let i := if estep then entry.toNat + r.toNat else entry.toNat
    let row := o + i * (16 * stride.toNat)
    let off := row + 128 * chunk.toNat
    let sc := row + mxElems (16 * stride.toNat) + 4 * chunk.toNat
    localOff false (k.addr base.toNat 0 false) = some o → d.spanOk c false off 128 → (mx = true → d.spanOk c false sc 4) →
    ∃ t, exec (.feedDir p g r base entry stride chunk estep mx ecc) s = .next t ∧
      (t.dev.vol c).feeds = (d.vol c).feeds ++
        [d.bytesFeed c (s.dev.cycleOf p + 8) off sc mx (k.feedOff g.bound g.ctxFeed.toNat i) (k.secOf g.ctxFeed.toNat)] ∧
      t.dev.mem = d.mem := by
  obtain ⟨body, hbody, hdo⟩ := feedDir_body p.core.val p.cyc r.toNat base.toNat entry.toNat stride.toNat chunk.toNat estep mx
    g.bound g.ctxFeed.toNat he
  obtain ⟨t, ht, -, hvol, hmem, -⟩ := exec_bundleOp_of_eq (p := p) (w := { cw := true, mem := true }) rfl rfl hbody h rfl rfl
  have hready := s.dev.readyAt_brought p
  generalize s.dev.brought p = d at *
  dsimp only
  intro ho hoff hsc
  refine ⟨t, ht, ?_⟩
  rw [hvol, hmem]
  exact hdo _ o (d.opAt p) hready ho hoff hsc

theorem exec_feedLin (he : ecc.unc = none) (h : s.dev.executes (.feedLin p g r base inc mx ecc) = true) :
    let c := p.core.val
    let d := s.dev.brought p
    let now := s.dev.cycleOf p
    let k := d.core c
    localOff false (k.addr base.toNat r.toNat inc) = some o → d.spanOk c false o 128 →
    (mx = true → d.spanOk c false (o + 128) 4) →
    ∃ t, exec (.feedLin p g r base inc mx ecc) s = .next t ∧
      (t.dev.vol c).feeds = (d.vol c).feeds ++
        [d.bytesFeed c (now + 8) o (o + 128) mx (k.feedOff g.bound g.ctxFeed.toNat 0) (k.secOf g.ctxFeed.toNat)] ∧
      (t.dev.vol c).arup = (d.vol c).arup ++ arUps d c now base.toNat g.span r.toNat inc ∧ t.dev.mem = d.mem := by
  obtain ⟨body, hbody, hdo⟩ :=
    feedLin_body p.core.val p.cyc r.toNat g.span base.toNat inc mx g.bound g.ctxFeed.toNat he
  obtain ⟨t, ht, -, hvol, hmem, -⟩ := exec_bundleOp_of_eq (p := p) (w := { cw := true, mem := true }) rfl rfl hbody h rfl rfl
  have hready := s.dev.readyAt_brought p
  generalize s.dev.brought p = d at *
  dsimp only
  intro ho hoff hsc
  refine ⟨t, ht, ?_⟩
  rw [hvol, hmem]
  exact hdo _ o (d.opAt p) hready ho hoff hsc
end

end Sys2Proof.Machine

open Sys2Proof Sys2Proof.Machine

/-- Settles O18: a feed's read is issued in the cycle in which it is made, of a core where nothing else is due. -/
theorem directAndLinearFeeds : Obligations.DirectAndLinearFeeds := by
  intro s p g r base entry stride chunk estep inc mx ecc o c d now k i row off sc
  exact ⟨fun h he => exec_feedDir he h, fun h he => exec_feedLin he h⟩
end

section
/-! SUPPORT. A bundle that a crew cannot execute stops its program (R307, R308). -/

namespace Sys2Proof.Machine

/-! ### What a stop leaves -/

/-- What a stop leaves as it is: cores with their rings, what is on its way in them, the queues of groups, memory. -/
def Dev.unstopped (d : Dev) : SMap CoreChk × SMap CoreVol × SeqChk × Mem := (d.cw.cores, d.cw.vol, d.cw.seq, d.mem)

/-- A device as another one with a crew's program stopped. -/
def Dev.stoppedFrom (e d : Dev) (k : Nat) : Prop := (e.crew k).halted = true ∧ e.unstopped = d.unstopped

theorem Dev.unstopped_setCrew (d : Dev) (k : Nat) (x : CrewVol) : (d.setCrew k x).unstopped = d.unstopped := rfl

theorem Dev.coFault_mem (d : Dev) (c b bs cyc s : Nat) : (d.coFault c b bs cyc s).mem = d.mem := by
  unfold Dev.coFault
  dsimp only
  rw [Dev.report_mem]
  split <;> rfl

theorem Dev.unstopped_coFault (d : Dev) (c b bs cyc s : Nat) : (d.coFault c b bs cyc s).unstopped = d.unstopped := by
  rw [Dev.unstopped, Dev.coFault_cw, Dev.coFault_mem]
  rfl

theorem Dev.stoppedFrom_coFault {d e : Dev} {k : Nat} (h : e.stoppedFrom d k) (c b bs cyc s : Nat) :
    (e.coFault c b bs cyc s).stoppedFrom d k := by
  rw [Dev.stoppedFrom, Dev.unstopped_coFault, Dev.crew, Dev.coFault_cw]
  exact h

theorem Dev.unstopped_countBundles (d : Dev) (k n : Nat) : (d.countBundles k n).unstopped = d.unstopped :=
  foldl_proj (fun (e : Dev) i => e.bump (CO_CTR_BUNDLES (8 * k + i)) (n - (d.crew k).bundles)) Dev.unstopped (fun _ _ => rfl)
    (List.range 8) d

/-- A crew that runs stops, and the core's fault bit is set. -/
theorem Dev.haltAt_stops {d : Dev} {c cyc bit : Nat} (h : d.runs c cyc = true) (hb : bit < 32) :
    (d.haltAt c cyc bit).stoppedFrom d (c / 8) ∧ ((d.haltAt c cyc bit).rd (CO_CORE_FAULT c)).getLsbD bit = true := by
  unfold Dev.haltAt
  rw [if_pos h]
  refine ⟨Dev.stoppedFrom_coFault ⟨?_, ?_⟩ .., Dev.faultBit_coFault _ _ _ _ hb (by decide)⟩
  · rw [Dev.crew_setCrew_same]
  · rw [Dev.unstopped_setCrew, Dev.unstopped_countBundles, Dev.reach, Dev.unstopped_setCrew]

/-! ### An illegal bundle (R307) -/

/-- A crew that runs for one of its cores runs for its first core, and ran in each earlier cycle. -/
theorem Dev.runs_first {d : Dev} {c cyc t : Nat} (h : d.runs c cyc = true) (ht : t ≤ cyc) : d.runs (8 * (c / 8)) t = true := by
  unfold Dev.runs at h ⊢
  rw [Nat.mul_div_cancel_left _ (by decide)]
  simp only [Bool.and_eq_true, decide_eq_true_eq] at h ⊢
  obtain ⟨⟨⟨⟨⟨hcrews, hc⟩, hwaiting⟩, hhalted⟩, hroom⟩, hwait⟩ := h
  exact ⟨⟨⟨⟨⟨hcrews, by omega⟩, hwaiting⟩, hhalted⟩, by omega⟩, hwait⟩

/-- A fault raised at several cores sets the bit of each, and leaves it where it is set. -/
theorem Dev.faultBit_foldl_coFault {b s : Nat} (hb : b < 32) (hs : s < 0x30) (base bs cyc e : Nat) (l : List Nat) (d : Dev)
    (h : (d.rd (CO_CORE_FAULT e)).getLsbD b = true ∨ ∃ i ∈ l, e = base + i) :
    ((l.foldl (fun d i => d.coFault (base + i) b bs cyc s) d).rd (CO_CORE_FAULT e)).getLsbD b = true := by
  induction l generalizing d with
  | nil => simpa using h
  | cons i l ih =>
    refine ih _ ?_
    by_cases hi : e = base + i
    · exact .inl (hi ▸ Dev.faultBit_coFault _ _ _ _ hb hs)
    · rw [Dev.rd_coFault_ne _ _ _ _ hs hi]
      exact h.imp_right fun ⟨j, hj, he⟩ => ⟨j, (List.mem_cons.1 hj).resolve_left fun hji => hi (hji ▸ he), he⟩

/-- An illegal bundle stops the crew, and BUNDLE_ILLEGAL is set at each of its cores. -/
theorem Dev.bundleIllegal_stops {d : Dev} {c cyc t : Nat} (h : d.runs c cyc = true) (ht : t ≤ cyc) :
    (d.bundleIllegal (c / 8) t).stoppedFrom d (c / 8) ∧
      ((d.bundleIllegal (c / 8) t).rd (CO_CORE_FAULT c)).getLsbD 1 = true := by
  have hruns := Dev.runs_first h ht
  obtain ⟨hstop, hbit⟩ := Dev.haltAt_stops (bit := 1) hruns (by decide)
  rw [Nat.mul_div_cancel_left _ (by decide)] at hstop
  unfold Dev.bundleIllegal
  rw [if_pos hruns]
  refine ⟨List.foldlRecOn (motive := fun e : Dev => e.stoppedFrom d (c / 8)) _ _ hstop fun e he i _ =>
    Dev.stoppedFrom_coFault he .., Dev.faultBit_foldl_coFault (by decide) (by decide) (8 * (c / 8) + 1) 7 t c _ _ ?_⟩
  by_cases hc : c = 8 * (c / 8)
  · rw [← hc] at hbit ⊢
    exact .inl hbit
  · exact .inr ⟨c - (8 * (c / 8) + 1), List.mem_range.2 (by omega), by omega⟩

/-! ### The commands -/

/-- Every core instruction's command carries out its bundle's fetch, and commits cores and crews. -/
theorem exec_coreOp_cw {i : Instr} {o : CoreOp} (ho : i.coreOp = some o) (s : State) :
    ∃ w f, exec i s = s.coreRun i w f ∧ w.cw = true := by
  cases i
  case turn | release | digopen | digclose => exact ⟨_, _, rfl, rfl⟩
  case merge | desc | get | putc | putr | drain => exact ⟨_, _, rfl, rfl⟩
  case wave | fill | wake | split | wb | wbr | job => exact ⟨_, _, rfl, rfl⟩
  case lda | lds | adda | setr | win | feedMap | feedDir | feedLin => exact ⟨_, _, rfl, rfl⟩
  case add | sub | mul | and | or | xor | shl | shrl | shra | cmp | sel | fadd | fsub | fmul | fma | fmin | fmax | fcmp
      | cvt | unpk | mxb | fn | red | vld | vst | vgath | vscat | bcast | lane | coreid =>
    exact ⟨_, _, rfl, rfl⟩
  all_goals cases ho

/-- What the obligation calls a stop: the command leaves the crew's program stopped, the bit set and all else as it was. -/
def stopsWith (s : State) (i : Instr) (c bit : Nat) : Prop :=
  ∃ t, exec i s = .next t ∧ (t.dev.crew (c / 8)).halted = true ∧ (t.dev.rd (CO_CORE_FAULT c)).getLsbD bit = true ∧
    t.dev.cw.cores = s.dev.cw.cores ∧ t.dev.cw.vol = s.dev.cw.vol ∧ t.dev.cw.seq = s.dev.cw.seq ∧ t.dev.mem = s.dev.mem

/-- A command stops its crew where the fetch of its bundle does. -/
theorem stopsWith_of_coreStep {s : State} {i : Instr} {o : CoreOp} {c bit : Nat} {e d : Dev} (ho : i.coreOp = some o)
    (hstep : ∀ f, s.dev.coreStep i f = e) (hd : d.unstopped = s.dev.unstopped)
    (hstop : e.stoppedFrom d (c / 8) ∧ (e.rd (CO_CORE_FAULT c)).getLsbD bit = true) : stopsWith s i c bit := by
  obtain ⟨w, f, hexec, hcw⟩ := exec_coreOp_cw ho s
  obtain ⟨⟨hhalted, hkept⟩, hbit⟩ := hstop
  have hkept := hkept.trans hd
  simp only [Dev.unstopped, Prod.mk.injEq] at hkept
  obtain ⟨hcores, hvol, hseq, hmem⟩ := hkept
  have hcwe : (s.dev.commit w e).cw = e.cw := by
    rw [Dev.commit_cw, hcw]
    rfl
  have hmeme : (s.dev.commit w e).mem = s.dev.mem := by
    rw [Dev.commit_mem, hmem]
    cases w.mem <;> rfl
  have hnext : exec i s = .next { s with dev := s.dev.commit w e } := by
    rw [hexec, State.coreRun, State.run, hstep]
  refine ⟨_, hnext, ?_, ?_, ?_⟩
  · exact (congrArg CrewVol.halted (Dev.crew_commit _ _ _ _ hcw)).trans hhalted
  · exact (congrArg (fun v : Word => v.getLsbD bit) (Dev.rd_commit ..)).trans hbit
  · exact ⟨(congrArg CrewSide.cores hcwe).trans hcores, (congrArg CrewSide.vol hcwe).trans hvol,
      (congrArg CrewSide.seq hcwe).trans hseq, hmeme⟩

section
variable {d : Dev} {i : Instr} {o : CoreOp} {b : Nat} (ho : i.coreOp = some o) (hr : o.r ≤ o.gate.spanM1.toNat)
  (hf : d.fetched i o = some b) (f : Dev → Dev)
include ho hr hf

theorem Dev.coreStep_badBefore {t : Nat} (hbad : d.badBefore (o.loc.core.val / 8) o.loc.cyc = some t) :
    d.coreStep i f = d.bundleIllegal (o.loc.core.val / 8) t := by
  unfold Dev.coreStep
  rw [ho]
  dsimp only
  rw [if_neg (not_lt.2 hr), hf]
  dsimp only
  rw [hbad]

theorem Dev.coreStep_unc (hbad : d.badBefore (o.loc.core.val / 8) o.loc.cyc = none) (hunc : o.loc.unc = true) :
    d.coreStep i f = (d.pstoreCorr o.loc.core.val o.loc.cyc o.loc.corr).haltAt o.loc.core.val o.loc.cyc 0 := by
  unfold Dev.coreStep
  rw [ho]
  dsimp only
  rw [if_neg (not_lt.2 hr), hf]
  dsimp only
  rw [hbad]
  exact if_pos hunc

theorem Dev.coreStep_illegal (hbad : d.badBefore (o.loc.core.val / 8) o.loc.cyc = none) (hunc : o.loc.unc = false)
    (hfits : d.bundleFits (o.loc.core.val / 8) (bundlesOf (d.prog (o.loc.core.val / 8))) b = false) :
    d.coreStep i f =
      (d.pstoreCorr o.loc.core.val o.loc.cyc o.loc.corr).bundleIllegal (o.loc.core.val / 8) o.loc.cyc := by
  unfold Dev.coreStep
  rw [ho]
  dsimp only
  rw [if_neg (not_lt.2 hr), hf]
  dsimp only
  rw [hbad]
  dsimp only
  rw [hfits, hunc]
  rfl
end

theorem Dev.unstopped_pstoreCorr (d : Dev) (c cyc n : Nat) : (d.pstoreCorr c cyc n).unstopped = d.unstopped := by
  rw [Dev.unstopped, Dev.pstoreCorr_cw, Dev.pstoreCorr_mem]
  rfl

/-- The bundle that stops a crew before a cycle begins before it. -/
theorem Dev.badBefore_lt {d : Dev} {k cyc t : Nat} (h : d.badBefore k cyc = some t) : t < cyc := by
  unfold Dev.badBefore at h
  simpa using (Option.filter_eq_some_iff.1 h).2

end Sys2Proof.Machine

open Sys2Proof Sys2Proof.Machine

/-- Settles O11: whatever of the three the fetch of the bundle meets, the crew stops before the operation. -/
theorem malformedBundleHalts : Obligations.MalformedBundleHalts := by
  intro i o s b ho hr c k stops hf hruns
  have hruns' : (s.dev.pstoreCorr c o.loc.cyc o.loc.corr).runs c o.loc.cyc = true :=
    (Dev.runs_pstoreCorr ..).trans hruns
  refine ⟨fun hbad => ⟨fun hunc => ?_, fun hunc hfits => ?_⟩, fun hbad => ?_⟩
  · exact stopsWith_of_coreStep ho (fun f => Dev.coreStep_unc ho hr hf f hbad hunc) (Dev.unstopped_pstoreCorr ..)
      (Dev.haltAt_stops hruns' (by decide))
  · exact stopsWith_of_coreStep ho (fun f => Dev.coreStep_illegal ho hr hf f hbad hunc hfits) (Dev.unstopped_pstoreCorr ..)
      (Dev.bundleIllegal_stops hruns' le_rfl)
  · obtain ⟨t, ht⟩ := Option.ne_none_iff_exists'.1 hbad
    exact stopsWith_of_coreStep ho (fun f => Dev.coreStep_badBefore ho hr hf f ht) rfl
      (Dev.bundleIllegal_stops hruns (Dev.badBefore_lt ht).le)
end

section
/-! SUPPORT. The targets of the matrix arrays: jobs, splits and activity (R140, R143, R295, R296). -/

namespace Sys2Proof.Machine

/-! ### Targets of one array -/

theorem arrays_two_pow : ∀ arr < 4, (List.range 4).filter (fun a => bitOf (2 ^ arr) a) = [arr] := by decide

theorem CoreChk.targets_two_pow (k : CoreChk) {arr : Nat} (h : arr < 4) (half : Nat) : k.targets (2 ^ arr) half =
    if k.isSplit arr then (if half = 0 then [(arr, some 1), (arr, some 2)] else [(arr, some half)])
    else [(arr, if half = 0 then some 0 else none)] := by
  rw [CoreChk.targets, arrays_two_pow arr h, List.flatMap_singleton]

/-- Of one array, either every target is there or none is. -/
theorem CoreChk.targets_two_pow_none (k : CoreChk) {arr half : Nat} (h : arr < 4) {x y : Nat × Option Nat}
    (hx : x ∈ k.targets (2 ^ arr) half) (hy : y ∈ k.targets (2 ^ arr) half) (hnone : x.2 = none) : y.2 = none := by
  rw [k.targets_two_pow h] at hx hy
  split at hx
  · split at hx
    all_goals simp only [List.mem_cons, List.not_mem_nil, or_false] at hx
    · obtain rfl | rfl := hx <;> cases hnone
    · cases hx
      cases hnone
  · rw [if_neg ‹_›] at hy
    rw [List.mem_singleton.1 hy, ← List.mem_singleton.1 hx]
    exact hnone

/-! ### JOB -/

/-- A core with a new pending job of a target. -/
def CoreChk.addJob (k : CoreChk) (i : Nat) (j : Job) : CoreChk :=
  { k.setTgt i { k.tgt i with pend := some j } with jobs := k.jobs + 1 }

/-- A new pending job of a target. -/
def Dev.addJob (d : Dev) (c a w no i : Nat) : Dev :=
  d.setCore c ((d.core c).addJob i { no := no, id := (d.core c).jobs, a := a, w := w })

/-- Whether a target's pending job has a number and formats and an identity from `lo` on. -/
def CoreChk.hasJob (k : CoreChk) (a w no lo n : Nat) : Prop :=
  ∃ j, (k.tgt n).pend = some j ∧ j.no = no ∧ j.a = a ∧ j.w = w ∧ lo ≤ j.id ∧ j.id < k.jobs

theorem CoreChk.tgt_of_tgts {k m : CoreChk} (h : k.tgts = m.tgts) (n : Nat) : k.tgt n = m.tgt n :=
  congrArg (fun t => smGet (fun _ => ({} : Tgt)) t n) h

theorem CoreChk.tgts_addJob (k : CoreChk) (i : Nat) (j : Job) :
    (k.addJob i j).tgts = (k.setTgt i { k.tgt i with pend := some j }).tgts := rfl

section
variable (d : Dev) (c a w no i : Nat)

theorem Dev.jobs_addJob : ((d.addJob c a w no i).core c).jobs = (d.core c).jobs + 1 := by
  rw [Dev.addJob, Dev.core_setCore_same]
  rfl

theorem Dev.tgt_addJob_same : ((d.addJob c a w no i).core c).tgt i =
    { (d.core c).tgt i with pend := some { no := no, id := (d.core c).jobs, a := a, w := w } } := by
  rw [Dev.addJob, Dev.core_setCore_same, CoreChk.tgt_of_tgts (CoreChk.tgts_addJob ..), CoreChk.tgt_setTgt_same]

theorem Dev.tgt_addJob_ne {n : Nat} (h : n ≠ i) : ((d.addJob c a w no i).core c).tgt n = (d.core c).tgt n := by
  rw [Dev.addJob, Dev.core_setCore_same, CoreChk.tgt_of_tgts (CoreChk.tgts_addJob ..), CoreChk.tgt_setTgt_ne _ _ h]

variable {d} {lo : Nat}

theorem Dev.hasJob_addJob_same (h : lo ≤ (d.core c).jobs) : ((d.addJob c a w no i).core c).hasJob a w no lo i :=
  ⟨_, congrArg Tgt.pend (d.tgt_addJob_same ..), rfl, rfl, rfl, h, by rw [Dev.jobs_addJob]; exact Nat.lt_succ_self _⟩

theorem Dev.hasJob_addJob {n : Nat} (h : lo ≤ (d.core c).jobs) (hn : (d.core c).hasJob a w no lo n) :
    ((d.addJob c a w no i).core c).hasJob a w no lo n := by
  by_cases hni : n = i
  · exact hni ▸ Dev.hasJob_addJob_same c a w no i h
  · obtain ⟨j, hj, hno, ha, hw, hlo, hid⟩ := hn
    exact ⟨j, (congrArg Tgt.pend (d.tgt_addJob_ne c a w no i hni)).trans hj, hno, ha, hw, hlo, by rw [Dev.jobs_addJob]; omega⟩

/-- Every target of a list gets its job. -/
theorem Dev.hasJob_foldl (l : List Nat) (h : lo ≤ (d.core c).jobs) :
    ∀ n, n ∈ l ∨ (d.core c).hasJob a w no lo n →
      ((l.foldl (fun d i => d.addJob c a w no i) d).core c).hasJob a w no lo n := by
  induction l generalizing d with
  | nil => simp
  | cons i l ih =>
    intro n hn
    refine ih (by rw [Dev.jobs_addJob]; omega) n ?_
    obtain hn | hn := hn
    · obtain rfl | hn := List.mem_cons.1 hn
      · exact .inr (Dev.hasJob_addJob_same c a w no n h)
      · exact .inl hn
    · exact .inr (Dev.hasJob_addJob c a w no i h hn)
end

/-- A JOB of legal formats: every target has its job, or ARRAY_STATE is set. -/
theorem jobOp_body (c cyc arr half no : Nat) {a w : Nat} (ha : a < 10) (hw : w < 10) : ∃ f : Nat → Dev → Dev,
    jobOp c cyc arr half a w no = (fun d => d.bundleOp c cyc f) ∧ ∀ (now : Nat) (d : Dev),
      ((∀ x ∈ (d.core c).targets (2 ^ arr) half, x.2 ≠ none) → ∀ x ∈ (d.core c).targets (2 ^ arr) half, ∀ h, x.2 = some h →
        ((f now d).core c).hasJob a w no (d.core c).jobs (tgtNo x.1 h)) ∧
      ((∃ x ∈ (d.core c).targets (2 ^ arr) half, x.2 = none) → ((f now d).rd (CO_CORE_FAULT c)).getLsbD 3 = true) := by
  refine ⟨_, rfl, fun now d => ?_⟩
  dsimp only
  rw [if_neg (by omega)]
  refine ⟨fun hall x hx h hh => ?_, fun ⟨x, hx, hnone⟩ => ?_⟩
  · rw [if_neg]
    · have hlist := Dev.hasJob_foldl (d := d) c a w no
        (((d.core c).targets (2 ^ arr) half).map (fun t => tgtNo t.1 (t.2.getD 0))) le_rfl (tgtNo x.1 h)
        (.inl (List.mem_map.2 ⟨x, hx, by rw [hh]; rfl⟩))
      rw [List.foldl_map] at hlist
      exact hlist
    · rintro hany
      obtain ⟨y, hy, hnone⟩ := List.any_eq_true.1 hany
      exact hall y hy (Option.isNone_iff_eq_none.1 hnone)
  · rw [if_pos (List.any_eq_true.2 ⟨x, hx, by rw [hnone]; rfl⟩)]
    exact Dev.faultBit_coFault _ _ _ _ (by decide) (by decide)

/-! ### SPLIT -/

theorem smGet_foldl_smSet {β : Type} [DecidableEq β] (z : Nat → β) (f : Nat → β) (l : List Nat) (m : SMap β) {n : Nat}
    (h : n ∈ l ∨ smGet z m n = f n) : smGet z (l.foldl (fun m i => smSet z m i (f i)) m) n = f n := by
  induction l generalizing m with
  | nil => simpa using h
  | cons i l ih =>
    refine ih _ ?_
    by_cases hi : n = i
    · exact .inr (hi ▸ smGet_smSet_same ..)
    · rw [smGet_smSet_ne _ _ _ hi]
      exact h.imp_left fun h => (List.mem_cons.1 h).resolve_left hi

/-- A SPLIT of arrays that are idle makes each of them split or whole. -/
theorem splitOp_body (c cyc arrays value : Nat) : ∃ f : Nat → Dev → Dev,
    splitOp c cyc arrays value = (fun d => d.bundleOp c cyc f) ∧ ∀ (now : Nat) (d : Dev),
      (∀ n < 4, bitOf arrays n = true → ((d.core c).tgt (2 * n)).run = none ∧ ((d.core c).tgt (2 * n)).pend = none ∧
        ((d.core c).tgt (2 * n + 1)).run = none ∧ ((d.core c).tgt (2 * n + 1)).pend = none ∧
        ∀ w ∈ (d.vol c).waves, w.arr = n ∨ w.arr = 4 → w.due ≤ now) →
      ∀ n < 4, bitOf arrays n = true → ((f now d).core c).isSplit n = bitOf value n := by
  refine ⟨_, rfl, fun now d hidle n hn hnamed => ?_⟩
  dsimp only
  rw [if_pos]
  · rw [Dev.core_setCore_same]
    exact smGet_foldl_smSet _ _ _ _ (.inl (List.mem_filter.2 ⟨List.mem_range.2 hn, hnamed⟩))
  · refine List.all_eq_true.2 fun i hi => ?_
    obtain ⟨hlt, hbit⟩ := List.mem_filter.1 hi
    obtain ⟨hr0, hp0, hr1, hp1, hwaves⟩ := hidle i (List.mem_range.1 hlt) hbit
    have hfly : (d.vol c).waves.any (fun w => decide (w.arr = i ∨ w.arr = 4) && decide (now < w.due)) = false := by
      refine List.any_eq_false.2 fun w hw => ?_
      simpa using hwaves w hw
    rw [hr0, hp0, hr1, hp1, hfly]
    rfl

/-! ### Activity -/

@[simp] theorem Dev.arr_setArr_same (d : Dev) (c i : Nat) (a : ArrAct) : ((d.setArr c i a).vol c).arr i = a := by
  rw [Dev.setArr, Dev.vol_setVol_same]
  exact smGet_smSet_same ..

theorem Dev.arr_setArr_ne (d : Dev) (c : Nat) {i n : Nat} (a : ArrAct) (h : n ≠ i) :
    ((d.setArr c i a).vol c).arr n = (d.vol c).arr n := by
  rw [Dev.setArr, Dev.vol_setVol_same]
  exact smGet_smSet_ne _ _ _ h

/-- The start of an array's ramp. -/
def Dev.wakeArr (d : Dev) (c now i : Nat) : Dev :=
  let a := (d.vol c).arr i
  if a.level < 8 ∧ a.rising = false then d.setArr c i { a with rising := true, stepAt := now + 32 } else d

theorem Dev.arr_wakeArr_ne (d : Dev) (c now : Nat) {i n : Nat} (h : n ≠ i) :
    ((d.wakeArr c now i).vol c).arr n = (d.vol c).arr n := by
  unfold Dev.wakeArr
  dsimp only
  split
  · exact d.arr_setArr_ne c _ h
  · rfl

theorem Dev.arr_wakeArr_congr {d e : Dev} (c now : Nat) {i : Nat} (h : (e.vol c).arr i = (d.vol c).arr i) :
    ((e.wakeArr c now i).vol c).arr i = ((d.wakeArr c now i).vol c).arr i := by
  unfold Dev.wakeArr
  rw [h]
  dsimp only
  split
  · rw [Dev.arr_setArr_same, Dev.arr_setArr_same]
  · exact h

theorem Dev.arr_foldl_wakeArr_notMem (c now : Nat) {i : Nat} (l : List Nat) (hi : i ∉ l) (d : Dev) :
    ((l.foldl (fun d i => d.wakeArr c now i) d).vol c).arr i = (d.vol c).arr i :=
  List.foldlRecOn (motive := fun e : Dev => (e.vol c).arr i = (d.vol c).arr i) l _ rfl fun e he n hn =>
    (e.arr_wakeArr_ne c now fun h => hi (by rwa [h])).trans he

/-- Of distinct arrays, each one's ramp starts from its own activity. -/
theorem Dev.arr_foldl_wakeArr (c now : Nat) {i : Nat} (l : List Nat) (hnodup : l.Nodup) (hi : i ∈ l) (d : Dev) :
    ((l.foldl (fun d i => d.wakeArr c now i) d).vol c).arr i = ((d.wakeArr c now i).vol c).arr i := by
  induction l generalizing d with
  | nil => cases hi
  | cons n l ih =>
    obtain ⟨hn, hl⟩ := List.nodup_cons.1 hnodup
    obtain rfl | hi := List.mem_cons.1 hi
    · exact Dev.arr_foldl_wakeArr_notMem c now l hn _
    · have hne : i ≠ n := fun h => hn (h ▸ hi)
      refine (ih hl hi (d.wakeArr c now n)).trans (Dev.arr_wakeArr_congr c now ?_)
      exact d.arr_wakeArr_ne c now hne

/-- A WAKE starts the ramp of every array named that is below level 8 and not rising. -/
theorem wakeOp_body (c cyc arrays : Nat) : ∃ f : Nat → Dev → Dev,
    wakeOp c cyc arrays = (fun d => d.bundleOp c cyc f) ∧ ∀ (now i : Nat) (d : Dev), i < 4 → bitOf arrays i = true →
      ((d.vol c).arr i).level < 8 → ((d.vol c).arr i).rising = false →
      ((f now d).vol c).arr i = { (d.vol c).arr i with rising := true, stepAt := now + 32 } := by
  refine ⟨_, rfl, fun now i d hi hnamed hlow hrest => ?_⟩
  refine (Dev.arr_foldl_wakeArr c now _ (List.nodup_range.filter _) (List.mem_filter.2 ⟨List.mem_range.2 hi, hnamed⟩) d).trans ?_
  unfold Dev.wakeArr
  rw [if_pos ⟨hlow, hrest⟩, Dev.arr_setArr_same]

/-! ### Ramp steps -/

/-- The ramp step of a core whose crew may run. -/
def rampStep (c i now : Nat) (d : Dev) : Dev :=
  let a := (d.vol c).arr i
  if a.rising then
    if a.stepAt ≤ now then
      if a.level + 1 ≥ 8 then d.setArr c i { a with level := 8, rising := false, last := now, counted := now }
      else d.setArr c i { a with level := a.level + 1, stepAt := a.stepAt + 32 }
    else d
  else if 0 < a.level ∧ a.last + 64 + 32 * (9 - a.level) ≤ now then
    let d := d.countDummy c i now
    d.setArr c i { (d.vol c).arr i with level := a.level - 1 }
  else d

theorem arrayRampStep_live {d : Dev} (c cyc i : Nat) (h : ¬ (d.flt.fatal ∨ d.flt.phase = .stop ∨ d.hi.maint ∨ d.pm.held)) :
    arrayRampStep c cyc i d = d.bundleOp c cyc (rampStep c i) := if_neg h

theorem Dev.level_countDummy (d : Dev) (c i now : Nat) :
    (((d.countDummy c i now).vol c).arr i).level = ((d.vol c).arr i).level := by
  unfold Dev.countDummy
  dsimp only
  split
  · rw [Dev.arr_setArr_same]
  · rfl

/-- Up by one where the step is due. -/
theorem level_rampStep_rising {d : Dev} {c i now : Nat} (hr : ((d.vol c).arr i).rising = true)
    (hdue : ((d.vol c).arr i).stepAt ≤ now) :
    (((rampStep c i now d).vol c).arr i).level = min 8 (((d.vol c).arr i).level + 1) := by
  unfold rampStep
  dsimp only
  rw [if_pos hr, if_pos hdue]
  split
  · rw [Dev.arr_setArr_same]
    exact (min_eq_left ‹_›).symm
  · rw [Dev.arr_setArr_same]
    exact (min_eq_right (show ((d.vol c).arr i).level + 1 ≤ 8 by omega)).symm

/-- Down by one after the idle cycles. -/
theorem level_rampStep_falling {d : Dev} {c i now : Nat} (hr : ((d.vol c).arr i).rising = false)
    (hpos : 0 < ((d.vol c).arr i).level)
    (hdue : ((d.vol c).arr i).last + 64 + 32 * (9 - ((d.vol c).arr i).level) ≤ now) :
    (((rampStep c i now d).vol c).arr i).level = ((d.vol c).arr i).level - 1 := by
  unfold rampStep
  dsimp only
  rw [if_neg (ne_true_of_eq_false hr), if_pos ⟨hpos, hdue⟩, Dev.arr_setArr_same]

/-- A crew that runs is live: the arrays ramp by their own steps unless the pins hold the device. -/
theorem Dev.ramps_of_runs {d : Dev} {c cyc : Nat} (h : d.runs c cyc = true) (hheld : d.pm.held = false) :
    ¬ (d.flt.fatal ∨ d.flt.phase = .stop ∨ d.hi.maint ∨ d.pm.held) := by
  have hcrews : d.crewsRun = true := by
    by_contra hno
    rw [Dev.runs_crewsRun (eq_false_of_ne_true hno)] at h
    cases h
  simp only [Dev.crewsRun, Dev.accel, Dev.live, Bool.and_eq_true, Bool.not_eq_true'] at hcrews
  obtain ⟨⟨⟨⟨⟨-, hmaint⟩, hfatal⟩, hphase⟩, -⟩, -⟩ := hcrews
  rintro (hx | hx | hx | hx)
  · exact absurd hx (ne_true_of_eq_false hfatal)
  · rw [FltSt.restarting, hx] at hphase
    cases hphase
  · exact absurd hx (ne_true_of_eq_false hmaint)
  · exact absurd hx (ne_true_of_eq_false hheld)

/-! ### The commands -/

section
variable {s : State} {p : At} {g : Gate} {array half : BitVec 2} {afmt wfmt arrays value : BitVec 4} {no : BitVec 16} {i : Nat}

theorem exec_job (ha : afmt.toNat < 10) (hw : wfmt.toNat < 10)
    (h : s.dev.executes (.job p g array half afmt wfmt no) = true) :
    let c := p.core.val
    let k := (s.dev.brought p).core c
    let ts := k.targets (2 ^ array.toNat) half.toNat
    ∃ t, exec (.job p g array half afmt wfmt no) s = .next t ∧
      ((∀ x ∈ ts, x.2 ≠ none) → ∀ x ∈ ts, ∀ h, x.2 = some h →
        (t.dev.core c).hasJob afmt.toNat wfmt.toNat no.toNat k.jobs (tgtNo x.1 h)) ∧
      ((∃ x ∈ ts, x.2 = none) → (t.dev.rd (CO_CORE_FAULT c)).getLsbD 3 = true) := by
  obtain ⟨body, hbody, hdo⟩ := jobOp_body p.core.val p.cyc array.toNat half.toNat no.toNat ha hw
  obtain ⟨t, ht, hcore, -, -, hrd⟩ := exec_bundleOp_of_eq (p := p) (w := { cw := true, mem := true }) rfl rfl hbody h rfl rfl
  generalize s.dev.brought p = d at *
  refine ⟨t, ht, ?_⟩
  rw [hcore, hrd]
  exact hdo _ (d.opAt p)

theorem exec_split (h : s.dev.executes (.split p g arrays value) = true) :
    let c := p.core.val
    let d := s.dev.brought p
    let k := d.core c
    (∀ n < 4, bitOf arrays.toNat n = true → (k.tgt (2 * n)).run = none ∧ (k.tgt (2 * n)).pend = none ∧
      (k.tgt (2 * n + 1)).run = none ∧ (k.tgt (2 * n + 1)).pend = none ∧
      ∀ w ∈ (d.vol c).waves, w.arr = n ∨ w.arr = 4 → w.due ≤ s.dev.cycleOf p) →
    ∃ t, exec (.split p g arrays value) s = .next t ∧ ∀ n < 4, bitOf arrays.toNat n = true →
      (t.dev.core c).isSplit n = bitOf value.toNat n := by
  obtain ⟨body, hbody, hdo⟩ := splitOp_body p.core.val p.cyc arrays.toNat value.toNat
  obtain ⟨t, ht, hcore, -, -, -⟩ := exec_bundleOp_of_eq (p := p) (w := { cw := true, mem := true }) rfl rfl hbody h rfl rfl
  generalize s.dev.brought p = d at *
  intro c d' k hidle
  refine ⟨t, ht, ?_⟩
  rw [hcore]
  exact hdo _ (d.opAt p) hidle

theorem exec_wake (h : s.dev.executes (.wake p g arrays) = true) (hi : i < 4) (hnamed : bitOf arrays.toNat i = true) :
    let c := p.core.val
    let a := ((s.dev.brought p).vol c).arr i
    a.level < 8 → a.rising = false →
    ∃ t, exec (.wake p g arrays) s = .next t ∧
      (t.dev.vol c).arr i = { a with rising := true, stepAt := s.dev.cycleOf p + 32 } := by
  obtain ⟨body, hbody, hdo⟩ := wakeOp_body p.core.val p.cyc arrays.toNat
  obtain ⟨t, ht, -, hvol, -, -⟩ := exec_bundleOp_of_eq (p := p) (w := { cw := true, mem := true }) rfl rfl hbody h rfl rfl
  generalize s.dev.brought p = d at *
  intro c a hlow hrest
  refine ⟨t, ht, ?_⟩
  rw [hvol]
  exact hdo _ i (d.opAt p) hi hnamed hlow hrest

theorem exec_arrayRampStep_live {i : Fin 4} (h : s.dev.runs p.core.val p.cyc = true) (hheld : s.dev.pm.held = false) :
    ∃ t y, exec (.arrayRampStep p.core p.cyc i) s = .next t ∧
      t.dev.vol = (rampStep p.core.val i.val (s.dev.cycleOf p) y).vol ∧
      (y.vol p.core.val).arr i.val = ((s.dev.brought p).vol p.core.val).arr i.val := by
  obtain ⟨t, y, ht, hvol, -, hy⟩ := exec_runOp (p := p) (i := .arrayRampStep p.core p.cyc i) (w := { cw := true, mem := true })
    rfl (arrayRampStep_live _ _ _ (Dev.ramps_of_runs h hheld)) h rfl
  generalize s.dev.brought p = d at *
  exact ⟨t, y, ht, hvol, (congrArg (fun v : CoreVol => v.arr i.val) hy :)⟩

theorem Dev.arr_brought (d : Dev) (p : At) (i : Nat) :
    ((d.brought p).vol p.core.val).arr i = (d.vol p.core.val).arr i := by
  rw [Dev.vol_brought, Dev.landed, CoreVol.arr, Dev.arrs_sync, Dev.vol, Dev.pstoreCorr_cw]
  rfl

/-- A device that the pins hold ramps down by every step. -/
theorem exec_arrayRampStep_held {i : Fin 4} (hheld : s.dev.pm.held = true) :
    ∃ t, exec (.arrayRampStep p.core p.cyc i) s = .next t ∧ ((t.dev.vol p.core.val).arr i.val).level =
      (((s.dev.brought p).vol p.core.val).arr i.val).level - 1 := by
  rw [Dev.arr_brought]
  refine ⟨_, rfl, ?_⟩
  rw [Dev.vol_commit _ _ _ _ rfl, arrayRampStep, if_pos (.inr (.inr (.inr hheld))), Dev.arr_setArr_same]

theorem exec_arrayRampStep_rising {i : Fin 4} (h : s.dev.runs p.core.val p.cyc = true) (hheld : (s.dev.brought p).pm.held = false) :
    let a := ((s.dev.brought p).vol p.core.val).arr i.val
    a.rising = true → a.stepAt ≤ s.dev.cycleOf p →
    ∃ t, exec (.arrayRampStep p.core p.cyc i) s = .next t ∧ ((t.dev.vol p.core.val).arr i.val).level = min 8 (a.level + 1) := by
  rw [Dev.brought_pm] at hheld
  obtain ⟨t, y, ht, hvol, hy⟩ := exec_arrayRampStep_live (i := i) h hheld
  rw [← hy]
  intro a hr hdue
  refine ⟨t, ht, ?_⟩
  rw [hvol]
  exact level_rampStep_rising hr hdue

theorem exec_arrayRampStep_falling {i : Fin 4} (h : s.dev.runs p.core.val p.cyc = true) :
    let a := ((s.dev.brought p).vol p.core.val).arr i.val
    a.rising = false → 0 < a.level → a.last + 64 + 32 * (9 - a.level) ≤ s.dev.cycleOf p →
    ∃ t, exec (.arrayRampStep p.core p.cyc i) s = .next t ∧ ((t.dev.vol p.core.val).arr i.val).level = a.level - 1 := by
  cases hheld : s.dev.pm.held with
  | true => exact fun _ _ _ => exec_arrayRampStep_held hheld
  | false =>
    obtain ⟨t, y, ht, hvol, hy⟩ := exec_arrayRampStep_live (i := i) h hheld
    rw [← hy]
    intro a hr hpos hdue
    refine ⟨t, ht, ?_⟩
    rw [hvol]
    exact level_rampStep_falling hr hpos hdue
end

end Sys2Proof.Machine

open Sys2Proof Sys2Proof.Machine

/-- Settles O21: JOB, SPLIT and WAKE go through the arrays that they name; a ramp step takes the one level that is due. -/
theorem arrayTargets : Obligations.ArrayTargets := by
  intro s p g array half afmt wfmt arrays value no i c d now k ts a
  refine ⟨fun h ha hw => ?_, fun h hidle => ?_, fun h hnamed => ?_, fun hheld h hr hdue => ?_, fun h hr hpos _ hdue => ?_⟩
  · obtain ⟨t, ht, hjobs, hfault⟩ := exec_job ha hw h
    refine ⟨t, ht, fun x hx n hn => ?_, hfault⟩
    refine hjobs (fun y hy hnone => ?_) x hx n hn
    rw [k.targets_two_pow_none array.isLt hy hx hnone] at hn
    cases hn
  · obtain ⟨t, ht, hsplit⟩ := exec_split h fun n hn hnamed => hidle n hn ((bitOf_toNat ..).symm.trans hnamed)
    refine ⟨t, ht, fun n hn hnamed => ?_⟩
    rw [← bitOf_toNat] at hnamed ⊢
    exact hsplit n hn hnamed
  · exact exec_wake h i.isLt ((bitOf_toNat ..).trans hnamed)
  · exact exec_arrayRampStep_rising h hheld hr hdue
  · exact exec_arrayRampStep_falling h hr hpos hdue
end

section
/-! SUPPORT. The waves that an MW slot issues (R124 to R126, R138, R294, R296). -/

namespace Sys2Proof.Machine

/-! ### Arrays at full activity -/

/-- What making arrays ready leaves, where all of them stand at level 8: cores, a core's pipelines and whether its crew runs. -/
def Dev.waveView (d : Dev) (c : Nat) : SMap CoreChk × CoreVol × (Nat → Nat → Bool) :=
  (d.cw.cores, { d.vol c with arrs := [] }, d.runs)

theorem Dev.waveView_bump (d : Dev) (c a n : Nat) : (d.bump a n).waveView c = d.waveView c := rfl

theorem Dev.waveView_setArr (d : Dev) (c i : Nat) (a : ArrAct) : (d.setArr c i a).waveView c = d.waveView c := by
  rw [Dev.setArr, Dev.waveView, Dev.vol_setVol_same]
  rfl

theorem Dev.waveView_countDummy (d : Dev) (c i now : Nat) : (d.countDummy c i now).waveView c = d.waveView c := by
  unfold Dev.countDummy
  dsimp only
  split
  · rw [Dev.waveView_setArr, Dev.waveView_bump]
  · rfl

theorem Dev.rampFreeze_of_full {d : Dev} {c now : Nat} {l : List Nat} (h : ∀ i ∈ l, ((d.vol c).arr i).level = 8) :
    d.rampFreeze c l now = d := by
  have hlow : l.filter (fun i => decide (((d.vol c).arr i).level < 8)) = [] :=
    List.filter_eq_nil_iff.2 fun i hi => by simp [h i hi]
  unfold Dev.rampFreeze
  rw [hlow]

theorem Dev.waveView_readyArrs {d : Dev} {c now : Nat} {l : List Nat} (h : ∀ i ∈ l, ((d.vol c).arr i).level = 8) :
    (d.readyArrs c l now).waveView c = d.waveView c := by
  unfold Dev.readyArrs
  rw [Dev.rampFreeze_of_full h]
  refine foldl_proj _ (fun d : Dev => d.waveView c) (fun d i => ?_) ..
  exact (Dev.waveView_setArr ..).trans (d.waveView_countDummy ..)

/-! ### An operation whose targets take it -/

theorem Dev.waveFaults_zero (d : Dev) (c : Nat) (ts : List (Nat × Nat)) : d.waveFaults c ts 0 0 = d := by
  unfold Dev.waveFaults
  have hbit : ∀ a, bitOf 0 a = false := by simp [bitOf, bits]
  simp [hbit]

/-- The targets of a WAVE: of a transposed one, every array. -/
def waveTargets (k : CoreChk) (t : Bool) (arrays half : Nat) : List (Nat × Option Nat) :=
  if t then (List.range 4).map (fun a => (a, if k.isSplit a then none else some 0)) else k.targets arrays half

/-- A WAVE without SWAP and errors after its arrays are ready. -/
def waveIssue (c now r span : Nat) (t : Bool) (ts : List (Nat × Nat)) (entry : Nat) (estep add begin_ end_ : Bool) (d : Dev) : Dev :=
  let issue := !t || decide (r % 2 = 1)
  let d := if begin_ && decide (r = 0) then ts.foldl (fun (d : Dev) x => d.beginOne c x.1 x.2 t) d else d
  let d := d.countWaves c ts issue
  let d :=
    if issue = false then d
    else if t then d.waveTrans c now (if estep then entry + r / 2 else entry) add
    else ts.foldl (fun (d : Dev) x => d.waveTarget c now x.1 x.2 (if estep then entry + r else entry) add) d
  if end_ && issue && decide (r + 1 = span) then
    ts.foldl (fun (d : Dev) x => d.modTgt c (tgtNo x.1 x.2) (fun t => { t with run := none })) d
  else d

theorem waveOp_body (c cyc r span : Nat) (t : Bool) (arrays half entry : Nat) (estep add begin_ end_ : Bool) :
    ∃ f : Nat → Dev → Dev, waveOp c cyc r span t arrays half entry estep add false begin_ end_ 0 0 =
        (fun d => d.bundleOp c cyc f) ∧
      ∀ (now : Nat) (d : Dev), d.runs c cyc = true →
        (∀ x ∈ waveTargets (d.core c) t arrays half, ((d.vol c).arr x.1).level = 8 ∧ (t && x.2.isNone) = false ∧
          (d.core c).waveCheck x.1 x.2 t (begin_ && decide (r = 0)) (decide (half = 0)) = 0) →
        ∃ y, y.waveView c = d.waveView c ∧ f now d = waveIssue c now r span t
          ((waveTargets (d.core c) t arrays half).map (fun x => (x.1, x.2.getD 0))) entry estep add begin_ end_ y := by
  refine ⟨_, rfl, fun now d hruns hok => ?_⟩
  have hchk : (waveTargets (d.core c) t arrays half).map (fun x => if t && x.2.isNone then 2
      else (d.core c).waveCheck x.1 x.2 t (begin_ && decide (r = 0)) (decide (half = 0))) =
      (waveTargets (d.core c) t arrays half).map (fun _ => 0) :=
    List.map_congr_left fun x hx => by
      obtain ⟨-, hhalf, hcheck⟩ := hok x hx
      rw [hhalf, hcheck]
      rfl
  have hnot : ∀ n, n ≠ 0 → ((waveTargets (d.core c) t arrays half).map (fun _ => 0)).contains n = false := by
    intro n hn
    simp [hn]
  have hfull : ∀ i ∈ (((waveTargets (d.core c) t arrays half).map (fun x => (x.1, x.2.getD 0))).map (fun x => x.1)).eraseDups,
      ((d.vol c).arr i).level = 8 := by
    intro i hi
    obtain ⟨y, hy, rfl⟩ := List.mem_map.1 (List.mem_eraseDups.1 hi)
    obtain ⟨x, hx, rfl⟩ := List.mem_map.1 hy
    exact (hok x hx).1
  have hview := Dev.waveView_readyArrs (now := now) hfull
  refine ⟨_, hview, ?_⟩
  have hrun : (d.readyArrs c (((waveTargets (d.core c) t arrays half).map (fun x => (x.1, x.2.getD 0))).map
      (fun x => x.1)).eraseDups now).runs c cyc = true := (congrFun (congrFun (congrArg (fun x => x.2.2) hview) c) cyc).trans hruns
  dsimp only
  rw [← waveTargets, hchk, if_neg (ne_true_of_eq_false (hnot 1 (by decide))), if_neg (ne_true_of_eq_false (hnot 2 (by decide))),
    if_neg (ne_false_of_eq_true hrun), Dev.waveFaults_zero]
  rfl

/-! ### What waves find at their targets -/

/-- A job beside its mode and the sectors recorded in it. -/
def Job.key (j : Job) : Nat × Nat × Nat × Nat := (j.no, j.id, j.a, j.w)

theorem Job.key_withSec (j : Job) (s : Option SecId) : (j.withSec s).key = j.key := by
  unfold Job.withSec
  split
  · split <;> rfl
  · rfl

theorem Job.key_feeds (j : Job) (fs : List Feed) (t : Bool) :
    ({ fs.foldl (fun j f => j.withSec f.sec) j with trans := t } : Job).key = j.key :=
  foldl_proj _ Job.key (fun j (f : Feed) => j.key_withSec f.sec) fs j

/-- A core's volatile state beside its arrays' activity and the waves in flight: the active weights and the broadcasts. -/
def CoreVol.unwaved (v : CoreVol) : CoreVol := { v with arrs := [], waves := [] }

/-- What a wave finds: pending jobs, running jobs by their keys, weights and broadcasts. -/
def Dev.pathView (d : Dev) (c : Nat) : (Nat → Option Job) × (Nat → Option (Nat × Nat × Nat × Nat)) × CoreVol :=
  (fun n => ((d.core c).tgt n).pend, fun n => ((d.core c).tgt n).run.map Job.key, (d.vol c).unwaved)

section
variable {d e : Dev} {c : Nat} (h : e.pathView c = d.pathView c)
include h

theorem Dev.pend_of_pathView (n : Nat) : ((e.core c).tgt n).pend = ((d.core c).tgt n).pend := congrArg (fun x => x.1 n) h
theorem Dev.runKey_of_pathView (n : Nat) : ((e.core c).tgt n).run.map Job.key = ((d.core c).tgt n).run.map Job.key :=
  congrArg (fun x => x.2.1 n) h
theorem Dev.unwaved_of_pathView : (e.vol c).unwaved = (d.vol c).unwaved := congrArg (fun x => x.2.2) h
end

theorem Dev.pathView_of_waveView {d e : Dev} {c : Nat} (h : e.waveView c = d.waveView c) : e.pathView c = d.pathView c := by
  have hcore : e.core c = d.core c := congrArg (fun x : SMap CoreChk × CoreVol × (Nat → Nat → Bool) => smGet core0 x.1 c) h
  have hvol : (e.vol c).unwaved = (d.vol c).unwaved := (congrArg (fun x => CoreVol.unwaved x.2.1) h :)
  rw [Dev.pathView, hcore, hvol]
  rfl

theorem Dev.pathView_countWaves (d : Dev) (c : Nat) (ts : List (Nat × Nat)) (issue : Bool) :
    (d.countWaves c ts issue).pathView c = d.pathView c := rfl

theorem Dev.core_modTgt (d : Dev) (c i : Nat) (f : Tgt → Tgt) :
    (d.modTgt c i f).core c = (d.core c).setTgt i (f ((d.core c).tgt i)) := Dev.core_setCore_same ..

theorem Dev.tgt_modTgt_same (d : Dev) (c i : Nat) (f : Tgt → Tgt) :
    ((d.modTgt c i f).core c).tgt i = f ((d.core c).tgt i) := by
  rw [Dev.core_modTgt, CoreChk.tgt_setTgt_same]

/-- A change of a target that leaves its pending job and its running job's key. -/
theorem Dev.pathView_modTgt {d : Dev} {c i : Nat} {f : Tgt → Tgt} (hp : ∀ t, (f t).pend = t.pend)
    (hr : ∀ t, (f t).run.map Job.key = t.run.map Job.key) : (d.modTgt c i f).pathView c = d.pathView c := by
  have htgt : ∀ n, (((d.modTgt c i f).core c).tgt n).pend = ((d.core c).tgt n).pend ∧
      (((d.modTgt c i f).core c).tgt n).run.map Job.key = ((d.core c).tgt n).run.map Job.key := by
    intro n
    rw [Dev.core_modTgt]
    by_cases hn : n = i
    · rw [hn, CoreChk.tgt_setTgt_same]
      exact ⟨hp _, hr _⟩
    · rw [CoreChk.tgt_setTgt_ne _ _ hn]
      exact ⟨rfl, rfl⟩
  unfold Dev.pathView
  rw [funext fun n => (htgt n).1, funext fun n => (htgt n).2, Dev.modTgt, Dev.vol_setCore]

theorem Dev.pathView_jobFeed (d : Dev) (c arr half : Nat) (t : Bool) (fs : List Feed) :
    (d.jobFeed c arr half t fs).pathView c = d.pathView c :=
  Dev.pathView_modTgt (fun _ => rfl) fun g => by
    cases g.run with
    | none => rfl
    | some j => exact congrArg some (j.key_feeds fs t)

/-! ### Forward waves -/

/-- A wave of a target as R126 has it issued, for a job and what a core holds. -/
def CoreVol.isWave (v : CoreVol) (now arr half entry : Nat) (add : Bool) (j : Job) (w : Wave) : Prop :=
  w.due = now + 200 ∧ w.arr = arr ∧ w.half = half ∧ w.entry = entry ∧ w.add = add ∧
    w.jobs.map (fun y => (y.no, y.id)) = [(j.no, j.id)] ∧
    w.vals = (jobCols j.w half).map (fun col => (col, (v.waveCol arr j (v.feedAt now) col).1))

/-- A column depends on a job by its formats alone, and on the weights and the broadcasts. -/
theorem CoreVol.waveCol_congr {u v : CoreVol} {i j : Job} (hv : u.unwaved = v.unwaved) (hkey : i.key = j.key) (now arr : Nat) :
    u.waveCol arr i (u.feedAt now) = v.waveCol arr j (v.feedAt now) := by
  obtain ⟨-, -, ha, hw⟩ : i.no = j.no ∧ i.id = j.id ∧ i.a = j.a ∧ i.w = j.w := by simpa [Job.key] using hkey
  have hcol : ∀ f, u.waveCol arr i f = v.waveCol arr j f := by
    intro f
    unfold CoreVol.waveCol
    rw [ha, hw]
    exact (congrArg (fun v : CoreVol => v.waveCol arr j f) hv :)
  have hfeed : u.feedAt now = v.feedAt now := (congrArg (fun v : CoreVol => v.feedAt now) hv :)
  rw [hcol, hfeed]

theorem CoreVol.isWave_congr {u v : CoreVol} {now arr half entry : Nat} {add : Bool} {j : Job} {w : Wave}
    (hv : u.unwaved = v.unwaved) (h : u.isWave now arr half entry add j w) : v.isWave now arr half entry add j w := by
  rw [CoreVol.isWave, ← CoreVol.waveCol_congr (i := j) hv rfl]
  exact h

/-- A wave issued to a running target: it stands behind those in flight, and changes nothing else. -/
theorem Dev.waveOne_spec {d : Dev} {c now arr half entry : Nat} {add : Bool} {i j : Job} (h : i.key = j.key) :
    (∃ w, ((d.waveOne c now arr half entry add i).vol c).waves = (d.vol c).waves ++ [w] ∧
      (d.vol c).isWave now arr half entry add j w) ∧
    (d.waveOne c now arr half entry add i).pathView c = d.pathView c := by
  have hcol := CoreVol.waveCol_congr (u := d.vol c) rfl h now arr
  obtain ⟨hno, hid, -, hw⟩ : i.no = j.no ∧ i.id = j.id ∧ i.a = j.a ∧ i.w = j.w := by simpa [Job.key] using h
  unfold Dev.waveOne
  dsimp only
  rw [Dev.vol_of_cw (Dev.maStat_cw ..), Dev.vol_setVol_same]
  refine ⟨⟨_, rfl, rfl, rfl, rfl, rfl, rfl, ?_, ?_⟩, ?_⟩
  · rw [List.map_singleton, hno, hid]
  · rw [hw, hcol, List.map_map]
    rfl
  · rw [Dev.pathView, Dev.vol_of_cw (Dev.maStat_cw ..), Dev.vol_setVol_same]
    rfl

/-- A forward wave at a target that runs a job. -/
theorem Dev.waveTarget_spec {d : Dev} {c now arr half entry : Nat} {add : Bool} {j : Job}
    (h : ((d.core c).tgt (tgtNo arr half)).run.map Job.key = some j.key) :
    (∃ w, ((d.waveTarget c now arr half entry add).vol c).waves = (d.vol c).waves ++ [w] ∧
      (d.vol c).isWave now arr half entry add j w) ∧
    (d.waveTarget c now arr half entry add).pathView c = d.pathView c := by
  have hview := d.pathView_jobFeed c arr half false [(d.vol c).feedAt now]
  have hvol : (d.jobFeed c arr half false [(d.vol c).feedAt now]).vol c = d.vol c := Dev.vol_setCore ..
  have hkey := (Dev.runKey_of_pathView hview (tgtNo arr half)).trans h
  unfold Dev.waveTarget
  dsimp only
  generalize d.jobFeed c arr half false [(d.vol c).feedAt now] = y at hview hvol hkey ⊢
  obtain ⟨i, hi, hij⟩ := Option.map_eq_some_iff.1 hkey
  rw [hi, ← hvol, ← hview]
  exact Dev.waveOne_spec hij

/-- Every target of a list that runs a job gets its wave. -/
theorem Dev.waves_foldl {c now entry : Nat} {add : Bool} (l : List (Nat × Nat)) (job : Nat → Job) {d : Dev}
    (h : ∀ x ∈ l, ((d.core c).tgt (tgtNo x.1 x.2)).run.map Job.key = some (job (tgtNo x.1 x.2)).key) :
    let e := l.foldl (fun (d : Dev) x => d.waveTarget c now x.1 x.2 entry add) d
    (∀ w ∈ (d.vol c).waves, w ∈ (e.vol c).waves) ∧
      (∀ x ∈ l, ∃ w ∈ (e.vol c).waves, (d.vol c).isWave now x.1 x.2 entry add (job (tgtNo x.1 x.2)) w) ∧
      e.pathView c = d.pathView c := by
  induction l generalizing d with
  | nil => exact ⟨fun _ hw => hw, fun x hx => absurd hx List.not_mem_nil, rfl⟩
  | cons x l ih =>
    obtain ⟨⟨w, hwaves, hw⟩, hview⟩ := Dev.waveTarget_spec (now := now) (entry := entry) (add := add) (h x List.mem_cons_self)
    obtain ⟨hkept, hall, hpath⟩ := ih (d := d.waveTarget c now x.1 x.2 entry add) fun y hy =>
      (Dev.runKey_of_pathView hview _).trans (h y (List.mem_cons_of_mem _ hy))
    rw [hwaves] at hkept
    refine ⟨fun u hu => hkept u (List.mem_append_left _ hu), fun y hy => ?_, hpath.trans hview⟩
    obtain rfl | hy := List.mem_cons.1 hy
    · exact ⟨w, hkept w (List.mem_append_right _ (List.mem_singleton_self w)), hw⟩
    · obtain ⟨u, hu, huw⟩ := hall y hy
      exact ⟨u, hu, CoreVol.isWave_congr (Dev.unwaved_of_pathView hview) huw⟩

/-! ### The three forms -/

theorem CoreChk.mem_targets {k : CoreChk} {arrays half : Nat} {x : Nat × Option Nat} (h : x ∈ k.targets arrays half) :
    x.1 < 4 ∧ bitOf arrays x.1 = true := by
  obtain ⟨a, ha, hxa⟩ := List.mem_flatMap.1 h
  obtain ⟨hlt, hbit⟩ := List.mem_filter.1 ha
  have hfst : x.1 = a := by
    split at hxa
    · split at hxa
      · obtain rfl | rfl := List.mem_pair.1 hxa
        · rfl
        · rfl
      · rw [List.mem_singleton.1 hxa]
    · rw [List.mem_singleton.1 hxa]
  exact hfst ▸ ⟨List.mem_range.1 hlt, hbit⟩

/-- A forward wave without marks: every target has its wave. -/
theorem waveIssue_forward {d : Dev} {c now r span entry : Nat} {estep add : Bool} {ts : List (Nat × Nat)} (job : Nat → Job)
    (h : ∀ x ∈ ts, ((d.core c).tgt (tgtNo x.1 x.2)).run.map Job.key = some (job (tgtNo x.1 x.2)).key) :
    ∀ x ∈ ts, ∃ w ∈ ((waveIssue c now r span false ts entry estep add false false d).vol c).waves,
      (d.vol c).isWave now x.1 x.2 (if estep then entry + r else entry) add (job (tgtNo x.1 x.2)) w := by
  obtain ⟨-, hall, -⟩ := Dev.waves_foldl (now := now) (entry := if estep then entry + r else entry) (add := add) ts job
    (d := d.countWaves c ts true) h
  exact hall

/-- END of a target, where it comes. -/
theorem Dev.ended_target {z : Dev} {c i : Nat} {b : Bool} {j : Job} (hpend : ((z.core c).tgt i).pend = none)
    (hrun : ((z.core c).tgt i).run.map Job.key = some j.key) :
    let e := if b = true then z.modTgt c i (fun t => { t with run := none }) else z
    ((e.core c).tgt i).pend = none ∧ ((e.core c).tgt i).run.map (fun x => x.no) = if b = true then none else some j.no := by
  intro e
  cases b with
  | true =>
    have htgt : (e.core c).tgt i = { (z.core c).tgt i with run := none } :=
      z.tgt_modTgt_same c i fun t => { t with run := none }
    rw [htgt]
    exact ⟨hpend, rfl⟩
  | false =>
    refine ⟨hpend, ?_⟩
    obtain ⟨x, hx, hkey⟩ := Option.map_eq_some_iff.1 hrun
    have hno : x.no = j.no := congrArg (fun k => k.1) hkey
    exact (congrArg (Option.map (fun x : Job => x.no)) hx).trans (congrArg some hno)

/-- BEGIN of one target, and END where its wave is the span's last. -/
theorem waveIssue_begin {d : Dev} {c now span entry a : Nat} {estep add end_ : Bool} {j : Job}
    (h : ((d.core c).tgt (2 * a)).pend = some j) :
    let e := waveIssue c now 0 span false [(a, 0)] entry estep add true end_ d
    ((e.core c).tgt (2 * a)).pend = none ∧
      ((e.core c).tgt (2 * a)).run.map (fun x => x.no) = if end_ = true ∧ span = 1 then none else some j.no := by
  have hbegun : ((d.beginOne c a 0 false).core c).tgt (2 * a) =
      { (d.core c).tgt (2 * a) with pend := none, run := some { j with trans := false } } := by
    rw [Dev.beginOne, show tgtNo a 0 = 2 * a from rfl, Dev.tgt_modTgt_same, h]
  obtain ⟨-, -, hview⟩ := Dev.waves_foldl (c := c) (now := now) (entry := if estep then entry + 0 else entry) (add := add) [(a, 0)]
    (fun _ => j) (d := (d.beginOne c a 0 false).countWaves c [(a, 0)] true) fun x hx => by
      rw [List.mem_singleton.1 hx]
      exact congrArg (fun t : Tgt => t.run.map Job.key) hbegun
  have hpend := (Dev.pend_of_pathView hview (2 * a)).trans (congrArg Tgt.pend hbegun)
  have hrun := (Dev.runKey_of_pathView hview (2 * a)).trans (congrArg (fun t : Tgt => t.run.map Job.key) hbegun)
  have hends : (end_ && true && decide (0 + 1 = span)) = true ↔ end_ = true ∧ span = 1 := by
    rw [Bool.and_true, Bool.and_eq_true, decide_eq_true_eq, Nat.zero_add, eq_comm (a := 1)]
  obtain ⟨hnone, hno⟩ := Dev.ended_target (b := end_ && true && decide (0 + 1 = span)) hpend hrun
  exact ⟨hnone, hno.trans (if_congr hends rfl rfl)⟩

/-- A transposed wave stands behind those in flight. -/
theorem Dev.mem_waveTrans (d : Dev) (c now entry : Nat) (add : Bool) :
    ∃ w ∈ ((d.waveTrans c now entry add).vol c).waves, w.due = now + 208 ∧ w.arr = 4 ∧ w.add = add ∧ w.entry = entry := by
  unfold Dev.waveTrans
  dsimp only
  rw [Dev.vol_of_cw (Dev.maStat_cw ..), Dev.vol_setVol_same]
  exact ⟨_, List.mem_append_right _ (List.mem_singleton_self _), rfl, rfl, rfl, rfl⟩

/-- A transposed wave in its second cycle. -/
theorem waveIssue_trans {d : Dev} {c now r span entry : Nat} {estep add : Bool} {ts : List (Nat × Nat)} (hr : r % 2 = 1) :
    ∃ w ∈ ((waveIssue c now r span true ts entry estep add false false d).vol c).waves, w.due = now + 208 ∧ w.arr = 4 ∧
      w.add = add ∧ w.entry = if estep then entry + r / 2 else entry := by
  unfold waveIssue
  rw [decide_eq_true hr]
  exact Dev.mem_waveTrans ..

/-! ### The command -/

theorem Dev.runs_opAt (d : Dev) (p : At) : (d.opAt p).runs p.core.val p.cyc = d.runs p.core.val p.cyc := by
  have hcrew : (d.opAt p).crew (p.core.val / 8) = { d.crew (p.core.val / 8) with late := some p.cyc } :=
    d.crew_setCrew_same ..
  unfold Dev.runs
  rw [hcrew]
  rfl

/-- A WAVE without SWAP and errors whose targets take it, on arrays at full activity: it is issued from a core that has the jobs,
weights and broadcasts of the one brought to its cycle. -/
theorem exec_wave {s : State} {p : At} {g : Gate} {r : BitVec 4} {t : Bool} {arrays : BitVec 4} {half : BitVec 2} {entry : BitVec 7}
    {estep accum begin_ end_ : Bool}
    (h : s.dev.executes (.wave p g r t arrays half entry estep accum false begin_ end_ 0 0) = true) :
    let c := p.core.val
    let d := s.dev.brought p
    let k := d.core c
    d.runs c p.cyc = true →
    (∀ x ∈ waveTargets k t arrays.toNat half.toNat, ((d.vol c).arr x.1).level = 8 ∧ (t && x.2.isNone) = false ∧
      k.waveCheck x.1 x.2 t (begin_ && decide (r.toNat = 0)) (decide (half.toNat = 0)) = 0) →
    ∃ u y, exec (.wave p g r t arrays half entry estep accum false begin_ end_ 0 0) s = .next u ∧ y.pathView c = d.pathView c ∧
      (let z := waveIssue c (s.dev.cycleOf p) r.toNat g.span t
        ((waveTargets k t arrays.toNat half.toNat).map (fun x => (x.1, x.2.getD 0))) entry.toNat estep accum begin_ end_ y
      u.dev.core = z.core ∧ u.dev.vol = z.vol) := by
  obtain ⟨body, hbody, hdo⟩ := waveOp_body p.core.val p.cyc r.toNat g.span t arrays.toNat half.toNat entry.toNat estep accum
    begin_ end_
  obtain ⟨u, hu, hcore, hvol, -, -⟩ := exec_bundleOp_of_eq (p := p) (w := { cw := true, lg := true, mem := true }) rfl rfl
    hbody h rfl rfl
  generalize s.dev.brought p = d at *
  intro c d' k hruns hok
  obtain ⟨y, hy, hbodyEq⟩ := hdo (s.dev.cycleOf p) (d.opAt p) ((d.runs_opAt p).trans hruns) hok
  rw [hbodyEq] at hcore hvol
  exact ⟨u, y, hu, (Dev.pathView_of_waveView hy).trans rfl, hcore, hvol⟩

/-- A running job of a legal format pair takes a forward wave. -/
theorem CoreChk.waveCheck_forward {k : CoreChk} {arr h : Nat} {j : Job} (both : Bool) (hrun : (k.tgt (tgtNo arr h)).run = some j)
    (hok : pairOk j.a j.w = true) : k.waveCheck arr (some h) false false both = 0 := by
  unfold CoreChk.waveCheck
  simp [hrun, hok]

/-- A pending job of a whole array of a legal format pair takes a forward wave with BEGIN. -/
theorem CoreChk.waveCheck_begin {k : CoreChk} {arr : Nat} {j : Job} (both : Bool) (hpend : (k.tgt (2 * arr)).pend = some j)
    (hok : pairOk j.a j.w = true) : k.waveCheck arr (some 0) false true both = 0 := by
  unfold CoreChk.waveCheck
  simp [tgtNo, hpend, hok, CoreChk.otherOk]

/-- A running job of a whole array of a legal format pair takes a transposed wave. -/
theorem CoreChk.waveCheck_trans {k : CoreChk} {arr : Nat} {j : Job} (both : Bool) (hrun : (k.tgt (2 * arr)).run = some j)
    (hok : pairTransOk j.a j.w = true) : k.waveCheck arr (some 0) true false both = 0 := by
  unfold CoreChk.waveCheck
  simp [tgtNo, hrun, hok]

section
variable {s : State} {p : At} {g : Gate} {r : BitVec 4} {arrays : BitVec 4} {half : BitVec 2} {entry : BitVec 7}
  {estep accum end_ : Bool}

theorem exec_wave_forward
    (h : s.dev.executes (.wave p g r false arrays half entry estep accum false false false 0 0) = true) :
    let c := p.core.val
    let d := s.dev.brought p
    let k := d.core c
    (∀ i < 4, bitOf arrays.toNat i = true → ((d.vol c).arr i).level = 8) → d.runs c p.cyc = true →
    (∀ x ∈ k.targets arrays.toNat half.toNat, ∃ h j, x.2 = some h ∧ (k.tgt (tgtNo x.1 h)).run = some j ∧
      pairOk j.a j.w = true) →
    ∃ t, exec (.wave p g r false arrays half entry estep accum false false false 0 0) s = .next t ∧
      ∀ x ∈ k.targets arrays.toNat half.toNat, ∀ h j, x.2 = some h → (k.tgt (tgtNo x.1 h)).run = some j →
        ∃ w ∈ (t.dev.vol c).waves, (d.vol c).isWave (s.dev.cycleOf p) x.1 h
          (if estep then entry.toNat + r.toNat else entry.toNat) accum j w := by
  intro c d k hfull hruns hjobs
  obtain ⟨t, y, ht, hpath, -, hvol⟩ := exec_wave h hruns fun x hx => by
    obtain ⟨hlt, hnamed⟩ := CoreChk.mem_targets hx
    obtain ⟨n, j, hn, hrun, hok⟩ := hjobs x hx
    rw [hn]
    exact ⟨hfull x.1 hlt hnamed, rfl, CoreChk.waveCheck_forward _ hrun hok⟩
  refine ⟨t, ht, fun x hx n j hn hrun => ?_⟩
  have hissue := waveIssue_forward (d := y) (c := c) (now := s.dev.cycleOf p) (r := r.toNat) (span := g.span)
    (entry := entry.toNat) (estep := estep) (add := accum)
    (ts := (waveTargets k false arrays.toNat half.toNat).map (fun x => (x.1, x.2.getD 0))) (fun n => (k.tgt n).run.getD {}) ?_
  · obtain ⟨w, hw, hwave⟩ := hissue (x.1, x.2.getD 0) (List.mem_map_of_mem hx)
    rw [hn] at hwave
    simp only [Option.getD_some, hrun] at hwave
    exact ⟨w, by rw [hvol]; exact hw, CoreVol.isWave_congr (Dev.unwaved_of_pathView hpath) hwave⟩
  · intro z hz
    obtain ⟨x, hx, rfl⟩ := List.mem_map.1 hz
    obtain ⟨n, j, hn, hrun, -⟩ := hjobs x hx
    rw [Dev.runKey_of_pathView hpath, hn]
    change (k.tgt (tgtNo x.1 n)).run.map Job.key = some ((k.tgt (tgtNo x.1 n)).run.getD {}).key
    rw [hrun]
    rfl
/-- The mask of one array names that array. -/
theorem toNat_arrayMask (a : Fin 4) : (BitVec.ofNat 4 (2 ^ a.val)).toNat = 2 ^ a.val := by
  revert a
  decide

theorem bitOf_arrayMask (a : Fin 4) : bitOf (2 ^ a.val) a.val = true := by
  revert a
  decide

theorem exec_wave_begin {a : Fin 4} {j : Job}
    (h : s.dev.executes (.wave p g 0 false (BitVec.ofNat 4 (2 ^ a.val)) 0 entry estep accum false true end_ 0 0) = true) :
    let c := p.core.val
    let d := s.dev.brought p
    let k := d.core c
    (∀ i < 4, bitOf (2 ^ a.val) i = true → ((d.vol c).arr i).level = 8) → d.runs c p.cyc = true → k.isSplit a.val = false →
    (k.tgt (2 * a.val)).pend = some j → pairOk j.a j.w = true →
    ∃ t, exec (.wave p g 0 false (BitVec.ofNat 4 (2 ^ a.val)) 0 entry estep accum false true end_ 0 0) s = .next t ∧
      ((t.dev.core c).tgt (2 * a.val)).pend = none ∧
      ((t.dev.core c).tgt (2 * a.val)).run.map (fun x => x.no) = if end_ = true ∧ g.span = 1 then none else some j.no := by
  intro c d k hfull hruns hwhole hpend hok
  have htargets : waveTargets k false (BitVec.ofNat 4 (2 ^ a.val)).toNat (0 : BitVec 2).toNat = [(a.val, some 0)] := by
    rw [toNat_arrayMask]
    exact (k.targets_two_pow a.isLt 0).trans (if_neg (ne_true_of_eq_false hwhole))
  obtain ⟨t, y, ht, hpath, hcore, -⟩ := exec_wave h hruns fun x hx => by
    rw [htargets] at hx
    rw [List.mem_singleton.1 hx]
    exact ⟨hfull a.val a.isLt (bitOf_arrayMask a), rfl, CoreChk.waveCheck_begin _ hpend hok⟩
  change t.dev.core = (waveIssue c (s.dev.cycleOf p) 0 g.span false
    ((waveTargets k false (BitVec.ofNat 4 (2 ^ a.val)).toNat (0 : BitVec 2).toNat).map (fun x => (x.1, x.2.getD 0))) entry.toNat
    estep accum true end_ y).core at hcore
  rw [htargets] at hcore
  refine ⟨t, ht, ?_⟩
  rw [hcore]
  exact waveIssue_begin ((Dev.pend_of_pathView hpath _).trans hpend)

theorem exec_wave_trans (h : s.dev.executes (.wave p g r true 15 0 entry estep accum false false false 0 0) = true) :
    let c := p.core.val
    let d := s.dev.brought p
    let k := d.core c
    (∀ i < 4, ((d.vol c).arr i).level = 8) → d.runs c p.cyc = true → r.toNat % 2 = 1 →
    (∀ a < 4, k.isSplit a = false ∧ ∃ j, (k.tgt (2 * a)).run = some j ∧ pairTransOk j.a j.w = true) →
    ∃ t, exec (.wave p g r true 15 0 entry estep accum false false false 0 0) s = .next t ∧
      ∃ w ∈ (t.dev.vol c).waves, w.due = s.dev.cycleOf p + 208 ∧ w.arr = 4 ∧ w.add = accum ∧
        w.entry = if estep then entry.toNat + r.toNat / 2 else entry.toNat := by
  intro c d k hfull hruns hodd hjobs
  obtain ⟨t, y, ht, -, -, hvol⟩ := exec_wave h hruns fun x hx => by
    obtain ⟨a, ha, rfl⟩ := List.mem_map.1 hx
    obtain ⟨hwhole, j, hrun, hok⟩ := hjobs a (List.mem_range.1 ha)
    rw [if_neg (ne_true_of_eq_false hwhole)]
    exact ⟨hfull a (List.mem_range.1 ha), rfl, CoreChk.waveCheck_trans _ hrun hok⟩
  refine ⟨t, ht, ?_⟩
  rw [hvol]
  exact waveIssue_trans hodd
end

end Sys2Proof.Machine

open Sys2Proof Sys2Proof.Machine

/-- Settles O23: with every target found in its state the operation goes on to its marks and to the waves that it issues. -/
theorem waveInFlight : Obligations.WaveInFlight := by
  intro s p g r arrays half entry estep accum end_ c d now k v e ready
  refine ⟨fun h hfull hruns hjobs => ?_, fun a j h hfull hruns hwhole hpend hok => ?_, fun h hfull hruns hodd hjobs => ?_⟩
  · exact exec_wave_forward h (fun i hi hnamed => hfull i hi ((bitOf_toNat ..).symm.trans hnamed)) hruns hjobs
  · refine exec_wave_begin h (fun i hi hnamed => hfull i hi ?_) hruns hwhole hpend hok
    rw [← bitOf_toNat, toNat_arrayMask]
    exact hnamed
  · refine exec_wave_trans h (fun i hi => hfull i hi ?_) hruns hodd hjobs
    interval_cases i <;> rfl
end
